-- ==== Sys2Proof/Word.lean ====
section
/-! DEFINITION. The plainest types of the model: bytes, keyed tables, identifiers. -/

namespace Sys2Proof

/-- One byte. -/
abbrev Byte := BitVec 8

/-- A byte string, lowest address first (R3: little-endian values). -/
abbrev Bytes := List Byte

/-- A table keyed by number: unlisted keys hold the accessor's default. -/
abbrev KMap (α : Type) := List (Nat × α)

end Sys2Proof
end

