-- ==== Sys2Proof/Syntax.lean ====
section
/-! DEFINITION. The commands of the block: one constructor per row of spec/opcode_table.json. The table gives no
operand fields; operands are the ones the named rules speak of (DESIGN CHOICE, log 1). -/

namespace Sys2Proof

/-- The access path of a dictionary access (R414). -/
inductive Path where
  | bar0 | can | canSafety | smbus | keeper | gardener
  deriving DecidableEq, Repr

/-- A gaffer or a chair (R168: the two kinds of compute unit). -/
inductive CUnit where
  | gaffer (n : Fin 32)
  | chair (c : Fin 16)
  deriving DecidableEq, Repr

/-- Ring targets of R191. -/
inductive Target where
  | unit (u : CUnit)
  | marver (m : Fin 4)
  | pergola | kv | keeper | unbound
  deriving DecidableEq, Repr

/-- Lanes of R190 and R191. -/
inductive LaneKind where
  | array | vector | copy | marver | table | output | kv | keeper
  deriving DecidableEq, Repr

/-- One execution lane: a target and one of its lanes. -/
structure Lane where
  target : Target
  kind   : LaneKind
  deriving DecidableEq, Repr

/-- Ports of a Promenade stop, coded as R374 TYPE 13 SUB: 0 x+, 1 x−, 2 y+, 3 y−, 4 local. -/
inductive Port where
  | xPlus | xMinus | yPlus | yMinus | loc
  deriving DecidableEq, Repr

/-- Traffic classes of R14. -/
inductive Traffic where
  | req | rsp | sys
  deriving DecidableEq, Repr

/-- What a packet asks (R12, R14, R18): a semaphore operation carries the semaphore, whether it sets, and its value (R205). -/
inductive PacketKind where
  | read | write | sem (n : Fin 32) (sets : Bool) (value : Nat) | data | ack | notPresent | message
  deriving DecidableEq, Repr

/-- The blocks behind the service crossbar of the host stop (R11, R19): PCIe stands for host BAR2. -/
inductive Crossbar where
  | pcie | dispatcher | kvManager | keeper | lamplighter | gardener | sundial | bootFlash | debug | powerController
  deriving DecidableEq, Repr

/-- A Promenade packet (R12, R14, R15): source and destination stop, the block behind the host stop that sends it or that it is
for, the device address, the bytes that a read asks for, the priority class, ring and SEQ of the work order that caused it, if
any, 0–256 payload bytes, and the transfers marked as poison (R368). -/
structure Packet where
  src : Fin 48
  dst : Fin 48
  behind : Crossbar
  traffic : Traffic
  kind : PacketKind
  addr : Nat
  len : Nat
  cls : Fin 4
  item : Option (Fin 64 × Nat)
  payload : Bytes
  poisoned : List (Fin 4)
  deriving DecidableEq, Repr

/-- A CAN frame (R93, R96, R422). -/
structure CanFrame where
  ident : Nat
  ide : Bool
  fdf : Bool
  brs : Bool
  remote : Bool
  dlc : Fin 16
  data : Bytes
  deriving DecidableEq, Repr

/-- SRAM arrays that lie outside the device address space, or in it (R358), for a patrol read. -/
inductive SramArray where
  | mapped | keeperMem | keepBank | journal | retry (stop : Fin 48) | lineBuffer (m : Fin 4) | portFifo (port : Fin 17) | translationCache
  deriving DecidableEq, Repr

/-- A safety or fence cause of R183: who sets a fence. -/
inductive FenceBy where
  | host (p : Path) | policy | keeper
  deriving DecidableEq, Repr

/-- The commands. -/
inductive Instr where
  -- dictionary, plots, Promenade (chapters 0, 1, 14)
  | dictWrite (p : Path) (index sub : Nat) (data : Bytes)
  | plotCalibration (plot : Fin 242)
  | promenadePacket (stop : Fin 48) (port : Port) (copies : List Nat) (pkt : Packet) (transfer : Fin 4)
  -- shifts and leases
  | leaseStart (p : Path)
  | driveWorkDrained
  | leaseScrubComplete
  | preemptionTrigger (code : Fin 7)
  | leaseWorkDrained
  | exportEntryDone
  | exportBudgetExpiry
  | driveShiftRelease
  | quarantineLift
  | leaseClose (p : Path)
  | leaseCloseDrained
  | leasePreemptCmd (p : Path) (bySafetyObject : Bool)
  -- Sundial
  | timeMessage
  | tapMessage (tap : Fin 24) (errors : Nat)
  | tapSilence (tap : Fin 24)
  | delayLineRecalibration
  | syncReceived (domainNumber : Fin 256) (port : Fin 4) (seq : Nat) (twoStep : Bool) (origin : Int) (fine : Fin 16)
  | followUpReceived (domainNumber : Fin 256) (port : Fin 4) (seq : Nat) (origin : Int)
  | announceReceived (port : Fin 4) (msg : Bytes)
  | signalingReceived (port : Fin 4)
  | pdelayReqTimer (port : Fin 4)
  | pdelayReqReceived (port : Fin 4) (seq : Nat) (requester : Bytes) (fine : Fin 16)
  | pdelayRespReceived (port : Fin 4) (seq : Nat) (followUp : Bool) (time : Int) (fine : Fin 16)
  | syncReceiptTimeout (dom : Bool)
  | tdSourceWrite (p : Path) (dom : Bool) (v : Nat)
  | timeActiveDomainWrite (p : Path) (v : Nat)
  | timeForceSwitch (p : Path) (v : Nat)
  | slewComplete
  | steppedExpiry
  | alarmFire (a : Fin 8)
  | alarmArm (p : Path) (a : Fin 8) (v : Nat)
  | triggerPulse (t : Fin 4)
  | triggerPulseEnd (t : Fin 4)
  | ppsOutPulse (k : Fin 2)
  | ppsOutPulseEnd (k : Fin 2)
  | ppsInEdge (rising : Bool) (fine : Fin 16)
  | launchRelease (q : Fin 16)
  | lqFlush (p : Path) (q : Fin 16) (v : Nat)
  | sleepCorrWindow
  | timeSave
  | timeReconstruct
  | ownerWrite (p : Path) (index : Nat) (v : Nat)
  -- Lodge
  | csiFrameStart (port : Fin 6) (vc : Fin 16) (headerErrors : Fin 3) (frame : Nat) (fine : Fin 16)
  | csiLine (port : Fin 6) (vc : Fin 16) (dt : Nat) (headerErrors : Fin 3) (crcGood : Bool) (data : Bytes)
  | csiLineStart (port : Fin 6) (vc : Fin 16) (headerErrors : Fin 3) (line : Nat) (fine : Fin 16)
  | csiLineEnd (port : Fin 6) (vc : Fin 16) (headerErrors : Fin 3) (line : Nat)
  | csiFrameEnd (port : Fin 6) (vc : Fin 16) (headerErrors : Fin 3) (frame : Nat) (fine : Fin 16)
  | csiGenericShort (port : Fin 6) (headerErrors : Fin 3)
  | csiFrameTimeout (q : Fin 24)
  | itemVisible (q : Fin 52)
  | ethFrameReceived (port : Fin 4) (fcsGood : Bool) (fine : Fin 16) (frame : Bytes)
  | ethLinkChange (port : Fin 4) (rate : Fin 5)
  | ethFrameSent (port : Fin 4)
  | ethTxFlush (p : Path) (port : Fin 4) (v : Nat)
  | drdyEdge (port : Fin 6) (rising : Bool) (fine : Fin 16)
  | imuReadComplete (port : Fin 6) (data : Bytes)
  | canFrameReceived (f : CanFrame)
  | streamEnable (p : Path) (q : Fin 48) (v : Nat)
  | streamFlush (p : Path) (q : Fin 48) (v : Nat)
  | templateWrite (p : Path) (t : Fin 8) (data : Bytes)
  -- Pergola
  | poseTick
  | poseSourceWrite (p : Path) (v : Nat)
  | pgPosePush
  | pgBin
  | epochClose
  | pgBinComplete
  | pgNeighbours
  | pgBev
  | pgLabels
  | pgSeedWrite (p : Path) (v : Nat)
  -- rings, dispatch, lanes
  | sqTailWrite (r : Fin 64) (v : Nat)
  | cqHeadWrite (c : Fin 64) (v : Nat)
  | itemDispatch (r : Fin 64)
  | laneSelect (l : Lane)
  | preemptionPoint (l : Lane)
  | itemCompletion (r : Fin 64) (seq : Nat)
  | cqCoalesceTimeout (c : Fin 64)
  | msixUnmask (v : Fin 64)
  | nop (r : Fin 64)
  | barrier (r : Fin 64)
  | semSignal (r : Fin 64)
  | semWait (r : Fin 64)
  | semWaitReoffer (r : Fin 64)
  | waitTimeout (r : Fin 64)
  | copy (u : CUnit)
  | fill (u : CUnit)
  | queuePush (l : Lane)
  | queuePop (l : Lane)
  | matmul (u : CUnit)
  | vector (u : CUnit)
  | vectorTimeout (u : CUnit)
  | vEnd (u : CUnit)
  | vLd (u : CUnit)
  | vSt (u : CUnit)
  | vLdb (u : CUnit)
  | vPadd (u : CUnit)
  | vMovi (u : CUnit)
  | vAdd (u : CUnit)
  | vSub (u : CUnit)
  | vMul (u : CUnit)
  | vFma (u : CUnit)
  | vMin (u : CUnit)
  | vMax (u : CUnit)
  | vClt (u : CUnit)
  | vSel (u : CUnit)
  | vCvti (u : CUnit)
  | vCvtf (u : CUnit)
  | vExp (u : CUnit)
  | vRcp (u : CUnit)
  | vRsq (u : CUnit)
  | vRsum (u : CUnit)
  | vRmax (u : CUnit)
  | vLoop (u : CUnit)
  | reduce (u : CUnit)
  | ringFlush (p : Path) (r : Fin 64) (v : Nat)
  | ringFlushDiscard (r : Fin 64)
  | ringEnable (p : Path) (r : Fin 64) (v : Nat)
  | cqEnable (p : Path) (c : Fin 64) (v : Nat)
  | iqFlush (p : Path) (q : Fin 32) (v : Nat)
  | iqEnable (p : Path) (q : Fin 32) (v : Nat)
  -- gaffers and chairs
  | chairFormedWrite (p : Path) (v : Nat)
  | chairChangeComplete (c : Fin 16)
  | gafferLevelWrite (p : Path) (g : Fin 32) (v : Nat)
  | levelChangeComplete (g : Fin 32)
  | srSeedWrite (p : Path) (g : Fin 32) (v : Nat)
  | gafferFenceSet (by_ : FenceBy) (g : Fin 32)
  | fencePowerOff (g : Fin 32)
  | gafferFenceClear (p : Path) (g : Fin 32)
  | startTestComplete (g : Fin 32) (results : List Nat)
  -- Marver
  | mvTransform (m : Fin 4)
  | mvGather (m : Fin 4)
  | mvScatter (m : Fin 4)
  -- attention, KV manager, Arbor
  | kvAppend (u : CUnit)
  | kvOpen
  | kvAlloc
  | kvTruncate
  | kvClose
  | kvRead
  | kvpEnable (p : Path) (pool : Fin 4) (v : Nat)
  | attPrefill (u : CUnit)
  | attDecode (u : CUnit)
  | attMerge (u : CUnit)
  | arbLookup
  | arbInsert
  | unpin
  | reopen
  | kvSwapOut
  | kvSwapIn
  -- Keeper and Lamplighter
  | kpDeclare
  | verdict
  | verdictDeadline
  | epochMissing
  | kpArmedWrite (p : Path) (v : Nat)
  | kpForceSafe (p : Path) (v : Nat)
  | kpSafeClear (p : Path) (v : Nat)
  | rulesWrite (p : Path) (parked : Bool) (data : Bytes)
  | lockstepMismatch
  | keeperClockLoss
  | keeperWatchdog
  | keeperStartComplete (passed : Bool)
  | restartReady
  | heartbeatToggle
  | parkedRuleEval
  | gardenerHeartbeat
  | gardenerWatchdog
  | lamplighterSlot (i : Fin 32) (missed : List Nat)
  | goldenSetComplete (g : Fin 32) (results : List Nat)
  | setMissed (g : Fin 32)
  -- integrity
  | sramPatrolScrub (array : SramArray) (addr : Nat)
  | ddrPatrolScrub (addr : Nat)
  | scMarkedWrite (p : Path) (sc : Fin 8) (v : Nat)
  | ddrRetire (p : Path) (v : Nat)
  | ddrUnretire (p : Path) (v : Nat)
  | errLogReadSeq (p : Path) (v : Nat)
  | errCorrectedHoldoff
  -- host link and DDR5
  | bar2Read (off len : Nat)
  | bar2Write (off : Nat) (data : Bytes) (poisoned : Bool)
  | bar2Resize (sizeBits : Fin 64)
  | xlateEntryWrite (i : Nat) (v : Nat)
  | hostReadFail (r : Fin 64) (seq : Nat) (addr : Nat)
  | linkUp (rate : Fin 6) (width : Nat)
  | linkDown
  | hotReset
  | flr
  | perstAssert
  | ddrRetrain (sc : Fin 8)
  | ddrTrainingComplete (pair : Fin 2) (passed : Bool) (full : Bool)
  | ddrInterleaveWrite (p : Path) (v : Nat)
  -- access paths
  | directMapWrite (off : Nat) (data : Bytes)
  | directMapRead (off size : Nat)
  | channelRead (k : Fin 4) (index sub : Nat)
  | channelWrite (k : Fin 4) (index sub : Nat) (data : Bytes)
  | channelAbort (k : Fin 4)
  | channelComplete (k : Fin 4)
  | canRead (safety : Bool) (frame : CanFrame)
  | canWrite (safety : Bool) (frame : CanFrame)
  | canAbort (safety : Bool) (frame : CanFrame)
  | canTransferTimeout (safety : Bool)
  | smbSelect (code : Fin 256) (pecGood : Bool) (data : Bytes)
  | smbRead (code : Fin 256)
  | smbWrite (pecGood : Bool) (data : Bytes)
  | smbCommit (pecGood : Bool)
  | smbResult
  | smbAbort (pecGood : Bool)
  | smbTimeout
  | ifSelectWrite (p : Path) (data : Bytes)
  | devAttentionClear (p : Path) (v : Nat)
  -- power
  | pdRequest (p : Path) (one : Option (Fin 47)) (data : Bytes)
  | pdTransitionComplete (d : Fin 47)
  | powerCapTick (mW : Nat)
  | powerRaiseTick
  | pwrSleepEnter (p : Path) (data : Bytes)
  | sleepClockHandover
  | wakeDetectorArm
  | smbAddressMatch (byte : Nat)
  | wakePin (pin : Bool) (level : Bool)
  | sleepAlarm (a : Fin 8)
  | wakeTry
  | wakeTryFail (reason : Fin 6)
  | dictionaryReady
  | alwaysOnBrownOut (cause : Fin 5)
  | io18Low
  | io18Restored
  | io33Low (good : Bool)
  | pgSramLoss
  | pgCoreFall (sram : Bool)
  | clk32kLoss
  | powerOn
  | resetAssert
  | resetRelease
  -- boot, trust, lifecycle
  | startWatchdog
  | bootRestart (p : Path) (v : Nat)
  | stageVerify (p : Path)
  | stageProgram (p : Path) (slotB : Bool)
  | stageBoot (p : Path)
  | stageComplete (flashGood : Bool)
  | bootCommitSvn (p : Path) (v : Nat)
  | lcAdvance (p : Path) (v : Nat)
  | lcKeyRevoke (p : Path) (v : Nat)
  | lcKeyHashWrite (p : Path) (what : Fin 6) (data : Bytes)
  | fuseCommandComplete (readBackGood : Bool)
  | dbgToken (p : Path) (data : Bytes)
  | drSeal (p : Path) (v : Nat)
  | drSealComplete
  | drUnseal (p : Path) (v : Nat)
  -- pins and JTAG
  | tpinFuncWrite (p : Path) (t : Fin 4) (v : Nat)
  | obsSelectWrite (p : Path) (m : Fin 2) (v : Nat)
  | bypass (code : Fin 256)
  | idcode
  | samplePreload (data : List Bool)
  | extest
  | clamp
  | highz
  -- further events
  | canErrorFrame (ctrl : Fin 2)
  | canBusOffEntry (ctrl : Fin 2)
  | busOffRecovery (ctrl : Fin 2)
  | deskewCalibration (port : Fin 6)
  | vddqDdrLoss
  | perstRelease
  | regulatorReady
  | pgHigh
  | refclkSysPresent
  | wakeIgnoreExpiry
  | tapReset
  deriving DecidableEq, Repr

end Sys2Proof
end

