-- ==== Sys2Proof/Config.lean ====
section
/-! DEFINITION. What one implementation fixes, and the free values: constants the spec leaves open, with no body. -/

namespace Sys2Proof.Config

/-- A byte whose value the spec leaves undefined (R200, R401, R404): tag of the event, address. -/
opaque freeByte : Nat → Nat → Byte
/-- Fresh free numbers, one per draw of `State.freeIx`, for values the spec does not state. -/
opaque freeNat : Nat → Nat
/-- The approximation functions of R159: an unconstrained candidate for each input bit pattern. -/
opaque approxExp : Nat → Nat
/-- The candidate for the exponential of an exact difference (R161, R267): numerator and scale of the argument. -/
opaque approxExpDiff : Int → Int → Nat
/-- Reciprocal (R159): candidate for an input bit pattern. -/
opaque approxRcp : Nat → Nat
/-- Reciprocal square root (R159): candidate for an input bit pattern. -/
opaque approxRsq : Nat → Nat
/-- A candidate for 2^(-f), f the fraction of age / half-life (R125): age in 0.25 ns, half-life in µs; FP32 bits. -/
opaque ageWeight : Int → Nat → Nat
/-- The next state of a reservoir generator (R124 names a 64-bit generator and no rule for it). -/
opaque reservoirNext : Nat → Nat
/-- The 32-bit draw of a reservoir generator state (R124). -/
opaque reservoirDraw : Nat → Nat
/-- A component of a spherical point (R85): range bits, azimuth and elevation in 2^-64 degrees, component 0, 1 or 2. -/
opaque sphericalPoint : Nat → Int → Int → Nat → Nat
/-- A coordinate of a Cartesian point (R85): raw value, scale; FP32 bits. -/
opaque cartesianPoint : Int → Nat → Nat
/-- A candidate for a word of a pose or a transform (R104, R106, R107, R114), of which the spec fixes the value but not the order
of its FP64 or FP32 operations: which computation, its operands, the word's place. -/
opaque poseWord : Nat → List Nat → Nat → Nat
/-- SECDED syndrome shown in a log entry (R374; the code of R358 is not given): word address and flawed bit. -/
opaque sramSyndrome : Nat → Nat → Nat
/-- The CRC-32C that the Lamplighter's ROM holds for the result of golden item k, 0–10 (R330, whose operands the spec does not give). -/
opaque goldenSignature : Nat → Nat
/-- Servo steering (R40 says the servo steers the rate alone): old rate, offset; new rate in 2^-40 ns per tick. -/
opaque servoRate : Int → Int → Int
/-- The one-way delay of a tap's branch without its repeaters, and their fixed forwarding delays, in 125 ps (R38). -/
opaque branchDelay : Nat → Nat
opaque forwardDelay : Nat → Nat
/-- The highest die temperature in 0.125 °C, by local time (R436 names it and no rule fixes it). -/
opaque dieTemperature : Nat → Int
/-- The occupancy of a port's FIFO after the memory has kept up or fallen behind (R75 gives no rate): a free number per draw. -/
opaque fifoBehind : Nat → Nat
/-- FIFO depth of one plot boundary and traffic class (R9 gives no figure). -/
opaque fifoDepth : Nat → Nat → Nat
/-- ECDSA's fresh random k for report number n (R483). -/
opaque signatureNonce : Nat → Nat
/-- The root of trust's random draws (R475 challenge, R476 secret). -/
opaque trustRandom : Nat → Nat
/-- The digest of the manufacturing key held in ROM (R466): byte k. -/
opaque romDigest : Nat → Byte
/-- Rank and bank order of R400 has no bit positions: the rank of an address inside its subchannel. -/
opaque ddrRank : Nat → Nat
/-- Which way TD_RATE's ppb are rounded (R64 does not say), by the rate word. -/
opaque roundRate : Int → Nat
/-- The highest MR4 reading of the last second in °C, by local time (R405 names it and no rule fixes it). -/
opaque ddrTemperature : Nat → Int

/-- How many nanoseconds an observation bit of an event stays high, which R504 does not state: 16 × KIND + bit. -/
opaque obsStretch : Nat → Nat
/-- The place of a pin's cell in the boundary chain, whose order R505 does not give. -/
opaque boundaryCell : Nat → Nat
/-- The level of an output pin whose level no rule states, while it is driven (R491, R493): the pin, by local time. -/
opaque pinLevel : Nat → Nat → Bool

end Sys2Proof.Config
end

