-- ==== Sys2Proof/Machine/Tables.lean ====
section
/-! DEFINITION. Keyed tables, byte strings and bit fields: the helpers every operation of the model shares. -/

namespace Sys2Proof.Machine

/-- The value under a key, or the default. -/
def kget {α : Type} (m : KMap α) (k : Nat) (d : α) : α :=
  match m with
  | [] => d
  | (k', v) :: t => if k' = k then v else kget t k d

/-- The value under a key, if one is listed. -/
def kfind {α : Type} (m : KMap α) (k : Nat) : Option α :=
  match m with
  | [] => none
  | (k', v) :: t => if k' = k then some v else kfind t k

/-- Sets the value under a key; a table with rising keys keeps them rising. -/
def kset {α : Type} (m : KMap α) (k : Nat) (v : α) : KMap α :=
  match m with
  | [] => [(k, v)]
  | (k', v') :: t =>
    if k' = k then (k, v) :: t
    else if k < k' then (k, v) :: (k', v') :: t
    else (k', v') :: kset t k v

/-- Removes a key. -/
def kdel {α : Type} (m : KMap α) (k : Nat) : KMap α := m.filter (fun e => e.1 != k)

/-- Bits hi..lo of a number (R3). -/
def bits (x hi lo : Nat) : Nat := (x >>> lo) % 2 ^ (hi + 1 - lo)

/-- One bit. -/
def bit (x i : Nat) : Bool := x.testBit i

/-- x with bit i set or cleared. -/
def setBit (x i : Nat) (b : Bool) : Nat := if b then x ||| 2 ^ i else if x.testBit i then x ^^^ 2 ^ i else x

/-- The first n bytes of x, least significant first (R3). -/
def toLe (n x : Nat) : Bytes := (List.range n).map (fun i => BitVec.ofNat 8 (x >>> (8 * i)))

/-- The number a little-endian byte string spells. -/
def ofLe (bs : Bytes) : Nat := bs.foldr (fun b acc => b.toNat + 256 * acc) 0

/-- The two's-complement reading of an n-bit number. -/
def toSigned (n x : Nat) : Int := if x % 2 ^ n < 2 ^ (n - 1) then (x % 2 ^ n : Nat) else ((x % 2 ^ n : Nat) : Int) - 2 ^ n

/-- The n-bit two's complement of an integer. -/
def ofSigned (n : Nat) (x : Int) : Nat := (x % (2 ^ n : Nat)).toNat

/-- Saturating increment of a counter with the given maximum (R5). -/
def satAdd (max x k : Nat) : Nat := if max ≤ x + k then max else x + k

/-- The sublist of n bytes from offset o, short where the string ends. -/
def slice (bs : Bytes) (o n : Nat) : Bytes := (bs.drop o).take n

/-- A byte string cut or zero-filled to n bytes. -/
def padTo (n : Nat) (bs : Bytes) : Bytes := (bs ++ List.replicate (n - bs.length) 0).take n

/-- ⌈a / b⌉. -/
def ceilDiv (a b : Nat) : Nat := (a + b - 1) / b

/-- ⌈a / b⌉ × b. -/
def roundUp (a b : Nat) : Nat := ceilDiv a b * b

/-- Whether [a, a+n) and [b, b+m) intersect. -/
def overlaps (a n b m : Nat) : Bool := decide (a < b + m) && decide (b < a + n) && decide (0 < n) && decide (0 < m)

/-- Whether [a, a+n) lies within [b, b+m). -/
def within (a n b m : Nat) : Bool := decide (b ≤ a) && decide (a + n ≤ b + m)

/-- x rounded by division with ties to even: x / d for d > 0. -/
def roundDivEven (x : Int) (d : Nat) : Int :=
  let q := x / (d : Int)
  let r := x % (d : Int)
  if 2 * r < d then q else if d < 2 * r then q + 1 else if q % 2 = 0 then q else q + 1

/-- A power of two. -/
def isPow2 (n : Nat) : Bool := decide (0 < n) && decide (n &&& (n - 1) = 0)

/-- Removes the element at a place. -/
def removeAt {α : Type} (l : List α) (i : Nat) : List α := l.take i ++ l.drop (i + 1)

/-- Keeps the newest n of a list whose newest element is last. -/
def keepLast {α : Type} (n : Nat) (l : List α) : List α := l.drop (l.length - n)

/-- Inserts into a list whose keys do not fall. -/
def insertBy {α : Type} (f : α → Nat) (x : α) : List α → List α
  | [] => [x]
  | y :: t => if f x < f y then x :: y :: t else y :: insertBy f x t

/-- Sorts by a key, equal keys in their order. -/
def sortBy {α : Type} (f : α → Nat) (l : List α) : List α := l.foldl (fun acc x => insertBy f x acc) []

/-- Replaces the first element that a test accepts. -/
def replaceFirst {α : Type} (p : α → Bool) (g : α → α) : List α → List α
  | [] => []
  | y :: t => if p y then g y :: t else y :: replaceFirst p g t

end Sys2Proof.Machine
end

