-- ==== Sys2Proof/Machine/Number.lean ====
section
/-! DEFINITION. Numbers of chapter 5: exact dyadic values, the formats of R144, rounding (R155–R157), scaled blocks
(R147–R149), the long accumulator (R150), FP32 arithmetic (R158), the approximations (R159–R161), the queries of
R163 and R164 and the generator of R156. -/

namespace Sys2Proof.Machine

/-- A value: NaN, an infinity, or (−1)^neg × m × 2^e, a zero keeping its sign. -/
inductive Num where
  | nan
  | inf (neg : Bool)
  | fin (neg : Bool) (m : Nat) (e : Int)
  deriving DecidableEq, Repr

/-- The formats of R144. -/
inductive Fmt where
  | int8 | int4 | mxint8 | e4m3 | e5m2 | e3m2 | e2m3 | e2m1 | bf16 | fp16 | fp32 | uint8 | uint16 | int32 | e8m0
  deriving DecidableEq, Repr

/-- The format of a code (R144). -/
def fmtOf : Nat → Option Fmt
  | 0x01 => some .int8
  | 0x02 => some .int4
  | 0x03 => some .mxint8
  | 0x04 => some .e4m3
  | 0x05 => some .e5m2
  | 0x06 => some .e3m2
  | 0x07 => some .e2m3
  | 0x08 => some .e2m1
  | 0x10 => some .bf16
  | 0x11 => some .fp16
  | 0x12 => some .fp32
  | 0x20 => some .uint8
  | 0x21 => some .uint16
  | 0x22 => some .int32
  | 0x30 => some .e8m0
  | _ => none

/-- The code of a format (R144). -/
def Fmt.code : Fmt → Nat
  | .int8 => 0x01
  | .int4 => 0x02
  | .mxint8 => 0x03
  | .e4m3 => 0x04
  | .e5m2 => 0x05
  | .e3m2 => 0x06
  | .e2m3 => 0x07
  | .e2m1 => 0x08
  | .bf16 => 0x10
  | .fp16 => 0x11
  | .fp32 => 0x12
  | .uint8 => 0x20
  | .uint16 => 0x21
  | .int32 => 0x22
  | .e8m0 => 0x30

/-- Bits per element. -/
def Fmt.bits : Fmt → Nat
  | .int4 | .e2m1 => 4
  | .e3m2 | .e2m3 => 6
  | .bf16 | .fp16 | .uint16 => 16
  | .fp32 | .int32 => 32
  | _ => 8

/-- Formats of 4 or 6 bits (R145). -/
def Fmt.narrow (f : Fmt) : Bool := decide (f.bits < 8)

/-- MX formats: the elements of a scaled block (R147). -/
def Fmt.mx : Fmt → Bool
  | .mxint8 | .e4m3 | .e5m2 | .e3m2 | .e2m3 | .e2m1 => true
  | _ => false

/-- Array operand codes of R144: 0x01–0x08, BF16 and FP16. -/
def Fmt.operand : Fmt → Bool
  | .fp32 | .uint8 | .uint16 | .int32 | .e8m0 => false
  | _ => true

/-- The 16-bit operand class of R162. -/
def Fmt.wide : Fmt → Bool
  | .bf16 | .fp16 => true
  | _ => false

/-- Exponent bits, mantissa bits and bias of a floating-point format; none for an integer one. -/
def Fmt.float : Fmt → Option (Nat × Nat × Nat)
  | .e4m3 => some (4, 3, 7)
  | .e5m2 => some (5, 2, 15)
  | .e3m2 => some (3, 2, 3)
  | .e2m3 => some (2, 3, 1)
  | .e2m1 => some (2, 1, 1)
  | .bf16 => some (8, 7, 127)
  | .fp16 => some (5, 10, 15)
  | .fp32 => some (8, 23, 127)
  | _ => none

/-- Whether a format has an infinity (R144). -/
def Fmt.hasInf : Fmt → Bool
  | .e5m2 | .bf16 | .fp16 | .fp32 => true
  | _ => false

/-- The largest finite magnitude, as m × 2^e with scale 1 (R144). -/
def Fmt.largest : Fmt → Nat × Int
  | .int8 => (127, 0)
  | .int4 => (7, 0)
  | .mxint8 => (127, -6)
  | .e4m3 => (14, 5)
  | .e5m2 => (7, 13)
  | .e3m2 => (7, 2)
  | .e2m3 => (15, -1)
  | .e2m1 => (3, 1)
  | .bf16 => (255, 120)
  | .fp16 => (2047, 5)
  | .fp32 => (16777215, 104)
  | .uint8 => (255, 0)
  | .uint16 => (65535, 0)
  | .int32 => (2147483647, 0)
  | .e8m0 => (1, 127)

/-- The weight of the last place of the largest finite value. -/
def Fmt.largestUlp (f : Fmt) : Int := f.largest.2

/-- The value a code stands for, scale 1 (R144, R146). -/
def decodeNum (f : Fmt) (x : Nat) : Num :=
  match f.float with
  | some (eb, mb, bias) =>
    let m := x % 2 ^ mb
    let e := (x >>> mb) % 2 ^ eb
    let s := (x >>> (mb + eb)) % 2 = 1
    if f = .e4m3 ∧ e = 15 ∧ m = 7 then .nan
    else if f.hasInf ∧ e = 2 ^ eb - 1 then (if m = 0 then .inf s else .nan)
    else if e = 0 then .fin s m (1 - (bias : Int) - mb)
    else .fin s (m + 2 ^ mb) ((e : Int) - bias - mb)
  | none =>
    match f with
    | .uint8 => .fin false (x % 256) 0
    | .uint16 => .fin false (x % 65536) 0
    | .e8m0 => if x % 256 = 255 then .nan else .fin false 1 ((x % 256 : Nat) - 127)
    | .mxint8 => let v := toSigned 8 x; .fin (decide (v < 0)) v.natAbs (-6)
    | _ => let v := toSigned f.bits x; .fin (decide (v < 0)) v.natAbs 0

/-- m × 2^(e − q) as a whole number and what is lost, as a fraction over 2^sh. -/
def scaleTo (m : Nat) (e q : Int) : Nat × Nat × Nat :=
  if q ≤ e then (m <<< (e - q).toNat, 0, 0)
  else (m >>> (q - e).toNat, m % 2 ^ (q - e).toNat, (q - e).toNat)

/-- Rounds k + rem / 2^sh: none is RNE, some r the stochastic rounding of R156 with draw r. -/
def roundPart (mode : Option Nat) (k rem sh : Nat) : Nat :=
  if rem = 0 then k
  else match mode with
    | none => if 2 ^ sh < 2 * rem then k + 1 else if 2 * rem = 2 ^ sh then k + k % 2 else k
    | some r => if 65536 ≤ (rem * 65536) / 2 ^ sh + r then k + 1 else k

/-- Whether m1 × 2^e1 ≤ m2 × 2^e2. -/
def magLe (m1 : Nat) (e1 : Int) (m2 : Nat) (e2 : Int) : Bool :=
  if e1 ≤ e2 then decide (m1 ≤ m2 <<< (e2 - e1).toNat) else decide (m1 <<< (e1 - e2).toNat ≤ m2)

/-- What a rounding gives: the code, and whether it overflowed in the sense of R157. -/
structure Enc where
  code : Nat
  overflow : Bool
  deriving DecidableEq, Repr

/-- The sign bit of a float format in place. -/
def signBit (neg : Bool) (eb mb : Nat) : Nat := if neg then 2 ^ (eb + mb) else 0

/-- The code of the largest finite value of a sign, or the least value of an integer format (R157). -/
def largestCode (f : Fmt) (neg : Bool) : Nat :=
  match f with
  | .int8 => if neg then 0x80 else 0x7F
  | .int4 => if neg then 0x8 else 0x7
  | .mxint8 => if neg then 0x81 else 0x7F
  | .e4m3 => 0x7E + (if neg then 0x80 else 0)
  | .e5m2 => 0x7B + (if neg then 0x80 else 0)
  | .e3m2 => 0x1F + (if neg then 0x20 else 0)
  | .e2m3 => 0x1F + (if neg then 0x20 else 0)
  | .e2m1 => 0x7 + (if neg then 0x8 else 0)
  | .bf16 => 0x7F7F + (if neg then 0x8000 else 0)
  | .fp16 => 0x7BFF + (if neg then 0x8000 else 0)
  | .fp32 => 0x7F7FFFFF + (if neg then 0x80000000 else 0)
  | .uint8 => if neg then 0 else 0xFF
  | .uint16 => if neg then 0 else 0xFFFF
  | .int32 => if neg then 0x80000000 else 0x7FFFFFFF
  | .e8m0 => 0xFE

/-- An infinity's code, or the largest finite value where the format has none (R157). -/
def infCode (f : Fmt) (neg : Bool) : Nat :=
  match f.float with
  | some (eb, mb, _) => if f.hasInf then (2 ^ eb - 1) <<< mb + signBit neg eb mb else largestCode f neg
  | none => largestCode f neg

/-- The canonical NaN of R157; an integer destination receives 0. -/
def nanCode : Fmt → Nat
  | .fp32 => 0x7FC00000
  | .bf16 => 0x7FC0
  | .fp16 => 0x7E00
  | .e5m2 => 0x7F
  | .e4m3 => 0x7F
  | _ => 0

/-- Whether a finite magnitude overflows a format (R157). -/
def overflows (f : Fmt) (mode : Option Nat) (m : Nat) (e : Int) : Bool :=
  let (lm, le) := f.largest
  match mode with
  | none => magLe (2 * lm + 1) (le - 1) m e
  | some _ => !(magLe m e lm le)

/-- Rounds a value once to a format (R155–R157). -/
def encodeNum (f : Fmt) (mode : Option Nat) (v : Num) : Enc :=
  match v with
  | .nan => ⟨nanCode f, false⟩
  | .inf s => ⟨infCode f s, !f.hasInf⟩
  | .fin s m e =>
    if overflows f mode m e then ⟨infCode f s, true⟩
    else match f.float with
      | some (eb, mb, bias) =>
        if m = 0 then ⟨signBit s eb mb, false⟩
        else
          let q := max ((Nat.log2 m : Int) + e - mb) (1 - (bias : Int) - mb)
          let (k, rem, sh) := scaleTo m e q
          let k' := roundPart mode k rem sh
          let exp := if k' < 2 ^ mb then 0 else (q + mb + bias).toNat
          ⟨signBit s eb mb + (if k' < 2 ^ mb then k' else exp <<< mb + (k' - 2 ^ mb)), false⟩
      | none =>
        let q : Int := if f = .mxint8 then -6 else 0
        let (k, rem, sh) := scaleTo m e q
        let k' := roundPart mode k rem sh
        match f with
        | .uint8 | .uint16 => ⟨if s then 0 else k', false⟩
        | _ => ⟨if s then ofSigned f.bits (-(k' : Int)) else k', false⟩

/-- The least and the greatest value of an integer format. -/
def Fmt.limits (f : Fmt) : Int × Int :=
  match f with
  | .uint8 | .uint16 => (0, 2 ^ f.bits - 1)
  | _ => (-(2 ^ (f.bits - 1) : Int), 2 ^ (f.bits - 1) - 1)

/-- A Marver's write to an integer format (R231): RNE, saturating at the format's limits. -/
def saturate (f : Fmt) (v : Num) : Enc :=
  match v with
  | .nan => ⟨0, false⟩
  | .inf neg => ⟨largestCode f neg, true⟩
  | .fin neg m e =>
    let (k, rem, sh) := scaleTo m e 0
    let k' := roundPart none k rem sh
    let x : Int := if neg then -(k' : Int) else k'
    let c := max f.limits.1 (min f.limits.2 x)
    ⟨ofSigned f.bits c, decide (c ≠ x)⟩

/-- The magnitude of a finite value, zero otherwise. -/
def Num.mag : Num → Nat × Int
  | .fin _ m e => (m, e)
  | _ => (0, 0)

/-- The larger of two magnitudes. -/
def maxMag (a b : Nat × Int) : Nat × Int := if magLe a.1 a.2 b.1 b.2 then b else a

/-- ⌈log2 (m1 2^e1 / (m2 2^e2))⌉ for positive m1, m2. -/
def ceilLog2Ratio (m1 : Nat) (e1 : Int) (m2 : Nat) (e2 : Int) : Int :=
  let x := (Nat.log2 m1 : Int) + e1 - (Nat.log2 m2 : Int) - e2
  if magLe m1 e1 m2 (e2 + x - 1) then x - 1 else if magLe m1 e1 m2 (e2 + x) then x else x + 1

def Num.isNan : Num → Bool
  | .nan => true
  | _ => false

def Num.isInf : Num → Bool
  | .inf _ => true
  | _ => false

/-- v × 2^x. -/
def Num.scale : Num → Int → Num
  | .fin s m e, x => .fin s m (e + x)
  | v, _ => v

/-- The scale that R149 chooses for a block of results: its code, or none for a NaN block. -/
def blockScale (f : Fmt) (vs : List Num) : Option Nat :=
  if vs.any (fun v => v.isNan || (v.isInf && !f.hasInf)) then none
  else
    let a := (vs.map Num.mag).foldl maxMag (0, 0)
    if a.1 = 0 then some 0
    else
      let x := min 127 (max (-127) (ceilLog2Ratio a.1 a.2 f.largest.1 f.largest.2))
      some (x + 127).toNat

/-- One element of a block with its scale code. -/
def blockElem (f : Fmt) (scale : Nat) (mode : Option Nat) (v : Num) : Enc := encodeNum f mode (v.scale (127 - (scale : Int)))

/-- Exact sum of two finite values: the sign of an exact zero is that of RNE. -/
def addFin (s1 : Bool) (m1 : Nat) (e1 : Int) (s2 : Bool) (m2 : Nat) (e2 : Int) : Num :=
  let e := min e1 e2
  let a : Int := (if s1 then -1 else 1) * ((m1 <<< (e1 - e).toNat : Nat) : Int)
  let b : Int := (if s2 then -1 else 1) * ((m2 <<< (e2 - e).toNat : Nat) : Int)
  if a + b = 0 then .fin (s1 && s2) 0 e else .fin (decide (a + b < 0)) (a + b).natAbs e

/-- Exact sum. -/
def Num.add : Num → Num → Num
  | .nan, _ => .nan
  | _, .nan => .nan
  | .inf a, .inf b => if a = b then .inf a else .nan
  | .inf a, _ => .inf a
  | _, .inf b => .inf b
  | .fin s1 m1 e1, .fin s2 m2 e2 => addFin s1 m1 e1 s2 m2 e2

/-- −v. -/
def Num.neg : Num → Num
  | .nan => .nan
  | .inf s => .inf (!s)
  | .fin s m e => .fin (!s) m e

/-- Exact product. -/
def Num.mul : Num → Num → Num
  | .nan, _ => .nan
  | _, .nan => .nan
  | .inf a, .inf b => .inf (a != b)
  | .inf a, .fin s m _ => if m = 0 then .nan else .inf (a != s)
  | .fin s m _, .inf b => if m = 0 then .nan else .inf (s != b)
  | .fin s1 m1 e1, .fin s2 m2 e2 => .fin (s1 != s2) (m1 * m2) (e1 + e2)

/-- a < b for values that are not NaN; −0 and +0 are equal. -/
def Num.lt (a b : Num) : Bool :=
  match a, b with
  | .nan, _ => false
  | _, .nan => false
  | .inf s, .inf t => s && !t
  | .inf s, _ => s
  | _, .inf t => !t
  | .fin s1 m1 e1, .fin s2 m2 e2 =>
    match addFin s1 m1 e1 (!s2) m2 e2 with
    | .fin s m _ => s && decide (m ≠ 0)
    | _ => false

/-- Zero of either sign. -/
def Num.isZero : Num → Bool
  | .fin _ m _ => decide (m = 0)
  | _ => false

/-- The sign of a value. -/
def Num.sign : Num → Bool
  | .nan => false
  | .inf s => s
  | .fin s _ _ => s

/-- An integer as an exact value. -/
def intNum (x : Int) : Num := .fin (decide (x < 0)) x.natAbs 0

/-- v as a number in units of 2^-k. -/
def fixNum (v : Int) (k : Nat) : Num := .fin (decide (v < 0)) v.natAbs (-(k : Int))

/-! ### FP32 arithmetic (R158): operands and results are 32-bit patterns -/

def f32 (x : Nat) : Num := decodeNum .fp32 x
def toF32 (v : Num) : Nat := (encodeNum .fp32 none v).code
def bf16 (x : Nat) : Num := decodeNum .bf16 x
def fadd (a b : Nat) : Nat := toF32 ((f32 a).add (f32 b))
def fsub (a b : Nat) : Nat := toF32 ((f32 a).add (f32 b).neg)
def fmul (a b : Nat) : Nat := toF32 ((f32 a).mul (f32 b))
/-- Fused multiply-add, rounded once. -/
def ffma (a b c : Nat) : Nat := toF32 (((f32 a).mul (f32 b)).add (f32 c))

/-- a = b as numbers: −0 and +0 are equal, a NaN equals nothing. -/
def Num.same (a b : Num) : Bool := !a.isNan && !b.isNan && !a.lt b && !b.lt a

/-- Minimum: the non-NaN operand when exactly one is NaN; −0 below +0. -/
def fmin (a b : Nat) : Nat :=
  match f32 a, f32 b with
  | .nan, .nan => 0x7FC00000
  | .nan, _ => b
  | _, .nan => a
  | x, y => if x.isZero && y.isZero then (if x.sign then a else b) else if y.lt x then b else a

/-- Maximum. -/
def fmax (a b : Nat) : Nat :=
  match f32 a, f32 b with
  | .nan, .nan => 0x7FC00000
  | .nan, _ => b
  | _, .nan => a
  | x, y => if x.isZero && y.isZero then (if x.sign then b else a) else if x.lt y then b else a

/-- Less-than; NaN compares false. -/
def flt (a b : Nat) : Bool := (f32 a).lt (f32 b)

/-- FP32 to INT32: RNE, saturating, NaN to 0. -/
def cvti (a : Nat) : Nat :=
  match f32 a with
  | .nan => 0
  | v => (encodeNum .int32 none v).code

/-- INT32 to FP32 by RNE. -/
def cvtf (a : Nat) : Nat := let v := toSigned 32 a; toF32 (.fin (decide (v < 0)) v.natAbs 0)

/-- BF16 pattern to FP32 pattern, exactly. -/
def widen (x : Nat) : Nat := toF32 (bf16 x)

/-! ### Approximations (R159–R161) -/

/-- Lower and upper bounds of exp(m × 2^e), scaled by 2^128, for m × 2^e below 128. -/
def expBounds (m : Nat) (e : Int) : Nat × Nat :=
  let p : Nat := 128
  let (yl, rem, _) := scaleTo m e (-(p : Int) + 16)
  let yh := if rem = 0 then yl else yl + 1
  let one := 2 ^ p
  let (_, _, lo, hi) := (List.range 20).foldl (fun (tl, th, sl, sh) n =>
    let tl' := tl * yl / (one * (n + 1))
    let th' := th * yh / (one * (n + 1)) + 1
    (tl', th', sl + tl', sh + th')) (one, one, one, one)
  (List.range 16).foldl (fun (l, h) _ => (l * l / one, h * h / one + 1)) (lo, hi + 1)

/-- Lower and upper bounds of exp of a finite value of magnitude below 128, as fractions (numerator, denominator). -/
def expInterval (s : Bool) (m : Nat) (e : Int) : (Nat × Nat) × (Nat × Nat) :=
  let (l, h) := expBounds m e
  if s then ((2 ^ 128, h), (2 ^ 128, l)) else ((l, 2 ^ 128), (h, 2 ^ 128))

/-- The nearest FP32 pattern to a positive fraction n / d. -/
def ratioF32 (s : Bool) (n d : Nat) : Nat :=
  if n = 0 then signBit s 8 23
  else
    let sh := 200 + Nat.log2 d
    let k := (n <<< sh) / d
    let odd := if (n <<< sh) % d = 0 then 2 * k else 2 * k + 1
    toF32 (.fin s odd (-(sh : Int) - 1))

/-- Whether a finite non-negative pattern lies within a relative error 2^−k of a fraction interval, or, for a result
below 2^−126, within 2^−149. -/
def inBound (c k : Nat) (lo hi : Nat × Nat) (absolute : Bool) : Bool :=
  match f32 c with
  | .fin false m e =>
    let (cn, cd) := if 0 ≤ e then (m <<< e.toNat, 1) else (m, 2 ^ (-e).toNat)
    if absolute then
      decide (cn * hi.2 * 2 ^ 149 ≤ (hi.1 * 2 ^ 149 + hi.2) * cd)
      && decide (lo.1 * cd * 2 ^ 149 ≤ (cn * 2 ^ 149 + cd) * lo.2)
    else
      decide (cn * hi.2 * 2 ^ k ≤ hi.1 * cd * (2 ^ k + 1)) && decide (lo.1 * cd * (2 ^ k - 1) ≤ cn * lo.2 * 2 ^ k)
  | _ => false

/-- exp of an exact value with a candidate: the candidate where it keeps R159's bound, else a value that does. -/
def expNum (v : Num) (cand : Nat) : Nat :=
  match v with
  | .nan => 0x7FC00000
  | .inf true => 0
  | .inf false => 0x7F800000
  | .fin s m e =>
    if m = 0 then 0x3F800000
    else if magLe 128 0 m e then (if s then 0 else 0x7F800000)
    else
      let (lo, hi) := expInterval s m e
      if s then
        if lo.1 * 2 ^ 150 ≤ lo.2 then 0
        else
          let tiny := decide (lo.1 * 2 ^ 126 < lo.2)
          if inBound cand 22 lo hi tiny then cand else ratioF32 false lo.1 lo.2
      else if 2 ^ 128 * lo.2 < lo.1 then 0x7F800000
      else if inBound cand 21 lo hi false then cand else ratioF32 false lo.1 lo.2

/-- EXP of an FP32 pattern. -/
def fexp (x : Nat) : Nat := expNum (f32 x) (Config.approxExp x)

/-- The number of zero bits below the lowest one of a positive number. -/
def lowZeros (m : Nat) : Nat := Nat.log2 (m ^^^ (m - 1))

/-- exp of the exact difference of two FP32 patterns (R161, R267): a fixed function of the difference's value, and that of EXP where
the difference is an FP32 value (R159). -/
def fexpDiff (a b : Nat) : Nat :=
  match (f32 a).add (f32 b).neg with
  | .fin s m e =>
    let z := lowZeros m
    let v : Num := if m = 0 then .fin s 0 0 else .fin s (m >>> z) (e + z)
    if (f32 (toF32 v)).same v then fexp (toF32 v)
    else expNum v (Config.approxExpDiff (if s then -((m >>> z : Nat) : Int) else (m >>> z : Nat)) (e + z))
  | v => expNum v 0

/-- RCP (R159, R160). -/
def frcp (x : Nat) : Nat :=
  match f32 x with
  | .nan => 0x7FC00000
  | .inf s => signBit s 8 23
  | .fin s m e =>
    if m = 0 then 0x7F800000 + signBit s 8 23
    else
      let (n, d) := if 0 ≤ e then (1, m <<< e.toNat) else (2 ^ (-e).toNat, m)
      let big := decide (16777215 * 2 ^ 104 * d < n)
      let tiny := decide (n * 2 ^ 126 < d)
      if big then 0x7F800000 + signBit s 8 23
      else
        let c := Config.approxRcp x % 2 ^ 31
        if inBound c 23 (n, d) (n, d) tiny then c + signBit s 8 23 else ratioF32 s n d

/-- The integer square root, by bits. -/
def isqrt (n : Nat) : Nat :=
  (List.range (Nat.log2 n / 2 + 1)).foldr (fun i r => if (r + 2 ^ i) * (r + 2 ^ i) ≤ n then r + 2 ^ i else r) 0

/-- RSQ (R159, R160). -/
def frsq (x : Nat) : Nat :=
  match f32 x with
  | .nan => 0x7FC00000
  | .inf s => if s then 0x7FC00000 else 0
  | .fin s m e =>
    if m = 0 then 0x7F800000 + signBit s 8 23
    else if s then 0x7FC00000
    else
      let c := Config.approxRsq x % 2 ^ 31
      let ok := match f32 c with
        | .fin _ cm ce =>
          -- c² x within (1 ± 2^−22)², both sides scaled by 2^44
          let p := cm * cm * m * 2 ^ 44
          let pe := 2 * ce + e
          magLe p pe ((2 ^ 22 + 1) ^ 2) 0 && magLe ((2 ^ 22 - 1) ^ 2) 0 p pe
        | _ => false
      if ok then c
      else
        let e' := if e % 2 = 0 then e else e - 1
        let m' := if e % 2 = 0 then m else 2 * m
        toF32 (.fin false (isqrt (2 ^ 400 / m')) (-200 - e' / 2))

/-! ### FP64 (R104, R114, R320) -/

/-- A value rounded to FP64 by RNE. -/
def round64 : Num → Num
  | .nan => .nan
  | .inf s => .inf s
  | .fin s m e =>
    if m = 0 then .fin s 0 0
    else
      let top : Int := e + Nat.log2 m
      let q : Int := max (top - 52) (-1074)
      if q ≤ e then (if 1023 < top then .inf s else .fin s m e)
      else
        let sh := (q - e).toNat
        let k := roundPart none (m >>> sh) (m % 2 ^ sh) sh
        if 1023 < q + Nat.log2 k then .inf s else .fin s k q

def add64 (a b : Num) : Num := round64 (a.add b)
def mul64 (a b : Num) : Num := round64 (a.mul b)

/-- |v|. -/
def Num.abs : Num → Num
  | .nan => .nan
  | .inf _ => .inf false
  | .fin _ m e => .fin false m e

/-- (−1)^neg × (n / d) × 2^e rounded once, d positive: a last place that stands for what is left keeps the rounding right. -/
def ratio64 (neg : Bool) (n d : Nat) (e : Int) : Num :=
  let sh := 70 + Nat.log2 d
  let q := (n <<< sh) / d
  let rest := if (n <<< sh) % d = 0 then 0 else 1
  round64 (.fin neg (2 * q + rest) (e - sh - 1))

/-- v / d rounded once. -/
def Num.over64 (v : Num) (d : Nat) : Num :=
  match v with
  | .fin s m e => ratio64 s m d e
  | x => x

/-- A whole number. -/
def Num.ofInt (x : Int) : Num := .fin (decide (x < 0)) x.natAbs 0

/-- The value of an FP64 pattern. -/
def num64 (x : Nat) : Num :=
  let s := bit x 63
  let m := bits x 51 0
  match bits x 62 52 with
  | 0 => .fin s m (-1074)
  | 2047 => if m = 0 then .inf s else .nan
  | e => .fin s (m + 2 ^ 52) ((e : Int) - 1075)

/-- The FP64 pattern of a value, rounded by RNE. -/
def word64 (v : Num) : Nat :=
  match round64 v with
  | .nan => 0x7FF8000000000000
  | .inf s => 0x7FF0000000000000 + signBit s 11 52
  | .fin s m e =>
    let top := e + Nat.log2 m
    signBit s 11 52 + (if m = 0 then 0
      else if top < -1022 then m <<< (e + 1074).toNat
      else (scaleTo m e (top - 52)).1 - 2 ^ 52 + (top + 1023).toNat <<< 52)


/-! ### The long accumulator (R150–R154) -/

/-- An accumulator (R150). -/
structure Acc where
  a : Int := 0
  w : Int := 0
  t : Int := 0
  c : Nat := 0
  empty : Bool := true
  nan : Bool := false
  pinf : Bool := false
  ninf : Bool := false
  inexact : Bool := false
  deriving DecidableEq, Repr

/-- Division toward zero, and whether anything was discarded. -/
def trunc0 (x : Int) (k : Nat) : Int × Bool := (Int.tdiv x (2 ^ k), decide (Int.tmod x (2 ^ k) ≠ 0))

/-- The window moves up by k places. -/
def Acc.move (x : Acc) (k : Nat) : Acc :=
  let low := (x.a % (2 ^ k : Nat)) * 16 + x.t
  let (t, lost) := trunc0 low k
  { x with a := (x.a - x.a % (2 ^ k : Nat)) / (2 ^ k : Nat), w := x.w + k, t := t, inexact := x.inexact || lost }

/-- Takes in one exact product. -/
def Acc.take (x : Acc) (p : Num) : Acc :=
  match p with
  | .nan => { x with c := x.c + 1, nan := true }
  | .inf false => { x with c := x.c + 1, pinf := true }
  | .inf true => { x with c := x.c + 1, ninf := true }
  | .fin s m e =>
    if m = 0 then { x with c := x.c + 1 }
    else
      let l := (Nat.log2 m : Int) + e
      let x1 : Acc := if x.empty then { x with w := l - 78, empty := false } else x
      let x2 := if x1.w < l - 78 then x1.move (l - 78 - x1.w).toNat else x1
      let (k, rem, sh) := scaleTo m e x2.w
      -- what is left below 2^w, in units of 2^(w−4)
      let tail := (rem * 16) / 2 ^ sh
      let lost := decide ((rem * 16) % 2 ^ sh ≠ 0)
      let sg : Int := if s then -1 else 1
      { x2 with c := x.c + 1, a := x2.a + sg * k, t := x2.t + sg * tail, inexact := x2.inexact || lost }

/-! ### Residues modulo 127 (R354, R355) -/

/-- The residue of an integer. -/
def res127 (x : Int) : Nat := (x % 127).toNat

/-- A residue shifted by k bits, either way: 2^7 ≡ 1, so a shift is a rotation. -/
def rotRes (r : Nat) (k : Int) : Nat := r * 2 ^ (k % 7).toNat % 127

/-- The residue of a value's integer significand, sign included. -/
def Num.res : Num → Nat
  | .fin s m _ => res127 (if s then -(m : Int) else m)
  | _ => 0

/-- The observed residue of an accumulator: that of a × 2^4 + t. -/
def Acc.res (x : Acc) : Nat := res127 (16 * x.a + x.t)

/-- The residue predicted for an accumulator after a window move by k: what the truncation discards is subtracted, and the shift rotates. -/
def Acc.moveRes (x : Acc) (r k : Nat) : Nat :=
  let low := (x.a % (2 ^ k : Nat)) * 16 + x.t
  rotRes (res127 (r - Int.tmod low (2 ^ k : Nat))) (-(k : Int))

/-- The residue predicted for an accumulator, r before, after the product p whose own residue, of the operands', is q (R355). -/
def Acc.takeRes (x : Acc) (r q : Nat) (p : Num) : Nat :=
  match p with
  | .fin s m e =>
    if m = 0 then r
    else
      let l := (Nat.log2 m : Int) + e
      let x1 : Acc := if x.empty then { x with w := l - 78, empty := false } else x
      let k := (l - 78 - x1.w).toNat
      let r2 := if x1.w < l - 78 then x1.moveRes r k else r
      let w := if x1.w < l - 78 then x1.w + k else x1.w
      -- what the product discards below 2^(w−4)
      let gone : Nat := if w - 4 ≤ e then 0 else m % 2 ^ (w - 4 - e).toNat
      let part := rotRes (res127 (q - (if s then -(gone : Int) else gone))) (e - (w - 4))
      (r2 + part) % 127
  | _ => r

/-- An accumulator beside the residue predicted for it. -/
structure Watched where
  acc : Acc
  res : Nat

/-- Takes in the product of two operands and predicts the residue from theirs. -/
def Watched.take (x : Watched) (a b : Num) : Watched :=
  let p := Num.mul a b
  ⟨x.acc.take p, x.acc.takeRes x.res (a.res * b.res % 127) p⟩

/-- An accumulator whose a × 2^4 + t a fault has changed by d. -/
def Acc.bent (x : Acc) (d : Int) : Acc := { x with t := x.t + d }

/-- A vector result before rounding, with the residue predicted from its inputs. -/
structure Exact where
  v : Num
  res : Nat
  deriving DecidableEq, Repr

/-- A register's value as an input. -/
def Exact.of (x : Nat) : Exact := ⟨f32 x, (f32 x).res⟩

/-- −x. -/
def Exact.neg (x : Exact) : Exact := ⟨x.v.neg, res127 (-(x.res : Int))⟩

/-- The exact sum: each residue is rotated to the common exponent. -/
def Exact.add (x y : Exact) : Exact :=
  match x.v, y.v with
  | .fin _ _ e1, .fin _ _ e2 =>
    let e := min e1 e2
    ⟨x.v.add y.v, (rotRes x.res (e1 - e) + rotRes y.res (e2 - e)) % 127⟩
  | _, _ => ⟨x.v.add y.v, 0⟩

/-- The exact product. -/
def Exact.mul (x y : Exact) : Exact := ⟨x.v.mul y.v, x.res * y.res % 127⟩

/-- The four covered operations on FP32 patterns (R354). -/
def exactAdd (a b : Nat) : Exact := (Exact.of a).add (Exact.of b)
def exactSub (a b : Nat) : Exact := (Exact.of a).add (Exact.of b).neg
def exactMul (a b : Nat) : Exact := (Exact.of a).mul (Exact.of b)
def exactFma (a b c : Nat) : Exact := ((Exact.of a).mul (Exact.of b)).add (Exact.of c)

/-- What the rounding makes of a result. -/
def Exact.round (x : Exact) : Nat := toF32 x.v

/-- A result that a fault has changed by d before rounding; one that is not finite has no significand to change. -/
def Exact.bent (x : Exact) (d : Int) : Exact :=
  match x.v with
  | .fin s m e =>
    let i := (if s then -(m : Int) else m) + d
    { x with v := .fin (if i = 0 then s else decide (i < 0)) i.natAbs e }
  | _ => x

/-- The check at the end of a vector operation: the observed residue, where it differs from the predicted one (R356). -/
def Exact.mismatch (x : Exact) : Option Nat :=
  match x.v with
  | .fin _ _ _ => if x.v.res = x.res % 127 then none else some x.v.res
  | _ => none

/-- The result before rounding: NaN, an infinity or the exact value v (R150, R157). -/
def Acc.value (x : Acc) : Num :=
  if x.nan || (x.pinf && x.ninf) then .nan
  else if x.pinf then .inf false
  else if x.ninf then .inf true
  else
    let v := 16 * x.a + x.t
    if v = 0 then .fin false 0 0 else .fin (decide (v < 0)) v.natAbs (x.w - 4)

/-- The 32-byte accumulator record (R154). -/
def Acc.record (x : Acc) : Nat :=
  ofSigned 100 x.a + (ofSigned 32 x.t) <<< 128 + (ofSigned 16 x.w) <<< 160 + (x.c % 2 ^ 21) <<< 176
  + (if x.nan then 2 ^ 200 else 0) + (if x.pinf then 2 ^ 201 else 0) + (if x.ninf then 2 ^ 202 else 0)
  + (if x.inexact then 2 ^ 203 else 0) + (if x.empty then 2 ^ 204 else 0)

/-- A loaded record; none where EMPTY stands beside a non-zero a or t (R154). -/
def Acc.ofRecord (r : Nat) : Option Acc :=
  let x : Acc := { a := toSigned 100 (bits r 99 0), t := toSigned 32 (bits r 159 128), w := toSigned 16 (bits r 175 160),
                   c := bits r 196 176, nan := bit r 200, pinf := bit r 201, ninf := bit r 202, inexact := bit r 203,
                   empty := bit r 204 }
  if x.empty && (decide (x.a ≠ 0) || decide (x.t ≠ 0)) then none else some x

/-- The next state of the stochastic-rounding generator, and its draw (R156). -/
def srNext (s : Nat) : Nat := (s * 0x5851F42D4C957F2D + 0x9E3779B97F4A7C15) % 2 ^ 64
def srDraw (s : Nat) : Nat := srNext s >>> 48

/-- The limbs of a two-limb query as exact values; a query that is not finite goes whole in the hi pass (R163). -/
def limbs (f : Fmt) (q : Nat) : Num × Num :=
  match decodeNum f q with
  | .fin s m e =>
    let k := if f = .bf16 then 1 else 4
    (.fin s (m >>> k) (e + k), .fin s (m % 2 ^ k) e)
  | v => (v, .fin false 0 0)

/-- The value of a scaled element: NaN under a scale of 0xFF (R148). -/
def scaledElem (f : Fmt) (x : Nat) (scale : Nat) : Num :=
  if scale = 0xFF then .nan else (decodeNum f x).scale ((scale : Int) - 127)

/-- One block of 32 single-limb query elements, rounded to MXFP8_E4M3 by RNE (R164): their exact values afterwards. -/
def singleLimb (vs : List Num) : List Num :=
  match blockScale .e4m3 vs with
  | none => vs.map (fun _ => .nan)
  | some sc => vs.map (fun v => scaledElem .e4m3 (blockElem .e4m3 sc none v).code sc)

end Sys2Proof.Machine
end

