-- ==== Sys2Proof/Machine/Motion.lean ====
section
/-! DEFINITION. The mathematics of the pose track and of the slice transforms (R104, R106, R107, R114): rigid motions in fixed
point of 2^-128, and the words that keep their values within the error of the arithmetic (log 28). -/

namespace Sys2Proof.Machine

/-! ### Candidates -/

/-- An FP64 candidate within δ of a value, rounded; else the value rounded. -/
def near64 (cand : Nat) (t δ : Num) : Nat :=
  let c := cand % 2 ^ 64
  let v := num64 c
  if v.isNan || v.lt (num64 (word64 (t.add δ.neg))) || (num64 (word64 (t.add δ))).lt v then word64 t else c

/-- An FP32 candidate within δ of a value, rounded; else the value rounded. -/
def near32 (cand : Nat) (t δ : Num) : Nat :=
  let c := cand % 2 ^ 32
  let v := f32 c
  if v.isNan || v.lt (f32 (toF32 (t.add δ.neg))) || (f32 (toF32 (t.add δ))).lt v then toF32 t else c

/-! ### Fixed point of 2^-128 -/

/-- A finite value in 2^-128. -/
def fixOf : Num → Option Int
  | .fin s m e => let (k, _, _) := scaleTo m e (-128); some (if s then -(k : Int) else k)
  | _ => none

def mulFix (a b : Int) : Int := a * b / 2 ^ 128
def divFix (a b : Int) : Int := a * 2 ^ 128 / b
def sqrtFix (a : Int) : Int := isqrt (a.toNat * 2 ^ 128)
/-- A fixed-point value as a number. -/
def ofFix (a : Int) : Num := fixNum a 128

/-- π in units of 2^-192. -/
def pi192 : Int := 19720096697726538562396133364228268891463450865190089732560

/-- Cosine and sine of an angle in radians, by their series after a whole number of turns. -/
def cosSin (a : Int) : Int × Int :=
  let r := (a * 2 ^ 64) % (2 * pi192)
  let r := if pi192 < r then r - 2 * pi192 else r
  let x := r / 2 ^ 64
  let x2 := mulFix x x
  let (c, s, _, _) := (List.range 45).foldl (fun ((c, s, tc, ts) : Int × Int × Int × Int) n =>
    (c + tc, s + ts, -mulFix tc x2 / ((2 * n + 1) * (2 * n + 2)), -mulFix ts x2 / ((2 * n + 2) * (2 * n + 3)))) (0, 0, 2 ^ 128, x)
  (c, s)

/-- The angle in [0, π/2] of a point (c, s) of the unit circle: eight halvings, then the series of the arc tangent. -/
def angleOf (c s : Int) : Int :=
  let (c, s) := (List.range 8).foldl (fun ((c, s) : Int × Int) _ =>
    let c' := sqrtFix ((2 ^ 128 + c) / 2)
    (c', if c' = 0 then 0 else divFix s (2 * c'))) (c, s)
  let t := if c = 0 then 0 else divFix s c
  let t2 := mulFix t t
  256 * ((List.range 14).foldl (fun ((sum, p) : Int × Int) n =>
    (sum + (if n % 2 = 0 then p else -p) / (2 * n + 1), mulFix p t2)) (0, t)).1

/-! ### Vectors, quaternions, poses -/

/-- A vector. -/
structure Vec3 where
  x : Int
  y : Int
  z : Int
  deriving DecidableEq, Repr

/-- A quaternion. -/
structure Quat where
  w : Int
  x : Int
  y : Int
  z : Int
  deriving DecidableEq, Repr

/-- A rigid motion: position, and orientation as a unit quaternion. -/
structure Motion where
  p : Vec3
  q : Quat
  deriving DecidableEq, Repr

def Vec3.map (v : Vec3) (f : Int → Int) : Vec3 := ⟨f v.x, f v.y, f v.z⟩
def Vec3.add (a b : Vec3) : Vec3 := ⟨a.x + b.x, a.y + b.y, a.z + b.z⟩
def Vec3.sub (a b : Vec3) : Vec3 := ⟨a.x - b.x, a.y - b.y, a.z - b.z⟩
def Vec3.list (v : Vec3) : List Int := [v.x, v.y, v.z]
/-- |x| + |y| + |z|. -/
def Vec3.size (v : Vec3) : Nat := v.x.natAbs + v.y.natAbs + v.z.natAbs
def Vec3.length (v : Vec3) : Int := isqrt (v.x * v.x + v.y * v.y + v.z * v.z).toNat

def Quat.one : Quat := ⟨2 ^ 128, 0, 0, 0⟩
def Quat.conj (a : Quat) : Quat := ⟨a.w, -a.x, -a.y, -a.z⟩
def Quat.mul (a b : Quat) : Quat :=
  ⟨mulFix a.w b.w - mulFix a.x b.x - mulFix a.y b.y - mulFix a.z b.z,
   mulFix a.w b.x + mulFix a.x b.w + mulFix a.y b.z - mulFix a.z b.y,
   mulFix a.w b.y - mulFix a.x b.z + mulFix a.y b.w + mulFix a.z b.x,
   mulFix a.w b.z + mulFix a.x b.y - mulFix a.y b.x + mulFix a.z b.w⟩

/-- q / |q|, none where |q| is 0. -/
def Quat.unit (a : Quat) : Option Quat :=
  let n := isqrt (a.w * a.w + a.x * a.x + a.y * a.y + a.z * a.z).toNat
  if n = 0 then none else some ⟨divFix a.w n, divFix a.x n, divFix a.y n, divFix a.z n⟩

/-- A vector turned by a unit quaternion. -/
def Quat.turn (q : Quat) (v : Vec3) : Vec3 :=
  let r := (q.mul ⟨0, v.x, v.y, v.z⟩).mul q.conj
  ⟨r.x, r.y, r.z⟩

/-- The rotation by a rotation vector, given by its half. -/
def Quat.exp (half : Vec3) : Quat :=
  let n := half.length
  let (c, s) := cosSin n
  if n = 0 then ⟨2 ^ 128, half.x, half.y, half.z⟩
  else ⟨c, mulFix s (divFix half.x n), mulFix s (divFix half.y n), mulFix s (divFix half.z n)⟩

/-- Half the rotation vector, of at most half a turn, of a unit quaternion. -/
def Quat.log (q : Quat) : Vec3 :=
  let q := if q.w < 0 then ⟨-q.w, -q.x, -q.y, -q.z⟩ else q
  let v : Vec3 := ⟨q.x, q.y, q.z⟩
  let n := v.length
  if n = 0 then v else v.map (fun a => mulFix (angleOf q.w n) (divFix a n))

/-- A third list's worth of fixed-point values, if all are finite. -/
def fixAll (vs : List Num) : Option (List Int) := vs.mapM fixOf

/-- The motion of a pose sample's seven words: three FP64 and four FP32 patterns; none where it is no rigid motion. -/
def motionOf (words : List Nat) : Option Motion :=
  match fixAll ((words.take 3).map num64 ++ (words.drop 3).map f32) with
  | some [px, py, pz, w, x, y, z] => (Quat.unit ⟨w, x, y, z⟩).map (fun q => ⟨⟨px, py, pz⟩, q⟩)
  | _ => none

/-- R106: position linearly and orientation spherically at num / den of the way from a to b, beyond b at the same velocities. -/
def Motion.blend (a b : Motion) (num den : Int) : Motion :=
  let part (v : Vec3) : Vec3 := v.map (fun c => c * num / den)
  ⟨a.p.add (part (b.p.sub a.p)), a.q.mul (Quat.exp (part (a.q.conj.mul b.q).log))⟩

/-- The error that R104's and R114's FP64 arithmetic may leave in a value of some size (log 28). -/
def slack64 (size : Nat) : Num := .fin false (size + 1) (-128 - 44)

/-- R107: a pushed quaternion normalised to FP32 words. -/
def unitWords (q : List Nat) : List Nat :=
  let cand := Config.poseWord 0 q
  match fixAll (q.map f32) with
  | some [w, x, y, z] =>
    (match Quat.unit ⟨w, x, y, z⟩ with
     | some u => [u.w, u.x, u.y, u.z].zipIdx.map (fun (v, k) => near32 (cand k) (ofFix v) (.fin false 1 (-21)))
     | none => (List.range 4).map (fun k => cand k % 2 ^ 32))
  | _ => (List.range 4).map (fun k => cand k % 2 ^ 32)

/-- R104: the mean of some gyro values (FP32 words, three an item) less the bias, turned by the mount (row-major): FP64 words. -/
def meanRate (items : List (List Nat)) (mount bias : List Nat) : List Nat :=
  let term (i : Nat) (it : List Nat) (j : Nat) : Num :=
    (f32 (mount.getD (3 * i + j) 0)).mul ((f32 (it.getD j 0)).add (f32 (bias.getD j 0)).neg)
  (List.range 3).map (fun i =>
    let terms := items.flatMap (fun it => (List.range 3).map (term i it))
    let cand := Config.poseWord 1 (items.flatten ++ mount ++ bias) i
    let size : Num := terms.foldl (fun (v t : Num) => v.add t.abs) (.fin false 0 0)
    near64 cand ((terms.foldl Num.add (.fin false 0 0)).over64 items.length) (size.scale (-48)))

/-- What one tick makes of a pose: three position words and four orientation words, all FP64. -/
def tickWords (pos orient omega : List Nat) (speed : Nat) : List Nat :=
  let cand := Config.poseWord 2 (pos ++ orient ++ omega ++ [speed])
  match fixAll ((pos ++ orient ++ omega ++ [speed]).map num64) with
  | some [px, py, pz, w, x, y, z, ox, oy, oz, v] =>
    (match Quat.unit ⟨w, x, y, z⟩ with
     | none => (List.range 7).map (fun k => cand k % 2 ^ 64)
     | some q =>
       -- half of ω × 500 µs
       let half : Vec3 := ⟨ox / 4000, oy / 4000, oz / 4000⟩
       let q' := q.mul (Quat.exp half)
       let mid := q.mul (Quat.exp (half.map (· / 2)))
       let p := (Vec3.mk px py pz).add (mid.turn ⟨v / 2000, 0, 0⟩)
       let size := (Vec3.mk px py pz).size + v.natAbs
       p.list.zipIdx.map (fun (a, k) => near64 (cand k) (ofFix a) (slack64 size))
       ++ [q'.w, q'.x, q'.y, q'.z].zipIdx.map (fun (a, k) => near64 (cand (3 + k)) (ofFix a) (slack64 (2 ^ 128))))
  | _ => (List.range 7).map (fun k => cand k % 2 ^ 64)

/-- R114: inverse(at te) × (at tm) × extrinsic, row-major 3 × 4, in FP32 words; `key` names what the poses came from. -/
def transformWords (te tm : Option Motion) (extrinsic key : List Nat) : List Nat :=
  let cand := Config.poseWord 3 (key ++ extrinsic)
  match te, tm, fixAll (extrinsic.map f32) with
  | some a, some b, some e =>
    let inv := a.q.conj
    let r := inv.mul b.q
    let d := (inv.turn (b.p.sub a.p)).list
    let column (j : Nat) : Vec3 := ⟨e.getD j 0, e.getD (4 + j) 0, e.getD (8 + j) 0⟩
    (List.range 12).map (fun k =>
      let j := k % 4
      let t := (r.turn (column j)).list.getD (k / 4) 0 + (if j = 3 then d.getD (k / 4) 0 else 0)
      near32 (cand k) (ofFix t) (slack64 ((column j).size + (if j = 3 then a.p.size + b.p.size else 0))))
  | _, _, _ => (List.range 12).map (fun k => cand k % 2 ^ 32)

end Sys2Proof.Machine
end

