-- ==== Sys2Proof/Machine/Regs.lean ====
section
/-! DEFINITION. The object dictionary's table (R64–R66, R99–R101, R142, R143, R166, R187, R220, R221, R244, R277, R303,
R352, R353, R379, R380, R405, R406, R435–R437, R462, R463, R484–R486, R508): each object's place, type, access, range
and default, written out from the tables of spec/; and one name per scalar object, with its default. -/

namespace Sys2Proof.Machine

/-- The types of R409. -/
inductive Ty where
  | bool | u8 | u16 | u32 | u64 | i8 | i16 | i32 | i64 | enum8 | fp32 | t128 | domain
  deriving DecidableEq, Repr

/-- The base access codes of R6. -/
inductive Access where
  | ro | rw | wo | w1c | so
  deriving DecidableEq, Repr

/-- One row of an object table: `count` consecutive indices share it. `ok` lists the values (for a DOMAIN the
lengths) in range, none for all; `mult` is the unit a value must be a multiple of; `mask` the bits that are not
reserved, 0 for all; the default of row k is `dflt + k * step`. -/
structure Obj where
  index : Nat
  sub : Nat
  count : Nat
  ty : Ty
  access : Access
  leaseLocked : Bool
  ok : List (Int × Int)
  mult : Nat
  mask : Nat
  dflt : Int
  step : Int
  deriving DecidableEq, Repr

/-- A scalar object as a register: its key (index × 256 + sub-index) and its default. -/
structure Reg where
  key : Nat
  dflt : Nat
  deriving DecidableEq, Repr

/-- Rows of the object tables, part 0. -/
def objects0 : List Obj := [
  ⟨0x2200, 0x01, 1, .t128, .ro, false, [], 1, 0, 0, 0⟩ /- TIME_NOW -/,
  ⟨0x2200, 0x02, 1, .enum8, .rw, true, [(0, 1)], 1, 0, 0, 0⟩ /- TIME_ACTIVE_DOMAIN -/,
  ⟨0x2200, 0x03, 1, .bool, .so, false, [(0, 1)], 1, 0, 1, 0⟩ /- TIME_SWITCH_AUTO -/,
  ⟨0x2200, 0x04, 1, .u32, .so, false, [(10, 100000)], 1, 0, 1000, 0⟩ /- TIME_SWITCH_LIMIT -/,
  ⟨0x2200, 0x05, 1, .u16, .so, false, [(1, 100)], 1, 0, 10, 0⟩ /- TIME_SLEW_RATE -/,
  ⟨0x2200, 0x06, 1, .enum8, .so, false, [(0, 1)], 1, 0, 0, 0⟩ /- TIME_FORCE_SWITCH -/,
  ⟨0x2200, 0x07, 1, .u32, .rw, true, [(100, 1000000000)], 1, 0, 50000, 0⟩ /- TIME_STEP_LIMIT -/,
  ⟨0x2200, 0x08, 1, .i64, .ro, false, [], 1, 0, 0, 0⟩ /- TIME_LAST_STEP -/,
  ⟨0x2200, 0x09, 1, .u16, .rw, true, [(1, 1000)], 1, 0, 2, 0⟩ /- TIME_HOLDOVER_RATE -/,
  ⟨0x2200, 0x0A, 1, .u32, .rw, false, [(0, 0)], 1, 0, 0, 0⟩ /- TIME_SWITCH_REFUSALS -/,
  ⟨0x2200, 0x0B, 1, .u32, .rw, false, [(0, 0)], 1, 0, 0, 0⟩ /- TIME_TAP_ERRORS -/,
  ⟨0x2201, 0x01, 2, .enum8, .rw, true, [(0, 2)], 1, 0, 0, 0⟩ /- TD_SOURCE -/,
  ⟨0x2201, 0x02, 2, .u8, .rw, true, [(0, 127)], 1, 0, 0, 1⟩ /- TD_GPTP_DOMAIN -/,
  ⟨0x2201, 0x03, 2, .u8, .rw, true, [(0, 3)], 1, 0, 0, 1⟩ /- TD_SLAVE_PORT -/,
  ⟨0x2201, 0x04, 2, .enum8, .ro, false, [(0, 4)], 1, 0, 0, 0⟩ /- TD_STATE -/,
  ⟨0x2201, 0x05, 2, .i64, .ro, false, [], 1, 0, 0, 0⟩ /- TD_OFFSET -/,
  ⟨0x2201, 0x06, 2, .i32, .ro, false, [], 1, 0, 0, 0⟩ /- TD_RATE -/,
  ⟨0x2201, 0x07, 2, .u64, .ro, false, [], 1, 0, 18446744073709551615, 0⟩ /- TD_UNCERTAINTY -/,
  ⟨0x2201, 0x08, 2, .t128, .ro, false, [], 1, 0, 0, 0⟩ /- TD_NOW -/,
  ⟨0x2201, 0x09, 2, .i8, .rw, true, [(-5, 0)], 1, 0, 253, 0⟩ /- TD_LOG_SYNC_INTERVAL -/,
  ⟨0x2201, 0x0A, 2, .u8, .rw, true, [(2, 16)], 1, 0, 3, 0⟩ /- TD_SYNC_TIMEOUT -/,
  ⟨0x2201, 0x0B, 2, .i8, .rw, true, [(-3, 3)], 1, 0, 0, 0⟩ /- TD_LOG_PDELAY_INTERVAL -/,
  ⟨0x2201, 0x0C, 2, .u32, .rw, false, [(0, 0)], 1, 0, 0, 0⟩ /- TD_SYNC_TIMEOUTS -/,
  ⟨0x2201, 0x0D, 2, .u32, .rw, false, [(0, 0)], 1, 0, 0, 0⟩ /- TD_LOCK_LOSSES -/,
  ⟨0x2203, 0x01, 1, .u16, .rw, true, [], 1, 0, 0, 0⟩ /- ETH_RX_LAT -/,
  ⟨0x2203, 0x02, 1, .u16, .rw, true, [], 1, 0, 0, 0⟩ /- ETH_RX_LAT -/,
  ⟨0x2203, 0x03, 1, .u16, .rw, true, [], 1, 0, 0, 0⟩ /- ETH_RX_LAT -/,
  ⟨0x2203, 0x04, 1, .u16, .rw, true, [], 1, 0, 0, 0⟩ /- ETH_RX_LAT -/,
  ⟨0x2203, 0x05, 1, .u16, .rw, true, [], 1, 0, 0, 0⟩ /- ETH_TX_LAT -/,
  ⟨0x2203, 0x06, 1, .u16, .rw, true, [], 1, 0, 0, 0⟩ /- ETH_TX_LAT -/,
  ⟨0x2203, 0x07, 1, .u16, .rw, true, [], 1, 0, 0, 0⟩ /- ETH_TX_LAT -/,
  ⟨0x2203, 0x08, 1, .u16, .rw, true, [], 1, 0, 0, 0⟩ /- ETH_TX_LAT -/,
  ⟨0x2203, 0x09, 1, .u16, .rw, true, [], 1, 0, 0, 0⟩ /- CSI_LAT -/,
  ⟨0x2203, 0x0A, 1, .u16, .rw, true, [], 1, 0, 0, 0⟩ /- CSI_LAT -/,
  ⟨0x2203, 0x0B, 1, .u16, .rw, true, [], 1, 0, 0, 0⟩ /- CSI_LAT -/,
  ⟨0x2203, 0x0C, 1, .u16, .rw, true, [], 1, 0, 0, 0⟩ /- CSI_LAT -/,
  ⟨0x2203, 0x0D, 1, .u16, .rw, true, [], 1, 0, 0, 0⟩ /- CSI_LAT -/,
  ⟨0x2203, 0x0E, 1, .u16, .rw, true, [], 1, 0, 0, 0⟩ /- CSI_LAT -/,
  ⟨0x2203, 0x0F, 1, .u16, .rw, true, [], 1, 0, 0, 0⟩ /- SPI_DRDY_LAT -/,
  ⟨0x2203, 0x10, 1, .u16, .rw, true, [], 1, 0, 0, 0⟩ /- SPI_DRDY_LAT -/]

/-- Rows of the object tables, part 1. -/
def objects1 : List Obj := [
  ⟨0x2203, 0x11, 1, .u16, .rw, true, [], 1, 0, 0, 0⟩ /- SPI_DRDY_LAT -/,
  ⟨0x2203, 0x12, 1, .u16, .rw, true, [], 1, 0, 0, 0⟩ /- SPI_DRDY_LAT -/,
  ⟨0x2203, 0x13, 1, .u16, .rw, true, [], 1, 0, 0, 0⟩ /- SPI_DRDY_LAT -/,
  ⟨0x2203, 0x14, 1, .u16, .rw, true, [], 1, 0, 0, 0⟩ /- SPI_DRDY_LAT -/,
  ⟨0x2203, 0x15, 1, .u16, .rw, true, [], 1, 0, 0, 0⟩ /- CAN_SOF_LAT -/,
  ⟨0x2204, 0x01, 1, .enum8, .ro, false, [(0, 1)], 1, 0, 0, 0⟩ /- SLEEP_CLOCK_SRC -/,
  ⟨0x2204, 0x02, 1, .i32, .ro, false, [], 1, 0, 0, 0⟩ /- SLEEP_CORR -/,
  ⟨0x2204, 0x03, 1, .bool, .ro, false, [(0, 1)], 1, 0, 0, 0⟩ /- SLEEP_CORR_VALID -/,
  ⟨0x2204, 0x04, 1, .u16, .rw, true, [(1, 2000)], 1, 0, 50, 0⟩ /- SLEEP_UNC_RATE -/,
  ⟨0x2204, 0x05, 1, .t128, .ro, false, [], 1, 0, 0, 0⟩ /- SLEEP_ENTRY_TIME -/,
  ⟨0x2204, 0x06, 1, .u64, .ro, false, [], 1, 0, 0, 0⟩ /- SLEEP_ENTRY_COUNT -/,
  ⟨0x2204, 0x07, 1, .u64, .ro, false, [], 1, 0, 0, 0⟩ /- SLEEP_WAKE_COUNT -/,
  ⟨0x2204, 0x08, 1, .u64, .ro, false, [], 1, 0, 0, 0⟩ /- SLEEP_COUNT_NOW -/,
  ⟨0x2204, 0x09, 1, .i64, .ro, false, [], 1, 0, 0, 0⟩ /- RELOCK_STEP -/,
  ⟨0x2204, 0x0A, 1, .u32, .rw, false, [(0, 0)], 1, 0, 0, 0⟩ /- COAST_VIOLATIONS -/,
  ⟨0x2210, 0x01, 8, .u8, .rw, false, [], 1, 0, 0, 0⟩ /- ALARM_OWNER -/,
  ⟨0x2210, 0x02, 8, .t128, .rw, false, [], 1, 1298074214633706907132624082305023, 0, 0⟩ /- ALARM_TARGET -/,
  ⟨0x2210, 0x03, 8, .u64, .rw, false, [(0, 0), (1000, 86400000000000)], 1, 0, 0, 0⟩ /- ALARM_PERIOD -/,
  ⟨0x2210, 0x04, 8, .u8, .rw, false, [], 1, 3, 0, 0⟩ /- ALARM_ACTION -/,
  ⟨0x2210, 0x05, 8, .u8, .rw, false, [(0, 63)], 1, 0, 0, 0⟩ /- ALARM_VECTOR -/,
  ⟨0x2210, 0x06, 8, .bool, .rw, false, [(0, 1)], 1, 0, 0, 0⟩ /- ALARM_ARM -/,
  ⟨0x2210, 0x07, 8, .u32, .rw, false, [(0, 0)], 1, 0, 0, 0⟩ /- ALARM_FIRED -/,
  ⟨0x2210, 0x08, 8, .u32, .rw, false, [(0, 0)], 1, 0, 0, 0⟩ /- ALARM_LATE -/,
  ⟨0x2218, 0x01, 4, .u8, .rw, false, [], 1, 0, 0, 0⟩ /- TRIG_OWNER -/,
  ⟨0x2218, 0x02, 4, .t128, .rw, false, [], 1, 19807040628566084398385987583, 0, 0⟩ /- TRIG_START -/,
  ⟨0x2218, 0x03, 4, .u64, .rw, false, [(1000, 10000000000)], 1, 0, 33333333, 0⟩ /- TRIG_PERIOD -/,
  ⟨0x2218, 0x04, 4, .u32, .rw, false, [(8, 4294967295)], 1, 0, 1000, 0⟩ /- TRIG_WIDTH -/,
  ⟨0x2218, 0x05, 4, .u32, .rw, false, [], 1, 0, 0, 0⟩ /- TRIG_COUNT -/,
  ⟨0x2218, 0x06, 4, .enum8, .rw, false, [(0, 1)], 1, 0, 0, 0⟩ /- TRIG_POLARITY -/,
  ⟨0x2218, 0x07, 4, .bool, .rw, false, [(0, 1)], 1, 0, 0, 0⟩ /- TRIG_ENABLE -/,
  ⟨0x2218, 0x08, 4, .u32, .rw, false, [(0, 0)], 1, 0, 0, 0⟩ /- TRIG_PULSES -/,
  ⟨0x221C, 0x01, 2, .u8, .rw, false, [], 1, 0, 0, 0⟩ /- PPS_OUT_OWNER -/,
  ⟨0x221C, 0x02, 2, .u32, .rw, false, [(100, 500000)], 1, 0, 10000, 0⟩ /- PPS_OUT_WIDTH -/,
  ⟨0x221C, 0x03, 2, .enum8, .rw, false, [(0, 1)], 1, 0, 1, 0⟩ /- PPS_OUT_GATING -/,
  ⟨0x221C, 0x04, 2, .bool, .rw, false, [(0, 1)], 1, 0, 0, 0⟩ /- PPS_OUT_ENABLE -/,
  ⟨0x221E, 0x01, 1, .u8, .rw, false, [], 1, 0, 0, 0⟩ /- PPS_IN_OWNER -/,
  ⟨0x221E, 0x02, 1, .t128, .ro, false, [], 1, 0, 0, 0⟩ /- PPS_IN_LAST -/,
  ⟨0x221E, 0x03, 1, .enum8, .rw, false, [(0, 1)], 1, 0, 0, 0⟩ /- PPS_IN_POLARITY -/,
  ⟨0x221E, 0x04, 1, .u32, .rw, false, [(0, 0)], 1, 0, 0, 0⟩ /- PPS_IN_EDGES -/,
  ⟨0x221E, 0x05, 1, .u32, .rw, false, [(0, 0)], 1, 0, 0, 0⟩ /- PPS_IN_REJECTS -/]

/-- Rows of the object tables, part 2. -/
def objects2 : List Obj := [
  ⟨0x2220, 0x01, 16, .u8, .rw, false, [], 1, 0, 0, 0⟩ /- LQ_OWNER -/,
  ⟨0x2220, 0x02, 16, .u32, .rw, false, [(0, 1000000)], 1, 0, 10000, 0⟩ /- LQ_LATE_LIMIT -/,
  ⟨0x2220, 0x03, 16, .u32, .rw, false, [(0, 0)], 1, 0, 0, 0⟩ /- LQ_SENT -/,
  ⟨0x2220, 0x04, 16, .u32, .rw, false, [(0, 0)], 1, 0, 0, 0⟩ /- LQ_LATE_SENT -/,
  ⟨0x2220, 0x05, 16, .u32, .rw, false, [(0, 0)], 1, 0, 0, 0⟩ /- LQ_LATE_DROP -/,
  ⟨0x2220, 0x06, 16, .u8, .ro, false, [(0, 32)], 1, 0, 0, 0⟩ /- LQ_DEPTH -/,
  ⟨0x2220, 0x07, 16, .bool, .wo, false, [(0, 1)], 1, 0, 0, 0⟩ /- LQ_FLUSH -/,
  ⟨0x2220, 0x08, 16, .u32, .rw, false, [(0, 0)], 1, 0, 0, 0⟩ /- LQ_FLUSHED -/,
  ⟨0x2300, 0x01, 48, .bool, .rw, true, [(0, 1)], 1, 0, 0, 0⟩ /- STREAM_ENABLE -/,
  ⟨0x2300, 0x02, 48, .u8, .rw, true, [(0, 7)], 1, 0, 4, 0⟩ /- STREAM_PRIORITY -/,
  ⟨0x2300, 0x03, 48, .u64, .rw, true, [], 1, 0, 0, 0⟩ /- STREAM_QBASE -/,
  ⟨0x2300, 0x04, 48, .u32, .rw, true, [(256, 16777216)], 256, 0, 0, 0⟩ /- STREAM_SLOT_SIZE -/,
  ⟨0x2300, 0x05, 48, .u16, .rw, true, [(2, 1024)], 1, 0, 0, 0⟩ /- STREAM_SLOT_COUNT -/,
  ⟨0x2300, 0x06, 48, .bool, .wo, false, [(0, 1)], 1, 0, 0, 0⟩ /- STREAM_FLUSH -/,
  ⟨0x2300, 0x07, 48, .u16, .ro, false, [], 1, 0, 0, 0⟩ /- STREAM_DEPTH -/,
  ⟨0x2300, 0x08, 48, .u32, .rw, false, [(0, 0)], 1, 0, 0, 0⟩ /- STREAM_ITEMS -/,
  ⟨0x2300, 0x09, 48, .u32, .rw, false, [(0, 0)], 1, 0, 0, 0⟩ /- STREAM_LOST_ITEMS -/,
  ⟨0x2300, 0x0A, 48, .u32, .rw, false, [(0, 0)], 1, 0, 0, 0⟩ /- STREAM_FLUSHED -/,
  ⟨0x2300, 0x0B, 48, .u32, .rw, false, [(0, 0)], 1, 0, 0, 0⟩ /- STREAM_FLUSH_DISCARDS -/,
  ⟨0x2300, 0x0C, 48, .u32, .rw, false, [(0, 0)], 1, 0, 0, 0⟩ /- STREAM_CONGEST_DROPS -/,
  ⟨0x2300, 0x0D, 48, .u32, .rw, false, [(0, 0)], 1, 0, 0, 0⟩ /- STREAM_BAD_ITEMS -/,
  ⟨0x2300, 0x0E, 48, .t128, .ro, false, [], 1, 0, 0, 0⟩ /- STREAM_LAST_TIME -/,
  ⟨0x2300, 0x10, 24, .u8, .rw, true, [(0, 15)], 1, 0, 0, 0⟩ /- CAM_VC -/,
  ⟨0x2300, 0x11, 24, .u8, .rw, true, [], 1, 0, 44, 0⟩ /- CAM_DT -/,
  ⟨0x2300, 0x12, 24, .bool, .rw, true, [(0, 1)], 1, 0, 0, 0⟩ /- CAM_LINE_TIMES -/,
  ⟨0x2300, 0x13, 24, .u16, .rw, true, [(1, 8192)], 1, 0, 1080, 0⟩ /- CAM_MAX_LINES -/,
  ⟨0x2300, 0x14, 24, .u16, .rw, true, [(64, 16384)], 64, 0, 3840, 0⟩ /- CAM_LINE_BYTES -/,
  ⟨0x2318, 0x10, 12, .u8, .rw, true, [(0, 7)], 1, 0, 0, 0⟩ /- SCN_TEMPLATE -/,
  ⟨0x2318, 0x11, 12, .u64, .rw, true, [], 1, 281474976710655, 0, 0⟩ /- SCN_SRC_MAC -/,
  ⟨0x2318, 0x12, 12, .u16, .rw, true, [(0, 4095), (65535, 65535)], 1, 0, 65535, 0⟩ /- SCN_VLAN -/,
  ⟨0x2318, 0x13, 12, .u32, .rw, true, [(1000, 100000000)], 1, 0, 1000000, 0⟩ /- SCN_TIME_PLAUS -/,
  ⟨0x2318, 0x14, 12, .u32, .ro, false, [], 1, 0, 0, 0⟩ /- SCN_SWEEP -/,
  ⟨0x2324, 0x10, 6, .u8, .rw, true, [(0, 3)], 1, 0, 3, 0⟩ /- IMU_SPI_MODE -/,
  ⟨0x2324, 0x11, 6, .u16, .rw, true, [(100, 50000)], 1, 0, 10000, 0⟩ /- IMU_SCLK -/,
  ⟨0x2324, 0x12, 6, .enum8, .rw, true, [(0, 1)], 1, 0, 0, 0⟩ /- IMU_DRDY_POL -/,
  ⟨0x2324, 0x13, 6, .domain, .rw, true, [(1, 8)], 1, 0, 0, 0⟩ /- IMU_CMD -/,
  ⟨0x2324, 0x14, 6, .u8, .rw, true, [(1, 64)], 1, 0, 16, 0⟩ /- IMU_READ_LEN -/,
  ⟨0x2324, 0x15, 6, .domain, .rw, true, [(48, 48)], 1, 0, 0, 0⟩ /- IMU_MAP -/,
  ⟨0x2324, 0x16, 6, .u32, .rw, false, [(0, 0)], 1, 0, 0, 0⟩ /- IMU_DRDY_OVERRUNS -/,
  ⟨0x232A, 0x10, 6, .u64, .rw, true, [], 1, 0, 0, 0⟩ /- CANF_FILTER -/]

/-- Rows of the object tables, part 3. -/
def objects3 : List Obj := [
  ⟨0x232A, 0x11, 6, .u64, .rw, true, [], 1, 0, 0, 0⟩ /- CANF_FILTER -/,
  ⟨0x232A, 0x12, 6, .u64, .rw, true, [], 1, 0, 0, 0⟩ /- CANF_FILTER -/,
  ⟨0x232A, 0x13, 6, .u64, .rw, true, [], 1, 0, 0, 0⟩ /- CANF_FILTER -/,
  ⟨0x232A, 0x14, 6, .domain, .rw, true, [(64, 64)], 1, 0, 0, 0⟩ /- CANF_SIGNALS -/,
  ⟨0x2330, 0x01, 6, .u8, .rw, true, [(1, 2), (4, 4)], 1, 0, 4, 0⟩ /- CSI_LANES -/,
  ⟨0x2330, 0x02, 6, .u16, .rw, true, [(80, 4500)], 1, 0, 2500, 0⟩ /- CSI_RATE -/,
  ⟨0x2330, 0x03, 6, .u32, .rw, false, [(0, 0)], 1, 0, 0, 0⟩ /- CSI_ECC_CORRECTED -/,
  ⟨0x2330, 0x04, 6, .u32, .rw, false, [(0, 0)], 1, 0, 0, 0⟩ /- CSI_ECC_ERRORS -/,
  ⟨0x2330, 0x05, 6, .u32, .rw, false, [(0, 0)], 1, 0, 0, 0⟩ /- CSI_CRC_ERRORS -/,
  ⟨0x2330, 0x06, 6, .u32, .rw, false, [(0, 0)], 1, 0, 0, 0⟩ /- CSI_UNMATCHED -/,
  ⟨0x2338, 0x01, 4, .enum8, .rw, true, [(0, 1)], 1, 0, 0, 0⟩ /- ETH_MODE -/,
  ⟨0x2338, 0x02, 4, .enum8, .ro, false, [(0, 5)], 1, 0, 0, 0⟩ /- ETH_RATE -/,
  ⟨0x2338, 0x03, 4, .u64, .rw, true, [], 1, 281474976710655, 0, 0⟩ /- ETH_MAC_ADDR -/,
  ⟨0x2338, 0x04, 4, .bool, .rw, true, [(0, 1)], 1, 0, 0, 0⟩ /- ETH_HOST_RX -/,
  ⟨0x2338, 0x05, 4, .u32, .rw, false, [(0, 0)], 1, 0, 0, 0⟩ /- ETH_FCS_ERRORS -/,
  ⟨0x2338, 0x06, 4, .u32, .rw, false, [(0, 0)], 1, 0, 0, 0⟩ /- ETH_UNMATCHED -/,
  ⟨0x2338, 0x07, 4, .u32, .rw, false, [(0, 0)], 1, 0, 0, 0⟩ /- ETH_FRAGMENTS -/,
  ⟨0x2338, 0x08, 4, .u32, .rw, false, [(0, 0)], 1, 0, 0, 0⟩ /- ETH_PAUSE_DISCARDED -/,
  ⟨0x2338, 0x09, 4, .bool, .ro, false, [(0, 1)], 1, 0, 0, 0⟩ /- ETH_LINK_UP -/,
  ⟨0x2338, 0x0A, 4, .t128, .ro, false, [], 1, 0, 0, 0⟩ /- ETH_TX_LAST_STAMP -/,
  ⟨0x2338, 0x0B, 4, .u64, .rw, true, [], 1, 0, 0, 0⟩ /- ETH_HRX_QBASE -/,
  ⟨0x2338, 0x0C, 4, .u16, .rw, true, [(2, 1024)], 1, 0, 0, 0⟩ /- ETH_HRX_SLOT_COUNT -/,
  ⟨0x2338, 0x0D, 4, .bool, .wo, false, [(0, 1)], 1, 0, 0, 0⟩ /- ETH_TX_FLUSH -/,
  ⟨0x2338, 0x0E, 4, .u32, .rw, false, [(0, 0)], 1, 0, 0, 0⟩ /- ETH_HRX_LOST -/,
  ⟨0x233C, 0x01, 1, .u32, .rw, true, [(125000, 1000000)], 1, 0, 500000, 0⟩ /- CAN_NOMINAL_RATE -/,
  ⟨0x233C, 0x02, 1, .u32, .rw, true, [(500000, 8000000)], 1, 0, 2000000, 0⟩ /- CAN_DATA_RATE -/,
  ⟨0x233C, 0x03, 1, .enum8, .rw, true, [(0, 1)], 1, 0, 0, 0⟩ /- CAN_MODE -/,
  ⟨0x233C, 0x04, 1, .u32, .rw, false, [(0, 0)], 1, 0, 0, 0⟩ /- CAN_ERROR_FRAMES -/,
  ⟨0x233C, 0x05, 1, .u32, .rw, false, [(0, 0)], 1, 0, 0, 0⟩ /- CAN_BUS_OFF -/,
  ⟨0x233C, 0x06, 1, .u32, .rw, false, [(0, 0)], 1, 0, 0, 0⟩ /- CAN_UNMATCHED -/,
  ⟨0x2340, 0x01, 8, .domain, .rw, true, [(640, 640)], 1, 0, 0, 0⟩ /- TPL_DATA -/,
  ⟨0x2340, 0x02, 8, .bool, .ro, false, [(0, 1)], 1, 0, 0, 0⟩ /- TPL_VALID -/,
  ⟨0x2400, 0x01, 1, .u32, .rw, true, [(10000, 50000)], 1, 0, 20000, 0⟩ /- PG_EPOCH_PERIOD -/,
  ⟨0x2400, 0x02, 1, .u32, .rw, true, [(1024, 4194304)], 1, 0, 4194304, 0⟩ /- PG_POINT_BUDGET -/,
  ⟨0x2400, 0x03, 1, .u32, .rw, true, [(0, 0), (1000, 1000000)], 1, 0, 0, 0⟩ /- PG_DECAY_HALFLIFE -/,
  ⟨0x2400, 0x04, 1, .u64, .rw, true, [(1, 18446744073709551615)], 1, 0, 1, 0⟩ /- PG_SEED -/,
  ⟨0x2400, 0x05, 1, .u32, .ro, false, [], 1, 0, 0, 0⟩ /- PG_EPOCH_SEQ -/,
  ⟨0x2400, 0x06, 1, .u32, .rw, false, [(0, 0)], 1, 0, 0, 0⟩ /- PG_EPOCHS -/,
  ⟨0x2400, 0x07, 1, .u32, .rw, false, [(0, 0)], 1, 0, 0, 0⟩ /- PG_LOSS_EPOCHS -/,
  ⟨0x2400, 0x08, 1, .u32, .rw, false, [(0, 0)], 1, 0, 0, 0⟩ /- PG_LABEL_OVERFLOWS -/]

/-- Rows of the object tables, part 4. -/
def objects4 : List Obj := [
  ⟨0x2401, 0x01, 2, .bool, .rw, true, [(0, 1)], 1, 0, 1, -1⟩ /- GRID_ENABLE -/,
  ⟨0x2401, 0x02, 2, .u16, .rw, true, [(1, 1536)], 1, 0, 512, 0⟩ /- GRID_NX -/,
  ⟨0x2401, 0x03, 2, .u16, .rw, true, [(1, 1536)], 1, 0, 512, 0⟩ /- GRID_NY -/,
  ⟨0x2401, 0x04, 2, .fp32, .rw, true, [], 1, 0, 1045220557, 0⟩ /- GRID_CELL -/,
  ⟨0x2401, 0x05, 2, .fp32, .rw, true, [], 1, 0, 3259813069, 0⟩ /- GRID_X0 -/,
  ⟨0x2401, 0x06, 2, .fp32, .rw, true, [], 1, 0, 3259813069, 0⟩ /- GRID_Y0 -/,
  ⟨0x2401, 0x07, 2, .fp32, .rw, true, [], 1, 0, 3225419776, 0⟩ /- GRID_ZMIN -/,
  ⟨0x2401, 0x08, 2, .fp32, .rw, true, [], 1, 0, 1084227584, 0⟩ /- GRID_ZMAX -/,
  ⟨0x2401, 0x09, 2, .u32, .rw, true, [(1, 262144)], 1, 0, 262144, 0⟩ /- GRID_MAX_PILLARS -/,
  ⟨0x2401, 0x0A, 2, .u8, .rw, true, [(1, 64)], 1, 0, 32, 0⟩ /- GRID_POINTS_PER_PILLAR -/,
  ⟨0x2401, 0x0B, 2, .u32, .rw, false, [(0, 0)], 1, 0, 0, 0⟩ /- GRID_SPILL_EPOCHS -/,
  ⟨0x2403, 0x01, 1, .enum8, .rw, true, [(0, 1)], 1, 0, 0, 0⟩ /- POSE_SOURCE -/,
  ⟨0x2403, 0x02, 1, .u8, .rw, true, [(36, 41)], 1, 0, 36, 0⟩ /- POSE_IMU_STREAM -/,
  ⟨0x2403, 0x03, 1, .u8, .rw, true, [(42, 47)], 1, 0, 42, 0⟩ /- POSE_WHEEL_STREAM -/,
  ⟨0x2403, 0x04, 1, .u8, .rw, true, [(1, 15)], 1, 15, 3, 0⟩ /- POSE_WHEEL_SIGNALS -/,
  ⟨0x2403, 0x05, 1, .domain, .rw, true, [(36, 36)], 1, 0, 0, 0⟩ /- POSE_IMU_MOUNT -/,
  ⟨0x2403, 0x06, 1, .domain, .rw, true, [(12, 12)], 1, 0, 0, 0⟩ /- POSE_GYRO_BIAS -/,
  ⟨0x2403, 0x07, 1, .u32, .rw, true, [(0, 20000)], 1, 0, 5000, 0⟩ /- POSE_EXTRAP_LIMIT -/,
  ⟨0x2403, 0x08, 1, .domain, .ro, false, [(64, 64)], 1, 0, 0, 0⟩ /- POSE_NEWEST -/,
  ⟨0x2403, 0x09, 1, .u32, .rw, false, [(0, 0)], 1, 0, 0, 0⟩ /- POSE_IMU_STALE_TICKS -/,
  ⟨0x2403, 0x0A, 1, .u32, .rw, false, [(0, 0)], 1, 0, 0, 0⟩ /- POSE_WHEEL_STALE_TICKS -/,
  ⟨0x2410, 0x01, 12, .u8, .rw, true, [(8, 128)], 1, 0, 64, 0⟩ /- PGS_SLICES -/,
  ⟨0x2410, 0x02, 12, .u32, .rw, true, [(1000, 1000000)], 1, 0, 100000, 0⟩ /- PGS_SWEEP_PERIOD -/,
  ⟨0x2410, 0x03, 12, .domain, .rw, true, [(48, 48)], 1, 0, 0, 0⟩ /- PGS_EXTRINSIC -/,
  ⟨0x2410, 0x04, 12, .u32, .ro, false, [(0, 20480)], 1, 0, 0, 0⟩ /- PGS_CARRY -/,
  ⟨0x2410, 0x05, 12, .u32, .rw, false, [(0, 0)], 1, 0, 0, 0⟩ /- PGS_CLAMPED -/,
  ⟨0x2540, 0x01, 32, .u64, .rw, false, [], 1, 0, 1, 1⟩ /- SR_SEED -/,
  ⟨0x2540, 0x02, 32, .u64, .ro, false, [], 1, 0, 1, 1⟩ /- SR_STATE -/,
  ⟨0x2540, 0x03, 32, .u32, .rw, false, [(0, 0)], 1, 0, 0, 0⟩ /- ACC_INEXACT -/,
  ⟨0x2540, 0x04, 32, .u32, .rw, false, [(0, 0)], 1, 0, 0, 0⟩ /- NAN_OUT -/,
  ⟨0x2540, 0x05, 32, .u32, .rw, false, [(0, 0)], 1, 0, 0, 0⟩ /- OVERFLOW_OUT -/,
  ⟨0x2500, 0x01, 1, .u32, .ro, false, [], 1, 0, 4294967295, 0⟩ /- GAFFER_PRESENT -/,
  ⟨0x2500, 0x02, 1, .u32, .rw, false, [], 1, 0, 0, 0⟩ /- GAFFER_FENCE -/,
  ⟨0x2500, 0x03, 1, .u16, .rw, false, [], 1, 0, 0, 0⟩ /- CHAIR_FORMED -/,
  ⟨0x2500, 0x04, 1, .u32, .ro, false, [], 1, 0, 4294967295, 0⟩ /- GAFFER_IDLE -/,
  ⟨0x2500, 0x05, 1, .u32, .rw, false, [(0, 0)], 1, 0, 0, 0⟩ /- CHAIR_REFUSALS -/,
  ⟨0x2520, 0x01, 32, .u8, .rw, false, [(0, 7)], 1, 0, 5, 0⟩ /- GAFFER_LEVEL -/,
  ⟨0x2520, 0x02, 32, .u8, .ro, false, [(0, 7)], 1, 0, 5, 0⟩ /- GAFFER_LEVEL_NOW -/,
  ⟨0x2520, 0x03, 32, .enum8, .ro, false, [(0, 4)], 1, 0, 0, 0⟩ /- GAFFER_FENCE_CAUSE -/,
  ⟨0x2520, 0x04, 32, .u32, .rw, false, [(0, 0)], 1, 0, 0, 0⟩ /- GAFFER_FENCES -/]

/-- Rows of the object tables, part 5. -/
def objects5 : List Obj := [
  ⟨0x2520, 0x05, 32, .u32, .rw, false, [(0, 0)], 1, 0, 0, 0⟩ /- SPAD_WAIT_CYCLES -/,
  ⟨0x2520, 0x06, 32, .u32, .rw, false, [(0, 0)], 1, 0, 0, 0⟩ /- ARRAY_BUSY_CYCLES -/,
  ⟨0x2520, 0x07, 32, .u32, .rw, false, [(0, 0)], 1, 0, 0, 0⟩ /- ARRAY_IDLE_B_CYCLES -/,
  ⟨0x2940, 0x01, 64, .u8, .rw, false, [(0, 54), (255, 255)], 1, 0, 255, 0⟩ /- RING_TARGET -/,
  ⟨0x2940, 0x02, 64, .bool, .wo, false, [(0, 1)], 1, 0, 0, 0⟩ /- RING_FLUSH -/,
  ⟨0x2940, 0x03, 64, .u32, .rw, false, [(0, 0)], 1, 0, 0, 0⟩ /- RING_ITEMS_ACCEPTED -/,
  ⟨0x2940, 0x04, 64, .u32, .rw, false, [(0, 0)], 1, 0, 0, 0⟩ /- RING_ITEMS_COMPLETED -/,
  ⟨0x2940, 0x05, 64, .u32, .rw, false, [(0, 0)], 1, 0, 0, 0⟩ /- RING_FLUSH_SKIPPED -/,
  ⟨0x2940, 0x06, 64, .u32, .rw, false, [(0, 0)], 1, 0, 0, 0⟩ /- RING_FLUSH_DISCARDS -/,
  ⟨0x2940, 0x07, 64, .u32, .rw, false, [(0, 0)], 1, 0, 0, 0⟩ /- RING_PREEMPTIONS -/,
  ⟨0x2940, 0x08, 64, .u16, .ro, false, [], 1, 0, 0, 0⟩ /- RING_INFLIGHT -/,
  ⟨0x2940, 0x09, 64, .u32, .rw, false, [(0, 0)], 1, 0, 0, 0⟩ /- RING_BAD_CHAIN -/,
  ⟨0x2520, 0x08, 32, .domain, .ro, false, [(128, 128)], 1, 0, 0, 0⟩ /- SEM_VALUES -/,
  ⟨0x2520, 0x09, 32, .u32, .rw, false, [(0, 0)], 1, 0, 0, 0⟩ /- SEM_SATURATIONS -/,
  ⟨0x2520, 0x0A, 32, .u8, .ro, false, [(0, 64)], 1, 0, 0, 0⟩ /- SEM_WAITS_PENDING -/,
  ⟨0x2980, 0x01, 32, .u8, .rw, false, [], 1, 0, 0, 0⟩ /- IQ_OWNER -/,
  ⟨0x2980, 0x02, 32, .bool, .rw, false, [(0, 1)], 1, 0, 0, 0⟩ /- IQ_ENABLE -/,
  ⟨0x2980, 0x03, 32, .u64, .rw, false, [], 1, 0, 0, 0⟩ /- IQ_BASE -/,
  ⟨0x2980, 0x04, 32, .u32, .rw, false, [(64, 65536)], 64, 0, 0, 0⟩ /- IQ_SLOT_SIZE -/,
  ⟨0x2980, 0x05, 32, .u16, .rw, false, [(2, 4096)], 1, 0, 0, 0⟩ /- IQ_SLOT_COUNT -/,
  ⟨0x2980, 0x06, 32, .bool, .wo, false, [(0, 1)], 1, 0, 0, 0⟩ /- IQ_FLUSH -/,
  ⟨0x2980, 0x07, 32, .u16, .ro, false, [], 1, 0, 0, 0⟩ /- IQ_DEPTH -/,
  ⟨0x2980, 0x08, 32, .u32, .rw, false, [(0, 0)], 1, 0, 0, 0⟩ /- IQ_ITEMS -/,
  ⟨0x2980, 0x09, 32, .u32, .rw, false, [(0, 0)], 1, 0, 0, 0⟩ /- IQ_FLUSHED -/,
  ⟨0x2980, 0x0A, 32, .u32, .rw, false, [(0, 0)], 1, 0, 0, 0⟩ /- IQ_FLUSH_DISCARDS -/,
  ⟨0x2980, 0x0B, 32, .u32, .rw, false, [(0, 0)], 1, 0, 0, 0⟩ /- IQ_FULL_WAITS -/,
  ⟨0x2700, 0x01, 4, .u32, .rw, false, [(0, 0)], 1, 0, 0, 0⟩ /- MV_ITEMS -/,
  ⟨0x2700, 0x02, 4, .u32, .rw, false, [(0, 0)], 1, 0, 0, 0⟩ /- MV_ELEMENTS -/,
  ⟨0x2700, 0x03, 4, .u32, .rw, false, [(0, 0)], 1, 0, 0, 0⟩ /- MV_PAD_ELEMENTS -/,
  ⟨0x2700, 0x04, 4, .u32, .rw, false, [(0, 0)], 1, 0, 0, 0⟩ /- MV_PAD_SKIPPED -/,
  ⟨0x2700, 0x05, 4, .u32, .rw, false, [(0, 0)], 1, 0, 0, 0⟩ /- MV_OOB_ENTRIES -/,
  ⟨0x2700, 0x06, 4, .u32, .rw, false, [(0, 0)], 1, 0, 0, 0⟩ /- MV_BUSY_CYCLES -/,
  ⟨0x2700, 0x07, 4, .u32, .rw, false, [(0, 0)], 1, 0, 0, 0⟩ /- MV_NAN_OUT -/,
  ⟨0x2700, 0x08, 4, .u32, .rw, false, [(0, 0)], 1, 0, 0, 0⟩ /- MV_OVERFLOW_OUT -/,
  ⟨0x2700, 0x09, 4, .u32, .rw, false, [(0, 0)], 1, 0, 0, 0⟩ /- MV_LINE_HITS -/,
  ⟨0x2700, 0x0A, 4, .u32, .rw, false, [(0, 0)], 1, 0, 0, 0⟩ /- MV_LINE_READS -/,
  ⟨0x2700, 0x0B, 4, .u32, .rw, false, [(0, 0)], 1, 0, 0, 0⟩ /- MV_SCATTER_COLLISIONS -/,
  ⟨0x2600, 0x01, 1, .u64, .rw, false, [(0, 137438953471)], 2048, 0, 0, 0⟩ /- KV_L2_BASE -/,
  ⟨0x2600, 0x02, 1, .u32, .rw, false, [(0, 65536)], 1, 0, 0, 0⟩ /- KV_L2_COUNT -/,
  ⟨0x2600, 0x03, 1, .u32, .ro, false, [], 1, 0, 0, 0⟩ /- KV_L2_FREE -/]

/-- Rows of the object tables, part 6. -/
def objects6 : List Obj := [
  ⟨0x2600, 0x04, 1, .u16, .ro, false, [(0, 4096)], 1, 0, 0, 0⟩ /- KV_SEQ_ACTIVE -/,
  ⟨0x2600, 0x05, 1, .u32, .rw, false, [], 1, 0, 4294967295, 0⟩ /- ATT_PREFILL_GAFFERS -/,
  ⟨0x2600, 0x06, 1, .u32, .rw, false, [], 1, 0, 4294967295, 0⟩ /- ATT_DECODE_GAFFERS -/,
  ⟨0x2600, 0x07, 1, .u32, .rw, false, [(0, 0)], 1, 0, 0, 0⟩ /- ATT_EMPTY_ROWS -/,
  ⟨0x2600, 0x08, 1, .u32, .rw, false, [(0, 0)], 1, 0, 0, 0⟩ /- KV_FLUSHES -/,
  ⟨0x2600, 0x09, 1, .u32, .rw, false, [(0, 0)], 1, 0, 0, 0⟩ /- KV_SEALED -/,
  ⟨0x2600, 0x0A, 1, .u32, .rw, false, [(0, 0)], 1, 0, 0, 0⟩ /- ATT_PAGES_SKIPPED -/,
  ⟨0x2600, 0x0B, 1, .u32, .rw, false, [(0, 0)], 1, 0, 0, 0⟩ /- ATT_PAGES_READ -/,
  ⟨0x2600, 0x0C, 1, .u32, .rw, false, [(0, 0)], 1, 0, 0, 0⟩ /- KV_XLATE_MISSES -/,
  ⟨0x2610, 0x01, 4, .bool, .rw, false, [(0, 1)], 1, 0, 0, 0⟩ /- KVP_ENABLE -/,
  ⟨0x2610, 0x02, 4, .u64, .rw, false, [], 4096, 0, 0, 0⟩ /- KVP_BASE -/,
  ⟨0x2610, 0x03, 4, .u32, .rw, false, [(1, 33554432)], 1, 0, 0, 0⟩ /- KVP_FRAMES -/,
  ⟨0x2610, 0x04, 4, .u8, .rw, false, [], 1, 0, 3, 0⟩ /- KVP_FORMAT -/,
  ⟨0x2610, 0x05, 4, .u16, .rw, false, [(1, 256)], 1, 0, 32, 0⟩ /- KVP_LAYERS -/,
  ⟨0x2610, 0x06, 4, .u8, .rw, false, [(1, 64)], 1, 0, 8, 0⟩ /- KVP_HEADS -/,
  ⟨0x2610, 0x07, 4, .u16, .rw, false, [(32, 256)], 32, 0, 128, 0⟩ /- KVP_DIM -/,
  ⟨0x2610, 0x08, 4, .u32, .ro, false, [], 1, 0, 1081344, 0⟩ /- KVP_FRAME_SIZE -/,
  ⟨0x2610, 0x09, 4, .u32, .ro, false, [], 1, 0, 0, 0⟩ /- KVP_FREE_FRAMES -/,
  ⟨0x2610, 0x0A, 4, .u32, .rw, false, [(0, 0)], 1, 0, 0, 0⟩ /- KVP_ALLOC_FAILS -/,
  ⟨0x2610, 0x0B, 4, .u64, .rw, false, [], 4096, 0, 0, 0⟩ /- KVP_META_BASE -/,
  ⟨0x2610, 0x0C, 4, .u64, .rw, false, [], 1, 0, 0, 0⟩ /- KVP_SALT -/,
  ⟨0x2610, 0x0D, 4, .u64, .rw, false, [(0, 0), (549755813888, 824633720831)], 4096, 0, 0, 0⟩ /- KVP_SWAP_BASE -/,
  ⟨0x2610, 0x0E, 4, .u32, .rw, false, [], 1, 0, 0, 0⟩ /- KVP_SWAP_SLOTS -/,
  ⟨0x2610, 0x0F, 4, .u32, .ro, false, [], 1, 0, 1085440, 0⟩ /- KVP_SWAP_SLOT_SIZE -/,
  ⟨0x2610, 0x10, 4, .u32, .ro, false, [], 1, 0, 0, 0⟩ /- KVP_DEFERRED_FRAMES -/,
  ⟨0x2620, 0x01, 1, .u16, .ro, false, [(0, 40960)], 1, 0, 0, 0⟩ /- ARB_NODES -/,
  ⟨0x2620, 0x02, 1, .u32, .ro, false, [], 1, 0, 0, 0⟩ /- ARB_EPOCH -/,
  ⟨0x2620, 0x03, 1, .domain, .ro, false, [(8, 8)], 1, 0, 0, 0⟩ /- ARB_READERS -/,
  ⟨0x2620, 0x04, 1, .u32, .rw, false, [(0, 0)], 1, 0, 0, 0⟩ /- ARB_COLLISIONS -/,
  ⟨0x2620, 0x05, 1, .u32, .rw, false, [(0, 0)], 1, 0, 0, 0⟩ /- ARB_HITS -/,
  ⟨0x2620, 0x06, 1, .u32, .rw, false, [(0, 0)], 1, 0, 0, 0⟩ /- ARB_COW_COPIES -/,
  ⟨0x2620, 0x07, 1, .u32, .rw, false, [(0, 0)], 1, 0, 0, 0⟩ /- ARB_PAGES_OUT -/,
  ⟨0x2620, 0x08, 1, .u32, .rw, false, [(0, 0)], 1, 0, 0, 0⟩ /- ARB_PAGES_IN -/,
  ⟨0x2620, 0x09, 1, .u32, .rw, false, [(0, 0)], 1, 0, 0, 0⟩ /- ARB_SWAP_CHECK_FAILS -/,
  ⟨0x2620, 0x0A, 1, .domain, .rw, false, [(0, 512)], 8, 0, 0, 0⟩ /- ARB_EXPORT_LIST -/,
  ⟨0x2620, 0x0B, 1, .u8, .ro, false, [(0, 64)], 1, 0, 0, 0⟩ /- ARB_EXPORT_DONE -/,
  ⟨0x2620, 0x0C, 1, .u8, .ro, false, [(0, 63), (255, 255)], 1, 0, 255, 0⟩ /- ARB_EXPORT_ABANDONED -/,
  ⟨0x2620, 0x0D, 1, .u32, .rw, false, [(0, 0)], 1, 0, 0, 0⟩ /- ARB_TREE_FULL -/,
  ⟨0x2620, 0x0E, 1, .u64, .ro, false, [], 1, 0, 0, 0⟩ /- ARB_EXPORT_WRITTEN -/,
  ⟨0x2620, 0x0F, 1, .u64, .ro, false, [], 1, 0, 0, 0⟩ /- ARB_EXPORT_STARTED -/]

/-- Rows of the object tables, part 7. -/
def objects7 : List Obj := [
  ⟨0x2800, 0x01, 1, .bool, .so, false, [(0, 1)], 1, 0, 0, 0⟩ /- KP_ARMED -/,
  ⟨0x2800, 0x02, 1, .enum8, .ro, false, [(0, 6)], 1, 0, 0, 0⟩ /- KP_STATE -/,
  ⟨0x2800, 0x03, 1, .u8, .so, false, [(1, 255)], 1, 0, 3, 0⟩ /- KP_WINDOW_K -/,
  ⟨0x2800, 0x04, 1, .u8, .so, false, [(1, 255)], 1, 0, 50, 0⟩ /- KP_WINDOW_N -/,
  ⟨0x2800, 0x05, 1, .u32, .so, false, [(10000, 50000)], 1, 0, 20000, 0⟩ /- KP_EPOCH_PERIOD -/,
  ⟨0x2800, 0x06, 1, .u32, .so, false, [(1000, 100000)], 1, 0, 30000, 0⟩ /- KP_DEADLINE -/,
  ⟨0x2800, 0x07, 1, .u8, .so, false, [(1, 8)], 1, 0, 1, 0⟩ /- KP_RELEASE_EPOCHS -/,
  ⟨0x2800, 0x08, 1, .u8, .so, false, [(0, 15)], 1, 0, 3, 0⟩ /- KP_RESTART_LIMIT -/,
  ⟨0x2800, 0x09, 1, .u32, .so, false, [(1, 86400)], 1, 0, 600, 0⟩ /- KP_RESTART_WINDOW -/,
  ⟨0x2800, 0x0A, 1, .bool, .so, false, [(0, 1)], 1, 0, 0, 0⟩ /- KP_FORCE_SAFE -/,
  ⟨0x2800, 0x0B, 1, .bool, .so, false, [(0, 1)], 1, 0, 0, 0⟩ /- KP_SAFE_CLEAR -/,
  ⟨0x2800, 0x0C, 1, .u16, .so, false, [(1, 100)], 1, 0, 5, 0⟩ /- KP_HEARTBEAT_HALF -/,
  ⟨0x2800, 0x0D, 1, .u16, .so, false, [(150, 5000)], 1, 0, 250, 0⟩ /- KP_GARDENER_WD -/,
  ⟨0x2800, 0x0E, 1, .domain, .ro, false, [(32, 32)], 1, 0, 0, 0⟩ /- KP_PAIRING -/,
  ⟨0x2800, 0x0F, 1, .domain, .ro, false, [(32, 32)], 1, 0, 0, 0⟩ /- KP_LAST_VERDICT -/,
  ⟨0x2800, 0x10, 1, .u8, .ro, false, [(0, 255)], 1, 0, 0, 0⟩ /- KP_WINDOW_COUNT -/,
  ⟨0x2800, 0x11, 1, .enum8, .ro, false, [], 1, 0, 7, 0⟩ /- KP_LATCH_CAUSE -/,
  ⟨0x2800, 0x12, 1, .u64, .rw, false, [(0, 0), (549755813888, 824633720831)], 64, 0, 0, 0⟩ /- KP_VERDICT_BASE -/,
  ⟨0x2800, 0x13, 1, .u16, .rw, false, [(1, 4096)], 1, 0, 64, 0⟩ /- KP_VERDICT_SLOTS -/,
  ⟨0x2800, 0x14, 1, .u8, .rw, false, [(0, 63)], 1, 0, 0, 0⟩ /- KP_VERDICT_VECTOR -/,
  ⟨0x2800, 0x15, 1, .u32, .so, false, [(0, 0)], 1, 0, 0, 0⟩ /- KP_INVALID_EPOCHS -/,
  ⟨0x2800, 0x16, 1, .u32, .so, false, [(0, 0)], 1, 0, 0, 0⟩ /- KP_SAFE_ENTRIES -/,
  ⟨0x2800, 0x17, 1, .u32, .so, false, [(0, 0)], 1, 0, 0, 0⟩ /- KP_LOCKSTEP_MISMATCHES -/,
  ⟨0x2800, 0x18, 1, .u32, .so, false, [(0, 0)], 1, 0, 0, 0⟩ /- KP_GARDENER_RESTARTS -/,
  ⟨0x2800, 0x19, 1, .u32, .so, false, [(0, 0)], 1, 0, 0, 0⟩ /- KP_SAFE_TRIGGERS -/,
  ⟨0x2800, 0x1A, 1, .u32, .so, false, [(0, 0)], 1, 0, 0, 0⟩ /- KP_RULE_LOGS -/,
  ⟨0x2810, 0x01, 1, .domain, .so, false, [(576, 131648)], 1, 0, 0, 0⟩ /- KP_RULES_DRIVE -/,
  ⟨0x2810, 0x02, 1, .domain, .so, false, [(576, 131648)], 1, 0, 0, 0⟩ /- KP_RULES_PARKED -/,
  ⟨0x2810, 0x03, 1, .u8, .ro, false, [], 1, 0, 0, 0⟩ /- KP_RULES_VALID -/,
  ⟨0x2810, 0x04, 1, .u32, .ro, false, [], 1, 0, 0, 0⟩ /- KP_RULES_DRIVE_CRC -/,
  ⟨0x2810, 0x05, 1, .u32, .ro, false, [], 1, 0, 0, 0⟩ /- KP_RULES_PARKED_CRC -/,
  ⟨0x2820, 0x01, 1, .bool, .so, false, [(0, 1)], 1, 0, 1, 0⟩ /- LL_ENABLE -/,
  ⟨0x2820, 0x02, 1, .u32, .ro, false, [], 1, 0, 0, 0⟩ /- LL_ROTATION -/,
  ⟨0x2820, 0x03, 1, .u32, .so, false, [(0, 0)], 1, 0, 0, 0⟩ /- LL_DEFERRALS -/,
  ⟨0x2820, 0x04, 1, .u32, .so, false, [(0, 0)], 1, 0, 0, 0⟩ /- LL_FORCED -/,
  ⟨0x2820, 0x05, 1, .u32, .so, false, [(0, 0)], 1, 0, 0, 0⟩ /- LL_MISSED -/,
  ⟨0x2820, 0x06, 1, .u32, .so, false, [(0, 0)], 1, 0, 0, 0⟩ /- LL_GOLDEN_FAILS -/,
  ⟨0x2820, 0x07, 1, .u32, .so, false, [(0, 0)], 1, 0, 0, 0⟩ /- LL_CHECKER_FAILS -/,
  ⟨0x2820, 0x08, 1, .domain, .ro, false, [(128, 128)], 1, 0, 0, 0⟩ /- LL_LAST_PASS -/,
  ⟨0x2820, 0x09, 1, .u32, .so, false, [(0, 0)], 1, 0, 0, 0⟩ /- LL_DDR_SKIPS -/]

/-- Rows of the object tables, part 8. -/
def objects8 : List Obj := [
  ⟨0x2010, 0x01, 1, .u32, .ro, false, [], 1, 0, 0, 0⟩ /- ERR_LOG_NEWEST -/,
  ⟨0x2010, 0x02, 1, .u32, .rw, false, [], 1, 0, 0, 0⟩ /- ERR_LOG_READ_SEQ -/,
  ⟨0x2010, 0x03, 1, .domain, .ro, false, [(32, 32)], 1, 0, 0, 0⟩ /- ERR_LOG_ENTRY -/,
  ⟨0x2010, 0x04, 1, .u32, .rw, false, [(0, 0)], 1, 0, 0, 0⟩ /- ERR_LOG_LOST -/,
  ⟨0x2010, 0x05, 1, .u32, .rw, false, [(0, 0)], 1, 0, 0, 0⟩ /- ERR_CORRECTED -/,
  ⟨0x2010, 0x06, 1, .u32, .rw, false, [(0, 0)], 1, 0, 0, 0⟩ /- ERR_CONTAINED -/,
  ⟨0x2010, 0x07, 1, .u32, .rw, false, [(0, 0)], 1, 0, 0, 0⟩ /- ERR_FATAL -/,
  ⟨0x2010, 0x08, 1, .u8, .rw, false, [(0, 63), (255, 255)], 1, 0, 255, 0⟩ /- ERR_VECTOR_CORRECTED -/,
  ⟨0x2010, 0x09, 1, .u8, .rw, false, [(0, 63), (255, 255)], 1, 0, 255, 0⟩ /- ERR_VECTOR_CONTAINED -/,
  ⟨0x2010, 0x0A, 1, .u8, .rw, false, [(0, 63), (255, 255)], 1, 0, 255, 0⟩ /- ERR_VECTOR_FATAL -/,
  ⟨0x2010, 0x0B, 1, .u32, .rw, false, [(100, 1000000)], 1, 0, 1000, 0⟩ /- ERR_CORRECTED_HOLDOFF -/,
  ⟨0x2010, 0x0C, 1, .u32, .rw, false, [(0, 0)], 1, 0, 0, 0⟩ /- RESIDUE_MISMATCHES -/,
  ⟨0x2010, 0x0D, 1, .u32, .rw, false, [(0, 0)], 1, 0, 0, 0⟩ /- LINK_RETRIES -/,
  ⟨0x2010, 0x0E, 1, .u32, .rw, false, [(0, 0)], 1, 0, 0, 0⟩ /- LINK_POISONED -/,
  ⟨0x2012, 0x01, 1, .bool, .rw, true, [(0, 1)], 1, 0, 1, 0⟩ /- FENCE_POLICY_ENABLE -/,
  ⟨0x2012, 0x02, 1, .u32, .rw, true, [(10, 60000)], 1, 0, 1000, 0⟩ /- FENCE_WINDOW -/,
  ⟨0x2012, 0x03, 1, .u8, .rw, true, [(1, 255)], 1, 0, 2, 0⟩ /- FENCE_RESIDUE_K -/,
  ⟨0x2012, 0x04, 1, .u8, .rw, true, [(1, 255)], 1, 0, 1, 0⟩ /- FENCE_UE_K -/,
  ⟨0x2012, 0x05, 1, .u32, .rw, true, [(1, 65535)], 1, 0, 256, 0⟩ /- FENCE_CORRECTED_RATE -/,
  ⟨0x2012, 0x06, 1, .u8, .rw, true, [(1, 255)], 1, 0, 1, 0⟩ /- FENCE_LINK_K -/,
  ⟨0x2012, 0x07, 1, .u32, .rw, false, [(0, 0)], 1, 0, 0, 0⟩ /- FENCE_POLICY_FENCES -/,
  ⟨0x2520, 0x0B, 32, .u32, .rw, false, [(0, 0)], 1, 0, 0, 0⟩ /- GAFFER_RESIDUE_MISMATCHES -/,
  ⟨0x2520, 0x0C, 32, .u32, .rw, false, [(0, 0)], 1, 0, 0, 0⟩ /- SPAD_CORRECTED -/,
  ⟨0x2520, 0x0D, 32, .u32, .rw, false, [(0, 0)], 1, 0, 0, 0⟩ /- SPAD_UNCORRECTABLE -/,
  ⟨0x2A20, 0x01, 1, .u16, .rw, true, [(0, 0), (1, 168)], 1, 0, 24, 0⟩ /- DDR_SCRUB_PERIOD -/,
  ⟨0x2A20, 0x02, 1, .u32, .rw, false, [(0, 0)], 1, 0, 0, 0⟩ /- DDR_SCRUB_PASSES -/,
  ⟨0x2A20, 0x03, 1, .bool, .rw, true, [(0, 1)], 1, 0, 1, 0⟩ /- DDR_MARK_AUTO -/,
  ⟨0x2A20, 0x04, 1, .u16, .rw, true, [(1, 65535)], 1, 0, 16, 0⟩ /- DDR_MARK_THRESHOLD -/,
  ⟨0x2A20, 0x05, 1, .u32, .rw, true, [(1, 604800)], 1, 0, 3600, 0⟩ /- DDR_MARK_WINDOW -/,
  ⟨0x2A20, 0x06, 1, .u64, .wo, false, [], 1, 0, 0, 0⟩ /- DDR_RETIRE -/,
  ⟨0x2A20, 0x07, 1, .u64, .wo, false, [], 1, 0, 0, 0⟩ /- DDR_UNRETIRE -/,
  ⟨0x2A20, 0x08, 1, .domain, .ro, false, [(0, 2048)], 1, 0, 0, 0⟩ /- DDR_RETIRED_LIST -/,
  ⟨0x2A20, 0x09, 1, .bool, .ro, false, [(0, 1)], 1, 0, 0, 0⟩ /- DDR_DRIVE_DAMAGED -/,
  ⟨0x2A28, 0x01, 8, .u16, .rw, true, [], 1, 0, 65535, 0⟩ /- SC_MARKED -/,
  ⟨0x2A28, 0x02, 8, .u32, .rw, false, [(0, 0)], 1, 0, 0, 0⟩ /- SC_CORRECTED_BURSTS -/,
  ⟨0x2A28, 0x03, 8, .u32, .rw, false, [(0, 0)], 1, 0, 0, 0⟩ /- SC_MARKED_BURSTS -/,
  ⟨0x2A28, 0x04, 8, .u32, .rw, false, [(0, 0)], 1, 0, 0, 0⟩ /- SC_UNCORRECTABLE -/,
  ⟨0x2A28, 0x05, 8, .u32, .rw, false, [(0, 0)], 1, 0, 0, 0⟩ /- SC_ADDRESS_ERRORS -/,
  ⟨0x2A28, 0x06, 8, .u32, .rw, false, [(0, 0)], 1, 0, 0, 0⟩ /- SC_POISON_READS -/,
  ⟨0x2A28, 0x07, 8, .domain, .ro, false, [(20, 20)], 1, 0, 0, 0⟩ /- SC_CANDIDATES -/]

/-- Rows of the object tables, part 9. -/
def objects9 : List Obj := [
  ⟨0x2900, 0x01, 1, .bool, .ro, false, [(0, 1)], 1, 0, 0, 0⟩ /- HIF_LINK_UP -/,
  ⟨0x2900, 0x02, 1, .enum8, .ro, false, [(0, 32)], 1, 0, 0, 0⟩ /- HIF_LINK_RATE -/,
  ⟨0x2900, 0x03, 1, .u8, .ro, false, [], 1, 0, 0, 0⟩ /- HIF_LINK_WIDTH -/,
  ⟨0x2900, 0x04, 1, .bool, .ro, false, [(0, 1)], 1, 0, 0, 0⟩ /- HIF_BELOW_FLOOR -/,
  ⟨0x2900, 0x05, 1, .u64, .rw, false, [(0, 137438953471)], 1, 0, 0, 0⟩ /- HIF_APERTURE_BASE -/,
  ⟨0x2900, 0x06, 1, .u64, .ro, false, [(268435456, 137438953472)], 1, 0, 1073741824, 0⟩ /- HIF_BAR2_SIZE -/,
  ⟨0x2900, 0x07, 1, .u32, .rw, false, [(0, 0)], 1, 0, 0, 0⟩ /- HIF_LINK_DOWNS -/,
  ⟨0x2900, 0x08, 1, .u32, .rw, false, [(0, 0)], 1, 0, 0, 0⟩ /- HIF_HOST_READ_FAILS -/,
  ⟨0x2900, 0x09, 1, .u32, .rw, false, [(0, 0)], 1, 0, 0, 0⟩ /- HIF_POISONED_OUT -/,
  ⟨0x2900, 0x0A, 1, .u32, .rw, false, [(0, 0)], 1, 0, 0, 0⟩ /- HIF_BAR_HOLE_ACCESSES -/,
  ⟨0x2900, 0x0B, 1, .u32, .rw, false, [(0, 0)], 1, 0, 0, 0⟩ /- HIF_DOORBELL_ERRORS -/,
  ⟨0x2900, 0x0C, 1, .u32, .rw, false, [(0, 0)], 1, 0, 0, 0⟩ /- HIF_XLATE_FAULTS -/,
  ⟨0x2940, 0x0A, 64, .bool, .rw, false, [(0, 1)], 1, 0, 0, 0⟩ /- RING_ENABLE -/,
  ⟨0x2940, 0x0B, 64, .u64, .rw, false, [], 4096, 0, 0, 0⟩ /- RING_BASE -/,
  ⟨0x2940, 0x0C, 64, .u32, .rw, false, [(16, 65536)], 1, 0, 0, 0⟩ /- RING_SIZE -/,
  ⟨0x2940, 0x0D, 64, .u8, .rw, false, [(0, 63)], 1, 0, 0, 0⟩ /- RING_CQ -/,
  ⟨0x2940, 0x0E, 64, .u32, .ro, false, [], 1, 0, 0, 0⟩ /- RING_HEAD -/,
  ⟨0x2940, 0x0F, 64, .u32, .ro, false, [], 1, 0, 0, 0⟩ /- RING_TAIL -/,
  ⟨0x29C0, 0x01, 64, .bool, .rw, false, [(0, 1)], 1, 0, 0, 0⟩ /- CQ_ENABLE -/,
  ⟨0x29C0, 0x02, 64, .u64, .rw, false, [], 4096, 0, 0, 0⟩ /- CQ_BASE -/,
  ⟨0x29C0, 0x03, 64, .u32, .rw, false, [(16, 65536)], 1, 0, 0, 0⟩ /- CQ_SIZE -/,
  ⟨0x29C0, 0x04, 64, .u8, .rw, false, [(0, 63), (255, 255)], 1, 0, 255, 0⟩ /- CQ_VECTOR -/,
  ⟨0x29C0, 0x05, 64, .u16, .rw, false, [(1, 1024)], 1, 0, 1, 0⟩ /- CQ_COALESCE_COUNT -/,
  ⟨0x29C0, 0x06, 64, .u32, .rw, false, [(0, 10000)], 1, 0, 0, 0⟩ /- CQ_COALESCE_TIME -/,
  ⟨0x29C0, 0x07, 64, .u32, .ro, false, [], 1, 0, 0, 0⟩ /- CQ_TAIL -/,
  ⟨0x29C0, 0x08, 64, .u32, .ro, false, [], 1, 0, 0, 0⟩ /- CQ_HEAD -/,
  ⟨0x29C0, 0x09, 64, .bool, .ro, false, [(0, 1)], 1, 0, 0, 0⟩ /- CQ_PHASE -/,
  ⟨0x2A00, 0x01, 1, .u64, .ro, false, [], 1, 0, 0, 0⟩ /- DDR_CAPACITY -/,
  ⟨0x2A00, 0x02, 1, .u16, .ro, false, [], 1, 0, 0, 0⟩ /- DDR_RATE -/,
  ⟨0x2A00, 0x03, 1, .enum8, .ro, false, [(0, 1)], 1, 0, 0, 0⟩ /- DDR_WIDTH -/,
  ⟨0x2A00, 0x04, 1, .u8, .ro, false, [(1, 2)], 1, 0, 0, 0⟩ /- DDR_RANKS -/,
  ⟨0x2A00, 0x05, 1, .u8, .ro, false, [], 1, 0, 0, 0⟩ /- DDR_DENSITY -/,
  ⟨0x2A00, 0x06, 1, .enum8, .rw, true, [(0, 1)], 1, 0, 0, 0⟩ /- DDR_INTERLEAVE -/,
  ⟨0x2A00, 0x07, 1, .enum8, .ro, false, [(0, 2)], 1, 0, 0, 0⟩ /- DDR_TRAIN_STATE -/,
  ⟨0x2A00, 0x08, 1, .u32, .ro, false, [], 1, 0, 0, 0⟩ /- DDR_TRAIN_TIME -/,
  ⟨0x2A00, 0x09, 1, .i8, .ro, false, [], 1, 0, 0, 0⟩ /- DDR_TEMP_MAX -/,
  ⟨0x2A00, 0x0A, 1, .u32, .rw, false, [(0, 0)], 1, 0, 0, 0⟩ /- DDR_SR_ENTRIES -/,
  ⟨0x2A00, 0x0B, 1, .u32, .rw, false, [(0, 0)], 1, 0, 0, 0⟩ /- DDR_RETRAINS -/,
  ⟨0x1000, 0x01, 1, .u16, .ro, false, [], 1, 0, 7322, 0⟩ /- ID_VENDOR -/,
  ⟨0x1000, 0x02, 1, .u16, .ro, false, [], 1, 0, 18486, 0⟩ /- ID_DEVICE -/]

/-- Rows of the object tables, part 10. -/
def objects10 : List Obj := [
  ⟨0x1000, 0x03, 1, .enum8, .ro, false, [], 1, 0, 17, 0⟩ /- ID_STEPPING -/,
  ⟨0x1000, 0x04, 1, .domain, .ro, false, [(6, 6)], 1, 0, 0, 0⟩ /- ID_PART -/,
  ⟨0x1000, 0x05, 1, .u64, .ro, false, [], 1, 0, 0, 0⟩ /- ID_SERIAL -/,
  ⟨0x1000, 0x06, 1, .u64, .ro, false, [], 1, 0, 0, 0⟩ /- ID_MAC_BASE -/,
  ⟨0x1000, 0x07, 1, .u16, .ro, false, [], 1, 0, 0, 0⟩ /- ID_SUBSYS_VENDOR -/,
  ⟨0x1000, 0x08, 1, .u16, .ro, false, [], 1, 0, 0, 0⟩ /- ID_SUBSYS -/,
  ⟨0x1000, 0x09, 1, .u32, .ro, false, [], 1, 0, 0, 0⟩ /- ID_GARDENER_FW -/,
  ⟨0x1000, 0x0A, 1, .u32, .ro, false, [], 1, 0, 0, 0⟩ /- ID_KEEPER_FW -/,
  ⟨0x1100, 0x01, 1, .domain, .ro, false, [(14, 14)], 1, 0, 0, 0⟩ /- IF_VERSIONS -/,
  ⟨0x1101, 0x01, 1, .domain, .rw, true, [(7, 7)], 1, 0, 0, 0⟩ /- IF_SELECT -/,
  ⟨0x2000, 0x01, 1, .enum8, .ro, false, [(0, 6)], 1, 0, 0, 0⟩ /- DEV_STATE -/,
  ⟨0x2000, 0x02, 1, .u64, .ro, false, [], 1, 0, 0, 0⟩ /- DEV_UPTIME -/,
  ⟨0x2000, 0x03, 1, .i16, .ro, false, [], 1, 0, 0, 0⟩ /- DEV_TEMP_MAX -/,
  ⟨0x2000, 0x04, 1, .u32, .ro, false, [], 1, 0, 0, 0⟩ /- DEV_POWER -/,
  ⟨0x2000, 0x05, 1, .u32, .w1c, false, [], 1, 255, 0, 0⟩ /- DEV_ATTENTION -/,
  ⟨0x1110, 0x01, 1, .u32, .so, false, [], 1, 1073741823, 1600, 0⟩ /- DICT_CAN_BASE -/,
  ⟨0x1110, 0x02, 1, .u32, .so, false, [(125000, 1000000)], 1, 0, 500000, 0⟩ /- DICT_CAN_NOMINAL -/,
  ⟨0x1110, 0x03, 1, .u32, .so, false, [(500000, 8000000)], 1, 0, 2000000, 0⟩ /- DICT_CAN_DATA -/,
  ⟨0x1110, 0x04, 1, .u32, .so, false, [], 1, 0, 0, 0⟩ /- DICT_CAN_DATA_ID -/,
  ⟨0x1110, 0x05, 1, .u32, .rw, false, [(0, 0)], 1, 0, 0, 0⟩ /- DICT_CAN_FRAMES_BAD -/,
  ⟨0x1110, 0x06, 1, .u32, .rw, false, [(0, 0)], 1, 0, 0, 0⟩ /- DICT_CAN_COUNTER_ERRORS -/,
  ⟨0x1110, 0x07, 1, .u32, .rw, false, [(0, 0)], 1, 0, 0, 0⟩ /- DICT_CAN_BUS_OFF -/,
  ⟨0x1111, 0x01, 1, .u8, .rw, false, [(8, 119)], 1, 0, 92, 0⟩ /- DICT_SMB_ADDR -/,
  ⟨0x1111, 0x02, 1, .u32, .rw, false, [(0, 0)], 1, 0, 0, 0⟩ /- DICT_SMB_PEC_ERRORS -/,
  ⟨0x1111, 0x03, 1, .u32, .rw, false, [(0, 0)], 1, 0, 0, 0⟩ /- DICT_SMB_TIMEOUTS -/,
  ⟨0x1112, 0x01, 1, .u64, .ro, false, [], 1, 0, 0, 0⟩ /- DICT_BAR0_LAST -/,
  ⟨0x1112, 0x02, 1, .u32, .rw, false, [(0, 0)], 1, 0, 0, 0⟩ /- DICT_BAR0_REFUSALS -/,
  ⟨0x1112, 0x03, 1, .u8, .rw, false, [(0, 63), (255, 255)], 1, 0, 255, 0⟩ /- DICT_CHAN_VECTOR -/,
  ⟨0x2100, 0x01, 1, .u16, .rw, false, [(10, 92)], 1, 0, 48, 0⟩ /- PWR_CAP -/,
  ⟨0x2100, 0x02, 1, .u32, .rw, false, [(0, 0)], 1, 0, 0, 0⟩ /- PWR_CAP_OVERRUNS -/,
  ⟨0x2100, 0x03, 1, .u32, .ro, false, [], 1, 0, 0, 0⟩ /- PWR_CAP_HELD -/,
  ⟨0x2100, 0x04, 1, .enum8, .rw, true, [(0, 1)], 1, 0, 1, 0⟩ /- PWR_VCORE_MODE -/,
  ⟨0x2100, 0x05, 1, .domain, .wo, false, [(47, 47)], 1, 0, 0, 0⟩ /- PWR_DOMAIN_SET -/,
  ⟨0x2100, 0x06, 1, .u16, .rw, true, [(2, 100)], 1, 0, 10, 0⟩ /- PWR_VCORE_SETTLE -/,
  ⟨0x2100, 0x07, 1, .u16, .ro, false, [], 1, 0, 850, 0⟩ /- PWR_VCORE_NOW -/,
  ⟨0x2101, 0x01, 1, .domain, .wo, false, [(47, 47)], 1, 0, 0, 0⟩ /- PWR_SLEEP_ENTER -/,
  ⟨0x2101, 0x02, 1, .domain, .rw, false, [(47, 47)], 1, 0, 0, 0⟩ /- PWR_WAKE_SET -/,
  ⟨0x2101, 0x03, 1, .u16, .ro, false, [], 1, 0, 0, 0⟩ /- PWR_AON_ESTIMATE -/,
  ⟨0x2101, 0x05, 1, .u16, .rw, false, [(1, 100)], 1, 0, 10, 0⟩ /- PWR_PG_TIMEOUT -/,
  ⟨0x2101, 0x06, 1, .u16, .rw, false, [(1, 100)], 1, 0, 10, 0⟩ /- PWR_OSC_TIMEOUT -/]

/-- Rows of the object tables, part 11. -/
def objects11 : List Obj := [
  ⟨0x2101, 0x07, 1, .enum8, .ro, false, [(0, 5)], 1, 0, 0, 0⟩ /- PWR_WAKE_FAIL_REASON -/,
  ⟨0x2101, 0x09, 1, .u32, .rw, false, [(0, 0)], 1, 0, 0, 0⟩ /- PWR_SLEEP_ENTRIES -/,
  ⟨0x2101, 0x0A, 1, .u32, .rw, false, [(0, 0)], 1, 0, 0, 0⟩ /- PWR_SLEEP_REFUSALS -/,
  ⟨0x2102, 0x01, 1, .u16, .rw, false, [], 1, 65407, 32604, 0⟩ /- PWR_SMB_WAKE -/,
  ⟨0x2102, 0x02, 1, .u8, .rw, false, [], 1, 31, 0, 0⟩ /- WAKE0_CFG -/,
  ⟨0x2102, 0x03, 1, .u8, .rw, false, [], 1, 31, 0, 0⟩ /- WAKE1_CFG -/,
  ⟨0x2102, 0x04, 1, .domain, .ro, false, [(16, 16)], 1, 0, 0, 0⟩ /- PWR_LAST_WAKE -/,
  ⟨0x2102, 0x05, 1, .u8, .ro, false, [], 1, 0, 0, 0⟩ /- PWR_WAKE_PINS -/,
  ⟨0x2102, 0x06, 1, .u32, .rw, false, [(0, 0)], 1, 0, 0, 0⟩ /- PWR_WAKE_FAILS -/,
  ⟨0x2103, 0x01, 1, .enum8, .ro, false, [(0, 4)], 1, 0, 0, 0⟩ /- PWR_BROWNOUT_CAUSE -/,
  ⟨0x2103, 0x02, 1, .u8, .ro, false, [(0, 255)], 1, 0, 0, 0⟩ /- PWR_BROWNOUTS -/,
  ⟨0x2103, 0x03, 1, .bool, .ro, false, [(0, 1)], 1, 0, 0, 0⟩ /- PWR_IO18_LOW -/,
  ⟨0x2110, 0x01, 1, .enum8, .ro, false, [(0, 2)], 1, 0, 0, 0⟩ /- PD_REQUEST of power domain 0 -/,
  ⟨0x2111, 0x01, 46, .enum8, .rw, false, [(0, 2)], 1, 0, 0, 0⟩ /- PD_REQUEST -/,
  ⟨0x2110, 0x02, 47, .enum8, .ro, false, [(0, 3)], 1, 0, 0, 0⟩ /- PD_STATE -/,
  ⟨0x2110, 0x03, 47, .u32, .rw, false, [(0, 0)], 1, 0, 0, 0⟩ /- PD_TRANSITIONS -/,
  ⟨0x2110, 0x04, 47, .bool, .ro, false, [(0, 1)], 1, 0, 0, 0⟩ /- PD_LOST -/,
  ⟨0x2B00, 0x01, 1, .enum8, .ro, false, [], 1, 0, 255, 0⟩ /- BOOT_SLOT_RUNNING -/,
  ⟨0x2B00, 0x02, 1, .u32, .ro, false, [], 1, 0, 0, 0⟩ /- BOOT_IMAGE_SEQ -/,
  ⟨0x2B00, 0x03, 1, .u8, .ro, false, [(0, 64)], 1, 0, 0, 0⟩ /- BOOT_SVN -/,
  ⟨0x2B00, 0x04, 1, .u8, .ro, false, [(0, 64)], 1, 0, 0, 0⟩ /- BOOT_FUSE_SVN -/,
  ⟨0x2B00, 0x05, 1, .u8, .ro, false, [(0, 3)], 1, 0, 0, 0⟩ /- BOOT_FAIL_COUNT -/,
  ⟨0x2B00, 0x06, 1, .enum8, .ro, false, [], 1, 0, 0, 0⟩ /- BOOT_REASON_A -/,
  ⟨0x2B00, 0x07, 1, .enum8, .ro, false, [], 1, 0, 0, 0⟩ /- BOOT_REASON_B -/,
  ⟨0x2B00, 0x08, 1, .enum8, .ro, false, [], 1, 0, 0, 0⟩ /- BOOT_GATEHOUSE_REASON -/,
  ⟨0x2B00, 0x09, 1, .u32, .ro, false, [], 1, 0, 0, 0⟩ /- BOOT_TIME -/,
  ⟨0x2B00, 0x0A, 1, .domain, .ro, false, [(48, 48)], 1, 0, 0, 0⟩ /- BOOT_IMAGE_DIGEST -/,
  ⟨0x2B00, 0x0B, 1, .bool, .wo, true, [(0, 1)], 1, 0, 0, 0⟩ /- BOOT_RESTART -/,
  ⟨0x2B00, 0x0C, 1, .bool, .wo, true, [(0, 1)], 1, 0, 0, 0⟩ /- BOOT_COMMIT_SVN -/,
  ⟨0x2B00, 0x0D, 1, .u32, .rw, false, [(0, 0)], 1, 0, 0, 0⟩ /- BOOT_FAILED_STARTS -/,
  ⟨0x2B01, 0x01, 1, .u64, .rw, true, [(0, 0), (549755813888, 824633720831)], 4096, 0, 0, 0⟩ /- STAGE_SRC -/,
  ⟨0x2B01, 0x02, 1, .u32, .rw, true, [(8192, 2101248)], 1, 0, 0, 0⟩ /- STAGE_LEN -/,
  ⟨0x2B01, 0x03, 1, .enum8, .wo, true, [(1, 4)], 1, 0, 0, 0⟩ /- STAGE_ACTION -/,
  ⟨0x2B01, 0x04, 1, .enum8, .ro, false, [(0, 6)], 1, 0, 0, 0⟩ /- STAGE_STATE -/,
  ⟨0x2B01, 0x05, 1, .enum8, .ro, false, [], 1, 0, 0, 0⟩ /- STAGE_REASON -/,
  ⟨0x2B01, 0x06, 1, .u32, .ro, false, [], 1, 0, 0, 0⟩ /- STAGE_PROGRESS -/,
  ⟨0x2B02, 0x01, 1, .enum8, .ro, false, [(0, 3)], 1, 0, 0, 0⟩ /- LC_STATE -/,
  ⟨0x2B02, 0x02, 1, .enum8, .wo, true, [(1, 1), (3, 3)], 1, 0, 0, 0⟩ /- LC_ADVANCE -/,
  ⟨0x2B02, 0x03, 1, .domain, .rw, true, [(48, 48)], 1, 0, 0, 0⟩ /- LC_KEY_HASH -/,
  ⟨0x2B02, 0x04, 1, .domain, .rw, true, [(48, 48)], 1, 0, 0, 0⟩ /- LC_KEY_HASH -/,
  ⟨0x2B02, 0x05, 1, .domain, .rw, true, [(48, 48)], 1, 0, 0, 0⟩ /- LC_KEY_HASH -/]

/-- Rows of the object tables, part 12. -/
def objects12 : List Obj := [
  ⟨0x2B02, 0x06, 1, .domain, .rw, true, [(48, 48)], 1, 0, 0, 0⟩ /- LC_KEY_HASH -/,
  ⟨0x2B02, 0x07, 1, .u8, .rw, true, [], 1, 15, 0, 0⟩ /- LC_KEY_REVOKE -/,
  ⟨0x2B02, 0x08, 1, .domain, .rw, true, [(48, 48)], 1, 0, 0, 0⟩ /- LC_DEBUG_KEY_HASH -/,
  ⟨0x2B02, 0x09, 1, .enum8, .ro, false, [(0, 3)], 1, 0, 0, 0⟩ /- LC_FUSE_STATUS -/,
  ⟨0x2B03, 0x01, 1, .domain, .ro, false, [(96, 96)], 1, 0, 0, 0⟩ /- TRUST_ID_PUB -/,
  ⟨0x2B03, 0x02, 1, .domain, .rw, true, [(0, 4096)], 1, 0, 0, 0⟩ /- TRUST_ID_CERT -/,
  ⟨0x2B03, 0x03, 1, .domain, .ro, false, [(32, 32)], 1, 0, 0, 0⟩ /- DBG_CHALLENGE -/,
  ⟨0x2B03, 0x04, 1, .domain, .wo, false, [(240, 240)], 1, 0, 0, 0⟩ /- DBG_TOKEN -/,
  ⟨0x2B03, 0x05, 1, .u8, .ro, false, [], 1, 0, 0, 0⟩ /- DBG_PERMS -/,
  ⟨0x2B08, 0x01, 1, .u64, .rw, false, [], 268435456, 0, 0, 0⟩ /- DR_BASE -/,
  ⟨0x2B08, 0x02, 1, .u8, .rw, false, [(0, 32)], 1, 0, 0, 0⟩ /- DR_SIZE -/,
  ⟨0x2B08, 0x03, 1, .bool, .wo, false, [(0, 1)], 1, 0, 0, 0⟩ /- DR_SEAL -/,
  ⟨0x2B08, 0x04, 1, .bool, .so, false, [(0, 1)], 1, 0, 0, 0⟩ /- DR_UNSEAL -/,
  ⟨0x2B08, 0x05, 1, .enum8, .ro, false, [(0, 2)], 1, 0, 0, 0⟩ /- DR_STATE -/,
  ⟨0x2B08, 0x06, 1, .domain, .ro, false, [(48, 48)], 1, 0, 0, 0⟩ /- DR_MEASUREMENT -/,
  ⟨0x2B08, 0x07, 1, .t128, .ro, false, [], 1, 0, 0, 0⟩ /- DR_SEAL_TIME -/,
  ⟨0x2B08, 0x08, 1, .u64, .rw, false, [], 268435456, 0, 0, 0⟩ /- DW_BASE -/,
  ⟨0x2B08, 0x09, 1, .u8, .rw, false, [(0, 32)], 1, 0, 0, 0⟩ /- DW_SIZE -/,
  ⟨0x2B10, 0x01, 1, .enum8, .wo, false, [(1, 3)], 1, 0, 0, 0⟩ /- LEASE_CMD -/,
  ⟨0x2B10, 0x02, 1, .u32, .rw, true, [], 1, 0, 0, 0⟩ /- LEASE_ID -/,
  ⟨0x2B10, 0x03, 1, .domain, .rw, true, [(48, 48)], 1, 0, 0, 0⟩ /- LEASE_NONCE -/,
  ⟨0x2B10, 0x04, 1, .u16, .rw, false, [(0, 500)], 1, 0, 0, 0⟩ /- LEASE_EXPORT_BUDGET -/,
  ⟨0x2B10, 0x05, 1, .bool, .so, false, [(0, 1)], 1, 0, 0, 0⟩ /- LEASE_PREEMPT -/,
  ⟨0x2B10, 0x06, 1, .domain, .ro, false, [(512, 512)], 1, 0, 0, 0⟩ /- LEASE_REPORT -/,
  ⟨0x2B10, 0x07, 1, .u32, .ro, false, [], 1, 0, 0, 0⟩ /- LEASE_REPORT_SEQ -/,
  ⟨0x2B10, 0x08, 1, .u8, .rw, false, [(0, 63), (255, 255)], 1, 0, 255, 0⟩ /- LEASE_REPORT_VECTOR -/,
  ⟨0x2B10, 0x09, 1, .u32, .rw, false, [(0, 0)], 1, 0, 0, 0⟩ /- LEASES -/,
  ⟨0x2B10, 0x0A, 1, .u32, .rw, false, [(0, 0)], 1, 0, 0, 0⟩ /- LEASE_PREEMPTIONS -/,
  ⟨0x2B10, 0x0B, 1, .u32, .rw, false, [(0, 0)], 1, 0, 0, 0⟩ /- LEASE_EXTRA_TRIGGERS -/,
  ⟨0x2C00, 0x01, 1, .bool, .ro, false, [(0, 1)], 1, 0, 0, 0⟩ /- PIN_IO33_GOOD -/,
  ⟨0x2C00, 0x02, 1, .u32, .rw, false, [(0, 0)], 1, 0, 0, 0⟩ /- PIN_CLK32K_LOSSES -/,
  ⟨0x2C10, 0x01, 4, .u8, .rw, false, [], 1, 0, 0, 0⟩ /- TPIN_OWNER -/,
  ⟨0x2C10, 0x02, 4, .enum8, .rw, false, [(0, 2)], 1, 0, 0, 0⟩ /- TPIN_FUNC -/,
  ⟨0x2C10, 0x03, 4, .bool, .rw, false, [(0, 1)], 1, 0, 0, 0⟩ /- TPIN_LEVEL -/,
  ⟨0x2C10, 0x04, 4, .enum8, .rw, false, [(0, 1)], 1, 0, 0, 0⟩ /- TPIN_DRIVE -/,
  ⟨0x2C20, 0x01, 2, .u8, .rw, false, [], 1, 0, 0, 0⟩ /- OBS_OWNER -/,
  ⟨0x2C20, 0x02, 2, .bool, .rw, false, [(0, 1)], 1, 0, 0, 0⟩ /- OBS_ENABLE -/,
  ⟨0x2C20, 0x03, 2, .u16, .rw, false, [], 1, 0, 0, 0⟩ /- OBS_SELECT -/,
  ⟨0x2C30, 0x01, 1, .enum8, .ro, false, [(0, 2)], 1, 0, 0, 0⟩ /- JTAG_ACCESS -/,
  ⟨0x2C30, 0x02, 1, .u32, .ro, false, [], 1, 0, 344155027, 0⟩ /- JTAG_IDCODE -/]

/-- Every object of the dictionary but the sub-indices 0 of R407. -/
def objects : List Obj := objects0 ++ objects1 ++ objects2 ++ objects3 ++ objects4 ++ objects5 ++ objects6 ++ objects7 ++ objects8 ++ objects9 ++ objects10 ++ objects11 ++ objects12

namespace Regs

/-- TIME_NOW (R64). -/
def timeNow : Reg := ⟨0x220001, 0⟩
/-- TIME_ACTIVE_DOMAIN (R64). -/
def timeActiveDomain : Reg := ⟨0x220002, 0⟩
/-- TIME_SWITCH_AUTO (R64). -/
def timeSwitchAuto : Reg := ⟨0x220003, 1⟩
/-- TIME_SWITCH_LIMIT (R64). -/
def timeSwitchLimit : Reg := ⟨0x220004, 1000⟩
/-- TIME_SLEW_RATE (R64). -/
def timeSlewRate : Reg := ⟨0x220005, 10⟩
/-- TIME_FORCE_SWITCH (R64). -/
def timeForceSwitch : Reg := ⟨0x220006, 0⟩
/-- TIME_STEP_LIMIT (R64). -/
def timeStepLimit : Reg := ⟨0x220007, 50000⟩
/-- TIME_LAST_STEP (R64). -/
def timeLastStep : Reg := ⟨0x220008, 0⟩
/-- TIME_HOLDOVER_RATE (R64). -/
def timeHoldoverRate : Reg := ⟨0x220009, 2⟩
/-- TIME_SWITCH_REFUSALS (R64). -/
def timeSwitchRefusals : Reg := ⟨0x22000A, 0⟩
/-- TIME_TAP_ERRORS (R64). -/
def timeTapErrors : Reg := ⟨0x22000B, 0⟩
/-- TD_SOURCE (R64). -/
def tdSource (k : Nat) : Reg := ⟨0x220101 + k * 256, 0⟩
/-- TD_GPTP_DOMAIN (R64). -/
def tdGptpDomain (k : Nat) : Reg := ⟨0x220102 + k * 256, k⟩
/-- TD_SLAVE_PORT (R64). -/
def tdSlavePort (k : Nat) : Reg := ⟨0x220103 + k * 256, k⟩
/-- TD_STATE (R64). -/
def tdState (k : Nat) : Reg := ⟨0x220104 + k * 256, 0⟩
/-- TD_OFFSET (R64). -/
def tdOffset (k : Nat) : Reg := ⟨0x220105 + k * 256, 0⟩
/-- TD_RATE (R64). -/
def tdRate (k : Nat) : Reg := ⟨0x220106 + k * 256, 0⟩
/-- TD_UNCERTAINTY (R64). -/
def tdUncertainty (k : Nat) : Reg := ⟨0x220107 + k * 256, 18446744073709551615⟩
/-- TD_NOW (R64). -/
def tdNow (k : Nat) : Reg := ⟨0x220108 + k * 256, 0⟩
/-- TD_LOG_SYNC_INTERVAL (R64). -/
def tdLogSyncInterval (k : Nat) : Reg := ⟨0x220109 + k * 256, 253⟩
/-- TD_SYNC_TIMEOUT (R64). -/
def tdSyncTimeout (k : Nat) : Reg := ⟨0x22010A + k * 256, 3⟩
/-- TD_LOG_PDELAY_INTERVAL (R64). -/
def tdLogPdelayInterval (k : Nat) : Reg := ⟨0x22010B + k * 256, 0⟩
/-- TD_SYNC_TIMEOUTS (R64). -/
def tdSyncTimeouts (k : Nat) : Reg := ⟨0x22010C + k * 256, 0⟩
/-- TD_LOCK_LOSSES (R64). -/
def tdLockLosses (k : Nat) : Reg := ⟨0x22010D + k * 256, 0⟩
/-- ETH_RX_LAT (R65). -/
def ethRxLat (k : Nat) : Reg := ⟨0x220301 + k, 0⟩
/-- ETH_TX_LAT (R65). -/
def ethTxLat (k : Nat) : Reg := ⟨0x220305 + k, 0⟩
/-- CSI_LAT (R65). -/
def csiLat (k : Nat) : Reg := ⟨0x220309 + k, 0⟩
/-- SPI_DRDY_LAT (R65). -/
def spiDrdyLat (k : Nat) : Reg := ⟨0x22030F + k, 0⟩
/-- CAN_SOF_LAT (R65). -/
def canSofLat : Reg := ⟨0x220315, 0⟩
/-- SLEEP_CLOCK_SRC (R65). -/
def sleepClockSrc : Reg := ⟨0x220401, 0⟩
/-- SLEEP_CORR (R65). -/
def sleepCorr : Reg := ⟨0x220402, 0⟩
/-- SLEEP_CORR_VALID (R65). -/
def sleepCorrValid : Reg := ⟨0x220403, 0⟩
/-- SLEEP_UNC_RATE (R65). -/
def sleepUncRate : Reg := ⟨0x220404, 50⟩
/-- SLEEP_ENTRY_TIME (R65). -/
def sleepEntryTime : Reg := ⟨0x220405, 0⟩
/-- SLEEP_ENTRY_COUNT (R65). -/
def sleepEntryCount : Reg := ⟨0x220406, 0⟩
/-- SLEEP_WAKE_COUNT (R65). -/
def sleepWakeCount : Reg := ⟨0x220407, 0⟩
/-- SLEEP_COUNT_NOW (R65). -/
def sleepCountNow : Reg := ⟨0x220408, 0⟩
/-- RELOCK_STEP (R65). -/
def relockStep : Reg := ⟨0x220409, 0⟩
/-- COAST_VIOLATIONS (R65). -/
def coastViolations : Reg := ⟨0x22040A, 0⟩
/-- ALARM_OWNER (R66). -/
def alarmOwner (k : Nat) : Reg := ⟨0x221001 + k * 256, 0⟩
/-- ALARM_TARGET (R66). -/
def alarmTarget (k : Nat) : Reg := ⟨0x221002 + k * 256, 0⟩
/-- ALARM_PERIOD (R66). -/
def alarmPeriod (k : Nat) : Reg := ⟨0x221003 + k * 256, 0⟩
/-- ALARM_ACTION (R66). -/
def alarmAction (k : Nat) : Reg := ⟨0x221004 + k * 256, 0⟩
/-- ALARM_VECTOR (R66). -/
def alarmVector (k : Nat) : Reg := ⟨0x221005 + k * 256, 0⟩
/-- ALARM_ARM (R66). -/
def alarmArm (k : Nat) : Reg := ⟨0x221006 + k * 256, 0⟩
/-- ALARM_FIRED (R66). -/
def alarmFired (k : Nat) : Reg := ⟨0x221007 + k * 256, 0⟩
/-- ALARM_LATE (R66). -/
def alarmLate (k : Nat) : Reg := ⟨0x221008 + k * 256, 0⟩
/-- TRIG_OWNER (R66). -/
def trigOwner (k : Nat) : Reg := ⟨0x221801 + k * 256, 0⟩
/-- TRIG_START (R66). -/
def trigStart (k : Nat) : Reg := ⟨0x221802 + k * 256, 0⟩
/-- TRIG_PERIOD (R66). -/
def trigPeriod (k : Nat) : Reg := ⟨0x221803 + k * 256, 33333333⟩
/-- TRIG_WIDTH (R66). -/
def trigWidth (k : Nat) : Reg := ⟨0x221804 + k * 256, 1000⟩
/-- TRIG_COUNT (R66). -/
def trigCount (k : Nat) : Reg := ⟨0x221805 + k * 256, 0⟩
/-- TRIG_POLARITY (R66). -/
def trigPolarity (k : Nat) : Reg := ⟨0x221806 + k * 256, 0⟩
/-- TRIG_ENABLE (R66). -/
def trigEnable (k : Nat) : Reg := ⟨0x221807 + k * 256, 0⟩
/-- TRIG_PULSES (R66). -/
def trigPulses (k : Nat) : Reg := ⟨0x221808 + k * 256, 0⟩
/-- PPS_OUT_OWNER (R66). -/
def ppsOutOwner (k : Nat) : Reg := ⟨0x221C01 + k * 256, 0⟩
/-- PPS_OUT_WIDTH (R66). -/
def ppsOutWidth (k : Nat) : Reg := ⟨0x221C02 + k * 256, 10000⟩
/-- PPS_OUT_GATING (R66). -/
def ppsOutGating (k : Nat) : Reg := ⟨0x221C03 + k * 256, 1⟩
/-- PPS_OUT_ENABLE (R66). -/
def ppsOutEnable (k : Nat) : Reg := ⟨0x221C04 + k * 256, 0⟩
/-- PPS_IN_OWNER (R66). -/
def ppsInOwner : Reg := ⟨0x221E01, 0⟩
/-- PPS_IN_LAST (R66). -/
def ppsInLast : Reg := ⟨0x221E02, 0⟩
/-- PPS_IN_POLARITY (R66). -/
def ppsInPolarity : Reg := ⟨0x221E03, 0⟩
/-- PPS_IN_EDGES (R66). -/
def ppsInEdges : Reg := ⟨0x221E04, 0⟩
/-- PPS_IN_REJECTS (R66). -/
def ppsInRejects : Reg := ⟨0x221E05, 0⟩
/-- LQ_OWNER (R66). -/
def lqOwner (k : Nat) : Reg := ⟨0x222001 + k * 256, 0⟩
/-- LQ_LATE_LIMIT (R66). -/
def lqLateLimit (k : Nat) : Reg := ⟨0x222002 + k * 256, 10000⟩
/-- LQ_SENT (R66). -/
def lqSent (k : Nat) : Reg := ⟨0x222003 + k * 256, 0⟩
/-- LQ_LATE_SENT (R66). -/
def lqLateSent (k : Nat) : Reg := ⟨0x222004 + k * 256, 0⟩
/-- LQ_LATE_DROP (R66). -/
def lqLateDrop (k : Nat) : Reg := ⟨0x222005 + k * 256, 0⟩
/-- LQ_DEPTH (R66). -/
def lqDepth (k : Nat) : Reg := ⟨0x222006 + k * 256, 0⟩
/-- LQ_FLUSH (R66). -/
def lqFlush (k : Nat) : Reg := ⟨0x222007 + k * 256, 0⟩
/-- LQ_FLUSHED (R66). -/
def lqFlushed (k : Nat) : Reg := ⟨0x222008 + k * 256, 0⟩
/-- STREAM_ENABLE (R99). -/
def streamEnable (k : Nat) : Reg := ⟨0x230001 + k * 256, 0⟩
/-- STREAM_PRIORITY (R99). -/
def streamPriority (k : Nat) : Reg := ⟨0x230002 + k * 256, 4⟩
/-- STREAM_QBASE (R99). -/
def streamQbase (k : Nat) : Reg := ⟨0x230003 + k * 256, 0⟩
/-- STREAM_SLOT_SIZE (R99). -/
def streamSlotSize (k : Nat) : Reg := ⟨0x230004 + k * 256, 0⟩
/-- STREAM_SLOT_COUNT (R99). -/
def streamSlotCount (k : Nat) : Reg := ⟨0x230005 + k * 256, 0⟩
/-- STREAM_FLUSH (R99). -/
def streamFlush (k : Nat) : Reg := ⟨0x230006 + k * 256, 0⟩
/-- STREAM_DEPTH (R99). -/
def streamDepth (k : Nat) : Reg := ⟨0x230007 + k * 256, 0⟩
/-- STREAM_ITEMS (R99). -/
def streamItems (k : Nat) : Reg := ⟨0x230008 + k * 256, 0⟩
/-- STREAM_LOST_ITEMS (R99). -/
def streamLostItems (k : Nat) : Reg := ⟨0x230009 + k * 256, 0⟩
/-- STREAM_FLUSHED (R99). -/
def streamFlushed (k : Nat) : Reg := ⟨0x23000A + k * 256, 0⟩
/-- STREAM_FLUSH_DISCARDS (R99). -/
def streamFlushDiscards (k : Nat) : Reg := ⟨0x23000B + k * 256, 0⟩
/-- STREAM_CONGEST_DROPS (R99). -/
def streamCongestDrops (k : Nat) : Reg := ⟨0x23000C + k * 256, 0⟩
/-- STREAM_BAD_ITEMS (R99). -/
def streamBadItems (k : Nat) : Reg := ⟨0x23000D + k * 256, 0⟩
/-- STREAM_LAST_TIME (R99). -/
def streamLastTime (k : Nat) : Reg := ⟨0x23000E + k * 256, 0⟩
/-- CAM_VC (R100). -/
def camVc (k : Nat) : Reg := ⟨0x230010 + k * 256, 0⟩
/-- CAM_DT (R100). -/
def camDt (k : Nat) : Reg := ⟨0x230011 + k * 256, 44⟩
/-- CAM_LINE_TIMES (R100). -/
def camLineTimes (k : Nat) : Reg := ⟨0x230012 + k * 256, 0⟩
/-- CAM_MAX_LINES (R100). -/
def camMaxLines (k : Nat) : Reg := ⟨0x230013 + k * 256, 1080⟩
/-- CAM_LINE_BYTES (R100). -/
def camLineBytes (k : Nat) : Reg := ⟨0x230014 + k * 256, 3840⟩
/-- SCN_TEMPLATE (R100). -/
def scnTemplate (k : Nat) : Reg := ⟨0x231810 + k * 256, 0⟩
/-- SCN_SRC_MAC (R100). -/
def scnSrcMac (k : Nat) : Reg := ⟨0x231811 + k * 256, 0⟩
/-- SCN_VLAN (R100). -/
def scnVlan (k : Nat) : Reg := ⟨0x231812 + k * 256, 65535⟩
/-- SCN_TIME_PLAUS (R100). -/
def scnTimePlaus (k : Nat) : Reg := ⟨0x231813 + k * 256, 1000000⟩
/-- SCN_SWEEP (R100). -/
def scnSweep (k : Nat) : Reg := ⟨0x231814 + k * 256, 0⟩
/-- IMU_SPI_MODE (R100). -/
def imuSpiMode (k : Nat) : Reg := ⟨0x232410 + k * 256, 3⟩
/-- IMU_SCLK (R100). -/
def imuSclk (k : Nat) : Reg := ⟨0x232411 + k * 256, 10000⟩
/-- IMU_DRDY_POL (R100). -/
def imuDrdyPol (k : Nat) : Reg := ⟨0x232412 + k * 256, 0⟩
/-- IMU_READ_LEN (R100). -/
def imuReadLen (k : Nat) : Reg := ⟨0x232414 + k * 256, 16⟩
/-- IMU_DRDY_OVERRUNS (R100). -/
def imuDrdyOverruns (k : Nat) : Reg := ⟨0x232416 + k * 256, 0⟩
/-- CANF_FILTER (R100). -/
def canfFilter (k : Nat) : Reg := ⟨0x232A10 + k, 0⟩
/-- CSI_LANES (R101). -/
def csiLanes (k : Nat) : Reg := ⟨0x233001 + k * 256, 4⟩
/-- CSI_RATE (R101). -/
def csiRate (k : Nat) : Reg := ⟨0x233002 + k * 256, 2500⟩
/-- CSI_ECC_CORRECTED (R101). -/
def csiEccCorrected (k : Nat) : Reg := ⟨0x233003 + k * 256, 0⟩
/-- CSI_ECC_ERRORS (R101). -/
def csiEccErrors (k : Nat) : Reg := ⟨0x233004 + k * 256, 0⟩
/-- CSI_CRC_ERRORS (R101). -/
def csiCrcErrors (k : Nat) : Reg := ⟨0x233005 + k * 256, 0⟩
/-- CSI_UNMATCHED (R101). -/
def csiUnmatched (k : Nat) : Reg := ⟨0x233006 + k * 256, 0⟩
/-- ETH_MODE (R101). -/
def ethMode (k : Nat) : Reg := ⟨0x233801 + k * 256, 0⟩
/-- ETH_RATE (R101). -/
def ethRate (k : Nat) : Reg := ⟨0x233802 + k * 256, 0⟩
/-- ETH_MAC_ADDR (R101). -/
def ethMacAddr (k : Nat) : Reg := ⟨0x233803 + k * 256, 0⟩
/-- ETH_HOST_RX (R101). -/
def ethHostRx (k : Nat) : Reg := ⟨0x233804 + k * 256, 0⟩
/-- ETH_FCS_ERRORS (R101). -/
def ethFcsErrors (k : Nat) : Reg := ⟨0x233805 + k * 256, 0⟩
/-- ETH_UNMATCHED (R101). -/
def ethUnmatched (k : Nat) : Reg := ⟨0x233806 + k * 256, 0⟩
/-- ETH_FRAGMENTS (R101). -/
def ethFragments (k : Nat) : Reg := ⟨0x233807 + k * 256, 0⟩
/-- ETH_PAUSE_DISCARDED (R101). -/
def ethPauseDiscarded (k : Nat) : Reg := ⟨0x233808 + k * 256, 0⟩
/-- ETH_LINK_UP (R101). -/
def ethLinkUp (k : Nat) : Reg := ⟨0x233809 + k * 256, 0⟩
/-- ETH_TX_LAST_STAMP (R101). -/
def ethTxLastStamp (k : Nat) : Reg := ⟨0x23380A + k * 256, 0⟩
/-- ETH_HRX_QBASE (R101). -/
def ethHrxQbase (k : Nat) : Reg := ⟨0x23380B + k * 256, 0⟩
/-- ETH_HRX_SLOT_COUNT (R101). -/
def ethHrxSlotCount (k : Nat) : Reg := ⟨0x23380C + k * 256, 0⟩
/-- ETH_TX_FLUSH (R101). -/
def ethTxFlush (k : Nat) : Reg := ⟨0x23380D + k * 256, 0⟩
/-- ETH_HRX_LOST (R101). -/
def ethHrxLost (k : Nat) : Reg := ⟨0x23380E + k * 256, 0⟩
/-- CAN_NOMINAL_RATE (R101). -/
def canNominalRate : Reg := ⟨0x233C01, 500000⟩
/-- CAN_DATA_RATE (R101). -/
def canDataRate : Reg := ⟨0x233C02, 2000000⟩
/-- CAN_MODE (R101). -/
def canMode : Reg := ⟨0x233C03, 0⟩
/-- CAN_ERROR_FRAMES (R101). -/
def canErrorFrames : Reg := ⟨0x233C04, 0⟩
/-- CAN_BUS_OFF (R101). -/
def canBusOff : Reg := ⟨0x233C05, 0⟩
/-- CAN_UNMATCHED (R101). -/
def canUnmatched : Reg := ⟨0x233C06, 0⟩
/-- TPL_VALID (R101). -/
def tplValid (k : Nat) : Reg := ⟨0x234002 + k * 256, 0⟩
/-- PG_EPOCH_PERIOD (R142). -/
def pgEpochPeriod : Reg := ⟨0x240001, 20000⟩
/-- PG_POINT_BUDGET (R142). -/
def pgPointBudget : Reg := ⟨0x240002, 4194304⟩
/-- PG_DECAY_HALFLIFE (R142). -/
def pgDecayHalflife : Reg := ⟨0x240003, 0⟩
/-- PG_SEED (R142). -/
def pgSeed : Reg := ⟨0x240004, 1⟩
/-- PG_EPOCH_SEQ (R142). -/
def pgEpochSeq : Reg := ⟨0x240005, 0⟩
/-- PG_EPOCHS (R142). -/
def pgEpochs : Reg := ⟨0x240006, 0⟩
/-- PG_LOSS_EPOCHS (R142). -/
def pgLossEpochs : Reg := ⟨0x240007, 0⟩
/-- PG_LABEL_OVERFLOWS (R142). -/
def pgLabelOverflows : Reg := ⟨0x240008, 0⟩
/-- GRID_ENABLE (R142). -/
def gridEnable (k : Nat) : Reg := ⟨0x240101 + k * 256, 1 - k⟩
/-- GRID_NX (R142). -/
def gridNx (k : Nat) : Reg := ⟨0x240102 + k * 256, 512⟩
/-- GRID_NY (R142). -/
def gridNy (k : Nat) : Reg := ⟨0x240103 + k * 256, 512⟩
/-- GRID_CELL (R142). -/
def gridCell (k : Nat) : Reg := ⟨0x240104 + k * 256, 1045220557⟩
/-- GRID_X0 (R142). -/
def gridX0 (k : Nat) : Reg := ⟨0x240105 + k * 256, 3259813069⟩
/-- GRID_Y0 (R142). -/
def gridY0 (k : Nat) : Reg := ⟨0x240106 + k * 256, 3259813069⟩
/-- GRID_ZMIN (R142). -/
def gridZmin (k : Nat) : Reg := ⟨0x240107 + k * 256, 3225419776⟩
/-- GRID_ZMAX (R142). -/
def gridZmax (k : Nat) : Reg := ⟨0x240108 + k * 256, 1084227584⟩
/-- GRID_MAX_PILLARS (R142). -/
def gridMaxPillars (k : Nat) : Reg := ⟨0x240109 + k * 256, 262144⟩
/-- GRID_POINTS_PER_PILLAR (R142). -/
def gridPointsPerPillar (k : Nat) : Reg := ⟨0x24010A + k * 256, 32⟩
/-- GRID_SPILL_EPOCHS (R142). -/
def gridSpillEpochs (k : Nat) : Reg := ⟨0x24010B + k * 256, 0⟩
/-- POSE_SOURCE (R142). -/
def poseSource : Reg := ⟨0x240301, 0⟩
/-- POSE_IMU_STREAM (R142). -/
def poseImuStream : Reg := ⟨0x240302, 36⟩
/-- POSE_WHEEL_STREAM (R142). -/
def poseWheelStream : Reg := ⟨0x240303, 42⟩
/-- POSE_WHEEL_SIGNALS (R142). -/
def poseWheelSignals : Reg := ⟨0x240304, 3⟩
/-- POSE_EXTRAP_LIMIT (R142). -/
def poseExtrapLimit : Reg := ⟨0x240307, 5000⟩
/-- POSE_IMU_STALE_TICKS (R142). -/
def poseImuStaleTicks : Reg := ⟨0x240309, 0⟩
/-- POSE_WHEEL_STALE_TICKS (R142). -/
def poseWheelStaleTicks : Reg := ⟨0x24030A, 0⟩
/-- PGS_SLICES (R143). -/
def pgsSlices (k : Nat) : Reg := ⟨0x241001 + k * 256, 64⟩
/-- PGS_SWEEP_PERIOD (R143). -/
def pgsSweepPeriod (k : Nat) : Reg := ⟨0x241002 + k * 256, 100000⟩
/-- PGS_CARRY (R143). -/
def pgsCarry (k : Nat) : Reg := ⟨0x241004 + k * 256, 0⟩
/-- PGS_CLAMPED (R143). -/
def pgsClamped (k : Nat) : Reg := ⟨0x241005 + k * 256, 0⟩
/-- SR_SEED (R166). -/
def srSeed (k : Nat) : Reg := ⟨0x254001 + k * 256, 1 + k⟩
/-- SR_STATE (R166). -/
def srState (k : Nat) : Reg := ⟨0x254002 + k * 256, 1 + k⟩
/-- ACC_INEXACT (R166). -/
def accInexact (k : Nat) : Reg := ⟨0x254003 + k * 256, 0⟩
/-- NAN_OUT (R166). -/
def nanOut (k : Nat) : Reg := ⟨0x254004 + k * 256, 0⟩
/-- OVERFLOW_OUT (R166). -/
def overflowOut (k : Nat) : Reg := ⟨0x254005 + k * 256, 0⟩
/-- GAFFER_PRESENT (R187). -/
def gafferPresent : Reg := ⟨0x250001, 4294967295⟩
/-- GAFFER_FENCE (R187). -/
def gafferFence : Reg := ⟨0x250002, 0⟩
/-- CHAIR_FORMED (R187). -/
def chairFormed : Reg := ⟨0x250003, 0⟩
/-- GAFFER_IDLE (R187). -/
def gafferIdle : Reg := ⟨0x250004, 4294967295⟩
/-- CHAIR_REFUSALS (R187). -/
def chairRefusals : Reg := ⟨0x250005, 0⟩
/-- GAFFER_LEVEL (R187). -/
def gafferLevel (k : Nat) : Reg := ⟨0x252001 + k * 256, 5⟩
/-- GAFFER_LEVEL_NOW (R187). -/
def gafferLevelNow (k : Nat) : Reg := ⟨0x252002 + k * 256, 5⟩
/-- GAFFER_FENCE_CAUSE (R187). -/
def gafferFenceCause (k : Nat) : Reg := ⟨0x252003 + k * 256, 0⟩
/-- GAFFER_FENCES (R187). -/
def gafferFences (k : Nat) : Reg := ⟨0x252004 + k * 256, 0⟩
/-- SPAD_WAIT_CYCLES (R187). -/
def spadWaitCycles (k : Nat) : Reg := ⟨0x252005 + k * 256, 0⟩
/-- ARRAY_BUSY_CYCLES (R187). -/
def arrayBusyCycles (k : Nat) : Reg := ⟨0x252006 + k * 256, 0⟩
/-- ARRAY_IDLE_B_CYCLES (R187). -/
def arrayIdleBCycles (k : Nat) : Reg := ⟨0x252007 + k * 256, 0⟩
/-- RING_TARGET (R220). -/
def ringTarget (k : Nat) : Reg := ⟨0x294001 + k * 256, 255⟩
/-- RING_FLUSH (R220). -/
def ringFlush (k : Nat) : Reg := ⟨0x294002 + k * 256, 0⟩
/-- RING_ITEMS_ACCEPTED (R220). -/
def ringItemsAccepted (k : Nat) : Reg := ⟨0x294003 + k * 256, 0⟩
/-- RING_ITEMS_COMPLETED (R220). -/
def ringItemsCompleted (k : Nat) : Reg := ⟨0x294004 + k * 256, 0⟩
/-- RING_FLUSH_SKIPPED (R220). -/
def ringFlushSkipped (k : Nat) : Reg := ⟨0x294005 + k * 256, 0⟩
/-- RING_FLUSH_DISCARDS (R220). -/
def ringFlushDiscards (k : Nat) : Reg := ⟨0x294006 + k * 256, 0⟩
/-- RING_PREEMPTIONS (R220). -/
def ringPreemptions (k : Nat) : Reg := ⟨0x294007 + k * 256, 0⟩
/-- RING_INFLIGHT (R220). -/
def ringInflight (k : Nat) : Reg := ⟨0x294008 + k * 256, 0⟩
/-- RING_BAD_CHAIN (R220). -/
def ringBadChain (k : Nat) : Reg := ⟨0x294009 + k * 256, 0⟩
/-- SEM_SATURATIONS (R220). -/
def semSaturations (k : Nat) : Reg := ⟨0x252009 + k * 256, 0⟩
/-- SEM_WAITS_PENDING (R220). -/
def semWaitsPending (k : Nat) : Reg := ⟨0x25200A + k * 256, 0⟩
/-- IQ_OWNER (R221). -/
def iqOwner (k : Nat) : Reg := ⟨0x298001 + k * 256, 0⟩
/-- IQ_ENABLE (R221). -/
def iqEnable (k : Nat) : Reg := ⟨0x298002 + k * 256, 0⟩
/-- IQ_BASE (R221). -/
def iqBase (k : Nat) : Reg := ⟨0x298003 + k * 256, 0⟩
/-- IQ_SLOT_SIZE (R221). -/
def iqSlotSize (k : Nat) : Reg := ⟨0x298004 + k * 256, 0⟩
/-- IQ_SLOT_COUNT (R221). -/
def iqSlotCount (k : Nat) : Reg := ⟨0x298005 + k * 256, 0⟩
/-- IQ_FLUSH (R221). -/
def iqFlush (k : Nat) : Reg := ⟨0x298006 + k * 256, 0⟩
/-- IQ_DEPTH (R221). -/
def iqDepth (k : Nat) : Reg := ⟨0x298007 + k * 256, 0⟩
/-- IQ_ITEMS (R221). -/
def iqItems (k : Nat) : Reg := ⟨0x298008 + k * 256, 0⟩
/-- IQ_FLUSHED (R221). -/
def iqFlushed (k : Nat) : Reg := ⟨0x298009 + k * 256, 0⟩
/-- IQ_FLUSH_DISCARDS (R221). -/
def iqFlushDiscards (k : Nat) : Reg := ⟨0x29800A + k * 256, 0⟩
/-- IQ_FULL_WAITS (R221). -/
def iqFullWaits (k : Nat) : Reg := ⟨0x29800B + k * 256, 0⟩
/-- MV_ITEMS (R244). -/
def mvItems (k : Nat) : Reg := ⟨0x270001 + k * 256, 0⟩
/-- MV_ELEMENTS (R244). -/
def mvElements (k : Nat) : Reg := ⟨0x270002 + k * 256, 0⟩
/-- MV_PAD_ELEMENTS (R244). -/
def mvPadElements (k : Nat) : Reg := ⟨0x270003 + k * 256, 0⟩
/-- MV_PAD_SKIPPED (R244). -/
def mvPadSkipped (k : Nat) : Reg := ⟨0x270004 + k * 256, 0⟩
/-- MV_OOB_ENTRIES (R244). -/
def mvOobEntries (k : Nat) : Reg := ⟨0x270005 + k * 256, 0⟩
/-- MV_BUSY_CYCLES (R244). -/
def mvBusyCycles (k : Nat) : Reg := ⟨0x270006 + k * 256, 0⟩
/-- MV_NAN_OUT (R244). -/
def mvNanOut (k : Nat) : Reg := ⟨0x270007 + k * 256, 0⟩
/-- MV_OVERFLOW_OUT (R244). -/
def mvOverflowOut (k : Nat) : Reg := ⟨0x270008 + k * 256, 0⟩
/-- MV_LINE_HITS (R244). -/
def mvLineHits (k : Nat) : Reg := ⟨0x270009 + k * 256, 0⟩
/-- MV_LINE_READS (R244). -/
def mvLineReads (k : Nat) : Reg := ⟨0x27000A + k * 256, 0⟩
/-- MV_SCATTER_COLLISIONS (R244). -/
def mvScatterCollisions (k : Nat) : Reg := ⟨0x27000B + k * 256, 0⟩
/-- KV_L2_BASE (R277). -/
def kvL2Base : Reg := ⟨0x260001, 0⟩
/-- KV_L2_COUNT (R277). -/
def kvL2Count : Reg := ⟨0x260002, 0⟩
/-- KV_L2_FREE (R277). -/
def kvL2Free : Reg := ⟨0x260003, 0⟩
/-- KV_SEQ_ACTIVE (R277). -/
def kvSeqActive : Reg := ⟨0x260004, 0⟩
/-- ATT_PREFILL_GAFFERS (R277). -/
def attPrefillGaffers : Reg := ⟨0x260005, 4294967295⟩
/-- ATT_DECODE_GAFFERS (R277). -/
def attDecodeGaffers : Reg := ⟨0x260006, 4294967295⟩
/-- ATT_EMPTY_ROWS (R277). -/
def attEmptyRows : Reg := ⟨0x260007, 0⟩
/-- KV_FLUSHES (R277). -/
def kvFlushes : Reg := ⟨0x260008, 0⟩
/-- KV_SEALED (R277). -/
def kvSealed : Reg := ⟨0x260009, 0⟩
/-- ATT_PAGES_SKIPPED (R277). -/
def attPagesSkipped : Reg := ⟨0x26000A, 0⟩
/-- ATT_PAGES_READ (R277). -/
def attPagesRead : Reg := ⟨0x26000B, 0⟩
/-- KV_XLATE_MISSES (R277). -/
def kvXlateMisses : Reg := ⟨0x26000C, 0⟩
/-- KVP_ENABLE (R277). -/
def kvpEnable (k : Nat) : Reg := ⟨0x261001 + k * 256, 0⟩
/-- KVP_BASE (R277). -/
def kvpBase (k : Nat) : Reg := ⟨0x261002 + k * 256, 0⟩
/-- KVP_FRAMES (R277). -/
def kvpFrames (k : Nat) : Reg := ⟨0x261003 + k * 256, 0⟩
/-- KVP_FORMAT (R277). -/
def kvpFormat (k : Nat) : Reg := ⟨0x261004 + k * 256, 3⟩
/-- KVP_LAYERS (R277). -/
def kvpLayers (k : Nat) : Reg := ⟨0x261005 + k * 256, 32⟩
/-- KVP_HEADS (R277). -/
def kvpHeads (k : Nat) : Reg := ⟨0x261006 + k * 256, 8⟩
/-- KVP_DIM (R277). -/
def kvpDim (k : Nat) : Reg := ⟨0x261007 + k * 256, 128⟩
/-- KVP_FRAME_SIZE (R277). -/
def kvpFrameSize (k : Nat) : Reg := ⟨0x261008 + k * 256, 1081344⟩
/-- KVP_FREE_FRAMES (R277). -/
def kvpFreeFrames (k : Nat) : Reg := ⟨0x261009 + k * 256, 0⟩
/-- KVP_ALLOC_FAILS (R277). -/
def kvpAllocFails (k : Nat) : Reg := ⟨0x26100A + k * 256, 0⟩
/-- KVP_META_BASE (R303). -/
def kvpMetaBase (k : Nat) : Reg := ⟨0x26100B + k * 256, 0⟩
/-- KVP_SALT (R303). -/
def kvpSalt (k : Nat) : Reg := ⟨0x26100C + k * 256, 0⟩
/-- KVP_SWAP_BASE (R303). -/
def kvpSwapBase (k : Nat) : Reg := ⟨0x26100D + k * 256, 0⟩
/-- KVP_SWAP_SLOTS (R303). -/
def kvpSwapSlots (k : Nat) : Reg := ⟨0x26100E + k * 256, 0⟩
/-- KVP_SWAP_SLOT_SIZE (R303). -/
def kvpSwapSlotSize (k : Nat) : Reg := ⟨0x26100F + k * 256, 1085440⟩
/-- KVP_DEFERRED_FRAMES (R303). -/
def kvpDeferredFrames (k : Nat) : Reg := ⟨0x261010 + k * 256, 0⟩
/-- ARB_NODES (R303). -/
def arbNodes : Reg := ⟨0x262001, 0⟩
/-- ARB_EPOCH (R303). -/
def arbEpoch : Reg := ⟨0x262002, 0⟩
/-- ARB_COLLISIONS (R303). -/
def arbCollisions : Reg := ⟨0x262004, 0⟩
/-- ARB_HITS (R303). -/
def arbHits : Reg := ⟨0x262005, 0⟩
/-- ARB_COW_COPIES (R303). -/
def arbCowCopies : Reg := ⟨0x262006, 0⟩
/-- ARB_PAGES_OUT (R303). -/
def arbPagesOut : Reg := ⟨0x262007, 0⟩
/-- ARB_PAGES_IN (R303). -/
def arbPagesIn : Reg := ⟨0x262008, 0⟩
/-- ARB_SWAP_CHECK_FAILS (R303). -/
def arbSwapCheckFails : Reg := ⟨0x262009, 0⟩
/-- ARB_EXPORT_DONE (R303). -/
def arbExportDone : Reg := ⟨0x26200B, 0⟩
/-- ARB_EXPORT_ABANDONED (R303). -/
def arbExportAbandoned : Reg := ⟨0x26200C, 255⟩
/-- ARB_TREE_FULL (R303). -/
def arbTreeFull : Reg := ⟨0x26200D, 0⟩
/-- ARB_EXPORT_WRITTEN (R303). -/
def arbExportWritten : Reg := ⟨0x26200E, 0⟩
/-- ARB_EXPORT_STARTED (R303). -/
def arbExportStarted : Reg := ⟨0x26200F, 0⟩
/-- KP_ARMED (R352). -/
def kpArmed : Reg := ⟨0x280001, 0⟩
/-- KP_STATE (R352). -/
def kpState : Reg := ⟨0x280002, 0⟩
/-- KP_WINDOW_K (R352). -/
def kpWindowK : Reg := ⟨0x280003, 3⟩
/-- KP_WINDOW_N (R352). -/
def kpWindowN : Reg := ⟨0x280004, 50⟩
/-- KP_EPOCH_PERIOD (R352). -/
def kpEpochPeriod : Reg := ⟨0x280005, 20000⟩
/-- KP_DEADLINE (R352). -/
def kpDeadline : Reg := ⟨0x280006, 30000⟩
/-- KP_RELEASE_EPOCHS (R352). -/
def kpReleaseEpochs : Reg := ⟨0x280007, 1⟩
/-- KP_RESTART_LIMIT (R352). -/
def kpRestartLimit : Reg := ⟨0x280008, 3⟩
/-- KP_RESTART_WINDOW (R352). -/
def kpRestartWindow : Reg := ⟨0x280009, 600⟩
/-- KP_FORCE_SAFE (R352). -/
def kpForceSafe : Reg := ⟨0x28000A, 0⟩
/-- KP_SAFE_CLEAR (R352). -/
def kpSafeClear : Reg := ⟨0x28000B, 0⟩
/-- KP_HEARTBEAT_HALF (R352). -/
def kpHeartbeatHalf : Reg := ⟨0x28000C, 5⟩
/-- KP_GARDENER_WD (R352). -/
def kpGardenerWd : Reg := ⟨0x28000D, 250⟩
/-- KP_WINDOW_COUNT (R352). -/
def kpWindowCount : Reg := ⟨0x280010, 0⟩
/-- KP_LATCH_CAUSE (R352). -/
def kpLatchCause : Reg := ⟨0x280011, 7⟩
/-- KP_VERDICT_BASE (R352). -/
def kpVerdictBase : Reg := ⟨0x280012, 0⟩
/-- KP_VERDICT_SLOTS (R352). -/
def kpVerdictSlots : Reg := ⟨0x280013, 64⟩
/-- KP_VERDICT_VECTOR (R352). -/
def kpVerdictVector : Reg := ⟨0x280014, 0⟩
/-- KP_INVALID_EPOCHS (R352). -/
def kpInvalidEpochs : Reg := ⟨0x280015, 0⟩
/-- KP_SAFE_ENTRIES (R352). -/
def kpSafeEntries : Reg := ⟨0x280016, 0⟩
/-- KP_LOCKSTEP_MISMATCHES (R352). -/
def kpLockstepMismatches : Reg := ⟨0x280017, 0⟩
/-- KP_GARDENER_RESTARTS (R352). -/
def kpGardenerRestarts : Reg := ⟨0x280018, 0⟩
/-- KP_SAFE_TRIGGERS (R352). -/
def kpSafeTriggers : Reg := ⟨0x280019, 0⟩
/-- KP_RULE_LOGS (R352). -/
def kpRuleLogs : Reg := ⟨0x28001A, 0⟩
/-- KP_RULES_VALID (R353). -/
def kpRulesValid : Reg := ⟨0x281003, 0⟩
/-- KP_RULES_DRIVE_CRC (R353). -/
def kpRulesDriveCrc : Reg := ⟨0x281004, 0⟩
/-- KP_RULES_PARKED_CRC (R353). -/
def kpRulesParkedCrc : Reg := ⟨0x281005, 0⟩
/-- LL_ENABLE (R353). -/
def llEnable : Reg := ⟨0x282001, 1⟩
/-- LL_ROTATION (R353). -/
def llRotation : Reg := ⟨0x282002, 0⟩
/-- LL_DEFERRALS (R353). -/
def llDeferrals : Reg := ⟨0x282003, 0⟩
/-- LL_FORCED (R353). -/
def llForced : Reg := ⟨0x282004, 0⟩
/-- LL_MISSED (R353). -/
def llMissed : Reg := ⟨0x282005, 0⟩
/-- LL_GOLDEN_FAILS (R353). -/
def llGoldenFails : Reg := ⟨0x282006, 0⟩
/-- LL_CHECKER_FAILS (R353). -/
def llCheckerFails : Reg := ⟨0x282007, 0⟩
/-- LL_DDR_SKIPS (R353). -/
def llDdrSkips : Reg := ⟨0x282009, 0⟩
/-- ERR_LOG_NEWEST (R379). -/
def errLogNewest : Reg := ⟨0x201001, 0⟩
/-- ERR_LOG_READ_SEQ (R379). -/
def errLogReadSeq : Reg := ⟨0x201002, 0⟩
/-- ERR_LOG_LOST (R379). -/
def errLogLost : Reg := ⟨0x201004, 0⟩
/-- ERR_CORRECTED (R379). -/
def errCorrected : Reg := ⟨0x201005, 0⟩
/-- ERR_CONTAINED (R379). -/
def errContained : Reg := ⟨0x201006, 0⟩
/-- ERR_FATAL (R379). -/
def errFatal : Reg := ⟨0x201007, 0⟩
/-- ERR_VECTOR_CORRECTED (R379). -/
def errVectorCorrected : Reg := ⟨0x201008, 255⟩
/-- ERR_VECTOR_CONTAINED (R379). -/
def errVectorContained : Reg := ⟨0x201009, 255⟩
/-- ERR_VECTOR_FATAL (R379). -/
def errVectorFatal : Reg := ⟨0x20100A, 255⟩
/-- ERR_CORRECTED_HOLDOFF (R379). -/
def errCorrectedHoldoff : Reg := ⟨0x20100B, 1000⟩
/-- RESIDUE_MISMATCHES (R379). -/
def residueMismatches : Reg := ⟨0x20100C, 0⟩
/-- LINK_RETRIES (R379). -/
def linkRetries : Reg := ⟨0x20100D, 0⟩
/-- LINK_POISONED (R379). -/
def linkPoisoned : Reg := ⟨0x20100E, 0⟩
/-- FENCE_POLICY_ENABLE (R379). -/
def fencePolicyEnable : Reg := ⟨0x201201, 1⟩
/-- FENCE_WINDOW (R379). -/
def fenceWindow : Reg := ⟨0x201202, 1000⟩
/-- FENCE_RESIDUE_K (R379). -/
def fenceResidueK : Reg := ⟨0x201203, 2⟩
/-- FENCE_UE_K (R379). -/
def fenceUeK : Reg := ⟨0x201204, 1⟩
/-- FENCE_CORRECTED_RATE (R379). -/
def fenceCorrectedRate : Reg := ⟨0x201205, 256⟩
/-- FENCE_LINK_K (R379). -/
def fenceLinkK : Reg := ⟨0x201206, 1⟩
/-- FENCE_POLICY_FENCES (R379). -/
def fencePolicyFences : Reg := ⟨0x201207, 0⟩
/-- GAFFER_RESIDUE_MISMATCHES (R379). -/
def gafferResidueMismatches (k : Nat) : Reg := ⟨0x25200B + k * 256, 0⟩
/-- SPAD_CORRECTED (R379). -/
def spadCorrected (k : Nat) : Reg := ⟨0x25200C + k * 256, 0⟩
/-- SPAD_UNCORRECTABLE (R379). -/
def spadUncorrectable (k : Nat) : Reg := ⟨0x25200D + k * 256, 0⟩
/-- DDR_SCRUB_PERIOD (R380). -/
def ddrScrubPeriod : Reg := ⟨0x2A2001, 24⟩
/-- DDR_SCRUB_PASSES (R380). -/
def ddrScrubPasses : Reg := ⟨0x2A2002, 0⟩
/-- DDR_MARK_AUTO (R380). -/
def ddrMarkAuto : Reg := ⟨0x2A2003, 1⟩
/-- DDR_MARK_THRESHOLD (R380). -/
def ddrMarkThreshold : Reg := ⟨0x2A2004, 16⟩
/-- DDR_MARK_WINDOW (R380). -/
def ddrMarkWindow : Reg := ⟨0x2A2005, 3600⟩
/-- DDR_RETIRE (R380). -/
def ddrRetire : Reg := ⟨0x2A2006, 0⟩
/-- DDR_UNRETIRE (R380). -/
def ddrUnretire : Reg := ⟨0x2A2007, 0⟩
/-- DDR_DRIVE_DAMAGED (R380). -/
def ddrDriveDamaged : Reg := ⟨0x2A2009, 0⟩
/-- SC_MARKED (R380). -/
def scMarked (k : Nat) : Reg := ⟨0x2A2801 + k * 256, 65535⟩
/-- SC_CORRECTED_BURSTS (R380). -/
def scCorrectedBursts (k : Nat) : Reg := ⟨0x2A2802 + k * 256, 0⟩
/-- SC_MARKED_BURSTS (R380). -/
def scMarkedBursts (k : Nat) : Reg := ⟨0x2A2803 + k * 256, 0⟩
/-- SC_UNCORRECTABLE (R380). -/
def scUncorrectable (k : Nat) : Reg := ⟨0x2A2804 + k * 256, 0⟩
/-- SC_ADDRESS_ERRORS (R380). -/
def scAddressErrors (k : Nat) : Reg := ⟨0x2A2805 + k * 256, 0⟩
/-- SC_POISON_READS (R380). -/
def scPoisonReads (k : Nat) : Reg := ⟨0x2A2806 + k * 256, 0⟩
/-- HIF_LINK_UP (R405). -/
def hifLinkUp : Reg := ⟨0x290001, 0⟩
/-- HIF_LINK_RATE (R405). -/
def hifLinkRate : Reg := ⟨0x290002, 0⟩
/-- HIF_LINK_WIDTH (R405). -/
def hifLinkWidth : Reg := ⟨0x290003, 0⟩
/-- HIF_BELOW_FLOOR (R405). -/
def hifBelowFloor : Reg := ⟨0x290004, 0⟩
/-- HIF_APERTURE_BASE (R405). -/
def hifApertureBase : Reg := ⟨0x290005, 0⟩
/-- HIF_BAR2_SIZE (R405). -/
def hifBar2Size : Reg := ⟨0x290006, 1073741824⟩
/-- HIF_LINK_DOWNS (R405). -/
def hifLinkDowns : Reg := ⟨0x290007, 0⟩
/-- HIF_HOST_READ_FAILS (R405). -/
def hifHostReadFails : Reg := ⟨0x290008, 0⟩
/-- HIF_POISONED_OUT (R405). -/
def hifPoisonedOut : Reg := ⟨0x290009, 0⟩
/-- HIF_BAR_HOLE_ACCESSES (R405). -/
def hifBarHoleAccesses : Reg := ⟨0x29000A, 0⟩
/-- HIF_DOORBELL_ERRORS (R405). -/
def hifDoorbellErrors : Reg := ⟨0x29000B, 0⟩
/-- HIF_XLATE_FAULTS (R405). -/
def hifXlateFaults : Reg := ⟨0x29000C, 0⟩
/-- RING_ENABLE (R405). -/
def ringEnable (k : Nat) : Reg := ⟨0x29400A + k * 256, 0⟩
/-- RING_BASE (R405). -/
def ringBase (k : Nat) : Reg := ⟨0x29400B + k * 256, 0⟩
/-- RING_SIZE (R405). -/
def ringSize (k : Nat) : Reg := ⟨0x29400C + k * 256, 0⟩
/-- RING_CQ (R405). -/
def ringCq (k : Nat) : Reg := ⟨0x29400D + k * 256, 0⟩
/-- RING_HEAD (R405). -/
def ringHead (k : Nat) : Reg := ⟨0x29400E + k * 256, 0⟩
/-- RING_TAIL (R405). -/
def ringTail (k : Nat) : Reg := ⟨0x29400F + k * 256, 0⟩
/-- CQ_ENABLE (R405). -/
def cqEnable (k : Nat) : Reg := ⟨0x29C001 + k * 256, 0⟩
/-- CQ_BASE (R405). -/
def cqBase (k : Nat) : Reg := ⟨0x29C002 + k * 256, 0⟩
/-- CQ_SIZE (R405). -/
def cqSize (k : Nat) : Reg := ⟨0x29C003 + k * 256, 0⟩
/-- CQ_VECTOR (R405). -/
def cqVector (k : Nat) : Reg := ⟨0x29C004 + k * 256, 255⟩
/-- CQ_COALESCE_COUNT (R405). -/
def cqCoalesceCount (k : Nat) : Reg := ⟨0x29C005 + k * 256, 1⟩
/-- CQ_COALESCE_TIME (R405). -/
def cqCoalesceTime (k : Nat) : Reg := ⟨0x29C006 + k * 256, 0⟩
/-- CQ_TAIL (R405). -/
def cqTail (k : Nat) : Reg := ⟨0x29C007 + k * 256, 0⟩
/-- CQ_HEAD (R405). -/
def cqHead (k : Nat) : Reg := ⟨0x29C008 + k * 256, 0⟩
/-- CQ_PHASE (R405). -/
def cqPhase (k : Nat) : Reg := ⟨0x29C009 + k * 256, 0⟩
/-- DDR_CAPACITY (R406). -/
def ddrCapacity : Reg := ⟨0x2A0001, 0⟩
/-- DDR_RATE (R406). -/
def ddrRate : Reg := ⟨0x2A0002, 0⟩
/-- DDR_WIDTH (R406). -/
def ddrWidth : Reg := ⟨0x2A0003, 0⟩
/-- DDR_RANKS (R406). -/
def ddrRanks : Reg := ⟨0x2A0004, 0⟩
/-- DDR_DENSITY (R406). -/
def ddrDensity : Reg := ⟨0x2A0005, 0⟩
/-- DDR_INTERLEAVE (R406). -/
def ddrInterleave : Reg := ⟨0x2A0006, 0⟩
/-- DDR_TRAIN_STATE (R406). -/
def ddrTrainState : Reg := ⟨0x2A0007, 0⟩
/-- DDR_TRAIN_TIME (R406). -/
def ddrTrainTime : Reg := ⟨0x2A0008, 0⟩
/-- DDR_TEMP_MAX (R406). -/
def ddrTempMax : Reg := ⟨0x2A0009, 0⟩
/-- DDR_SR_ENTRIES (R406). -/
def ddrSrEntries : Reg := ⟨0x2A000A, 0⟩
/-- DDR_RETRAINS (R406). -/
def ddrRetrains : Reg := ⟨0x2A000B, 0⟩
/-- ID_VENDOR (R435). -/
def idVendor : Reg := ⟨0x100001, 7322⟩
/-- ID_DEVICE (R435). -/
def idDevice : Reg := ⟨0x100002, 18486⟩
/-- ID_STEPPING (R435). -/
def idStepping : Reg := ⟨0x100003, 17⟩
/-- ID_SERIAL (R435). -/
def idSerial : Reg := ⟨0x100005, 0⟩
/-- ID_MAC_BASE (R435). -/
def idMacBase : Reg := ⟨0x100006, 0⟩
/-- ID_SUBSYS_VENDOR (R435). -/
def idSubsysVendor : Reg := ⟨0x100007, 0⟩
/-- ID_SUBSYS (R435). -/
def idSubsys : Reg := ⟨0x100008, 0⟩
/-- ID_GARDENER_FW (R435). -/
def idGardenerFw : Reg := ⟨0x100009, 0⟩
/-- ID_KEEPER_FW (R435). -/
def idKeeperFw : Reg := ⟨0x10000A, 0⟩
/-- DEV_STATE (R436). -/
def devState : Reg := ⟨0x200001, 0⟩
/-- DEV_UPTIME (R436). -/
def devUptime : Reg := ⟨0x200002, 0⟩
/-- DEV_TEMP_MAX (R436). -/
def devTempMax : Reg := ⟨0x200003, 0⟩
/-- DEV_POWER (R436). -/
def devPower : Reg := ⟨0x200004, 0⟩
/-- DEV_ATTENTION (R436). -/
def devAttention : Reg := ⟨0x200005, 0⟩
/-- DICT_CAN_BASE (R437). -/
def dictCanBase : Reg := ⟨0x111001, 1600⟩
/-- DICT_CAN_NOMINAL (R437). -/
def dictCanNominal : Reg := ⟨0x111002, 500000⟩
/-- DICT_CAN_DATA (R437). -/
def dictCanData : Reg := ⟨0x111003, 2000000⟩
/-- DICT_CAN_DATA_ID (R437). -/
def dictCanDataId : Reg := ⟨0x111004, 0⟩
/-- DICT_CAN_FRAMES_BAD (R437). -/
def dictCanFramesBad : Reg := ⟨0x111005, 0⟩
/-- DICT_CAN_COUNTER_ERRORS (R437). -/
def dictCanCounterErrors : Reg := ⟨0x111006, 0⟩
/-- DICT_CAN_BUS_OFF (R437). -/
def dictCanBusOff : Reg := ⟨0x111007, 0⟩
/-- DICT_SMB_ADDR (R437). -/
def dictSmbAddr : Reg := ⟨0x111101, 92⟩
/-- DICT_SMB_PEC_ERRORS (R437). -/
def dictSmbPecErrors : Reg := ⟨0x111102, 0⟩
/-- DICT_SMB_TIMEOUTS (R437). -/
def dictSmbTimeouts : Reg := ⟨0x111103, 0⟩
/-- DICT_BAR0_LAST (R437). -/
def dictBar0Last : Reg := ⟨0x111201, 0⟩
/-- DICT_BAR0_REFUSALS (R437). -/
def dictBar0Refusals : Reg := ⟨0x111202, 0⟩
/-- DICT_CHAN_VECTOR (R437). -/
def dictChanVector : Reg := ⟨0x111203, 255⟩
/-- PWR_CAP (R462). -/
def pwrCap : Reg := ⟨0x210001, 48⟩
/-- PWR_CAP_OVERRUNS (R462). -/
def pwrCapOverruns : Reg := ⟨0x210002, 0⟩
/-- PWR_CAP_HELD (R462). -/
def pwrCapHeld : Reg := ⟨0x210003, 0⟩
/-- PWR_VCORE_MODE (R462). -/
def pwrVcoreMode : Reg := ⟨0x210004, 1⟩
/-- PWR_VCORE_SETTLE (R462). -/
def pwrVcoreSettle : Reg := ⟨0x210006, 10⟩
/-- PWR_VCORE_NOW (R462). -/
def pwrVcoreNow : Reg := ⟨0x210007, 850⟩
/-- PWR_AON_ESTIMATE (R462). -/
def pwrAonEstimate : Reg := ⟨0x210103, 0⟩
/-- PWR_PG_TIMEOUT (R462). -/
def pwrPgTimeout : Reg := ⟨0x210105, 10⟩
/-- PWR_OSC_TIMEOUT (R462). -/
def pwrOscTimeout : Reg := ⟨0x210106, 10⟩
/-- PWR_WAKE_FAIL_REASON (R462). -/
def pwrWakeFailReason : Reg := ⟨0x210107, 0⟩
/-- PWR_SLEEP_ENTRIES (R462). -/
def pwrSleepEntries : Reg := ⟨0x210109, 0⟩
/-- PWR_SLEEP_REFUSALS (R462). -/
def pwrSleepRefusals : Reg := ⟨0x21010A, 0⟩
/-- PWR_SMB_WAKE (R462). -/
def pwrSmbWake : Reg := ⟨0x210201, 32604⟩
/-- WAKE0_CFG (R462). -/
def wake0Cfg : Reg := ⟨0x210202, 0⟩
/-- WAKE1_CFG (R462). -/
def wake1Cfg : Reg := ⟨0x210203, 0⟩
/-- PWR_WAKE_PINS (R462). -/
def pwrWakePins : Reg := ⟨0x210205, 0⟩
/-- PWR_WAKE_FAILS (R462). -/
def pwrWakeFails : Reg := ⟨0x210206, 0⟩
/-- PWR_BROWNOUT_CAUSE (R462). -/
def pwrBrownoutCause : Reg := ⟨0x210301, 0⟩
/-- PWR_BROWNOUTS (R462). -/
def pwrBrownouts : Reg := ⟨0x210302, 0⟩
/-- PWR_IO18_LOW (R462). -/
def pwrIo18Low : Reg := ⟨0x210303, 0⟩
/-- PD_REQUEST (R463). -/
def pdRequest (k : Nat) : Reg := ⟨0x211001 + k * 256, if 2 ≤ k ∧ k ≤ 40 then 2 else 0⟩
/-- PD_STATE (R463). -/
def pdState (k : Nat) : Reg := ⟨0x211002 + k * 256, 0⟩
/-- PD_TRANSITIONS (R463). -/
def pdTransitions (k : Nat) : Reg := ⟨0x211003 + k * 256, 0⟩
/-- PD_LOST (R463). -/
def pdLost (k : Nat) : Reg := ⟨0x211004 + k * 256, 0⟩
/-- BOOT_SLOT_RUNNING (R484). -/
def bootSlotRunning : Reg := ⟨0x2B0001, 255⟩
/-- BOOT_IMAGE_SEQ (R484). -/
def bootImageSeq : Reg := ⟨0x2B0002, 0⟩
/-- BOOT_SVN (R484). -/
def bootSvn : Reg := ⟨0x2B0003, 0⟩
/-- BOOT_FUSE_SVN (R484). -/
def bootFuseSvn : Reg := ⟨0x2B0004, 0⟩
/-- BOOT_FAIL_COUNT (R484). -/
def bootFailCount : Reg := ⟨0x2B0005, 0⟩
/-- BOOT_REASON_A (R484). -/
def bootReasonA : Reg := ⟨0x2B0006, 0⟩
/-- BOOT_REASON_B (R484). -/
def bootReasonB : Reg := ⟨0x2B0007, 0⟩
/-- BOOT_GATEHOUSE_REASON (R484). -/
def bootGatehouseReason : Reg := ⟨0x2B0008, 0⟩
/-- BOOT_TIME (R484). -/
def bootTime : Reg := ⟨0x2B0009, 0⟩
/-- BOOT_RESTART (R484). -/
def bootRestart : Reg := ⟨0x2B000B, 0⟩
/-- BOOT_COMMIT_SVN (R484). -/
def bootCommitSvn : Reg := ⟨0x2B000C, 0⟩
/-- BOOT_FAILED_STARTS (R484). -/
def bootFailedStarts : Reg := ⟨0x2B000D, 0⟩
/-- STAGE_SRC (R484). -/
def stageSrc : Reg := ⟨0x2B0101, 0⟩
/-- STAGE_LEN (R484). -/
def stageLen : Reg := ⟨0x2B0102, 0⟩
/-- STAGE_ACTION (R484). -/
def stageAction : Reg := ⟨0x2B0103, 0⟩
/-- STAGE_STATE (R484). -/
def stageState : Reg := ⟨0x2B0104, 0⟩
/-- STAGE_REASON (R484). -/
def stageReason : Reg := ⟨0x2B0105, 0⟩
/-- STAGE_PROGRESS (R484). -/
def stageProgress : Reg := ⟨0x2B0106, 0⟩
/-- LC_STATE (R485). -/
def lcState : Reg := ⟨0x2B0201, 0⟩
/-- LC_ADVANCE (R485). -/
def lcAdvance : Reg := ⟨0x2B0202, 0⟩
/-- LC_KEY_REVOKE (R485). -/
def lcKeyRevoke : Reg := ⟨0x2B0207, 0⟩
/-- LC_FUSE_STATUS (R485). -/
def lcFuseStatus : Reg := ⟨0x2B0209, 0⟩
/-- DBG_PERMS (R485). -/
def dbgPerms : Reg := ⟨0x2B0305, 0⟩
/-- DR_BASE (R486). -/
def drBase : Reg := ⟨0x2B0801, 0⟩
/-- DR_SIZE (R486). -/
def drSize : Reg := ⟨0x2B0802, 0⟩
/-- DR_SEAL (R486). -/
def drSeal : Reg := ⟨0x2B0803, 0⟩
/-- DR_UNSEAL (R486). -/
def drUnseal : Reg := ⟨0x2B0804, 0⟩
/-- DR_STATE (R486). -/
def drState : Reg := ⟨0x2B0805, 0⟩
/-- DR_SEAL_TIME (R486). -/
def drSealTime : Reg := ⟨0x2B0807, 0⟩
/-- DW_BASE (R486). -/
def dwBase : Reg := ⟨0x2B0808, 0⟩
/-- DW_SIZE (R486). -/
def dwSize : Reg := ⟨0x2B0809, 0⟩
/-- LEASE_CMD (R486). -/
def leaseCmd : Reg := ⟨0x2B1001, 0⟩
/-- LEASE_ID (R486). -/
def leaseId : Reg := ⟨0x2B1002, 0⟩
/-- LEASE_EXPORT_BUDGET (R486). -/
def leaseExportBudget : Reg := ⟨0x2B1004, 0⟩
/-- LEASE_PREEMPT (R486). -/
def leasePreempt : Reg := ⟨0x2B1005, 0⟩
/-- LEASE_REPORT_SEQ (R486). -/
def leaseReportSeq : Reg := ⟨0x2B1007, 0⟩
/-- LEASE_REPORT_VECTOR (R486). -/
def leaseReportVector : Reg := ⟨0x2B1008, 255⟩
/-- LEASES (R486). -/
def leases : Reg := ⟨0x2B1009, 0⟩
/-- LEASE_PREEMPTIONS (R486). -/
def leasePreemptions : Reg := ⟨0x2B100A, 0⟩
/-- LEASE_EXTRA_TRIGGERS (R486). -/
def leaseExtraTriggers : Reg := ⟨0x2B100B, 0⟩
/-- PIN_IO33_GOOD (R508). -/
def pinIo33Good : Reg := ⟨0x2C0001, 0⟩
/-- PIN_CLK32K_LOSSES (R508). -/
def pinClk32kLosses : Reg := ⟨0x2C0002, 0⟩
/-- TPIN_OWNER (R508). -/
def tpinOwner (k : Nat) : Reg := ⟨0x2C1001 + k * 256, 0⟩
/-- TPIN_FUNC (R508). -/
def tpinFunc (k : Nat) : Reg := ⟨0x2C1002 + k * 256, 0⟩
/-- TPIN_LEVEL (R508). -/
def tpinLevel (k : Nat) : Reg := ⟨0x2C1003 + k * 256, 0⟩
/-- TPIN_DRIVE (R508). -/
def tpinDrive (k : Nat) : Reg := ⟨0x2C1004 + k * 256, 0⟩
/-- OBS_OWNER (R508). -/
def obsOwner (k : Nat) : Reg := ⟨0x2C2001 + k * 256, 0⟩
/-- OBS_ENABLE (R508). -/
def obsEnable (k : Nat) : Reg := ⟨0x2C2002 + k * 256, 0⟩
/-- OBS_SELECT (R508). -/
def obsSelect (k : Nat) : Reg := ⟨0x2C2003 + k * 256, 0⟩
/-- JTAG_ACCESS (R508). -/
def jtagAccess : Reg := ⟨0x2C3001, 0⟩
/-- JTAG_IDCODE (R508). -/
def jtagIdcode : Reg := ⟨0x2C3002, 344155027⟩

end Regs

namespace Blobs

/-- IMU_CMD (R100). -/
def imuCmd (k : Nat) : Nat := 0x232413 + k * 256
/-- IMU_MAP (R100). -/
def imuMap (k : Nat) : Nat := 0x232415 + k * 256
/-- CANF_SIGNALS (R100). -/
def canfSignals (k : Nat) : Nat := 0x232A14 + k * 256
/-- TPL_DATA (R101). -/
def tplData (k : Nat) : Nat := 0x234001 + k * 256
/-- POSE_IMU_MOUNT (R142). -/
def poseImuMount : Nat := 0x240305
/-- POSE_GYRO_BIAS (R142). -/
def poseGyroBias : Nat := 0x240306
/-- POSE_NEWEST (R142). -/
def poseNewest : Nat := 0x240308
/-- PGS_EXTRINSIC (R143). -/
def pgsExtrinsic (k : Nat) : Nat := 0x241003 + k * 256
/-- SEM_VALUES (R220). -/
def semValues (k : Nat) : Nat := 0x252008 + k * 256
/-- ARB_READERS (R303). -/
def arbReaders : Nat := 0x262003
/-- ARB_EXPORT_LIST (R303). -/
def arbExportList : Nat := 0x26200A
/-- KP_PAIRING (R352). -/
def kpPairing : Nat := 0x28000E
/-- KP_LAST_VERDICT (R352). -/
def kpLastVerdict : Nat := 0x28000F
/-- KP_RULES_DRIVE (R353). -/
def kpRulesDrive : Nat := 0x281001
/-- KP_RULES_PARKED (R353). -/
def kpRulesParked : Nat := 0x281002
/-- LL_LAST_PASS (R353). -/
def llLastPass : Nat := 0x282008
/-- ERR_LOG_ENTRY (R379). -/
def errLogEntry : Nat := 0x201003
/-- DDR_RETIRED_LIST (R380). -/
def ddrRetiredList : Nat := 0x2A2008
/-- SC_CANDIDATES (R380). -/
def scCandidates (k : Nat) : Nat := 0x2A2807 + k * 256
/-- ID_PART (R435). -/
def idPart : Nat := 0x100004
/-- IF_VERSIONS (R435). -/
def ifVersions : Nat := 0x110001
/-- IF_SELECT (R435). -/
def ifSelect : Nat := 0x110101
/-- PWR_DOMAIN_SET (R462). -/
def pwrDomainSet : Nat := 0x210005
/-- PWR_SLEEP_ENTER (R462). -/
def pwrSleepEnter : Nat := 0x210101
/-- PWR_WAKE_SET (R462). -/
def pwrWakeSet : Nat := 0x210102
/-- PWR_LAST_WAKE (R462). -/
def pwrLastWake : Nat := 0x210204
/-- BOOT_IMAGE_DIGEST (R484). -/
def bootImageDigest : Nat := 0x2B000A
/-- LC_KEY_HASH (R485). -/
def lcKeyHash (k : Nat) : Nat := 0x2B0203 + k
/-- LC_DEBUG_KEY_HASH (R485). -/
def lcDebugKeyHash : Nat := 0x2B0208
/-- TRUST_ID_PUB (R485). -/
def trustIdPub : Nat := 0x2B0301
/-- TRUST_ID_CERT (R485). -/
def trustIdCert : Nat := 0x2B0302
/-- DBG_CHALLENGE (R485). -/
def dbgChallenge : Nat := 0x2B0303
/-- DBG_TOKEN (R485). -/
def dbgToken : Nat := 0x2B0304
/-- DR_MEASUREMENT (R486). -/
def drMeasurement : Nat := 0x2B0806
/-- LEASE_NONCE (R486). -/
def leaseNonce : Nat := 0x2B1003
/-- LEASE_REPORT (R486). -/
def leaseReport : Nat := 0x2B1006

end Blobs

end Sys2Proof.Machine
end

