-- ==== Sys2Proof/Machine/State.lean ====
section
/-! DEFINITION. The machine's state: plain data holding every register, buffer, queue, mode and pin the spec gives the
block, and the state right after reset. Scalar dictionary objects stand in `regs` and DOMAIN objects in `blobs`, under
index × 256 + sub-index, where an unlisted object reads its default of Machine/Regs.lean (R407); a mode with a small
set of names is an inductive type, from which the dictionary's number is computed when it is read. -/

namespace Sys2Proof.Machine

/-- The reasons a command may stop the model. No command the spec gives an effect to stops (NOTES.md, Stops). -/
inductive Fault where
  /-- Raised by nothing: every command of the spec has an effect (NOTES.md, Stops). Safe. -/
  | illFormed
  deriving DecidableEq, Repr

/-- The reasons the model may refuse a command. -/
inductive Refusal where
  /-- Raised by an arm of `exec` whose command has no meaning yet. Safe. -/
  | notModelled (mnemonic : String)
  deriving DecidableEq, Repr

/-! ### Memory (R19, R358–R367) -/

/-- A range of bytes whose contents the spec leaves undefined (R200, R401, R404), with the tag of the event. -/
structure Extent where
  lo : Nat
  hi : Nat
  tag : Nat
  deriving DecidableEq, Repr

/-- Damage a code has not met yet: wrong bits of an SRAM word (R359), a decoder fault of an SRAM array that makes the next read of the
word deliver the word of another row, whose check bits were made with that row's address (R358), wrong symbols of a DDR5 burst with
the error value of each (R362). -/
inductive Flaw where
  | sram (wrongBits : Nat) (firstBit : Nat)
  | row (other : Nat)
  | ddr (symbols : List (Nat × Nat))
  deriving DecidableEq, Repr

/-- A byte memory: the listed cells, the undefined ranges (newest first), the poisoned granules (R361, R367) and the
flaws, by granule address. -/
structure Memory where
  cells : List Host.Cell := []
  undef : List Extent := []
  poison : List Nat := []
  flaws : KMap Flaw := []
  deriving DecidableEq, Repr

/-! ### Error log (R372–R376) -/

/-- Severities of R371. -/
inductive Severity where
  | corrected | contained | fatal
  deriving DecidableEq, Repr

/-- One entry of R373; `at_` is the local time it was made at, for the coalescing of R372. -/
structure LogEntry where
  seq : Nat
  severity : Severity
  source : Nat
  inst : Nat
  kind : Nat
  addr : Nat
  count : Nat
  detail : Nat
  ring : Option Nat
  sub : Nat
  sec : Nat
  ns : Nat
  at_ : Nat
  deriving DecidableEq, Repr

/-- The error log (R372), the READ_SEQ of each path by owner code (R375) and the corrected holdoff (R376). -/
structure ErrorLog where
  entries : List LogEntry := []
  newest : Nat := 0
  readSeq : KMap Nat := []
  holdoffSince : Option Nat := none
  correctedDue : Bool := false
  deriving DecidableEq, Repr

/-! ### Sundial (chapter 2) -/

/-- Servo states of R40. -/
inductive Servo where
  | freeRun | acquiring | locked | holdover | coasting
  deriving DecidableEq, Repr

/-- A two-step Sync waiting for its Follow_Up (R39): its sequence number, port, and the local stamp of its arrival in
the domain's own counter, 2^-16 ns. -/
structure PendingSync where
  port : Nat
  seq : Nat
  stamp : Int
  deriving DecidableEq, Repr

/-- A time domain (R34, R40, R41). Counter in 2^-40 ns; rate word in 2^-40 ns per 2 ns tick; offsets in 2^-16 ns, newest
first; `uncBase` the bound carried at loss or wake in 2^-16 ns (none unknown) and `uncSince` the local time it was taken at. -/
structure TimeDomain where
  counter : Nat := 0
  rate : Int := 0
  servo : Servo := .freeRun
  offsets : List Int := []
  goodRun : Nat := 0
  badRun : Nat := 0
  lastSync : Option Nat := none
  uncBase : Option Nat := none
  uncSince : Nat := 0
  pendingSync : Option PendingSync := none
  stepDue : Bool := false
  deriving DecidableEq, Repr

/-- A link-delay measurement (R39): the request's sequence number, the local time of the last request, and its stamps, the mean
link delay in 2^-16 ns, the last Announce. -/
structure LinkDelay where
  reqSeq : Nat := 0
  askedAt : Option Nat := none
  sentAt : Option Int := none
  t2 : Option Int := none
  t4 : Option Int := none
  delay : Option Int := none
  announce : Bytes := []
  deriving DecidableEq, Repr

/-- A time tap (R38): the branch delay measured, in 125 ps, and the local time its power domain turned on; the launch tick of the
last message that reached it, the SEQ its next message must follow (none: any), the flags, time (2^-40 ns) and RATE of the last
message taken, the edge to which that re-phased the local tick, in 125 ps of local time, the local time it was taken at, the
errors of re-phasing (2^-40 ns) and of the tick's rate (ppm), and whether the silence of 500 ns has been logged. -/
structure Tap where
  delay : Nat := 0
  since : Nat := 0
  heard : Option Nat := none
  seq : Option Nat := none
  flags : Nat := 0
  base : Nat := 0
  rate : Int := 0
  edge : Nat := 0
  takenAt : Option Nat := none
  skew : Int := 0
  ppm : Int := 0
  silent : Bool := false
  deriving DecidableEq, Repr

/-- What a frame to send is (R39, R54, R98): host software's, a Pdelay_Req, or a Pdelay_Resp to a requester, whose follow-up
gives its transmit stamp. -/
inductive TxKind where
  | plain
  | pdelayReq
  | pdelayResp (seq : Nat) (who : Bytes)
  deriving DecidableEq, Repr

/-- A frame of a transmit queue (R54, R98): launch time in 2^-16 ns of the output time line (ordinary queues ignore
it), whether its stamp is recorded, its bytes, and what it is. -/
structure LaunchFrame where
  time : Nat
  stamped : Bool
  data : Bytes
  kind : TxKind := .plain
  deriving DecidableEq, Repr

/-- The frame a MAC is sending: its transmit stamp (a T128), the local time its last bit leaves, and the frame. -/
structure WireFrame where
  stamp : Nat
  endsAt : Nat
  frame : LaunchFrame
  deriving DecidableEq, Repr

/-- What TIME_SAVE keeps in a keep bank (R60): T0 in 2^-16 ns, n0, UNC in ns (none unknown), state and c; and whether the standby
time domain was LOCKED, for its count of exits (R64). -/
structure SavedTime where
  t0 : Nat
  n0 : Nat
  unc : Option Nat
  servo : Servo
  corr : Int
  standbyLocked : Bool
  deriving DecidableEq, Repr

/-- The Sundial. `running` whether the time base runs, `message` the time message last launched and `launchedAt` its launch tick
(R37), `taps` by tap, `forwarding` the repeaters' delays measured (R38), `delayLines` the local time of the last recalibration
(R36), `gptpq` by port the Pdelay frames that wait for the MAC (R39), `window` the output time (2^-40 ns) and the sleep count at
the start of the window of R59,
`steppedAt` the local time of the last output step, `trigPulse` of a pulse in progress the tick it began in and the local time at
which it ends, `ppsPulse` the local times at which pulses of the PPS outputs end, `ppsSecond` the last whole second served, `ppsAccepted` the local time of the last accepted edge, `alarmNext` and
`trigNext` the next k of R49 and R51, `sleepZero` the local time at which the sleep counter was 0. -/
structure Sundial where
  domA : TimeDomain := {}
  domB : TimeDomain := {}
  active : Bool := false
  running : Bool := true
  residual : Int := 0
  steppedAt : Option Nat := none
  messageSeq : Nat := 0
  message : Nat := 0
  launchedAt : Option Nat := none
  taps : KMap Tap := []
  forwarding : KMap Nat := []
  delayLines : Option Nat := none
  links : KMap LinkDelay := []
  gptpq : KMap (List LaunchFrame) := []
  window : Option (Nat × Nat) := none
  alarmNext : KMap Nat := []
  alarmWake : KMap Nat := []
  trigNext : KMap Nat := []
  trigPulse : KMap (Nat × Nat) := []
  ppsSecond : KMap Nat := []
  ppsPulse : KMap Nat := []
  ppsAccepted : Option Nat := none
  launch : KMap (List LaunchFrame) := []
  onWire : KMap WireFrame := []
  sleepZero : Nat := 0
  saved : Option SavedTime := none
  deriving DecidableEq, Repr

/-! ### Work orders, rings, lanes (chapters 7 and 13) -/

/-- Where an accepted item stands (R192–R198). -/
inductive Phase where
  | waiting | executing | held | pendingWait | finished
  deriving DecidableEq, Repr

/-- Completion status, DETAIL and AUX of R198–R201. -/
structure Finish where
  status : Nat
  detail : Nat
  aux : Nat
  deriving DecidableEq, Repr

/-- An accepted item (R189, R192): its ring and SEQ, its records as 512-bit numbers, whether its first record could
be read (R510), its lane if a unit executes it, and how it stands. `mask` is the gaffer mask that held when an attention item was
dispatched (R275). `since` is the local time its wait began, `counted` whether its wait for a free slot has been counted (R217). -/
structure Item where
  ring : Nat
  seq : Nat
  recs : List Nat
  mask : Nat := 0
  readable : Bool := true
  lane : Option Lane
  phase : Phase := .waiting
  finish : Option Finish := none
  preempted : Bool := false
  since : Nat := 0
  counted : Bool := false
  deriving DecidableEq, Repr

/-- A submission ring beyond its objects (R192, R219): SEQ of the next item, and whether CONT records at the head belong
to a skipped item (`dropping`) of which one has been dropped (`dropped`). -/
structure Ring where
  seq : Nat := 0
  dropping : Bool := false
  dropped : Bool := false
  deriving DecidableEq, Repr

/-- A completion ring beyond its objects (R192, R395): slots reserved, records since the last message and the local
time of the first of them. -/
structure CompRing where
  reserved : Nat := 0
  sinceMessage : Nat := 0
  firstAt : Option Nat := none
  deriving DecidableEq, Repr

/-- A semaphore wait registered at a servitor plot (R206): the item's ring and SEQ, semaphore and condition. -/
structure SemWait where
  ring : Nat
  seq : Nat
  sem : Nat
  equal : Bool
  acquire : Bool
  value : Nat
  deriving DecidableEq, Repr

/-- An item of an internal queue (R217): slot and length. -/
structure IqItem where
  slot : Nat
  len : Nat
  deriving DecidableEq, Repr

/-- A push or pop in progress: the item's ring and SEQ, and the queue item concerned. -/
structure IqBusy where
  ring : Nat
  seq : Nat
  item : IqItem
  deriving DecidableEq, Repr

/-- An internal queue (R216–R218): visible items oldest first, next slot, the push and the pop in progress. -/
structure IntQueue where
  items : List IqItem := []
  next : Nat := 0
  pushing : Option IqBusy := none
  popping : Option IqBusy := none
  deriving DecidableEq, Repr

/-- A class-0 completion in the dispatchers' journal (R313): ring, SEQ, target code, status, and output time in 2^-16 ns. -/
structure JournalEntry where
  ring : Nat
  seq : Nat
  target : Nat
  status : Nat
  time : Nat
  deriving DecidableEq, Repr

/-- One open LOOP of a vector program (R211): first instruction of the body, the one past it, iterations to run. -/
structure LoopFrame where
  first : Nat
  past : Nat
  left : Nat
  deriving DecidableEq, Repr

/-- The vector unit while it runs an item (R172, R210): the item, program, index of the next instruction, open loops,
registers as lane values in FP32 bits, P0–P7, ROUND, cycles run, MAX_CYCLES in cycles (0: none), and the ranges stored so far. -/
structure VectorUnit where
  running : Bool := false
  ring : Nat := 0
  seq : Nat := 0
  prog : List Nat := []
  index : Nat := 0
  loops : List LoopFrame := []
  regs : KMap (List Nat) := []
  addrs : List Nat := []
  round : Bool := false
  cycles : Nat := 0
  maxCycles : Nat := 0
  stored : List (Nat × Nat) := []
  deriving DecidableEq, Repr

/-- A lift in progress (R185). -/
inductive LiftPhase where
  | none | testing
  deriving DecidableEq, Repr

/-- An arithmetic fault in a covered datapath of a gaffer that no check has met yet (R354, R357): how many output tiles or covered
vector operations that have its place go by first, the row and the column of the accumulator or the lane, and the amount by which it
changes the integer there: a × 2^4 + t, or the significand of the result before rounding. -/
structure Strike where
  turn : Nat := 0
  row : Nat := 0
  place : Nat
  error : Int
  deriving DecidableEq, Repr

/-- A gaffer beyond its objects (R156, R176, R178, R182–R185, R206, R355–R357, R377). Fence windows hold local times. `levelAt` is
the earliest time at which a change of level, or the turn-on that brings its level, ends, and `raiseTo` the level that a raise under
the cap moves to (R447, R448). -/
structure Gaffer where
  formerChair : Bool := false
  sems : KMap Nat := []
  waits : List SemWait := []
  lift : LiftPhase := .none
  drainDue : Bool := false
  levelChanging : Bool := false
  levelAt : Nat := 0
  raiseTo : Option Nat := none
  residueTimes : List Nat := []
  ueTimes : List Nat := []
  ceTimes : List Nat := []
  linkTimes : List Nat := []
  fenceDue : Option Nat := none
  arrayFault : Option Strike := none
  vectorFault : Option Strike := none
  deriving DecidableEq, Repr

/-- Rings, items, lanes and units; `journal` newest last (R313), `shut` doorbells closed by a restart (R336), `vectors`
by target code, `marvers` the elements of each Marver not yet counted in a unit of 1,024 (R244). -/
structure Dispatch where
  rings : KMap Ring := []
  comps : KMap CompRing := []
  items : List Item := []
  rrLast : List (Lane × Nat) := []
  iqs : KMap IntQueue := []
  gaffers : KMap Gaffer := []
  vectors : KMap VectorUnit := []
  marvers : KMap Nat := []
  chairsChanging : List Nat := []
  journal : List JournalEntry := []
  shut : Bool := false
  deriving DecidableEq, Repr

/-! ### Host link and DDR5 (chapter 13), access paths (chapter 14) -/

/-- A host read that has failed (R389): the item's ring and SEQ, the device address, the error-log entry made. -/
structure FailedRead where
  ring : Nat
  seq : Nat
  addr : Nat
  entry : Nat
  deriving DecidableEq, Repr

/-- The registers of the function's configuration space that PCI Express lets the host write or reads as status (R381, R383; their
layout and reset values are PCI Express's, log 12): whether memory space and bus mastering are enabled, the base addresses of BAR0 and
BAR2, the codes of Max Payload Size, Max Read Request Size and the completion timeout with its disable, the ASPM and L1 PM substate
and LTR enables, ECRC, the AER status and mask words, D3hot, and the enable and the function mask of MSI-X. -/
structure ConfigSpace where
  memory : Bool := false
  master : Bool := false
  bar0 : Nat := 0
  bar2 : Nat := 0
  payload : Nat := 0
  readRequest : Nat := 2
  timeout : Nat := 0
  timeoutOff : Bool := false
  aspmL1 : Bool := false
  l1Substates : Nat := 0
  ltr : Bool := false
  ecrc : Nat := 0
  uncorrectable : Nat := 0
  uncorrectableMask : Nat := 0
  uncorrectableSeverity : Nat := 0x00462030
  correctable : Nat := 0
  correctableMask : Nat := 0x2000
  d3hot : Bool := false
  msixEnable : Bool := false
  msixMask : Bool := false
  deriving DecidableEq, Repr

/-- The host link beyond its objects (R383, R387, R395, R397). Vectors are masked and pending in the two lists. -/
structure HostLink where
  config : ConfigSpace := {}
  xlate : KMap Nat := []
  unmasked : List Nat := []
  pendingMsix : List Nat := []
  msixTable : KMap Nat := []
  heldMsix : List Nat := []
  perst : Bool := true
  failedReads : List FailedRead := []
  deriving DecidableEq, Repr

/-- Training state of a DDR5 controller pair (R403, R404). -/
inductive DdrPhase where
  | untrained | trained | restored | selfRefresh
  deriving DecidableEq, Repr

/-- A corrected symbol seen at a device position (R364): subchannel, position, burst address, local time. -/
structure Candidate where
  sc : Nat
  pos : Nat
  burst : Nat
  at_ : Nat
  deriving DecidableEq, Repr

/-- DDR5 beyond its objects: each pair's phase (R403), the pairs whose restore is under way and those whose restore check has failed,
which train in full, candidates (R364), the second candidates by subchannel and position that have been logged, retired pages
(R378), the memory configuration read from the boot image (R399). -/
structure Ddr where
  pair0 : DdrPhase := .untrained
  pair1 : DdrPhase := .untrained
  restoring : List Nat := []
  retraining : List Nat := []
  candidates : List Candidate := []
  seconds : List (Nat × Nat) := []
  retired : List Nat := []
  scrubCount : Nat := 0
  capacity : Nat := 0
  deriving DecidableEq, Repr

/-- A BAR0 write being staged (R418): its slot, and by place in it the local time and the value of each byte. -/
structure Staged where
  slot : Nat
  data : KMap (Nat × Byte)
  deriving DecidableEq, Repr

/-- A latched copy of a long object (R418). -/
structure Latched where
  slot : Nat
  since : Nat
  data : Bytes
  deriving DecidableEq, Repr

/-- One BAR0 channel (R420): control block fields, data area, and what a read in progress latched: status, DETAIL, value. -/
structure Channel where
  index : Nat := 0
  sub : Nat := 0
  op : Nat := 0
  length : Nat := 0
  status : Nat := 0
  detail : Nat := 0
  busy : Bool := false
  resultLength : Nat := 0
  data : Bytes := []
  copy : Option (Nat × Nat × Bytes) := none
  deriving DecidableEq, Repr

/-- A CAN write transfer (R424): TAG, object, TOTAL, next segment, bytes, local time of the last segment. -/
structure CanTransfer where
  tag : Nat
  index : Nat
  sub : Nat
  total : Nat
  next : Nat
  data : Bytes
  at_ : Nat
  deriving DecidableEq, Repr

/-- A CAN read latch (R424), with the local time of its last segment. -/
structure CanLatch where
  tag : Nat
  index : Nat
  sub : Nat
  data : Bytes
  at_ : Nat
  deriving DecidableEq, Repr

/-- One CAN dictionary channel (R424). -/
structure CanChannel where
  transfer : Option CanTransfer := none
  latch : Option CanLatch := none
  deriving DecidableEq, Repr

/-- The SMBus target (R430, R431). `broken` from a WRITE out of order until the staged bytes are discarded. -/
structure Smbus where
  selected : Option (Nat × Nat) := none
  offset : Nat := 0
  staged : Bytes := []
  latch : Option Bytes := none
  status : Nat := 9
  detail : Nat := 0
  broken : Bool := false
  deriving DecidableEq, Repr

/-- The access paths. `expectCounter` is none until the first safety request after a Keeper start (R425). -/
structure Paths where
  staged : Option Staged := none
  latched : Option Latched := none
  channels : KMap Channel := []
  canOrdinary : CanChannel := {}
  canSafety : CanChannel := {}
  expectCounter : Option Nat := none
  deviceCounter : Nat := 0
  smbus : Smbus := {}
  serving : Bool := false
  canBus0Off : Bool := false
  deriving DecidableEq, Repr

/-- A message sent to the outside, newest first in `State.out` (the MODEL'S OWN record, log 2). The edge of a trigger or a PPS output
lies `ns` nanoseconds into the tick that drives it. -/
inductive Out where
  | answer (p : Path) (status detail : Nat)
  | bar0 (data : Nat)
  | bar2 (data : Bytes) (poisoned : Bool)
  | bar2Unsupported
  | msix (vector : Nat)
  | can (ident : Nat) (frame : Bytes)
  | eth (port : Nat) (frame : Bytes)
  | smb (data : Bytes)
  | nack
  | packet (stop : Nat) (pkt : Packet)
  | jtag (data : Nat)
  | sampled (levels : List (Option Bool))
  | host (addr : Nat) (poisoned noSnoop : Bool)
  | trig (t : Nat) (level : Bool) (ns : Nat)
  | pps (k : Nat) (level : Bool) (ns : Nat)
  | spi (port : Nat) (data : Bytes)
  deriving DecidableEq, Repr

/-! ### Shifts and leases (chapters 1 and 16) -/

/-- Where the device stands between its shifts: the steps of R29, R30 and R479. After step 4 of R30 (or step 3 of R479)
the drive shift runs while `Shift.quarantine` still holds. -/
inductive ShiftPhase where
  | notServing
  | drive
  | starting (step : Nat)
  | lease
  | preempting (step : Nat)
  | closing (step : Nat)
  | gatehouse
  deriving DecidableEq, Repr

/-- The shift and the lease: quarantine of R30, the closed areas of R29, the lock of the LL objects, the export budget
in force in ms, END_REASON, OPEN_TIME (a T128), whether LEASE_NONCE is fresh (R478), whether the lease that was released last still
owes its closing report, the reports of leases before it that wait for the same scrub and those that wait for the Gardener's next
start (R481, R483; without TIME, REPORT_SEQ and SCRUBBED_MIB), the next REPORT_SEQ, whether a normal close (R479) still waits for its
scrub, whether the lease of the present phase has reached step 5 of R29, and the local time of the close or of the trigger. -/
structure Shift where
  phase : ShiftPhase := .notServing
  quarantine : Bool := false
  closed : Bool := false
  llLocked : Bool := false
  budget : Nat := 0
  endReason : Nat := 255
  openTime : Nat := 0
  nonceFresh : Bool := false
  reportDue : Bool := false
  owed : List Nat := []
  held : List Nat := []
  nextReportSeq : Nat := 0
  closeUnderRelease : Bool := false
  ran : Bool := false
  since : Nat := 0
  deriving DecidableEq, Repr

/-! ### Power (chapter 15) -/

/-- States of R440. -/
inductive PdState where
  | on | retention | off
  deriving DecidableEq, Repr

/-- A power domain (R440–R445): the state in force, the end of the present step of a change, whether that step has begun or waits for
its place in the order of R442, the state the change goes on to after it (R442, R444), whether a fence, a lift or a restart forces
the change, and the write that asked for it. -/
structure PowerDomain where
  state : PdState
  target : Option PdState := none
  begun : Bool := false
  goal : Option PdState := none
  forced : Bool := false
  batch : Nat := 0
  deriving DecidableEq, Repr

/-- Where a sleep entry or a wake stands: steps of R453 and R459; `waking` k is the time in which the event of step k + 1
is awaited, and after step 6 (`waking 7`) dictionary-ready; `failed` the wait before the next try and `ignored` the 1 s of R460. -/
inductive SleepPhase where
  | awake
  | entering (step : Nat)
  | asleep
  | waking (step : Nat)
  | failed
  | ignored
  deriving DecidableEq, Repr

/-- The power controller (R447–R460). `since` is the local time its sleep phase began; `wakeDue` a latched wake event;
`tries` the wake tries used, `gatehouseTry` the fourth; `comparator` whether the SMBus comparator is armed; `lowPower` the mode of the
regulator (R449); `samples` the power estimates of the last 1 ms in mW, newest first; `overrunTick` the estimates over the cap
since the last count of R447; `capAt` and `raiseAt` the local times of the last estimate and of the last raise under the cap; `vcoreAt` the
local time at which the code of VDD_CORE has settled after its last raise (R448); `batch` numbers the writes that change power states;
`gardenerDue` whether power domain 45 came on from off, so that the Gardener starts afresh; `calibrated` the local time of the last
calibration of each plot's clock generator (R7); `dieTemp` the highest die temperature that the sensors last read, in 0.125 °C (log 40). -/
structure PowerCtl where
  domains : KMap PowerDomain := []
  phase : SleepPhase := .awake
  since : Nat := 0
  wakeDue : Bool := false
  tries : Nat := 0
  gatehouseTry : Bool := false
  comparator : Bool := false
  lowPower : Bool := false
  samples : List Nat := []
  overrunTick : Nat := 0
  capAt : Option Nat := none
  raiseAt : Option Nat := none
  vcoreAt : Nat := 0
  doorbellsShut : Bool := false
  batch : Nat := 0
  gardenerDue : Bool := false
  calibrated : KMap Nat := []
  dieTemp : Int := 0
  deriving DecidableEq, Repr

/-! ### Boot, trust, lifecycle (chapter 16) -/

/-- Where a start stands (R469). -/
inductive StartPhase where
  | held | started | ready | gatehouse
  deriving DecidableEq, Repr

/-- A staging action in progress (R472): the bytes read from the host, what the checks gave, and whether a read failed. -/
structure Staging where
  action : Nat
  image : Bytes
  reason : Nat
  failed : Bool
  deriving DecidableEq, Repr

/-- The fuse command in progress (R473) and what it will blow. -/
inductive FuseJob where
  | svn (value : Nat)
  | lifecycle (state : Nat)
  | revoke (mask : Nat)
  | keyHash (slot : Nat) (digest : Bytes)
  | debugHash (digest : Bytes)
  | certificate (data : Bytes)
  deriving DecidableEq, Repr

/-- Fuses (R473–R476), and the certificate area of the flash; a key slot is none while unprogrammed. -/
structure Fuses where
  keyHash : KMap Bytes := []
  debugHash : Option Bytes := none
  revoked : Nat := 0
  svn : Nat := 0
  lifecycle : Nat := 0
  secret : Option Nat := none
  serial : Nat := 0
  macBase : Nat := 0
  good : Bool := true
  cert : Bytes := []
  deriving DecidableEq, Repr

/-- Boot, trust and the drive region beyond their objects. `preferOther` and `lastSlot` are PREFER_OTHER and
the last slot of the start record (R470). `flash` is the boot flash (slots and certificate area) by the
complement of each byte, so that an erased byte is not listed, `header` the running image's header, `config` its memory
configuration (R467), `coldRestart` a start of R337, `challengeIx` and `signatureIx` count draws. -/
structure Boot where
  phase : StartPhase := .held
  since : Nat := 0
  preferOther : Bool := false
  lastSlot : Nat := 255
  flash : Memory := {}
  flashAnswers : Bool := true
  flashStalls : Bool := false
  fuses : Fuses := {}
  fuseJobs : List FuseJob := []
  staging : Option Staging := none
  header : Bytes := []
  config : Nat := 0
  keeperDigest : Bytes := []
  keeperImage : Bytes := []
  hostImage : Bool := false
  coldRestart : Bool := false
  unlocked : Bool := false
  challengeIx : Nat := 0
  signatureIx : Nat := 0
  deriving DecidableEq, Repr

/-- Drive region states of R486. -/
inductive DrState where
  | unsealed | sealing | sealed
  deriving DecidableEq, Repr

/-! ### Pins (chapter 17) -/

/-- A JTAG instruction (R505): a private code decodes to itself where R506 and R507 allow it. -/
inductive Jtag where
  | bypass | idcode | samplePreload | extest | clamp | highz
  | keryomos (code : Nat)
  deriving DecidableEq, Repr

/-- Pins, supplies and debug (chapter 17). `boundary` is the boundary chain, `tpinActive` the function of a TRIG pin that is in
force and `tpinNext` one that waits for its pulse to end (R503); `events` is the local time of the last of each event that an
observation bit shows, by 16 × KIND + bit (R504). -/
structure Pins where
  resetN : Bool := false
  pgCore : Bool := true
  pgSram : Bool := true
  refclk : Bool := true
  clk32k : Bool := true
  io18 : Bool := true
  io33 : Bool := true
  wake0 : Bool := false
  wake1 : Bool := false
  pmicSleep : Bool := false
  vcoreSel : Nat := 25
  tpinNext : KMap Nat := []
  tpinActive : KMap Nat := []
  jtag : Jtag := .idcode
  boundary : List Bool := []
  events : KMap Nat := []
  deriving DecidableEq, Repr

/-! ### Promenade (chapter 1) -/

/-- A packet held at a stop: the ports it came in by and goes out by, and how many of its 1–4 transfers (R12) have come in and
how many have gone on. -/
structure Held where
  inp : Nat
  outp : Nat
  pkt : Packet
  got : Nat
  sent : Nat
  deriving DecidableEq, Repr

/-- A transfer that a receiver has refused and that its sender still holds in its retry buffer (R368): the packet, the number of the
transfer in it, and how many copies the receiver has refused. -/
structure Retry where
  pkt : Packet
  transfer : Nat
  refused : Nat
  deriving DecidableEq, Repr

/-- A stop of the Promenade (R9, R13–R15, R368, R369): the packets in its FIFOs, oldest first; the packets that its own block
or its router has yet to issue, oldest first, with the transfers of the first that are issued; per output port number the
grants to class 0 in a row, the class of 1–3 served last, the local times of retried and of poisoned transfers; and by the side it
comes in by the transfer that its sender still holds in its retry buffer. A sender's credits are the slots that the FIFOs of the next
stop leave free. -/
structure Stop where
  held : List Held := []
  outbox : List Packet := []
  issued : Nat := 0
  runs0 : KMap Nat := []
  rr : KMap Nat := []
  retries : KMap (List Nat) := []
  poisons : KMap (List Nat) := []
  retry : KMap Retry := []
  deriving DecidableEq, Repr

/-! ### Lodge (chapter 3) -/

/-- An item of an ingest queue (R69): its slot, its length and its reference. -/
structure IngestItem where
  slot : Nat
  len : Nat
  time : Nat
  deriving DecidableEq, Repr

/-- A pop in progress (R71): the work order's ring and SEQ, and the item held. -/
structure IngestPop where
  ring : Nat
  seq : Nat
  item : IngestItem
  deriving DecidableEq, Repr

/-- An open camera frame (R78–R80): its slot, FS stamp, frame number, lines stored, FLAGS, CRC_LINES, local time of the
last packet, the offset of an LS stamp not yet claimed by a line, whether any LS came, and the line that an LE must end. -/
structure Frame where
  slot : Nat
  time : Nat
  num : Nat
  lines : Nat := 0
  seen : Nat := 0
  flags : Nat := 0
  crcLines : Nat := 0
  lastAt : Nat
  lineStamp : Option Nat := none
  anyLs : Bool := false
  openLine : Option Nat := none
  deriving DecidableEq, Repr

/-- An ingest queue, 0–47 streams and 48–51 host receive (R68–R75): whether its producer runs, visible items oldest first,
closed items whose last byte is not in memory yet, the pop in progress, the open camera frame, whether words are dropped
until the next item-start marker, the slot that the item of an SPI read in progress has taken (R91), the slot last taken, the
sequence of accepted items; and for a scanner (R86) the sweep,
the last raw azimuth (units of 0.01° × 2^-149) or point time and whether a boundary is armed. -/
structure Ingest where
  live : Bool := false
  items : List IngestItem := []
  done : List IngestItem := []
  pop : Option IngestPop := none
  frame : Option Frame := none
  dropping : Bool := false
  taken : Option Nat := none
  last : Option Nat := none
  seq : Nat := 0
  sweep : Nat := 0
  prev : Option Nat := none
  armed : Bool := false
  deriving DecidableEq, Repr

/-- A push into a transmit or launch queue in progress (R97, R98). -/
structure TxPush where
  ring : Nat
  seq : Nat
  frame : LaunchFrame
  deriving DecidableEq, Repr

/-- The Lodge: ingest queues by number, ordinary transmit queues by port, pushes in progress by queue number, SPI reads in
progress by port with their DRDY stamp, FIFO occupancy by port (CSI 0–5, Ethernet 6–9, SPI 10–15, CAN 16), whether
deskew has been applied per CSI-2 port, whether CAN FD controller 1 is bus-off, and of the inertial and wheel streams the times
and values of the newest items, newest first, which the integrator and the Keeper read (R104, R319). -/
structure Lodge where
  ingest : KMap Ingest := []
  txq : KMap (List LaunchFrame) := []
  pushes : KMap TxPush := []
  reading : KMap Nat := []
  fifo : KMap Nat := []
  deskewed : List Nat := []
  busOff : Bool := false
  gyro : KMap (List (Nat × List Nat)) := []
  wheel : KMap (List (Nat × List Nat)) := []
  deriving DecidableEq, Repr

/-! ### KV manager and Arbor (chapters 9 and 10) -/

/-- A registration of R253 and R281: the item's ring and SEQ, the sequence, and the epoch it holds. -/
structure Registration where
  ring : Nat
  seq : Nat
  sequence : Nat
  epoch : Nat
  deriving DecidableEq, Repr

/-- The free and the deferred list of a pool (R282): heads, tails (0xFFFF_FFFF: empty) and lengths; the links stand in
the frame table. -/
structure PoolLists where
  freeHead : Nat := 0xFFFFFFFF
  free : Nat := 0
  deferHead : Nat := 0xFFFFFFFF
  deferTail : Nat := 0xFFFFFFFF
  deferred : Nat := 0
  deriving DecidableEq, Repr

/-- The KV manager beyond its objects and its tables in memory: GE, the two reader counts, the registrations, the pools'
lists, free level-2 tables, lines in the translation cache (sequence × 2,048 + page / 8), the log entry of the poison that
stopped it (R370), the pages counted in SHARED_MAPPED
(sequence × 16,384 + page; R304), the position in the export list (R300), and the BLOCK of each slice's tag as last written
(sequence × 2^14 + layer × 2^6 + head; R254, R266). -/
structure KvManager where
  ge : Nat := 0
  readers0 : Nat := 0
  readers1 : Nat := 0
  regs : List Registration := []
  pools : KMap PoolLists := []
  l2Free : List Nat := []
  cache : List Nat := []
  stopped : Option Nat := none
  shared : List Nat := []
  exportAt : Nat := 0
  blocks : KMap Nat := []
  deriving DecidableEq, Repr

/-! ### Pergola (chapter 4) -/

/-- A point the Pergola has taken (R108, R109): stream − 24, sweep, time in 2^-16 ns (none: it has no time), slice
number, the slice's mid-time as a fraction, whether it was clamped, coordinates in FP32 bits, intensity, return, and its
ORDER once assigned. -/
structure PgPoint where
  stream : Nat
  sweep : Nat
  time : Option Int
  slice : Int := 0
  mid : Int := 0
  den : Nat := 1
  clamped : Bool := false
  x : Nat
  y : Nat
  z : Nat
  intensity : Nat
  ret : Nat
  order : Nat := 0
  deriving DecidableEq, Repr

/-- Per stream (R108, R110, R111, R131): the carry buffer, points of emptied carry buffers not yet counted, the sweep
being received and its start, the latest point time, and the PKT_SEQ last popped. -/
structure PgStream where
  carry : List PgPoint := []
  staleDue : Nat := 0
  sweep : Option (Nat × Int) := none
  latest : Option Int := none
  lastSeq : Option Nat := none
  deriving DecidableEq, Repr

/-- The closed epoch of a running PG_BIN (R109, R116): admitted slices in admission order and the counts so far. -/
structure PgClosed where
  slices : List (List PgPoint)
  offered : Nat
  admitted : Nat
  budgetDropped : Nat
  slicesDropped : Nat
  untimed : Nat
  stale : Nat
  carryOverflow : Nat
  perStream : List Nat
  clamped : Nat
  deriving DecidableEq, Repr

/-- A running PG_BIN (R110): its ring and SEQ, te in 2^-16 ns, its points so far (carried ones first), counts, the log
entry of the first poison met, the closed epoch, and whether the output time line stepped since it started (R112). -/
structure PgBin where
  ring : Nat
  seq : Nat
  te : Nat
  points : List PgPoint := []
  stale : Nat := 0
  gaps : Nat := 0
  bad : Option Nat := none
  closed : Option PgClosed := none
  stepped : Bool := false
  deriving DecidableEq, Repr

/-- The Pergola beyond its tables in memory: streams, the running bin, te of the last bin (none: the next is a first bin),
whether EPOCH_SEQ serves PG_NEIGHBOURS, pillars and tags by grid, reservoir generators by half, the next slot and the
number of samples of the pose ring, the tick of the last sample, the angular rate and speed held (FP64 words),
the integrator's orientation (FP64 words), and the grids whose spill count in the last bin is not 0, until that bin completes. -/
structure Pergola where
  streams : KMap PgStream := []
  bin : Option PgBin := none
  lastTe : Option Nat := none
  seqUsable : Bool := false
  pillars : KMap Nat := []
  tags : KMap Nat := []
  gens : KMap Nat := []
  poseNext : Nat := 0
  poseCount : Nat := 0
  lastTick : Option Nat := none
  omega : List Nat := [0, 0, 0]
  speed : Nat := 0
  orient : List Nat := [0x3FF0000000000000, 0, 0, 0]
  spilled : List Nat := []
  deriving DecidableEq, Repr

/-! ### Keeper and Lamplighter (chapter 11) -/

/-- States of `KP_STATE` (R310, R352). -/
inductive KpState where
  | starting | disarmed | waiting | running | safe | latched | parked
  deriving DecidableEq, Repr

/-- A registered declaration (R311, R312): the runs' items by ring and SEQ and the 64-byte descriptors read; run B none for
a slot that is not redundant. -/
structure Declared where
  slot : Nat
  ringA : Nat
  seqA : Nat
  runA : Nat
  ringB : Nat
  seqB : Nat
  runB : Option Nat
  deriving DecidableEq, Repr

/-- An epoch opened by its first declaration (R312, R321, R322): number, EPOCH_END in 2^-16 ns, the drive table it is judged
by, its declarations. -/
structure Epoch where
  number : Nat
  end_ : Nat
  table : Bytes
  slots : List Declared := []
  deriving DecidableEq, Repr

/-- The restart under way (R336, R337). -/
inductive Restart where
  | none | warm | cold
  deriving DecidableEq, Repr

/-- Where a gaffer's golden set stands (R331): deferrals of the slot that is due and the local time of its next attempt, the local
time the set started or was forced at, the executing items that a forced set still waits for, and the local time of the last pass. -/
structure Golden where
  deferred : Nat := 0
  dueAt : Nat := 0
  behind : List (Nat × Nat) := []
  since : Option Nat := none
  forced : Bool := false
  running : Bool := false
  lastPass : Option Nat := none
  deriving DecidableEq, Repr

/-- The Keeper, the fault latch and the Lamplighter. `reference` is the lowest epoch without a verdict (none: any may open),
`lastEnd` the EPOCH_END of the last verdict, `window` the verdicts of R326 newest first (true: INVALID), `good` the VALID
verdicts in a row since restart-ready, `prev` the r of the last verdict's RATE rules by source, reduction and P3
with `prevEnd` its EPOCH_END, `startDue` whether a Keeper start runs, `restart` the restart under way, `testing` the gaffers whose
start test it still awaits, `entries` the local times of safe-state entries, `gardener` the local times of the Gardener's restarts,
`gardenerAt` that of its last heartbeat, `gardenerOff` whether it stays off, `golden` the Lamplighter's sets by gaffer, `damage` a
damaged burst of the drive region the Keeper has not acted on yet (R366), `beatAt` the local time of the last edge of HEARTBEAT
(R309), `parkedAt` that of the next evaluation of the parked table (R341), `slot` the next slot of the Lamplighter's rotation and
`slotAt` the local time at which it starts (R328), and `heldReset` whether R339 holds the accelerator side in reset. -/
structure Keeper where
  phase : KpState := .starting
  safeN : Bool := false
  faultN : Bool := false
  heartbeat : Bool := false
  reference : Option Nat := none
  lastEnd : Option Nat := none
  epochs : List Epoch := []
  window : List Bool := []
  good : Nat := 0
  prev : KMap Num := []
  prevEnd : Option Nat := none
  startDue : Bool := false
  restart : Restart := .none
  testing : List Nat := []
  entries : List Nat := []
  gardener : List Nat := []
  gardenerAt : Nat := 0
  gardenerOff : Bool := false
  golden : KMap Golden := []
  damage : Bool := false
  beatAt : Nat := 0
  parkedAt : Nat := 0
  slot : Nat := 0
  slotAt : Nat := 0
  heldReset : Bool := false
  deriving DecidableEq, Repr


/-! ### The whole state -/

/-- The block's state. `pending` is the queue of waiting commands, first in first out; `freeIx` counts the free values
drawn (the MODEL'S OWN, log 2); `now` is local time in ns (log 3); `uptime0` the local time of reset release. -/
structure State where
  pending : List Instr := []
  freeIx : Nat := 0
  now : Nat := 0
  uptime0 : Nat := 0
  regs : KMap Nat := []
  blobs : KMap Bytes := []
  mem : Memory := {}
  hostMem : Memory := {}
  stops : KMap Stop := []
  log : ErrorLog := {}
  sundial : Sundial := {}
  disp : Dispatch := {}
  link : HostLink := {}
  ddr : Ddr := {}
  paths : Paths := {}
  lodge : Lodge := {}
  pergola : Pergola := {}
  kv : KvManager := {}
  keeper : Keeper := {}
  shift : Shift := {}
  drive : DrState := .unsealed
  power : PowerCtl := {}
  boot : Boot := {}
  pins : Pins := {}
  out : List Out := []
  deriving DecidableEq, Repr

/-- The machine right after reset, RESET_n still low: every object at its default, memory with nothing listed. -/
def State.reset : State := {}

end Sys2Proof.Machine
end

