-- ==== Sys2Proof/Machine/Mem.lean ====
section
/-! DEFINITION. Byte memories: reading and writing one byte and byte strings, undefined ranges, poison and flaws
(R19, R200, R359, R361, R367). The canonical form: addresses strictly rising, a cell that holds what its address reads as unlisted
only in an undefined range. -/

namespace Sys2Proof.Machine

/-- The newest undefined range that holds an address. -/
def Memory.undefAt (m : Memory) (a : Nat) : Option Extent :=
  m.undef.find? (fun e => decide (e.lo ≤ a) && decide (a < e.hi))

/-- What an address outside every undefined range reads as when no cell lists it: 0 (log 4), and in the Arbor's index the empty slots
of R286. -/
def blankByte (a : Nat) : Byte := if 0xF300580000 ≤ a ∧ a < 0xF300600000 then 0xFF else 0

/-- What an address reads as when no cell lists it: that, or a free byte inside an undefined range (log 2). -/
def Memory.unlisted (m : Memory) (a : Nat) : Byte :=
  match m.undefAt a with
  | some e => Config.freeByte e.tag a
  | none => blankByte a

/-- The byte at an address. -/
def Memory.get (m : Memory) (a : Nat) : Byte :=
  match kfind m.cells a with
  | some b => b
  | none => m.unlisted a

/-- Writes one byte and keeps the canonical form. -/
def Memory.set (m : Memory) (a : Nat) (b : Byte) : Memory :=
  if b = blankByte a ∧ m.undefAt a = none then { m with cells := kdel m.cells a }
  else { m with cells := kset m.cells a b }

/-- Writes a byte string from an address upward. -/
def Memory.write (m : Memory) (a : Nat) (bs : Bytes) : Memory :=
  match bs with
  | [] => m
  | b :: t => (m.set a b).write (a + 1) t

/-- Reads n bytes from an address. -/
def Memory.read (m : Memory) (a n : Nat) : Bytes := (List.range n).map (fun i => m.get (a + i))

/-- Whether the listed cells keep the canonical form. -/
def Memory.cellsOk (m : Memory) : List Host.Cell → Bool
  | [] => true
  | [c] => decide (c.2 ≠ blankByte c.1) || (m.undefAt c.1).isSome
  | c :: d :: t => (decide (c.2 ≠ blankByte c.1) || (m.undefAt c.1).isSome) && decide (c.1 < d.1) && Memory.cellsOk m (d :: t)

/-- The canonical form of a memory. -/
def Memory.wf (m : Memory) : Bool := m.cellsOk m.cells

/-- Drops the cells of [lo, hi). -/
def Memory.dropRange (m : Memory) (lo hi : Nat) : Memory :=
  { m with cells := m.cells.filter (fun c => !(decide (lo ≤ c.1) && decide (c.1 < hi))) }

/-- Makes the bytes of [lo, hi) undefined: one free byte each, of the given tag. -/
def Memory.forget (m : Memory) (lo hi tag : Nat) : Memory :=
  if lo < hi then
    { m with cells := m.cells.filter (fun c => !(decide (lo ≤ c.1) && decide (c.1 < hi))),
             undef := ⟨lo, hi, tag⟩ :: m.undef }
  else m

/-- An extent less a range: what is left below and above it. -/
def Extent.minus (e : Extent) (lo hi : Nat) : List Extent :=
  (if e.lo < min lo e.hi then [⟨e.lo, min lo e.hi, e.tag⟩] else []) ++
  (if max hi e.lo < e.hi then [⟨max hi e.lo, e.hi, e.tag⟩] else [])

/-- Writes zeros over [lo, hi), and empty slots over the index of R286: no cell, no undefined range, no poison and no flaw is left
there (R440, R182). -/
def Memory.zero (m : Memory) (lo hi : Nat) : Memory :=
  if lo < hi then
    { cells := m.cells.filter (fun c => !(decide (lo ≤ c.1) && decide (c.1 < hi))),
      undef := m.undef.flatMap (fun e => e.minus lo hi),
      poison := m.poison.filter (fun g => !(decide (lo ≤ g) && decide (g < hi))),
      flaws := m.flaws.filter (fun f => !(decide (lo ≤ f.1) && decide (f.1 < hi))) }
  else m

/-- Marks a granule as poison (R361, R367). -/
def Memory.poisonAt (m : Memory) (g : Nat) : Memory :=
  if g ∈ m.poison then m else { m with poison := m.poison ++ [g] }

/-- A whole granule written anew: poison and flaw are gone (R359, R367). -/
def Memory.heal (m : Memory) (g : Nat) : Memory :=
  { m with poison := m.poison.filter (· != g), flaws := kdel m.flaws g }

end Sys2Proof.Machine
end

