-- ==== Sys2Proof/Machine/ReedSolomon.lean ====
section
/-! DEFINITION. The Reed–Solomon code of DDR5 bursts (R362, R363, R367): its field, the encoder, the decoder of errors and erasures,
and the places of the symbols on the devices. -/

namespace Sys2Proof.Machine

/-! ### GF(2^8) -/

/-- Twice an element: the field polynomial is x^8 + x^4 + x^3 + x^2 + 1 (R362), and its root α is 2. -/
def gfDouble (a : Nat) : Nat := if a < 128 then 2 * a else (2 * a) ^^^ 0x11D

def gfMul (a b : Nat) : Nat :=
  (List.range 8).foldl (fun r i => if bit b (7 - i) then gfDouble r ^^^ a else gfDouble r) 0

def gfPow (a : Nat) : Nat → Nat
  | 0 => 1
  | n + 1 => gfMul (gfPow a n) a

/-- The inverse of an element that is not 0. -/
def gfInv (a : Nat) : Nat := gfPow a 254

/-! ### Polynomials, the constant term first -/

def polyAdd (p q : List Nat) : List Nat := (List.range (max p.length q.length)).map (fun i => p.getD i 0 ^^^ q.getD i 0)

def polyScale (c : Nat) (p : List Nat) : List Nat := p.map (gfMul c)

def polyAt (p : List Nat) (x : Nat) : Nat := p.foldr (fun c r => c ^^^ gfMul r x) 0

/-- The monic polynomial with the given roots. -/
def polyOfRoots (xs : List Nat) : List Nat := xs.foldl (fun p x => polyAdd (0 :: p) (polyScale x p)) [1]

/-- The sum of the products of two lists, as far as both go. -/
def gfDot (p s : List Nat) : Nat := (List.zipWith gfMul p s).foldl (· ^^^ ·) 0

/-! ### Errors and syndromes -/

/-- An error pattern: symbol numbers, each with what is xor-ed into the symbol. -/
abbrev SymbolErrors := List (Nat × Nat)

/-- What a pattern xors into symbol j. -/
def errorAt (e : SymbolErrors) (j : Nat) : Nat := (e.filter (fun x => x.1 == j)).foldl (fun r x => r ^^^ x.2) 0

/-- A pattern with one entry for each symbol that is wrong, in order. -/
def errorsOnly (e : SymbolErrors) : SymbolErrors :=
  ((List.range 85).map (fun j => (j, errorAt e j))).filter (fun x => x.2 != 0)

/-- The locator of symbol j: the symbols are the coefficients of the code polynomial, symbol 0 that of x^84 (DESIGN CHOICE: R362 names
the roots and gives no order, log 15). -/
def symbolLocator (j : Nat) : Nat := gfPow 2 (84 - j)

/-- The values of a pattern's polynomial at the roots α^0 to α^15 (R362). -/
def syndromesOf (e : SymbolErrors) : List Nat :=
  (List.range 16).map (fun i => e.foldl (fun r x => r ^^^ gfMul x.2 (gfPow (symbolLocator x.1) i)) 0)

/-- The value at one of the symbols js that may be wrong, when no other is. -/
def errorValue (s : List Nat) (js : List Nat) (j : Nat) : Nat :=
  let q := polyOfRoots ((js.filter (· != j)).map symbolLocator)
  gfMul (gfDot q s) (gfInv (polyAt q (symbolLocator j)))

/-! ### Encoding (R362) -/

/-- Symbols 80–84: ADDRESS[39:6] in little-endian order. -/
def addressSymbols (a : Nat) : SymbolErrors := (List.range 5).map (fun i => (80 + i, bits (a / 64) (8 * i + 7) (8 * i)))

/-- Symbols 64–79 of the burst with the given data at an address: the ones that make every syndrome 0. -/
def checkSymbols (data : Bytes) (a : Nat) : List Nat :=
  let known := (data.zipIdx.map (fun x => (x.2, x.1.toNat))) ++ addressSymbols a
  (List.range 16).map (fun i => errorValue (syndromesOf known) ((List.range 16).map (64 + ·)) (64 + i))

/-- The 80 stored symbols of a burst. -/
def burstSymbols (data : Bytes) (a : Nat) : List Nat := data.map (·.toNat) ++ checkSymbols data a

/-- What poison is to the codeword of its data (R367). -/
def poisonPattern : SymbolErrors := (List.range 16).map (fun i => (64 + i, 0x5A))

/-! ### Places (R362) -/

/-- The device a stored symbol lies on, by DDR_WIDTH. -/
def symbolDevice (width j : Nat) : Nat := if width = 0 then j / 8 else j / 16

/-- The beat and the wire that carry bit b of stored symbol j. -/
def symbolWire (width j b : Nat) : Nat × Nat :=
  if width = 0 then (2 * (j % 8) + b / 4, 4 * (j / 8) + b % 4) else (j % 16, 8 * (j / 16) + b)

/-- Beat t of a burst on the 40 wires of its subchannel. -/
def burstBeat (width : Nat) (symbols : List Nat) (t : Nat) : Nat :=
  (symbols.zipIdx).foldl (fun r x => (List.range 8).foldl (fun r b =>
    let (beat, wire) := symbolWire width x.2 b
    if beat = t ∧ bit x.1 b then r ||| 1 <<< wire else r) r) 0

/-! ### Decoding (R363) -/

/-- The run of Massey's algorithm: the connection polynomial and its length, the one before the last change of length with the
discrepancy then, and the steps since. -/
structure Massey where
  conn : List Nat := [1]
  len : Nat := 0
  prev : List Nat := [1]
  disc : Nat := 1
  since : Nat := 1

/-- One syndrome more. -/
def Massey.next (m : Massey) (s : List Nat) (n : Nat) : Massey :=
  let d := gfDot (m.conn.take (m.len + 1)) ((s.take (n + 1)).reverse)
  if d = 0 then { m with since := m.since + 1 }
  else
    let conn := polyAdd m.conn (List.replicate m.since 0 ++ polyScale (gfMul d (gfInv m.disc)) m.prev)
    if 2 * m.len ≤ n then ⟨conn, n + 1 - m.len, m.conn, d, 1⟩ else { m with conn := conn, since := m.since + 1 }

/-- The symbols at which the syndromes that remain when the erasures are taken out place the errors, if the code can place them. -/
def locateErrors (s : List Nat) (erased : List Nat) : Option (List Nat) :=
  let gamma := polyOfRoots (erased.map symbolLocator)
  let t := (List.range (16 - erased.length)).map (fun i => gfDot gamma (s.drop i))
  let m := (List.range t.length).foldl (fun m n => Massey.next m t n) {}
  let p := ((List.range (m.len + 1)).map (fun i => m.conn.getD i 0)).reverse
  let js := (List.range 85).filter (fun j => !(erased.contains j) && polyAt p (symbolLocator j) == 0)
  if t.length < 2 * m.len ∨ js.length ≠ m.len then none else some js

/-- The decoder: what it takes a burst's errors to be, with a marked device's symbols as erasures; none where it cannot correct. -/
def decodeBurst (e : SymbolErrors) (erased : List Nat) : Option SymbolErrors :=
  let s := syndromesOf e
  match locateErrors s erased with
  | none => none
  | some js =>
    let all := erased ++ js
    let found := errorsOnly (all.map (fun j => (j, errorValue s all j)))
    if syndromesOf found = s then some found else none

end Sys2Proof.Machine
end

