-- ==== Sys2Proof/Machine/Ops.lean ====
section
/-! DEFINITION. The operations every family shares: objects as registers (R5, R407), free values, time (R34, R45),
messages (R395, R425), the error log (R372–R376), the address map and who reaches what (R19–R31), and reading and
writing device memory with the codes that guard it (R359–R370). -/

namespace Sys2Proof.Machine

/-! ### Objects as registers -/

/-- The value of a scalar object. -/
def State.reg (s : State) (r : Reg) : Nat := kget s.regs r.key r.dflt

/-- Sets a scalar object. -/
def State.setReg (s : State) (r : Reg) (v : Nat) : State := { s with regs := kset s.regs r.key v }

/-- A flag object. -/
def State.flag (s : State) (r : Reg) : Bool := s.reg r != 0

/-- Adds to a U32 counter, saturating (R5). -/
def State.bumpBy (s : State) (r : Reg) (k : Nat) : State := s.setReg r (satAdd (2 ^ 32 - 1) (s.reg r) k)

/-- Counts one event (R5). -/
def State.bump (s : State) (r : Reg) : State := s.bumpBy r 1

/-- Counts one event when it happened. -/
def State.bumpIf (s : State) (b : Bool) (r : Reg) : State := if b then s.bump r else s

/-- A signed object of n bits. -/
def State.sreg (s : State) (n : Nat) (r : Reg) : Int := toSigned n (s.reg r)

/-- A DOMAIN object's bytes, with what it reads as until written. -/
def State.blob (s : State) (k : Nat) (d : Bytes) : Bytes := kget s.blobs k d

/-- Sets a DOMAIN object. -/
def State.setBlob (s : State) (k : Nat) (v : Bytes) : State := { s with blobs := kset s.blobs k v }

/-- Sends a message to the outside. -/
def State.emit (s : State) (o : Out) : State := { s with out := o :: s.out }

/-- An event that an observation bit shows happens now (R504): `n` is 16 × KIND + bit. -/
def State.observes (s : State) (n : Nat) : State := { s with pins := { s.pins with events := kset s.pins.events n s.now } }

/-- Draws one free value (log 2). -/
def State.draw (s : State) : Nat × State := (Config.freeNat s.freeIx, { s with freeIx := s.freeIx + 1 })

/-- Uses one free tag. -/
def State.skipFree (s : State) : State := { s with freeIx := s.freeIx + 1 }

/-! ### Power domains (R439, R440) -/

/-- A power domain's record: all but power domain 0 are off until a start turns them on (R469, R491). -/
def State.pd (s : State) (d : Nat) : PowerDomain :=
  kget s.power.domains d { state := if d = 0 then .on else .off }

/-- Whether a power domain is on and has not begun to leave that state (R442, R444). -/
def State.pdOn (s : State) (d : Nat) : Bool :=
  (s.pd d).state == .on && ((s.pd d).target.isNone || !(s.pd d).begun)

def State.setPd (s : State) (d : Nat) (v : PowerDomain) : State :=
  { s with power := { s.power with domains := kset s.power.domains d v } }

/-- The power domain of a gaffer. -/
def gafferPd (g : Nat) : Nat := g + 2

/-! ### Gaffers and chairs (R20, R181–R185) -/

def State.gaffer (s : State) (g : Nat) : Gaffer := kget s.disp.gaffers g {}

def State.setGaffer (s : State) (g : Nat) (v : Gaffer) : State :=
  { s with disp := { s.disp with gaffers := kset s.disp.gaffers g v } }

/-- Whether a gaffer is fenced (R183). -/
def State.fenced (s : State) (g : Nat) : Bool := bit (s.reg Regs.gafferFence) g

/-- Whether a chair is formed (R181). -/
def State.formed (s : State) (c : Nat) : Bool := bit (s.reg Regs.chairFormed) c

/-- Whether a chair's join or split has not reached step 4 of R182. -/
def State.chairChanging (s : State) (c : Nat) : Bool := c ∈ s.disp.chairsChanging

/-- The scratchpad of a gaffer answers as its own window (R20, R182, R184, R18); none does while R339 holds the accelerator side in
reset. -/
def State.gafferUp (s : State) (g : Nat) : Bool :=
  s.pdOn (gafferPd g) && !s.fenced g && !s.formed (g / 2) && !s.chairChanging (g / 2) && !s.keeper.heldReset

/-- A chair's window is open. -/
def State.chairUp (s : State) (c : Nat) : Bool :=
  s.formed c && !s.chairChanging c && !s.keeper.heldReset && s.pdOn (gafferPd (2 * c)) && s.pdOn (gafferPd (2 * c + 1))
  && !s.fenced (2 * c) && !s.fenced (2 * c + 1)

/-! ### Plots (R7, R8) and the stops of the Promenade (R9–R12) -/

/-- The power domain of a plot (R439), the 242 plots numbered in the order of R7's table. -/
def plotDomain (n : Nat) : Nat :=
  if n < 128 then gafferPd (n / 4)
  else if n < 176 then 41
  else if n < 184 then 42 + (n - 176) / 4
  else if n < 188 then 42 + (n - 184) / 2
  else if n < 190 then 44
  else if n = 216 then 1
  else if n < 218 then 40
  else if n < 226 then 38 + (n - 218) / 4
  else if n < 230 then 34 + (n - 226)
  else if n = 230 then 41
  else if n = 234 ∨ n = 239 then 0
  else if n < 237 then 1
  else if n < 239 then 45
  else 46

/-- The highest local clock of a plot in MHz (R8). -/
def plotMaxMhz (n : Nat) : Nat :=
  if n < 128 then 1500
  else if n < 176 then 1200
  else if n < 184 then 1600
  else if 218 ≤ n ∧ n ≤ 230 then 1200
  else if n = 231 then 600
  else 800

/-- The clock generators of a power domain's plots are calibrated (R7). -/
def State.calibrates (s : State) (d : Nat) : State :=
  { s with power := { s.power with calibrated :=
      ((List.range 242).filter (fun n => decide (plotDomain n = d))).foldl (fun m n => kset m n s.now) s.power.calibrated } }

/-- The stops of R11. -/
def gafferStop (g : Nat) : Nat := if g < 28 then 6 * (g / 4 + 1) + g % 4 + 1 else [30, 36, 35, 41].getD (g - 28) 0
def subchannelStop (k : Nat) : Nat := if k < 4 then 6 * (k + 1) else 6 * (k - 3) + 5
def marverStop (m : Nat) : Nat := [2, 3, 42, 47].getD m 0
def lodgeStop : Nat := 0
def pergolaStop (h : Nat) : Nat := if h = 0 then 1 else 4
def hostStop : Nat := 5


/-- The gaffer at a stop. -/
def stopGaffer (k : Nat) : Option Nat := (List.range 32).find? (fun g => decide (gafferStop g = k))

/-- The power domain of a block behind the service crossbar (R439). -/
def crossbarDomain : Crossbar → Nat
  | .pcie => 44
  | .dispatcher | .kvManager => 41
  | .keeper | .lamplighter | .sundial => 1
  | .gardener => 45
  | .bootFlash | .debug => 46
  | .powerController => 0

/-- The power domain of the block at a stop; at the host stop, of the block named (R11, R439). -/
def stopDomain (k : Nat) (b : Crossbar) : Nat :=
  if k = lodgeStop then 40
  else if k = pergolaStop 0 then 38
  else if k = pergolaStop 1 then 39
  else if k = hostStop then crossbarDomain b
  else match (List.range 4).find? (fun m => decide (marverStop m = k)), (List.range 8).find? (fun c => decide (subchannelStop c = k)) with
    | some m, _ => 34 + m
    | none, some c => 42 + c / 4
    | none, none => gafferPd ((stopGaffer k).getD 0)

/-- Whether the block at a stop belongs to the accelerator side, which R339 can hold in reset: gaffers, Marvers, the Pergola and the KV
manager. -/
def acceleratorStop (k : Nat) (b : Crossbar) : Bool :=
  if k = hostStop then decide (b = .kvManager) else decide (k ≠ lodgeStop) && (List.range 8).all (fun c => decide (subchannelStop c ≠ k))

/-- Whether the block at a stop is on, not fenced and not held in reset (R18, R339). -/
def State.stopUp (s : State) (k : Nat) (b : Crossbar) : Bool :=
  s.pdOn (stopDomain k b) && !(s.keeper.heldReset && acceleratorStop k b) && (match stopGaffer k with
    | some g => !s.fenced g
    | none => true)

def State.stop (s : State) (k : Nat) : Stop := kget s.stops k {}
def State.setStop (s : State) (k : Nat) (v : Stop) : State := { s with stops := kset s.stops k v }

/-- The transfers of a packet: one for each 64 bytes of payload, and one for a packet without payload (R12). -/
def packetTransfers (p : Packet) : Nat := max 1 (ceilDiv p.payload.length 64)

/-- Whether the boundary between a stop and a power domain is drained (R10): no packet of its blocks is partly issued or still to
be issued, and none is partly taken. The Promenade itself is drained when no stop holds a packet. -/
def State.drained (s : State) (d : Nat) : Bool :=
  s.stops.all (fun e =>
    let mine (p : Packet) : Bool := decide (d = 41) || decide (stopDomain e.1 p.behind = d)
    !(e.2.outbox.any mine) && !(e.2.retry.any (fun r => (decide (d = 41) || decide (r.1 = 4)) && mine r.2.pkt)) && !(e.2.held.any (fun h => mine h.pkt && (decide (d = 41)
      || (decide (h.inp = 4) && decide (h.got < packetTransfers h.pkt)) || (decide (h.outp = 4) && decide (0 < h.sent))))))

/-! ### Time (R34, R43, R45) -/

/-- One of the two time domains: false A, true B. -/
def State.dom (s : State) (b : Bool) : TimeDomain := if b then s.sundial.domB else s.sundial.domA

def State.setDom (s : State) (b : Bool) (d : TimeDomain) : State :=
  { s with sundial := if b then { s.sundial with domB := d } else { s.sundial with domA := d } }

/-- The active time domain. -/
def State.activeDom (s : State) : TimeDomain := s.dom s.sundial.active

/-- The output time line in 2^-40 ns (R34, R43). -/
def State.outTime (s : State) : Nat := ((s.activeDom.counter : Int) - s.sundial.residual).toNat

/-- The output time line in whole ns. -/
def State.outNs (s : State) : Nat := s.outTime >>> 40

/-- The servo's code (R40). -/
def Servo.code : Servo → Nat
  | .freeRun => 0
  | .acquiring => 1
  | .locked => 2
  | .holdover => 3
  | .coasting => 4

/-- The largest |offset| of the last 8 Syncs, in 2^-16 ns. -/
def TimeDomain.largest (d : TimeDomain) : Nat := d.offsets.foldl (fun a o => max a o.natAbs) 0

/-- A time domain's exact bound in 2^-16 ns scaled by 10^6 (R40, R62), none when unknown. -/
def State.boundScaled (s : State) (b : Bool) : Option Nat :=
  let d := s.dom b
  match d.servo with
  | .freeRun => none
  | .acquiring | .locked => some ((d.largest + 4 * 65536) * 1000000)
  | .holdover | .coasting =>
    d.uncBase.map (fun u => u * 1000000 + (s.now - d.uncSince) * 65536 * s.reg Regs.timeHoldoverRate)

/-- TD_UNCERTAINTY (R64): the bound rounded up to whole ns, 2^64 − 1 when unknown. -/
def State.uncertainty (s : State) (b : Bool) : Nat :=
  match s.boundScaled b with
  | none => 2 ^ 64 - 1
  | some u => min (2 ^ 64 - 1) (ceilDiv u (65536 * 1000000))

/-- The UNC code of R45: the least u with the bound at most 2^u ns, or 63. -/
def uncCode (bound : Nat) : Nat :=
  if bound = 2 ^ 64 - 1 then 63
  else if bound ≤ 1 then 0
  else if 62 < Nat.log2 (bound - 1) + 1 then 63 else Nat.log2 (bound - 1) + 1

/-- T128[127:110] of a value of one time domain (R45), INTERP and SYNTH clear. -/
def State.timeFlags (s : State) (b : Bool) : Nat :=
  (if b then 1 else 0) + 2 * (s.dom b).servo.code
  + (match s.sundial.steppedAt with
     | some t => if s.now < t + 1000000000 then 16 else 0
     | none => 0)
  + (if s.sundial.residual = 0 then 0 else 32) + 64 * uncCode (s.uncertainty b)

/-- A signed quotient rounded to whole ns from 2^-40 ns (ties to even). -/
def nsOf40 (x : Int) : Int := roundDivEven x (2 ^ 40)

/-- A T128 from a time in 2^-40 ns and its flag bits (R45). -/
def packT128 (t40 flags : Nat) : Nat :=
  (t40 >>> 40) / 1000000000 + ((t40 >>> 40) % 1000000000) <<< 64 + ((t40 >>> 24) % 65536) <<< 94 + flags <<< 110

/-- The time of a T128 in 2^-16 ns. -/
def t128Time (x : Nat) : Nat := (bits x 63 0 * 1000000000 + bits x 93 64) * 65536 + bits x 109 94

/-- The output time line as a T128 read through the crossbar. -/
def State.timeNow (s : State) : Nat := packT128 s.outTime (s.timeFlags s.sundial.active)

def State.tap (s : State) (k : Nat) : Tap := kget s.sundial.taps k {}

def State.setTap (s : State) (k : Nat) (t : Tap) : State :=
  { s with sundial := { s.sundial with taps := kset s.sundial.taps k t } }

/-- What a tap reports for an event `fine` × 125 ps after the present local tick, in 2^-40 ns (R38): the time of the edge to which
the last message re-phased it, k local ticks more at the message's rate, and the fine phase. -/
def Tap.timeAt (t : Tap) (now fine : Nat) : Int :=
  let phases := (2 * ((now * 8 + fine - t.edge : Nat) : Int) * (1000000 + t.ppm) + 1000000) / 2000000
  t.base + t.skew + phases / 16 * (2 * 2 ^ 40 + 2 * t.rate) + phases % 16 * 2 ^ 37

/-- What a time tap reports, in 2^-40 ns: the output time line while the tap has taken no message (log 17). -/
def State.tapTime (s : State) (k fine : Nat) : Int :=
  let t := s.tap k
  if t.takenAt.isSome then t.timeAt s.now fine else s.outTime + fine * 2 ^ 37

/-- The tap has taken no message for 500 ns (R38). -/
def State.tapQuiet (s : State) (k : Nat) : Bool := decide ((s.tap k).takenAt.getD (s.tap k).since + 500 ≤ s.now)

/-- The flags of a tap's captures: INTERP 1 (R36); STATE 0 and UNC 63 while the tap is silent (R38). -/
def State.tapFlags (s : State) (k : Nat) : Nat :=
  let t := s.tap k
  let f := if t.takenAt.isSome then t.flags else s.timeFlags s.sundial.active
  (if s.tapQuiet k then f - 2 * bits f 3 1 - 64 * bits f 11 6 + 64 * 63 else f) + 4096

/-- A T128 captured at a delay line (R36, R48): `fine` counts 125 ps, `corr` is the correction in 0.125 ns. -/
def State.stampAt (s : State) (k fine : Nat) (corr : Int) : Nat :=
  packT128 (s.tapTime k fine + corr * 2 ^ 37).toNat (s.tapFlags k)

/-- The power domain of a tap's plot (R35, R439). -/
def tapDomain (k : Nat) : Nat := if k = 17 ∨ k = 18 then 1 else if k = 19 then 45 else 40

/-- As power domain d turns on, its taps measure their branch delays: half the round trip plus the forwarding delays, which are
measured as power domain 1 turns on (R38). -/
def State.measureBranches (s : State) (d : Nat) : State :=
  let fwd := if d = 1 then (List.range 24).map (fun k => (k, Config.forwardDelay k)) else s.sundial.forwarding
  let mine := (List.range 24).filter (fun k => decide (tapDomain k = d))
  { s with sundial := { s.sundial with
    forwarding := fwd
    taps := mine.foldl (fun m k => kset m k { delay := 2 * Config.branchDelay k / 2 + kget fwd k 0, since := s.now }) s.sundial.taps } }

/-- The taps by number (log 17): CSI-2 port p, Ethernet receive port p, SPI port p, CAN FD controller 1, Sundial pin block, Keeper,
Gardener, Ethernet transmit port p. -/
def tapCsi (p : Nat) : Nat := p
def tapEth (p : Nat) : Nat := 6 + p
def tapSpi (p : Nat) : Nat := 10 + p
def tapCan : Nat := 16
def tapPins : Nat := 17
def tapEthTx (p : Nat) : Nat := 20 + p

/-! ### Messages -/

/-- Posts an MSI-X message (R395): nothing on 0xFF; held while the link is down (R397); a masked vector keeps it pending. -/
def State.msix (s : State) (v : Nat) : State :=
  if 64 ≤ v then s
  else if !s.flag Regs.hifLinkUp then { s with link := { s.link with heldMsix := s.link.heldMsix ++ [v] } }
  else if v ∈ s.link.unmasked then s.emit (.msix v)
  else { s with link := { s.link with
          pendingMsix := if v ∈ s.link.pendingMsix then s.link.pendingMsix else v :: s.link.pendingMsix } }

/-- One bit of a reflected CRC-32C. -/
def crc32cBit (c : Nat) : Nat := if c % 2 = 1 then (c / 2) ^^^ 0x82F63B78 else c / 2

/-- One byte of CRC-32C. -/
def crc32cByte (c : Nat) (b : Byte) : Nat :=
  crc32cBit (crc32cBit (crc32cBit (crc32cBit (crc32cBit (crc32cBit (crc32cBit (crc32cBit (c ^^^ b.toNat))))))))

/-- CRC-32C as R297 defines it. -/
def crc32c (bs : Bytes) : Nat := (bs.foldl crc32cByte 0xFFFFFFFF) ^^^ 0xFFFFFFFF

/-- One bit of the CRC-16 of R37. -/
def crc16Bit (c : Nat) : Nat := if 0x8000 ≤ c then ((2 * c) % 65536) ^^^ 0x1021 else 2 * c

/-- CRC-16 with polynomial 0x1021, initial 0xFFFF, no reflection (R37). -/
def crc16 (bs : Bytes) : Nat :=
  bs.foldl (fun c b => crc16Bit (crc16Bit (crc16Bit (crc16Bit (crc16Bit (crc16Bit (crc16Bit (crc16Bit
    (c ^^^ (b.toNat <<< 8)))))))))) 0xFFFF

/-- The frame of a safety-side message (R423): 56 bytes of body, COUNTER, reserved, CRC under the given data ID. -/
def canFrame (dataId counter : Nat) (body : Bytes) : Bytes :=
  let f := padTo 56 body ++ toLe 2 counter ++ [0, 0]
  f ++ toLe 4 (crc32c (toLe 4 dataId ++ f))

/-- Whether CAN FD controller 0 sends: power domain 1 is on, VDD_IO33 is up (R497), and it is not bus-off. -/
def State.canSends (s : State) : Bool := s.pdOn 1 && s.pins.io33 && !s.paths.canBus0Off

/-- Sends a frame on b + k with the device's COUNTER (R425); nothing while controller 0 does not send. -/
def State.sendSafety (s : State) (k : Nat) (body : Bytes) : State :=
  if s.canSends then
    { (s.emit (.can (s.reg Regs.dictCanBase + k)
        (canFrame (s.reg Regs.dictCanDataId ^^^ 0x80000000) s.paths.deviceCounter body))) with
      paths := { s.paths with deviceCounter := (s.paths.deviceCounter + 1) % 65536 } }
  else s

/-- The frames that one command has queued on controller 0 between s and t leave in the order of R422: the verdict, safety responses,
events, then the ordinary response; COUNTER rises in the order of sending (R425). -/
def State.canOrdered (t s : State) : State :=
  let b := s.reg Regs.dictCanBase
  let new := (t.out.take (t.out.length - s.out.length)).reverse
  let on (k : Nat) (o : Out) : Bool := match o with
    | .can i _ => decide (i = b + k)
    | _ => false
  let queued := new.filter (on 4) ++ new.filter (on 3) ++ new.filter (on 5)
  if queued.length ≤ 1 then t
  else
    let numbered := (List.range queued.length).map (fun i => match queued.getD i .nack with
      | .can k f => .can k (canFrame (t.reg Regs.dictCanDataId ^^^ 0x80000000) ((s.paths.deviceCounter + i) % 65536) (f.take 56))
      | o => o)
    let rest := new.filter (fun o => !(on 3 o) && !(on 4 o) && !(on 5 o))
    { t with out := (numbered ++ rest).reverse ++ s.out }

/-- The event frame of R427: EVENT at [7:0], PAYLOAD at [295:40]. -/
def State.sendEvent (s : State) (event : Nat) (payload : Bytes) : State :=
  s.sendSafety 5 (toLe 5 event ++ padTo 32 payload)

/-- Sets bits of DEV_ATTENTION (R436). -/
def State.attention (s : State) (i : Nat) : State :=
  s.setReg Regs.devAttention (s.reg Regs.devAttention ||| 2 ^ i)

/-- Bit 3 of DEV_ATTENTION: the Keeper enters a state, or a drive shift begins, and KP_STATE is not RUNNING in the drive
shift (R436). -/
def State.attendKeeper (s : State) : State :=
  if s.shift.phase = .drive ∧ s.keeper.phase ≠ .running then s.attention 3 else s

/-! ### The error log (R372–R376) -/

/-- One event to log: the fields of R373 that its source fills. -/
structure Event where
  severity : Severity
  source : Nat
  inst : Nat := 0
  kind : Nat
  addr : Nat := 0
  detail : Nat := 0
  ring : Option Nat := none
  sub : Nat := 0
  deriving DecidableEq, Repr

def Severity.code : Severity → Nat
  | .corrected => 1
  | .contained => 2
  | .fatal => 3

/-- The bytes of an entry (R373). -/
def LogEntry.bytes (e : LogEntry) : Bytes :=
  toLe 32 (e.seq % 2 ^ 32 + e.severity.code <<< 32 + (e.source % 256) <<< 40 + (e.inst % 256) <<< 48
    + (e.kind % 256) <<< 56 + (e.addr % 2 ^ 40) <<< 64 + (e.count % 2 ^ 32) <<< 128 + (e.detail % 65536) <<< 160
    + (e.ring.getD 0 % 64) <<< 176 + (if e.ring.isSome then 2 ^ 182 else 0) + (e.sub % 256) <<< 184
    + (e.sec % 2 ^ 32) <<< 192 + (e.ns % 2 ^ 30) <<< 224)

/-- The SEQ after n: modulo 2^32, skipping 0 (R372). -/
def nextSeq (n : Nat) : Nat := if (n + 1) % 2 ^ 32 = 0 then 1 else (n + 1) % 2 ^ 32

/-- Whether a corrected event adds to an entry (R372). -/
def LogEntry.takes (e : LogEntry) (v : Event) (now : Nat) : Bool :=
  decide (e.severity = .corrected ∧ e.kind = v.kind ∧ e.source = v.source ∧ e.inst = v.inst ∧ e.sub = v.sub
    ∧ e.addr = v.addr ∧ now ≤ e.at_ + 1000000000)

/-- The place of the oldest entry of one severity. -/
def oldestOf (sev : Severity) (l : List LogEntry) : Option Nat := l.findIdx? (fun e => e.severity == sev)

/-- Makes room for a new entry (R372): none when every entry is fatal. -/
def makeRoom (l : List LogEntry) : Option (List LogEntry) :=
  if l.length < 512 then some l
  else match oldestOf .corrected l with
    | some i => some (removeAt l i)
    | none => match oldestOf .contained l with
      | some i => some (removeAt l i)
      | none => none

/-- The counter object of a severity. -/
def severityCounter : Severity → Reg
  | .corrected => Regs.errCorrected
  | .contained => Regs.errContained
  | .fatal => Regs.errFatal

/-- The message of a corrected event, at most once per holdoff (R376). -/
def State.correctedMessage (s : State) : State :=
  match s.log.holdoffSince with
  | some _ => { s with log := { s.log with correctedDue := true } }
  | none => { (s.msix (s.reg Regs.errVectorCorrected)) with
      log := { s.log with holdoffSince := some s.now, correctedDue := false } }

/-- What a new entry or a COUNT increment signals (R371, R376, R436). -/
def State.signalEvent (s : State) (e : LogEntry) : State :=
  match e.severity with
  | .corrected => s.correctedMessage
  | .contained => (s.attention 0).msix (s.reg Regs.errVectorContained)
  | .fatal => ((s.attention 1).msix (s.reg Regs.errVectorFatal)).sendEvent 1 e.bytes

/-- The entry an event makes. -/
def State.entryOf (s : State) (v : Event) : LogEntry :=
  { seq := nextSeq s.log.newest, severity := v.severity, source := v.source, inst := v.inst, kind := v.kind,
    addr := v.addr, count := 1, detail := v.detail, ring := v.ring, sub := v.sub,
    sec := (s.outNs / 1000000000) % 2 ^ 32, ns := s.outNs % 1000000000, at_ := s.now }

/-- Logs an event (R372): the log afterwards, and the number of the entry that holds it (0 where it was lost). -/
def State.logEvent (s : State) (v : Event) : State × Nat :=
  let s1 := s.bump (severityCounter v.severity)
  match (if v.severity = .corrected then s.log.entries.findIdx? (fun e => e.takes v s.now) else none) with
  | some i =>
    match s.log.entries[i]? with
    | some e =>
      let e' := { e with count := satAdd (2 ^ 32 - 1) e.count 1 }
      (({ s1 with log := { s.log with entries := s.log.entries.set i e' } }).signalEvent e', e.seq)
    | none => (s1, 0)
  | none =>
    match makeRoom s.log.entries with
    | none => (s1.bump Regs.errLogLost, 0)
    | some l =>
      let e := s.entryOf v
      (({ s1 with log := { s.log with entries := l ++ [e], newest := e.seq } }).signalEvent e, e.seq)

/-- Logs an event and forgets its number. -/
def State.logs (s : State) (v : Event) : State := (s.logEvent v).1

/-! ### The address map (R19–R31, R378) -/

/-- What lies at an address. -/
inductive Region where
  | ddr | host | spad (g : Nat) | chair (c : Nat) | pergola | lodge | kvTables | dict | hole
  deriving DecidableEq, Repr

/-- The region of an address under R19, before any rule that makes it a hole for a time. -/
def regionOf (a : Nat) : Region :=
  if a < 0x2000000000 then .ddr
  else if a < 0x8000000000 then .hole
  else if a < 0xC000000000 then .host
  else if a < 0xF000000000 then .hole
  else if a < 0xF008000000 then (if a % 0x400000 < 0x300000 then .spad ((a - 0xF000000000) / 0x400000) else .hole)
  else if a < 0xF080000000 then .hole
  else if a < 0xF088000000 then (if a % 0x800000 < 0x600000 then .chair ((a - 0xF080000000) / 0x800000) else .hole)
  else if a < 0xF100000000 then .hole
  else if a < 0xF101800000 then .pergola
  else if a < 0xF200000000 then .hole
  else if a < 0xF200800000 then .lodge
  else if a < 0xF300000000 then .hole
  else if a < 0xF300600000 then .kvTables
  else if a < 0xFF00000000 then .hole
  else if a < 0x10000000000 then .dict
  else .hole

/-- How many bytes from an address lie in its region without a break. -/
def regionEnd (a : Nat) : Nat :=
  match regionOf a with
  | .ddr => 0x2000000000
  | .host => 0xC000000000
  | .spad g => 0xF000000000 + g * 0x400000 + 0x300000
  | .chair c => 0xF080000000 + c * 0x800000 + 0x600000
  | .pergola => 0xF101800000
  | .lodge => 0xF200800000
  | .kvTables => 0xF300600000
  | .dict => 0x10000000000
  | .hole => a

/-- The half of the Pergola that holds a byte of its tables (R141). -/
def pergolaHalf (a : Nat) : Nat := if 0xF100800000 ≤ a ∧ a < 0xF101000000 then 1 else 0

/-- The base address of a gaffer's scratchpad window and of a chair's. -/
def spadBase (g : Nat) : Nat := 0xF000000000 + g * 0x400000
def chairBase (c : Nat) : Nat := 0xF080000000 + c * 0x800000

/-- The scratchpad window of a compute unit and its length. -/
def unitBase : CUnit → Nat
  | .gaffer n => spadBase n.val
  | .chair c => chairBase c.val
def unitSpan : CUnit → Nat
  | .gaffer _ => 0x300000
  | .chair _ => 0x600000

/-- Where a byte is held: a chair's window folds onto its two gaffers (R179). -/
def toPhys (a : Nat) : Nat :=
  match regionOf a with
  | .chair c =>
    let o := a - chairBase c
    spadBase (2 * c + (o / 64) % 2) + (o / 128) * 64 + o % 64
  | _ => a

/-- The chair-window address of a byte of gaffer g's scratchpad. -/
def toChair (a : Nat) : Nat :=
  match regionOf a with
  | .spad g =>
    let o := a - spadBase g
    chairBase (g / 2) + (2 * (o / 64) + g % 2) * 64 + o % 64
  | _ => a

/-- Who makes an access. -/
inductive Agent where
  | servitor (u : CUnit) | marver (m : Nat) | kvm | pergola | lodge | dispatcher | keeper | lamplighter
  | gardener | bar2 | compute (u : CUnit)
  deriving DecidableEq, Repr

/-- What R19 says of an agent and a region, with the access a write or a read. -/
def mayReach (ag : Agent) (r : Region) (write : Bool) : Bool :=
  match r, ag with
  | .ddr, .keeper => !write
  | .ddr, .lamplighter => !write
  | .ddr, .compute _ => false
  | .ddr, _ => true
  | .host, .servitor _ => true
  | .host, .marver _ => true
  | .host, .kvm => true
  | .host, .pergola => true
  | .host, .dispatcher => true
  | .host, .keeper => write
  | .host, .gardener => true
  | .host, _ => false
  | .spad _, .keeper => !write
  | .spad g, .compute (.gaffer n) => decide (n.val = g)
  | .spad _, .compute _ => false
  | .spad _, .servitor _ => true
  | .spad _, .marver _ => true
  | .spad _, .pergola => true
  | .spad _, .kvm => true
  | .spad _, .lamplighter => true
  | .spad _, .gardener => true
  | .spad _, _ => false
  | .chair _, .keeper => !write
  | .chair c, .compute (.chair n) => decide (n.val = c)
  | .chair _, .compute _ => false
  | .chair _, .servitor _ => true
  | .chair _, .marver _ => true
  | .chair _, .pergola => true
  | .chair _, .kvm => true
  | .chair _, .lamplighter => true
  | .chair _, .gardener => true
  | .chair _, _ => false
  | .pergola, .pergola => true
  | .pergola, .servitor _ => !write
  | .pergola, .marver _ => !write
  | .pergola, .keeper => !write
  | .pergola, .gardener => !write
  | .pergola, _ => false
  | .lodge, .lodge => true
  | .lodge, .pergola => true
  | .lodge, .servitor _ => true
  | .lodge, .marver _ => true
  | .lodge, .keeper => !write
  | .lodge, .gardener => true
  | .lodge, _ => false
  | .kvTables, .kvm => true
  | .kvTables, .gardener => true
  | .kvTables, _ => false
  | .dict, .gardener => true
  | .dict, _ => false
  | .hole, _ => false

/-- The drive region's extent (R24) and the drive working area's (R27). -/
def State.driveLo (s : State) : Nat := s.reg Regs.drBase
def State.driveLen (s : State) : Nat := s.reg Regs.drSize * 2 ^ 28
def State.workLo (s : State) : Nat := s.reg Regs.dwBase
def State.workLen (s : State) : Nat := s.reg Regs.dwSize * 2 ^ 28

def State.inDrive (s : State) (a : Nat) : Bool := within a 1 s.driveLo s.driveLen
def State.inWork (s : State) (a : Nat) : Bool := within a 1 s.workLo s.workLen

/-- Whether a lease holds the device in the sense of R25 (from its start's step 5 to its end). -/
def State.leaseRunning (s : State) : Bool :=
  match s.shift.phase with
  | .lease => true
  | .preempting _ => s.shift.ran
  | .closing _ => true
  | _ => false

/-- Sealed in the sense of R25: sealing counts (R477). -/
def State.driveSealed (s : State) : Bool := s.drive != .unsealed

/-- The subchannel of a DDR5 address (R400). -/
def State.subchannel (s : State) (a : Nat) : Nat :=
  if s.reg Regs.ddrInterleave = 0 then
    (List.range 6).foldl (fun x i => x ^^^ bits a (10 + 3 * i) (8 + 3 * i)) 0
  else
    let half := s.ddr.capacity / 2
    let h := if half ≤ a then 1 else 0
    let a2 := a - h * half
    4 * h + (List.range 9).foldl (fun x i => x ^^^ bits a2 (9 + 2 * i) (8 + 2 * i)) 0

/-- The offset of a DDR5 address within its subchannel (R400). -/
def State.subOffset (s : State) (a : Nat) : Nat :=
  if s.reg Regs.ddrInterleave = 0 then (a >>> 11) <<< 8 ||| a % 256
  else
    let half := s.ddr.capacity / 2
    let a2 := a - (if half ≤ a then 1 else 0) * half
    (a2 >>> 10) <<< 8 ||| a2 % 256

/-- The phase of a controller pair. -/
def State.ddrPair (s : State) (k : Nat) : DdrPhase := if k = 0 then s.ddr.pair0 else s.ddr.pair1

/-- Whether the pair that serves an address is trained, and whether it takes requests (R403, R404, R469). -/
def State.ddrTrained (s : State) (a : Nat) : Bool := s.ddrPair (s.subchannel a / 4) != .untrained
def State.ddrUp (s : State) (a : Nat) : Bool :=
  let k := s.subchannel a / 4
  (s.ddrPair k == .trained || s.ddrPair k == .restored) && s.pdOn (42 + k)

/-- Whether a DDR5 byte exists for an access: installed, trained, not retired (R378), not closed (R25, R27), not quarantined (R31)
but for the Gardener, which scrubs what is quarantined. -/
def State.ddrReach (s : State) (ag : Agent) (a : Nat) : Bool :=
  decide (a < s.ddr.capacity) && !(decide (a / 4096 * 4096 ∈ s.ddr.retired)) && s.ddrTrained a
  && !(s.leaseRunning && s.inDrive a) && !(s.shift.closed && s.inWork a)
  && (ag == .gardener || !(s.shift.quarantine && !s.inDrive a && !s.inWork a))

/-- The Lamplighter's area of a scratchpad or chair window (R329). -/
def lampArea (a : Nat) : Bool :=
  match regionOf a with
  | .spad g => decide (0x2F0000 ≤ a - spadBase g)
  | .chair c => decide (0x5E0000 ≤ a - chairBase c)
  | _ => false

/-- Whether an agent reaches a scratchpad address of R329. -/
def State.lampReach (s : State) (ag : Agent) (a : Nat) : Bool :=
  match ag with
  | .lamplighter => s.flag Regs.llEnable && lampArea a
  | _ => !(s.flag Regs.llEnable && lampArea a)

/-- How an access to a range is answered: `absent` from a hole or an unreachable address (R21), `off` by a router stop
for a block that is not on or fenced (R18), `sealed_` under R25, `untranslated` under R388, `guarded` for a write into a frame table in
force (R278). -/
inductive Answer where
  | ok | absent | off | sealed_ | untranslated | guarded
  deriving DecidableEq, Repr

/-- The translation of a host-window address (R387): its host address, and whether it may be written. -/
def State.xlate (s : State) (a : Nat) : Option (Nat × Bool) :=
  let e := kget s.link.xlate ((a - 0x8000000000) / 2 ^ 24) 0
  if bit e 0 then some (bits e 63 24 * 2 ^ 24 + a % 2 ^ 24, bit e 1) else none

/-- The Keeper's verdict area (R19, R325). -/
def State.inVerdictArea (s : State) (a : Nat) : Bool :=
  s.reg Regs.kpVerdictBase != 0 && within a 1 (s.reg Regs.kpVerdictBase) (32 * s.reg Regs.kpVerdictSlots)

/-- The frame table of an enabled pool holds an address (R278). -/
def State.inFrameTable (s : State) (a : Nat) : Bool :=
  (List.range 4).any (fun p => s.flag (Regs.kvpEnable p) && within a 1 (s.reg (Regs.kvpMetaBase p)) (s.reg (Regs.kvpFrames p) * 16))

/-- How a one-byte access is answered. -/
def State.answer1 (s : State) (ag : Agent) (a : Nat) (write : Bool) : Answer :=
  if !mayReach ag (regionOf a) write then .absent
  else match regionOf a with
    | .ddr =>
      if !s.ddrReach ag a then .absent
      else if write && s.driveSealed && s.inDrive a then .sealed_
      else if write && s.inFrameTable a then .guarded
      else if s.ddrUp a then .ok else .off
    | .host =>
      if ag == .keeper && !s.inVerdictArea a then .absent
      else match s.xlate a with
        | none => .untranslated
        | some (_, w) => if write && !w then .untranslated else if s.pdOn 44 then .ok else .off
    | .spad g =>
      if s.fenced g then .off
      else if s.formed (g / 2) || s.chairChanging (g / 2) || !s.lampReach ag a then .absent
      else if s.gafferUp g then .ok else .off
    | .chair c =>
      if !s.formed c || s.chairChanging c || !s.lampReach ag a then .absent
      else if s.chairUp c then .ok else .off
    | .pergola => if s.shift.closed then .absent
      else if s.pdOn (38 + pergolaHalf a) && !s.keeper.heldReset then .ok else .off
    | .lodge => if s.shift.closed then .absent else if s.pdOn 40 then .ok else .off
    | .kvTables => if s.pdOn 41 && !s.keeper.heldReset then .ok else .off
    | .dict => if s.pdOn 45 then .ok else .off
    | .hole => .absent

/-- The blocks of a range at whose starts the answer can change: 256 bytes apart, and the last byte. Every boundary
of the map, of a page, of an interleave block and of a translation entry is a multiple of 256. -/
def probes (a n : Nat) : List Nat :=
  if n = 0 then [] else
    a :: ((List.range ((a + n - 1) / 256 - a / 256)).map (fun i => (a / 256 + 1 + i) * 256))

/-- How an access to n bytes is answered: the first answer that is not ok. -/
def State.answer (s : State) (ag : Agent) (a n : Nat) (write : Bool) : Answer :=
  (probes a n).foldl (fun r p => if r = .ok then s.answer1 ag p write else r) .ok

/-! ### Reading and writing with the codes (R359–R370) -/

/-- The granule that carries one code word: a DDR5 burst or an SRAM word. -/
def granule (a : Nat) : Nat := if a < 0x2000000000 then 64 else 8

/-- The address by which a range [a, a+n) sees a physical granule. -/
def seenAs (a g : Nat) : Nat :=
  match regionOf a with
  | .chair _ => toChair g
  | _ => g

/-- The granules of a range that carry poison or a flaw, ascending as the range sees them. -/
def Memory.suspects (m : Memory) (a n : Nat) : List Nat :=
  let gs := m.poison ++ (m.flaws.map (·.1)).filter (fun g => !(decide (g ∈ m.poison)))
  sortBy (seenAs a) (gs.filter (fun g => overlaps (seenAs a g) (granule g) a n))

/-- The SOURCE and INSTANCE of an SRAM event (R373, R374), and its bank. -/
def sramSource (a : Nat) : Nat × Nat × Nat :=
  match regionOf a with
  | .spad g => (1, g, ((a - spadBase g) / 64) % 32)
  | .pergola => (3, pergolaHalf a, 0)
  | .lodge => (4, 0, 0)
  | _ => (5, 0, 0)

/-- The address by which a range [a, a+n) sees a physical granule, bounded to 40 bits. -/
def logAddr (g : Nat) : Nat := g % 2 ^ 40

/-- The device address of an SRAM word (R374): in the chair's window while its chair is formed (DEDUCED). -/
def State.wordAddr (s : State) (g : Nat) : Nat :=
  match regionOf g with
  | .spad n => if s.formed (n / 2) then toChair g else g
  | _ => logAddr g

/-- What happened at one granule of a read. -/
structure Met where
  s : State
  poisoned : Option Nat

/-- An SRAM word that the code cannot correct (R359): counted on its gaffer and logged, and the entry's number. -/
def State.sramUncorrectable (s : State) (ring : Option Nat) (g syndrome : Nat) : State × Nat :=
  let (src, inst, bank) := sramSource g
  let s1 := if src = 1 then
    (s.bump (Regs.spadUncorrectable inst)).setGaffer inst { s.gaffer inst with ueTimes := s.now :: (s.gaffer inst).ueTimes } else s
  s1.logEvent { severity := if src = 5 then .fatal else .contained, source := src, inst := inst, kind := 2,
                addr := s.wordAddr g, detail := syndrome % 256, ring := ring, sub := bank }

/-- An SRAM word that the code corrects, or miscorrects (R359): counted and logged. -/
def State.sramCorrected (s : State) (ring : Option Nat) (g syndrome : Nat) : State :=
  let (src, inst, bank) := sramSource g
  let s1 := if src = 1 then
    (s.bump (Regs.spadCorrected inst)).setGaffer inst { s.gaffer inst with ceTimes := s.now :: (s.gaffer inst).ceTimes } else s
  s1.logs { severity := .corrected, source := src, inst := inst, kind := 1, addr := s.wordAddr g, detail := syndrome % 256,
            ring := ring, sub := bank }

/-- An SRAM word read with the poison syndrome (R361): counted on its gaffer and logged as a poison read. -/
def State.sramPoison (s : State) (ring : Option Nat) (g : Nat) : State × Nat :=
  let (src, inst, bank) := sramSource g
  (if src = 1 then s.bump (Regs.spadUncorrectable inst) else s).logEvent
    { severity := .contained, source := src, inst := inst, kind := 3, addr := s.wordAddr g, detail := 0xFF, ring := ring, sub := bank }

/-- The syndrome of a word with n wrong bits or of another row's word: fewer than three wrong bits never give the poison syndrome
0xFF (R361). -/
def wordSyndrome (n a b : Nat) : Nat := if n < 3 then Config.sramSyndrome a b % 255 else Config.sramSyndrome a b % 256

/-- An SRAM word read with a flaw or poison (R358, R359, R361): the log afterwards, and the entry number if it is poison. The word
of another row is always uncorrectable, since the check bits cover the address. Three or more wrong bits may be detected, as an
uncorrectable word or with the syndrome of poison, or miscorrected (log 15). -/
def State.meetSram (s : State) (ring : Option Nat) (g : Nat) : State × Option Nat :=
  let seen (s : State) (syndrome : Nat) : State × Option Nat :=
    let (t, k) := if syndrome = 0xFF then s.sramPoison ring g else s.sramUncorrectable ring g syndrome
    (t, some k)
  if g ∈ s.mem.poison then seen s 0xFF
  else match kfind s.mem.flaws g with
    | some (.sram 1 b) =>
      let s2 := s.sramCorrected ring g (wordSyndrome 1 g b)
      ({ s2 with mem := s2.mem.heal g }, none)
    | some (.sram n b) =>
      if n = 0 then ({ s with mem := s.mem.heal g }, none)
      else if n = 2 then seen s (wordSyndrome 2 g b)
      else if Config.freeNat s.freeIx % 2 = 0 then seen s.skipFree (wordSyndrome n g b)
      else
        let s2 := s.sramCorrected ring g (wordSyndrome n g b)
        ({ s2 with mem := (s2.mem.heal g).forget g (g + 8) s2.freeIx }.skipFree, none)
    | some (.row other) =>
      let s1 := { s with mem := s.mem.heal g }
      if other / 8 = g / 8 then (s1, none) else seen s1 (wordSyndrome 3 g other)
    | _ => (s, none)

/-- The rank that holds a burst (R400 gives no bit position: log 16). -/
def State.rankOf (s : State) (a : Nat) : Nat :=
  if s.reg Regs.ddrRanks ≤ 1 then 0 else Config.ddrRank (s.subOffset a) % 2

/-- The marked device of a burst's rank, if any (R364). -/
def State.markOf (s : State) (a : Nat) : Option Nat :=
  let m := bits (s.reg (Regs.scMarked (s.subchannel a))) (8 * s.rankOf a + 7) (8 * s.rankOf a)
  if m = 0xFF then none else some (m % 10)

/-- A DDR5 uncorrectable burst's severity: fatal in the drive region (R366). -/
def State.ddrSeverity (s : State) (g : Nat) : Severity := if s.inDrive g then .fatal else .contained

/-- The drive region holds damage, which the Keeper has yet to act on (R366). -/
def State.driveDamage (s : State) (g : Nat) : State :=
  if s.inDrive g then
    { ((s.setReg Regs.ddrDriveDamaged 1).attention 5) with keeper := { s.keeper with damage := true } }
  else s

/-- Bursts seen at a device position within the window (R364). -/
def State.candidateCount (s : State) (sc pos : Nat) : Nat :=
  (s.ddr.candidates.filter (fun c => decide (c.sc = sc ∧ c.pos = pos ∧
    s.now ≤ c.at_ + s.reg Regs.ddrMarkWindow * 1000000000))).length

/-- Marks a device position and logs it (R364); a second candidate of its rank is then logged anew. -/
def State.markDevice (s : State) (sc pos byHost : Nat) : State :=
  let r := Regs.scMarked sc
  let old := s.reg r
  let v := if pos / 10 = 0 then old / 256 * 256 + pos else pos * 256 + old % 256
  let s := { s with ddr := { s.ddr with seconds := s.ddr.seconds.filter (fun x => x.1 != sc || x.2 / 10 != pos / 10) } }
  (s.setReg r v).logs { severity := .contained, source := 6, inst := sc, kind := 9, detail := byHost, sub := pos }

/-- Automatic marking at one position (R364): a device already marked in the rank does not stand against a second candidate, which is
logged once. -/
def State.autoMark (s : State) (sc pos : Nat) : State :=
  let rank := pos / 10
  let mark := bits (s.reg (Regs.scMarked sc)) (8 * rank + 7) (8 * rank)
  let others := (List.range 10).any (fun d => decide (rank * 10 + d ≠ pos) && decide (rank * 10 + d ≠ mark) &&
    decide (s.reg Regs.ddrMarkThreshold ≤ 2 * s.candidateCount sc (rank * 10 + d)))
  if !s.flag Regs.ddrMarkAuto || s.reg Regs.ddrWidth != 0 || decide (s.candidateCount sc pos < s.reg Regs.ddrMarkThreshold) || others then s
  else if mark = 0xFF then s.markDevice sc pos 0
  else if mark = pos ∨ (sc, pos) ∈ s.ddr.seconds then s
  else { s with ddr := { s.ddr with seconds := (sc, pos) :: s.ddr.seconds } }.logs
    { severity := .contained, source := 6, inst := sc, kind := 10, sub := pos }

/-- Counts a corrected burst against the positions of its wrong symbols (R364): a burst counts once in the window, from its latest
correction. -/
def State.seenCorrected (s : State) (g : Nat) (positions : List Nat) : State :=
  positions.foldl (fun s p =>
    let sc := s.subchannel g
    let others := s.ddr.candidates.filter (fun c => !decide (c.sc = sc ∧ c.pos = p ∧ c.burst = g))
    { s with ddr := { s.ddr with candidates := ⟨sc, p, g, s.now⟩ :: others } }.autoMark sc p) s

/-- A burst that the decoder cannot correct: DDR_UNCORRECTABLE (R363, R366). -/
def State.ddrUncorrectable (s : State) (ring : Option Nat) (g : Nat) : State × Option Nat :=
  let sc := s.subchannel g
  let (s1, k) := (s.bump (Regs.scUncorrectable sc)).logEvent
      { severity := s.ddrSeverity g, source := 6, inst := sc, kind := 6, addr := logAddr g, ring := ring }
  (s1.driveDamage g, some k)

/-- The stored symbols of a burst against the codeword of its data (R362): the check symbols of poison (R367), and the wrong ones. -/
def State.burstErrors (s : State) (g : Nat) : SymbolErrors :=
  errorsOnly ((if g ∈ s.mem.poison then poisonPattern else []) ++ (match kfind s.mem.flaws g with
    | some (.ddr wrong) => wrong
    | _ => []))

/-- The 16 beats of a burst as its devices hold them (R362). -/
def State.burstBeats (s : State) (g : Nat) : List Nat :=
  let e := s.burstErrors g
  let stored := (burstSymbols (s.mem.read g 64) g).zipIdx.map (fun x => x.1 ^^^ errorAt e x.2)
  (List.range 16).map (burstBeat (s.reg Regs.ddrWidth) stored)

/-- The symbols of the marked device of a burst's rank: erasures (R364). -/
def State.erasures (s : State) (g : Nat) : List Nat :=
  match s.markOf g with
  | none => []
  | some d => (List.range 80).filter (fun j => symbolDevice (s.reg Regs.ddrWidth) j == d)

/-- A burst that was decoded as having the errors `found` where it has the errors e: the data become those of the codeword found,
which differs from the one written only where the decoder miscorrects, and the burst is written back unless `keep`. -/
def State.decoded (s : State) (g : Nat) (e found : SymbolErrors) (keep : Bool) : State :=
  let wrong := (errorsOnly (e ++ found)).filter (fun x => decide (x.1 < 64))
  let m := wrong.foldl (fun m x => m.set (g + x.1) (m.get (g + x.1) ^^^ BitVec.ofNat 8 x.2)) (s.mem.heal g)
  { s with mem := if keep then { m with flaws := kset m.flaws g (.ddr found) } else m }

/-- A DDR5 burst read with wrong symbols or poison (R363, R364, R366, R367). Poison is known by its pattern, and any damage to it
leaves it uncorrectable. A pattern beyond what the code corrects is reported, or miscorrected where the decoder finds another
codeword near enough. -/
def State.meetDdr (s : State) (ring : Option Nat) (g : Nat) : State × Option Nat :=
  let sc := s.subchannel g
  let rank := s.rankOf g
  let e := s.burstErrors g
  if e = [] then ({ s with mem := s.mem.heal g }, none)
  else if syndromesOf e = syndromesOf poisonPattern then
    let (s1, k) := (s.bump (Regs.scPoisonReads sc)).logEvent
        { severity := .contained, source := 6, inst := sc, kind := 8, addr := logAddr g, ring := ring }
    (s1, some k)
  else if g ∈ s.mem.poison then s.ddrUncorrectable ring g
  else match decodeBurst e (s.erasures g) with
    | none => s.ddrUncorrectable ring g
    | some [] => (s.decoded g e [] false, none)
    | some found =>
      if found.any (fun x => decide (80 ≤ x.1)) then
        let (s1, k) := (s.bump (Regs.scAddressErrors sc)).logEvent
            { severity := .contained, source := 6, inst := sc, kind := 7, addr := logAddr g, ring := ring }
        (s1.driveDamage g, some k)
      else
        let device (x : Nat × Nat) : Nat := symbolDevice (s.reg Regs.ddrWidth) x.1
        let off := found.filter (fun x => s.markOf g != some (device x))
        let onMark := decide (off.length < found.length)
        let s1 := s.bump (Regs.scCorrectedBursts sc)
        let s2 := if onMark then s1.bump (Regs.scMarkedBursts sc) else s1
        let s3 := s2.logs (if onMark then
            { severity := .corrected, source := 6, inst := sc, kind := 5, addr := logAddr g, detail := off.length,
              ring := ring, sub := rank * 10 + (s.markOf g).getD 0 }
          else
              { severity := .corrected, source := 6, inst := sc, kind := 4, addr := logAddr g,
                detail := found.length, ring := ring, sub := rank * 10 + ((found.head?.map device).getD 0) })
        let s4 := s3.seenCorrected g ((off.map (fun x => rank * 10 + device x)).eraseDups)
        (s4.decoded g e found off.isEmpty, none)

/-- One suspect granule met by a read. -/
def State.meet (s : State) (ring : Option Nat) (g : Nat) : State × Option Nat :=
  if g < 0x2000000000 then s.meetDdr ring g else s.meetSram ring g

/-! ### Words outside the device address space (R358, R359) -/

/-- Where the flaws of the keep banks' words are listed. -/
def keepBankKey : Nat := 2 ^ 42

/-- The key of a word of an array outside the device address space. -/
def outsideKey : SramArray → Nat → Nat
  | .mapped, a => a
  | .keeperMem, a => 2 ^ 41 + a
  | .keepBank, a => keepBankKey + a
  | .journal, a => 2 ^ 43 + a
  | .retry stop, a => 2 ^ 44 + stop.val * 2 ^ 20 + a
  | .lineBuffer m, a => 2 ^ 45 + m.val * 2 ^ 20 + a
  | .portFifo port, a => 2 ^ 46 + port.val * 2 ^ 20 + a
  | .translationCache, a => 2 ^ 47 + a

/-- The SOURCE and INSTANCE of a word outside the device address space (R373, R374); R373 has no code for the dispatchers: a free
value. -/
def outsideSource (array : SramArray) (free : Nat) : Nat × Nat :=
  match array with
  | .keeperMem => (9, 0)
  | .keepBank => (11, 0)
  | .retry stop => (7, stop.val)
  | .lineBuffer m => (2, m.val)
  | .portFifo _ => (4, 0)
  | .translationCache => (5, 0)
  | .mapped | .journal => (free % 256, 0)

/-- What an uncorrectable word outside the device address space is: fatal in the keep banks and the translation cache (R371). -/
def outsideSeverity (array : SramArray) : Severity :=
  match array with
  | .keepBank | .translationCache => .fatal
  | _ => .contained

/-- What a word of an array outside the device address space gives, at byte a of its array: corrected and logged, or the entry of the
uncorrectable word or of the poison (R359, R361). A word read as poison is written anew where it stops its unit. -/
def State.meetWord (s : State) (array : SramArray) (a : Nat) : State × Option Nat :=
  let key := outsideKey array a
  let (free, s) := match array with
    | .journal => s.draw
    | _ => (0, s)
  let (src, inst) := outsideSource array free
  let entry (kind syndrome : Nat) (v : Severity) : Event :=
    { severity := v, source := src, inst := inst, kind := kind, addr := a, detail := syndrome }
  let wrong (s : State) (syndrome : Nat) : State × Option Nat :=
    let (t, k) := s.logEvent (if syndrome = 0xFF then entry 3 0xFF .contained else entry 2 syndrome (outsideSeverity array))
    (t, some k)
  match kfind s.mem.flaws key with
  | some (.sram n b) =>
    if n = 0 then ({ s with mem := s.mem.heal key }, none)
    else if n = 2 then wrong s (wordSyndrome 2 a b)
    else if 3 ≤ n ∧ Config.freeNat s.freeIx % 2 = 0 then wrong s.skipFree (wordSyndrome n a b)
    else
      let s := if 3 ≤ n then s.skipFree else s
      ({ s.logs (entry 1 (wordSyndrome n a b) .corrected) with mem := s.mem.heal key }, none)
  | some (.row other) =>
    let s := { s with mem := s.mem.heal key }
    if other / 8 = a / 8 then (s, none) else wrong s (wordSyndrome 3 a other)
  | _ => (s, none)

/-- Poison in the tables or in the translation cache stops the KV manager (R370). -/
def State.kvDamaged (s : State) (bad : Option Nat) : State :=
  match bad with
  | none => s
  | some e => { s with kv := { s.kv with stopped := s.kv.stopped.orElse (fun _ => some e) } }

/-- A word of an array outside the device address space is read: one that the code cannot correct stops the KV manager where it is
the translation cache's (R370), which is cleared with it, and the Keeper starts again on a memory written anew (R308). -/
def State.meetArray (s : State) (array : SramArray) (a : Nat) : State × Option Nat :=
  let (s, bad) := s.meetWord array a
  match array, bad with
  | .keeperMem, some _ => ({ s with mem := s.mem.heal (outsideKey array a) }, bad)
  | .translationCache, some _ => ({ s with mem := s.mem.heal (outsideKey array a) }.kvDamaged bad, bad)
  | _, _ => (s, bad)

/-- An ordinary read of an array that has wrong words: which of them it meets, if any, is a free value, since R358 gives no addresses
inside these arrays (log 15). -/
def State.touchArray (s : State) (array : SramArray) : State × Option Nat :=
  let base := outsideKey array 0
  let wrong := (s.mem.flaws.map (·.1)).filter (fun k => decide (base ≤ k) && decide (k < base + 2 ^ 20))
  if wrong = [] then (s, none)
  else
    let (free, s) := s.draw
    match wrong.drop (free % (wrong.length + 1)) with
    | [] => (s, none)
    | k :: _ => s.meetArray array (k - base)

/-- What a read of device memory gives: the bytes, the poisoned granules as the range sees them, and the number of the
log entry of the first poison met; or no answer. -/
inductive Got where
  | bytes (data : Bytes) (bad : List (Nat × Nat)) (entry : Option Nat)
  | absent
  deriving DecidableEq, Repr

/-- Meets each suspect granule in order. -/
def State.meetAll (s : State) (ring : Option Nat) (a : Nat) (gs : List Nat) :
    State × List (Nat × Nat) × Option Nat :=
  gs.foldl (fun (s, bad, first) g =>
    let (s1, k) := s.meet ring g
    match k with
    | some e => (s1, bad ++ [(seenAs a g, granule g)], first.orElse (fun _ => some e))
    | none => (s1, bad, first)) (s, [], none)

/-- The bytes of a range of device memory as held. -/
def State.peek (s : State) (a n : Nat) : Bytes :=
  match regionOf a with
  | .host => (List.range n).map (fun i => match s.xlate (a + i) with
      | some (h, _) => s.hostMem.get h
      | none => 0)
  | _ => (List.range n).map (fun i => s.mem.get (toPhys (a + i)))

/-- The stop and the target code (R191; 0xFFFF without one) of the block that holds an address; none in a hole. -/
def State.blockAt (s : State) (a : Nat) : Option (Nat × Nat) :=
  match regionOf a with
  | .spad g => some (gafferStop g, g)
  | .chair c => some (gafferStop (match regionOf (toPhys a) with
      | .spad g => g
      | _ => 2 * c), 32 + c)
  | .ddr => some (subchannelStop (s.subchannel a), 0xFFFF)
  | .pergola => some (pergolaStop (pergolaHalf a), 52)
  | .lodge => some (lodgeStop, 0xFFFF)
  | .kvTables => some (hostStop, 53)
  | .host | .dict => some (hostStop, 0xFFFF)
  | .hole => none

/-- The log entry of a not-present response: the stop that answers and the code of the block addressed (R18, R374). -/
def State.logAbsent (s : State) (ring : Option Nat) (a stop code : Nat) : State :=
  s.logs { severity := .contained, source := 7, inst := stop, kind := 32, addr := a % 2 ^ 40, detail := code, ring := ring }

/-- Counts and logs a not-present answer (R18, R21, R388) or a write refused under R25. The stop that answers for a hole is not
stated: a free value. -/
def State.notPresent (s : State) (ring : Option Nat) (a : Nat) (ans : Answer) : State :=
  let s1 := if ans = .untranslated then s.bump Regs.hifXlateFaults else s
  match ans with
  | .sealed_ => s1.logs { severity := .contained, source := 6, inst := s.subchannel a, kind := 33, addr := a % 2 ^ 40, ring := ring }
  | _ =>
    match s.blockAt a with
    | some (stop, code) => s1.logAbsent ring a stop code
    | none =>
      let (k, s2) := s1.draw
      s2.logAbsent ring a (k % 48) 0xFFFF

/-- The reads of host memory within a range that fail for an item (R389). -/
def State.hostFails (s : State) (who : Option (Nat × Nat)) (a n : Nat) : List FailedRead :=
  match who with
  | some (r, q) => s.link.failedReads.filter (fun f => decide (f.ring = r ∧ f.seq = q) && within f.addr 1 a n)
  | none => []

/-- Reads n bytes of device memory for an agent; `who` is the item the read is for. While the link is down a host read delivers poison
(R397). -/
def State.readMem (s : State) (ag : Agent) (who : Option (Nat × Nat)) (a n : Nat) : State × Got :=
  let ring := who.map (·.1)
  match s.answer ag a n false with
  | .ok =>
    match regionOf a with
    | .host =>
      let fails := s.hostFails who a n
      if !s.flag Regs.hifLinkUp then
        let (s1, k) := (s.bump Regs.hifHostReadFails).logEvent
            { severity := .contained, source := 8, kind := 32, addr := a % 2 ^ 40, detail := 0xFFFF,
              ring := ring }
        (s1, .bytes (s.peek a n) [(a, n)] (some k))
      else
        ({ s with link := { s.link with failedReads := s.link.failedReads.filter (fun f => !(fails.contains f)) } },
          .bytes (s.peek a n) (fails.map (fun f => (f.addr / 64 * 64, 64))) (fails.head?.map (·.entry)))
    | _ =>
      let (s1, bad, e) := s.meetAll ring a (s.mem.suspects a n)
      (s1, .bytes (s1.peek a n) bad e)
  | _ => (s, .absent)

/-- The granules of a range, as the range sees them. -/
def granulesOf (a n : Nat) : List Nat :=
  let k := granule a
  if n = 0 then [] else (List.range ((a + n - 1) / k - a / k + 1)).map (fun i => (a / k + i) * k)

/-- The part of memory that a write heals: whole granules it covers that carry poison or a flaw. -/
def Memory.healRange (m : Memory) (a n : Nat) : Memory :=
  ((m.suspects a n).filter (fun g => within (seenAs a g) (granule g) a n)).foldl Memory.heal m

/-- Writes bytes to device memory where they lie (no check): whole granules heal, a partial write leaves poison. -/
def State.poke (s : State) (a : Nat) (bs : Bytes) : State :=
  match regionOf a with
  | .host =>
    { s with hostMem := (bs.zipIdx).foldl (fun m (b, i) => match s.xlate (a + i) with
        | some (h, _) => m.set h b
        | none => m) s.hostMem }
  | .chair _ => { s with mem := (bs.zipIdx).foldl (fun m (b, i) => m.set (toPhys (a + i)) b) (s.mem.healRange a bs.length) }
  | _ => { s with mem := (s.mem.healRange a bs.length).write a bs }

/-- NO_SNOOP of the translation entry of a host-window address (R387). -/
def State.noSnoop (s : State) (a : Nat) : Bool := bit (kget s.link.xlate ((a - 0x8000000000) / 2 ^ 24) 0) 2

/-- Marks the granules of a range as poison (R370); a host write carries EP and is counted (R389), and No Snoop where its entry
asks for it (R387); while the link is down it is dropped (R397). -/
def State.pokePoison (s : State) (a n : Nat) : State :=
  match regionOf a with
  | .host =>
    if s.flag Regs.hifLinkUp then (s.bump Regs.hifPoisonedOut).emit (.host ((s.xlate a).map (·.1) |>.getD 0) true (s.noSnoop a))
    else s
  | _ => { s with mem := (granulesOf a n).foldl (fun m g => m.poisonAt (toPhys g)) s.mem }

/-- Writes bytes to device memory for an agent: the state afterwards and how it was answered. Nothing is written where
the answer is not ok; a write to the host while the link is down is dropped (R397). -/
def State.writeMem (s : State) (ag : Agent) (a : Nat) (bs : Bytes) : State × Answer :=
  match s.answer ag a bs.length true with
  | .ok => (if regionOf a == .host && !s.flag Regs.hifLinkUp then s else s.poke a bs, .ok)
  | x => (s, x)

/-- Leaves a range undefined (R200). -/
def State.forgetRange (s : State) (a n : Nat) : State :=
  match regionOf a with
  | .host =>
    let m := (List.range (n / 2 ^ 24 + 2)).foldl (fun m i =>
      let lo := max a ((a / 2 ^ 24 + i) * 2 ^ 24)
      let hi := min (a + n) ((a / 2 ^ 24 + i + 1) * 2 ^ 24)
      match s.xlate lo with
      | some (h, true) => if lo < hi then m.forget h (h + (hi - lo)) s.freeIx else m
      | _ => m) s.hostMem
    { s with hostMem := m }.skipFree
  | .chair _ => { s with mem := (List.range (ceilDiv n 64 + 1)).foldl (fun m i =>
        let lo := max a ((a / 64 + i) * 64)
        let hi := min (a + n) ((a / 64 + i + 1) * 64)
        if lo < hi then m.forget (toPhys lo) (toPhys lo + (hi - lo)) s.freeIx else m) s.mem }.skipFree
  | _ => { s with mem := s.mem.forget a (a + n) s.freeIx }.skipFree

end Sys2Proof.Machine
end

