-- ==== Sys2Proof/Machine/Dict.lean ====
section
/-! DEFINITION. The pipeline of a dictionary write: the checks of R410 in their order, the DETAIL of R411 and R412,
owner codes and claims (R414–R416), and how each path is answered (R419, R432). The owning chapter's checks and the
effect of an accepted write are a hook that the family passes. -/

namespace Sys2Proof.Machine

/-- What every meaning answers with. -/
abbrev Res := Host.Outcome State Fault Refusal

/-- A refusal: its dictionary status and its DETAIL (R410, R411). -/
structure Reply where
  status : Nat
  detail : Nat
  deriving DecidableEq, Repr

/-- KIND and NUMBER as a DETAIL (R411). -/
def detailOf (kind number : Nat) : Nat := kind % 256 + 256 * (number % 2 ^ 24)

def conflictKind (kind number : Nat) : Reply := ⟨4, detailOf kind number⟩
/-- CONFLICT naming an owner. -/
def conflictOwner (o : Nat) : Reply := conflictKind 1 o
/-- CONFLICT naming an object. -/
def conflictObject (key : Nat) : Reply := conflictKind 11 key
/-- CONFLICT naming a condition of R412. -/
def conflictCondition (c : Nat) : Reply := conflictKind 12 c
/-- OUT_OF_RANGE. -/
def outOfRange : Reply := ⟨3, 0⟩

/-- The owning chapter's checks and effect: the writer's path and the whole value, unsigned for a scalar. -/
abbrev Hook := State → Path → Bytes → Except Reply State

/-- The row that defines an object, and its place among the row's instances. -/
def findObj (index sub : Nat) : Option (Obj × Nat) :=
  (objects.find? (fun o => decide (o.sub = sub) && decide (o.index ≤ index) && decide (index < o.index + o.count))).map
    (fun o => (o, index - o.index))

/-- Whether an index defines any object: its sub-index 0 then exists (R407). -/
def definedIndex (index : Nat) : Bool := objects.any (fun o => decide (o.index ≤ index) && decide (index < o.index + o.count))

/-- The highest sub-index defined at an index (R407). -/
def highestSub (index : Nat) : Nat :=
  objects.foldl (fun m o => if o.index ≤ index ∧ index < o.index + o.count then max m o.sub else m) 0

/-- The bytes of a fixed-size type (R409). -/
def Ty.size : Ty → Option Nat
  | .bool | .u8 | .i8 | .enum8 => some 1
  | .u16 | .i16 => some 2
  | .u32 | .i32 | .fp32 => some 4
  | .u64 | .i64 => some 8
  | .t128 => some 16
  | .domain => none

/-- Whether a type is two's complement. -/
def Ty.signed : Ty → Bool
  | .i8 | .i16 | .i32 | .i64 => true
  | _ => false

/-- The value a range is compared with: a scalar's value, a DOMAIN's length (R409). -/
def Obj.measure (o : Obj) (data : Bytes) : Int :=
  match o.ty with
  | .domain => data.length
  | t => if t.signed then toSigned (8 * data.length) (ofLe data) else ofLe data

/-- Whether a value lies in the object's table range (R409). An FP32 object's range is its owning chapter's check. -/
def Obj.inRange (o : Obj) (data : Bytes) : Bool :=
  let v := o.measure data
  (o.ok.isEmpty || o.ok.any (fun r => decide (r.1 ≤ v) && decide (v ≤ r.2)))
  && (decide (o.mult ≤ 1) || decide (v % o.mult = 0))
  && (match o.ty with
      | .t128 => decide (bits (ofLe data) 93 64 ≤ 999999999)
      | .fp32 => decide (bits (ofLe data) 30 23 ≠ 255)
      | _ => true)

/-- Reserved bits are ignored on a write and read as 0 (R4). -/
def Obj.masked (o : Obj) (data : Bytes) : Nat :=
  let v := ofLe data
  let v := match o.ty with
    | .t128 => v % 2 ^ 124
    | _ => v
  if o.mask = 0 then v else v &&& o.mask

/-- The reserved fields of a DOMAIN object's layout (R83, R91, R95), as highest and lowest bit, by the key of the row's first
object. -/
def domainReserved : List (Nat × List (Nat × Nat)) := [
  (0x234001, (31, 26) :: (1023, 864) :: (List.range 7).map (fun f => (287 + 64 * f, 282 + 64 * f))),
  (0x232415, (List.range 6).map (fun k => (64 * k + 31, 64 * k + 18))),
  (0x232A14, (List.range 4).flatMap (fun k => [(128 * k + 31, 128 * k + 26), (128 * k + 127, 128 * k + 96)]))]

/-- A byte string with some bit fields cleared. -/
def clearFields (fields : List (Nat × Nat)) (bs : Bytes) : Bytes :=
  toLe bs.length (fields.foldl (fun x f => x - bits x f.1 f.2 <<< f.2) (ofLe bs))

/-- The value as the owning chapter sees it: its reserved bits cleared (R4). A rule table's are cleared once its CRC has been
checked (R316, log 63). -/
def Obj.given (o : Obj) (data : Bytes) : Bytes :=
  match o.ty with
  | .domain => match kfind domainReserved (o.index * 256 + o.sub) with
    | some fields => clearFields fields data
    | none => data
  | _ => toLe data.length (o.masked data)

/-! ### Who writes, and whether a path is served -/

/-- Owner codes (R414): the code follows from the path. -/
def State.writer (s : State) (p : Path) : Nat :=
  match p with
  | .bar0 => if s.leaseRunning then 2 else 1
  | .can => 3
  | .canSafety => 4
  | .smbus => 5
  | .keeper => 6
  | .gardener => 7

/-- Whether a path's service answers for an index (R432, R471, R425). -/
def State.served (s : State) (p : Path) (index : Nat) : Bool :=
  match p with
  | .keeper => s.pdOn 1
  | .gardener => s.pdOn 45
  | .canSafety => s.pdOn 1 && s.shift.phase != .gatehouse
      && (s.paths.serving || (decide (0x2800 ≤ index) && decide (index ≤ 0x28FF)) || decide (index = 0x1110))
  | .bar0 => s.pdOn 44 && s.paths.serving
  | _ => s.paths.serving

/-- The restricted set of Gatehouse mode (R471). -/
def restrictedSet (index : Nat) : Bool :=
  [0x1000, 0x1100, 0x1101, 0x1110, 0x1111, 0x1112, 0x2000, 0x2010, 0x2102, 0x2103, 0x2900].contains index
  || (decide (0x2B00 ≤ index) && decide (index ≤ 0x2B03))

/-- The lifecycle state in force (R474): state 2 overlays state 1. -/
def State.lifecycle (s : State) : Nat :=
  if s.boot.fuses.lifecycle = 1 ∧ s.boot.unlocked then 2 else s.boot.fuses.lifecycle

/-- Objects locked in the present lifecycle state (R506). -/
def State.lifeLocked (s : State) (index sub : Nat) : Bool :=
  (decide (index = 0x2C20) || decide (index = 0x2C21)) && (decide (sub = 2) || decide (sub = 3))
  && (decide (s.lifecycle = 1) || (decide (s.lifecycle = 2) && !bit (s.reg Regs.dbgPerms) 0))

/-- The checks of R410 that every access passes: NO_OBJECT, then RESTRICTED. -/
def State.dictReach (s : State) (p : Path) (index sub : Nat) : Except Reply Unit :=
  if (findObj index sub).isNone && !(decide (sub = 0) && definedIndex index) then .error ⟨1, 0⟩
  else if s.shift.phase = .gatehouse ∧ p ≠ .gardener ∧ restrictedSet index = false then .error ⟨12, 0⟩
  else .ok ()

/-- The access checks of R410 on a write: LOCKED, READ_ONLY, SAFETY_OWNED, LEASE_LOCKED, and the object's row. -/
def State.dictAccess (s : State) (p : Path) (index sub : Nat) : Except Reply (Obj × Nat) := do
  s.dictReach p index sub
  match findObj index sub with
  | none => .error ⟨2, 0⟩
  | some (o, k) =>
    if s.lifeLocked index sub then .error ⟨13, 0⟩
    else if o.access = .ro then .error ⟨2, 0⟩
    else if o.access = .so ∧ p ≠ .canSafety ∧ p ≠ .keeper then .error ⟨5, 0⟩
    else if o.leaseLocked = true ∧ s.shift.llLocked = true then .error ⟨6, 0⟩
    else .ok (o, k)

/-- BAD_LENGTH (R409). -/
def Obj.badLength (o : Obj) (n : Nat) : Bool :=
  match o.ty.size with
  | some k => decide (n ≠ k)
  | none => false

/-- A write in the order of R410, from NO_OBJECT down to CONFLICT; the hook sees a value in range, masked (R4). -/
def State.dictTry (s : State) (p : Path) (index sub : Nat) (data : Bytes) (hook : Hook) : Except Reply State := do
  let (o, _) ← s.dictAccess p index sub
  if o.badLength data.length then .error ⟨8, 0⟩
  else if !o.inRange (o.given data) then .error outOfRange
  else hook s p (o.given data)

/-- Records a refused BAR0 write (R419). -/
def State.bar0Refused (s : State) (index sub : Nat) (r : Reply) : State :=
  (s.setReg Regs.dictBar0Last (r.status % 256 + (sub % 256) * 2 ^ 8 + (index % 65536) * 2 ^ 16 + (r.detail % 2 ^ 32) * 2 ^ 32)).bump
    Regs.dictBar0Refusals

/-- Counts a refused join or split (R187). -/
def State.countRefusal (s : State) (index sub : Nat) (r : Reply) : State :=
  s.bumpIf (decide (index = 0x2500 ∧ sub = 3 ∧ r.status = 4)) Regs.chairRefusals

/-- The answer of one write on its path (R419, R410): a refusal leaves the rest of the state as it was. -/
def State.finishWrite (s : State) (p : Path) (index sub : Nat) (r : Except Reply State) : State :=
  match r with
  | .ok s' => s'.emit (.answer p 0 0)
  | .error e =>
    (match p with
     | .bar0 => (s.countRefusal index sub e).bar0Refused index sub e
     | _ => s.countRefusal index sub e).emit (.answer p e.status e.detail)

/-- A write of one object on one path (R410, R432): unserved BAR0 and internal writes are dropped, an SMBus address
is not acknowledged, and a CAN request is answered UNAVAILABLE. -/
def State.writeObject (s : State) (p : Path) (index sub : Nat) (data : Bytes) (hook : Hook) : State :=
  if s.served p index then s.finishWrite p index sub (s.dictTry p index sub data hook)
  else match p with
    | .can => s.emit (.answer p 10 0)
    | .canSafety => if s.pdOn 1 then s.emit (.answer p 10 0) else s
    | .smbus => s.emit .nack
    | _ => s

/-! ### Common hooks -/

/-- Stores the value and does nothing else. -/
def storeHook (index sub : Nat) : Hook := fun s _ data =>
  match findObj index sub with
  | some (o, _) =>
    if o.ty = .domain then .ok (s.setBlob (index * 256 + sub) data)
    else .ok { s with regs := kset s.regs (index * 256 + sub) (ofLe data) }
  | none => .error ⟨1, 0⟩

/-- R57: only the owner of a resource writes its configuration; an unclaimed one names owner none. -/
def ownedHook (owner : Reg) (h : Hook) : Hook := fun s p data =>
  if s.reg owner = s.writer p ∧ s.reg owner ≠ 0 then h s p data else .error (conflictOwner (s.reg owner))

/-- A range that the owning chapter sets, checked before any conflict (R410). -/
def rangeFirst (ok : State → Bytes → Bool) (h : Hook) : Hook := fun s p data =>
  if ok s data then h s p data else .error outOfRange

/-- Runs a write-1 object, which itself stays 0: a write of 0 is accepted and does nothing. -/
def actHook (f : State → Path → Except Reply State) : Hook := fun s p data => if ofLe data = 0 then .ok s else f s p

end Sys2Proof.Machine
end

