-- ==== Sys2Proof/Machine/Structures.lean ====
section
/-! DEFINITION. The structures that host software places in memory (R27, R68, R216, R247, R278, R293, R325, R378, R390): where each
lies, how a refusal names it (R411), and whether two of them meet. -/

namespace Sys2Proof.Machine

/-! ### Geometry of a pool (R245, R293) -/

/-- The slice size bs of R245. -/
def sliceBytes (f : Fmt) (d : Nat) : Nat := roundUp (2 * 16 * d * f.bits / 8 + (if f.mx then d else 0)) 64

def State.poolFmt (s : State) (p : Nat) : Fmt := (fmtOf (s.reg (Regs.kvpFormat p))).getD .mxint8

/-- bs of pool p. -/
def State.sliceSize (s : State) (p : Nat) : Nat := sliceBytes (s.poolFmt p) (s.reg (Regs.kvpDim p))

/-- L × H of pool p. -/
def State.poolSlices (s : State) (p : Nat) : Nat := s.reg (Regs.kvpLayers p) * s.reg (Regs.kvpHeads p)

/-- KVP_FRAME_SIZE. -/
def State.frameBytes (s : State) (p : Nat) : Nat := roundUp (s.poolSlices p * s.sliceSize p) 4096

/-- KVP_SWAP_SLOT_SIZE. -/
def State.swapSlotBytes (s : State) (p : Nat) : Nat := roundUp (128 + s.poolSlices p * s.sliceSize p) 4096

/-! ### The structures in force -/

/-- One structure: KIND and NUMBER of R411, first byte and length. -/
structure Claim where
  kind : Nat
  number : Nat
  lo : Nat
  len : Nat
  deriving DecidableEq, Repr

/-- How a refusal names it. -/
def Claim.reply (c : Claim) : Reply := conflictKind c.kind c.number

/-- Instances k below n for which a test holds, as claims. -/
def claimsOf (n : Nat) (p : Nat → Bool) (f : Nat → Claim) : List Claim := ((List.range n).filter p).map f

/-- Enabled submission and completion rings (R390). -/
def State.ringClaims (s : State) : List Claim :=
  claimsOf 64 (fun r => s.flag (Regs.ringEnable r)) (fun r => ⟨6, r, s.reg (Regs.ringBase r), s.reg (Regs.ringSize r) * 64⟩)
  ++ claimsOf 64 (fun c => s.flag (Regs.cqEnable c)) (fun c => ⟨7, c, s.reg (Regs.cqBase c), s.reg (Regs.cqSize c) * 16⟩)

/-- The slot size of an ingest queue: a stream's own, or that of a host receive queue (R98). -/
def State.ingestSlot (s : State) (q : Nat) : Nat := if q < 48 then s.reg (Regs.streamSlotSize q) else 9472
def State.ingestCount (s : State) (q : Nat) : Nat :=
  if q < 48 then s.reg (Regs.streamSlotCount q) else s.reg (Regs.ethHrxSlotCount (q - 48))
def State.ingestBase (s : State) (q : Nat) : Nat :=
  if q < 48 then s.reg (Regs.streamQbase q) else s.reg (Regs.ethHrxQbase (q - 48))
/-- Whether an ingest queue is enabled. -/
def State.ingestOn (s : State) (q : Nat) : Bool :=
  if q < 48 then s.flag (Regs.streamEnable q) else s.flag (Regs.ethHostRx (q - 48))

/-- Enabled Lodge rings (R68), named by stream or port. -/
def State.lodgeClaims (s : State) : List Claim :=
  claimsOf 52 s.ingestOn (fun q =>
    ⟨if q < 48 then 2 else 4, if q < 48 then q else q - 48, s.ingestBase q, s.ingestCount q * s.ingestSlot q⟩)

/-- Enabled internal queues (R216). -/
def State.iqClaims (s : State) : List Claim :=
  claimsOf 32 (fun k => s.flag (Regs.iqEnable k)) (fun k =>
    ⟨13, 0x200 + 128 + k, s.reg (Regs.iqBase k), s.reg (Regs.iqSlotSize k) * s.reg (Regs.iqSlotCount k)⟩)

/-- Enabled KV pools (R247). -/
def State.poolClaims (s : State) : List Claim :=
  claimsOf 4 (fun p => s.flag (Regs.kvpEnable p)) (fun p =>
    ⟨13, 0x100 + p, s.reg (Regs.kvpBase p), s.reg (Regs.kvpFrames p) * s.frameBytes p⟩)

/-- The level-2 table pool (R248). -/
def State.l2Claims (s : State) : List Claim :=
  if s.reg Regs.kvL2Count = 0 then [] else [⟨13, 0x110, s.reg Regs.kvL2Base, s.reg Regs.kvL2Count * 2048⟩]

/-- Frame tables of enabled pools (R278). -/
def State.tableClaims (s : State) : List Claim :=
  claimsOf 4 (fun p => s.flag (Regs.kvpEnable p)) (fun p =>
    ⟨13, 0x120 + p, s.reg (Regs.kvpMetaBase p), s.reg (Regs.kvpFrames p) * 16⟩)

/-- Swap areas (R293). -/
def State.swapClaims (s : State) : List Claim :=
  claimsOf 4 (fun p => s.reg (Regs.kvpSwapBase p) != 0) (fun p =>
    ⟨13, 0x130 + p, s.reg (Regs.kvpSwapBase p), s.reg (Regs.kvpSwapSlots p) * s.swapSlotBytes p⟩)

/-- The Keeper's verdict area (R325). -/
def State.verdictClaims (s : State) : List Claim :=
  if s.reg Regs.kpVerdictBase = 0 then [] else [⟨13, 0x300, s.reg Regs.kpVerdictBase, 32 * s.reg Regs.kpVerdictSlots⟩]

/-- Every structure that R378 names. -/
def State.bufferClaims (s : State) : List Claim :=
  s.lodgeClaims ++ s.iqClaims ++ s.poolClaims ++ s.tableClaims ++ s.l2Claims ++ s.verdictClaims

/-- Rings of either kind and every structure that R378 names. -/
def State.allClaims (s : State) : List Claim := s.ringClaims ++ s.bufferClaims

/-- The first of some claims, other than one's own, that a range meets. -/
def clash (cs : List Claim) (kind number lo len : Nat) : Option Reply :=
  (cs.find? (fun c => decide (¬ (c.kind = kind ∧ c.number = number)) && overlaps c.lo c.len lo len)).map Claim.reply

/-! ### Placement -/

/-- Wholly in installed DDR5 outside the drive region. -/
def State.inFreeDdr (s : State) (lo len : Nat) : Bool :=
  decide (lo + len ≤ s.ddr.capacity) && !overlaps lo len s.driveLo s.driveLen

/-- Wholly in the host window. -/
def inHostWindow (lo len : Nat) : Bool := within lo len 0x8000000000 0x4000000000

/-- Wholly in one range of the map. -/
def inOne (lo len : Nat) (p : Region → Bool) : Bool := p (regionOf lo) && decide (lo + len ≤ regionEnd lo)

/-- Refused with CONFLICT, naming nothing. -/
def conflictPlain : Reply := ⟨4, 0⟩

end Sys2Proof.Machine
end

