-- ==== Sys2Proof/Machine/Operands.lean ====
section
/-! DEFINITION. The operands of work orders: record fields (R188), tensor descriptors (R202, R203), the place of an element
in a strided tensor or a port layout (R145, R168), reading and writing elements, and the causes of R201 that a descriptor
can give. -/

namespace Sys2Proof.Machine

/-! ### Completion statuses (R199, R201) -/

def finDone (aux : Nat) : Finish := ⟨0, 0, aux⟩
def finFlush (detail aux : Nat) : Finish := ⟨2, detail, aux⟩
def finFence (g : Nat) : Finish := ⟨3, 0, g⟩
def finUncorrected (entry : Nat) : Finish := ⟨4, 0, entry⟩
def finBad (detail aux : Nat) : Finish := ⟨6, detail, aux⟩
def finTimeout (detail us : Nat) : Finish := ⟨8, detail, min us (2 ^ 32 - 1)⟩
def finConflict (detail aux : Nat) : Finish := ⟨9, detail, aux⟩

/-! ### Items -/

/-- The item's first record. -/
def Item.rec0 (i : Item) : Nat := i.recs.headD 0
/-- A field of the first record. -/
def Item.field (i : Item) (hi lo : Nat) : Nat := bits i.rec0 hi lo
def Item.opcode (i : Item) : Nat := i.field 7 0
/-- The class, 3 where the first record could not be read (R510). -/
def Item.cls (i : Item) : Nat := if i.readable then i.field 17 16 else 3
/-- The item an access is made for. -/
def Item.who (i : Item) : Option (Nat × Nat) := some (i.ring, i.seq)
/-- The target code of the item's ring (R191). -/
def State.targetCode (s : State) (i : Item) : Nat := s.reg (Regs.ringTarget i.ring)

/-! ### Tensor descriptors -/

/-- A valid descriptor (R202): sizes and byte strides of its RANK dimensions, innermost first. -/
structure Tensor where
  base : Nat
  fmt : Fmt
  layout : Nat
  pad : Nat
  fill : Nat
  sizes : List Nat
  stride0 : Nat
  strides : List Int
  mask : Nat
  deriving DecidableEq, Repr

/-- Size of a dimension, 1 beyond the rank. -/
def Tensor.size (t : Tensor) (k : Nat) : Nat := t.sizes.getD k 1
def Tensor.rank (t : Tensor) : Nat := t.sizes.length

/-- Chunk depth D and line unit u of an array operand format (R167, R168). -/
def Fmt.chunk : Fmt → Nat × Nat
  | .int4 | .e2m1 => (128, 1)
  | .bf16 | .fp16 => (64, 2)
  | _ => (64, 1)

/-- Reads a descriptor's 64 bytes: none where R203 calls it invalid (detail 6). -/
def parseTensor (x : Nat) : Option Tensor :=
  match fmtOf (bits x 47 40) with
  | none => none
  | some f =>
    let rank := bits x 50 48
    let layout := bits x 55 52
    let base := bits x 39 0
    let sizes := (List.range rank).map (fun k => bits x (159 + 32 * k) (128 + 32 * k))
    let stride0 := bits x 319 288
    let ok := decide (1 ≤ rank) && decide (rank ≤ 5) && decide (layout ≤ 2) && decide (bits x 57 56 ≠ 3)
      && sizes.all (fun n => decide (1 ≤ n))
      && (if layout = 0 then decide (1 ≤ stride0) && (if f.narrow then decide (stride0 = 1) else decide (base % (f.bits / 8) = 0))
          else f.operand && decide (rank = 2) && decide (base % 64 = 0))
    if ok then some
      { base := base, fmt := f, layout := layout, pad := bits x 57 56, fill := bits x 95 64 % 2 ^ f.bits, sizes := sizes,
        stride0 := stride0, mask := bits x 487 448,
        strides := (List.range (rank - 1)).map (fun k => toSigned 32 (bits x (351 + 32 * k) (320 + 32 * k))) }
    else none

/-- m_alloc of R168: rows rounded up to 64. -/
def Tensor.alloc (t : Tensor) : Nat := roundUp (t.size 1) 64
/-- The operand's own chunk count (R509). -/
def Tensor.chunks (t : Tensor) : Nat := ceilDiv (t.size 0) t.fmt.chunk.1

/-- The byte offset of an outer index. -/
def outerOffset : List Int → List Nat → Int
  | st :: sts, i :: is => i * st + outerOffset sts is
  | _, _ => 0

/-- The first byte of a strided row. -/
def Tensor.rowAt (t : Tensor) (outer : List Nat) : Int := (t.base : Int) + outerOffset t.strides outer

/-- Where an element starts: byte address and bit within that byte (R145, R168, R203). -/
def Tensor.place (t : Tensor) (idx : List Nat) : Int × Nat :=
  let i := idx.headD 0
  let b := t.fmt.bits
  if t.layout = 0 then
    if t.fmt.narrow then (t.rowAt idx.tail + (i * b / 8 : Nat), i * b % 8)
    else (t.rowAt idx.tail + (i * t.stride0 * (b / 8) : Nat), 0)
  else
    let (d, u) := t.fmt.chunk
    let j := i / d
    let p := i % d
    let m := idx.getD 1 0
    let line := if t.layout = 1 then (j * t.alloc + m) * u else ((m / 64 * t.chunks + j) * 64 + m % 64) * u
    ((t.base : Int) + (line * 64 + p * b / 8 : Nat), p * b % 8)

/-- Bytes from an element's first byte that hold it. -/
def Tensor.width (t : Tensor) (bit : Nat) : Nat := ceilDiv (bit + t.fmt.bits) 8

/-- Outer indices of a tensor in ascending dense order. -/
def outerIndices : List Nat → List (List Nat)
  | [] => [[]]
  | n :: ns => (outerIndices ns).flatMap (fun t => (List.range n).map (fun i => i :: t))

def Tensor.rows (t : Tensor) : List (List Nat) := outerIndices (t.sizes.drop 1)

/-- Every index in ascending dense order, innermost fastest. -/
def Tensor.indices (t : Tensor) : List (List Nat) := outerIndices t.sizes

/-- The bytes that hold one element. -/
def Tensor.elemSpan (t : Tensor) (idx : List Nat) : Int × Nat := ((t.place idx).1, t.width (t.place idx).2)

/-- Byte ranges in the order they are read, each once, neighbours joined. -/
def joinSpans (sp : List (Int × Nat)) : List (Int × Nat) :=
  sp.eraseDups.foldr (fun p r => match r with
    | q :: t => if p.1 + p.2 = q.1 ∧ regionOf p.1.toNat = regionOf q.1.toNat then (p.1, p.2 + q.2) :: t else p :: r
    | [] => [p]) []

/-- Number of elements. -/
def Tensor.count (t : Tensor) : Nat := t.sizes.foldl (· * ·) 1

/-- The byte ranges a tensor touches: rows, elements of a strided row, or the whole of a port layout (R168, R203). -/
def Tensor.spans (t : Tensor) : List (Int × Nat) :=
  if t.layout = 1 then [((t.base : Int), t.chunks * t.alloc * t.fmt.chunk.2 * 64)]
  else if t.layout = 2 then [((t.base : Int), ceilDiv (t.size 1) 64 * t.chunks * 64 * t.fmt.chunk.2 * 64)]
  else if t.fmt.narrow || decide (t.stride0 = 1) then
    t.rows.map (fun r => (t.rowAt r, ceilDiv (t.size 0 * t.fmt.bits) 8))
  else t.indices.map (fun i => ((t.place i).1, t.fmt.bits / 8))

/-- The extent from the lowest byte to one past the highest (R207). -/
def Tensor.extent (t : Tensor) : Int × Int :=
  t.spans.foldl (fun e p => (min e.1 p.1, max e.2 (p.1 + p.2))) ((t.base : Int), (t.base : Int))

/-- Whether the extents of two tensors intersect (R207). -/
def Tensor.meets (a b : Tensor) : Bool := decide (a.extent.1 < b.extent.2) && decide (b.extent.1 < a.extent.2)

/-! ### Checks that may touch memory -/

/-- Logs what an access met: NOT_PRESENT, or DRIVE_REGION_WRITE (R18, R21, R25). -/
def State.badAccess (s : State) (i : Item) (a : Nat) (ans : Answer) : State := s.notPresent (some i.ring) a ans

/-- The static answer for a range (R203): what R21 or R25 forbids, and a write into a frame table (R278); a block that is
off or an entry that is not VALID shows only at the access (log 20). -/
def State.fixedAnswer (s : State) (ag : Agent) (a : Int) (n : Nat) (write : Bool) : Answer :=
  if a < 0 then .absent
  else match s.answer ag a.toNat n write with
    | .absent => .absent
    | .guarded => .guarded
    | .sealed_ => .sealed_
    | _ => .ok

/-- Whether every span lies in the range of the first (R203). -/
def oneRange (sp : List (Int × Nat)) : Bool :=
  match sp with
  | [] => true
  | (a, _) :: _ => sp.all (fun p => decide (0 ≤ p.1) && decide (regionOf p.1.toNat = regionOf a.toNat)
      && decide (p.2 = 0 ∨ regionOf (p.1.toNat + p.2 - 1) = regionOf a.toNat))

/-- The extent check of R203 (detail 7) with R25's log entry. -/
def State.checkSpans (s : State) (i : Item) (ag : Agent) (sp : List (Int × Nat)) (write : Bool) (field : Nat) :
    State × Option Finish :=
  if !oneRange sp then (s, some (finBad 7 field))
  else match sp.find? (fun p => s.fixedAnswer ag p.1 p.2 write != .ok) with
    | some p =>
      (if s.fixedAnswer ag p.1 p.2 write = .sealed_ then s.badAccess i p.1.toNat .sealed_ else s, some (finBad 7 field))
    | none => (s, none)

/-- What reading a structure before the start gives. -/
inductive Fetched where
  | ok (x : Nat)
  | stop (f : Finish)
  deriving DecidableEq, Repr

/-- Reads a structure before the item starts (R201 detail 5 and 3, R370). -/
def State.fetchStruct (s : State) (i : Item) (ag : Agent) (a n field : Nat) : State × Fetched :=
  match s.answer ag a n false with
  | .ok =>
    match s.readMem ag i.who a n with
    | (s, .bytes bs _ none) => (s, .ok (ofLe bs))
    | (s, .bytes _ _ (some e)) => (s, .stop (finUncorrected e))
    | (s, .absent) => (s, .stop (finBad 3 (s.targetCode i)))
  | .absent => (s, .stop (finBad 5 field))
  | ans => (s.badAccess i a ans, .stop (finBad 3 (s.targetCode i)))

/-- Reads and checks a descriptor (R202, R203). -/
def State.descriptor (s : State) (i : Item) (ag : Agent) (a field : Nat) (write : Bool) : State × Except Finish Tensor :=
  if a % 64 ≠ 0 then (s, .error (finBad 5 field))
  else match s.fetchStruct i ag a 64 field with
    | (s, .stop f) => (s, .error f)
    | (s, .ok x) =>
      match parseTensor x with
      | none => (s, .error (finBad 6 field))
      | some t =>
        match s.checkSpans i ag t.spans write field with
        | (s, some f) => (s, .error f)
        | (s, none) => (s, .ok t)

/-- What an item asks of a descriptor: field number, address, whether it is written. -/
structure Want where
  field : Nat
  addr : Nat
  write : Bool
  deriving DecidableEq, Repr

/-- Reads several descriptors in field order; the first cause decides. -/
def State.descriptors (s : State) (i : Item) (ag : Agent) : List Want → State × Except Finish (List Tensor)
  | [] => (s, .ok [])
  | w :: ws =>
    match s.descriptor i ag w.addr w.field w.write with
    | (s, .error f) => (s, .error f)
    | (s, .ok t) =>
      match s.descriptors i ag ws with
      | (s, .error f) => (s, .error f)
      | (s, .ok ts) => (s, .ok (t :: ts))

/-! ### Reading and writing elements -/

/-- What touching ranges for a read met: the poisoned granules and the first log entry, or a range that gave no answer. -/
structure Touched where
  s : State
  bad : List (Nat × Nat) := []
  entry : Option Nat := none
  gone : Option Finish := none

/-- Reads the given ranges for an item: codes are met, poison is noted, a block that gives no answer ends it (detail 3). -/
def State.touch (s : State) (i : Item) (ag : Agent) (sp : List (Int × Nat)) : Touched :=
  sp.foldl (fun t p =>
    if t.gone.isSome then t
    else
      let a := p.1.toNat
      match t.s.answer ag a p.2 false with
      | .ok =>
        match t.s.readMem ag i.who a p.2 with
        | (s, .bytes _ bad e) => { t with s := s, bad := t.bad ++ bad, entry := t.entry.orElse (fun _ => e) }
        | (s, .absent) => { t with s := s, gone := some (finBad 3 (s.targetCode i)) }
      | ans => { t with s := t.s.badAccess i a ans, gone := some (finBad 3 (t.s.targetCode i)) }) { s := s }

/-- Whether a range holds poisoned data. -/
def isBad (bad : List (Nat × Nat)) (a n : Nat) : Bool := bad.any (fun g => overlaps g.1 g.2 a n)

/-- Whether a destination answers (R18, R388); nothing is written where it does not (log 20). -/
def State.landing (s : State) (i : Item) (ag : Agent) (sp : List (Int × Nat)) : State × Option Finish :=
  match sp.find? (fun p => s.answer ag p.1.toNat p.2 true != .ok) with
  | some p => (s.badAccess i p.1.toNat (s.answer ag p.1.toNat p.2 true), some (finBad 3 (s.targetCode i)))
  | none => (s, none)

/-- The code of an element as memory holds it. -/
def State.elem (s : State) (t : Tensor) (idx : List Nat) : Nat :=
  let (a, b) := t.place idx
  (ofLe (s.peek a.toNat (t.width b)) >>> b) % 2 ^ t.fmt.bits

/-- Whether an element carries poison. -/
def Tensor.badElem (t : Tensor) (bad : List (Nat × Nat)) (idx : List Nat) : Bool :=
  let (a, b) := t.place idx
  isBad bad a.toNat (t.width b)

/-- Writes bytes where they answer; the link may drop a host write (R397). -/
def State.put (s : State) (ag : Agent) (a : Nat) (bs : Bytes) : State := (s.writeMem ag a bs).1

/-- Writes one element; its neighbours in a shared byte stay, but the bits past the last element of a row become zero (R145). -/
def State.setElem (s : State) (ag : Agent) (t : Tensor) (idx : List Nat) (code : Nat) : State :=
  let (a, b) := t.place idx
  let n := t.width b
  let k := t.fmt.bits
  let old := if t.fmt.narrow then ofLe (s.peek a.toNat n) else 0
  let old := if t.layout = 0 ∧ idx.headD 0 + 1 = t.size 0 then old % 2 ^ (b + k) else old
  let keep := old - ((old >>> b) % 2 ^ k) * 2 ^ b
  s.put ag a.toNat (toLe n (keep + (code % 2 ^ k) <<< b))

/-- Codes of w bits each, packed with no gaps (R145). -/
def packCodes (w : Nat) (codes : List Nat) : Bytes :=
  toLe (ceilDiv (w * codes.length) 8) (codes.foldr (fun c acc => c % 2 ^ w + acc <<< w) 0)

/-- Writes a run of one innermost row from element k on; of a narrow format the run starts on a byte. -/
def State.setRun (s : State) (ag : Agent) (t : Tensor) (outer : List Nat) (k : Nat) (codes : List Nat) : State :=
  if t.layout = 0 ∧ (t.fmt.narrow ∨ t.stride0 = 1) then
    s.put ag (t.place (k :: outer)).1.toNat (packCodes t.fmt.bits codes)
  else codes.zipIdx.foldl (fun s c => s.setElem ag t ((k + c.2) :: outer) c.1) s

/-- Leaves the destination of a tensor undefined (R200). -/
def State.forgetTensor (s : State) (t : Tensor) : State := t.spans.foldl (fun s p => s.forgetRange p.1.toNat p.2) s

/-- The bytes that writing a tensor's elements writes, row by row, for the AUX of R207. -/
def Tensor.bytes (t : Tensor) : Nat := (t.sizes.drop 1).foldl (· * ·) (ceilDiv (t.size 0 * t.fmt.bits) 8)

/-- AUX of a byte count (R207). -/
def auxBytes (n : Nat) : Nat := min n (2 ^ 32 - 1)

/-- Scale tensors: E8M0, LAYOUT 0, sizes [⌈size0/32⌉, outer sizes] (R147, R169). -/
def Tensor.scalesFor (t v : Tensor) : Bool :=
  decide (t.fmt = .e8m0) && decide (t.layout = 0) && decide (t.sizes = ceilDiv (v.size 0) 32 :: v.sizes.drop 1)

end Sys2Proof.Machine
end

