-- ==== Sys2Proof/Machine/Frames.lean ====
section
/-! DEFINITION. Frame tables, references, epochs and reclamation (R278–R283), and registrations (R253, R281). -/

namespace Sys2Proof.Machine

/-- The end of a list of frames (R279). -/
def endOfList : Nat := 0xFFFFFFFF

/-- A frame table entry (R279). -/
structure FrameEntry where
  refs : Nat := 0
  fstate : Nat := 0
  node : Bool := false
  link : Nat := 0
  retire : Nat := 0
  deriving DecidableEq, Repr

def FrameEntry.pack (e : FrameEntry) : Nat :=
  e.refs % 65536 + (e.fstate % 4) <<< 16 + (if e.node then 2 ^ 18 else 0) + (e.link % 2 ^ 32) <<< 32 + (e.retire % 2 ^ 32) <<< 64

def FrameEntry.unpack (x : Nat) : FrameEntry :=
  { refs := bits x 15 0, fstate := bits x 17 16, node := bit x 18, link := bits x 63 32, retire := bits x 95 64 }

/-- Where frame f's entry lies. -/
def State.entryAt (s : State) (p f : Nat) : Nat := s.reg (Regs.kvpMetaBase p) + 16 * f

/-- A frame's entry as memory holds it. -/
def State.frame (s : State) (p f : Nat) : FrameEntry := FrameEntry.unpack (ofLe (s.peek (s.entryAt p f) 16))

def State.setFrame (s : State) (p f : Nat) (e : FrameEntry) : State := s.poke (s.entryAt p f) (toLe 16 e.pack)

/-- A read of n bytes of a table outside an item's own accesses: poison stops the KV manager (R370). -/
def State.meetTable (s : State) (a n : Nat) : State × Option Nat :=
  let (s, _, e) := s.meetAll none a (s.mem.suspects a n)
  (s.kvDamaged e, e)

/-- Reads a frame's entry; none where it carries poison, which is never read as a value and stops the KV manager as a table's does
(R370; R370 does not list the frame table, log 30). -/
def State.readFrame (s : State) (p f : Nat) : State × Option FrameEntry :=
  match s.meetTable (s.entryAt p f) 16 with
  | (s, some _) => (s, none)
  | (s, none) => (s, some (s.frame p f))

def State.pool (s : State) (p : Nat) : PoolLists := kget s.kv.pools p {}

def State.setPool (s : State) (p : Nat) (l : PoolLists) : State := { s with kv := { s.kv with pools := kset s.kv.pools p l } }

/-- The reader count of an epoch's half (R281). -/
def State.readers (s : State) (e : Nat) : Nat := if e % 2 = 0 then s.kv.readers0 else s.kv.readers1

def State.setReaders (s : State) (e n : Nat) : State :=
  { s with kv := if e % 2 = 0 then { s.kv with readers0 := n } else { s.kv with readers1 := n } }

/-- Moves ripe heads of pool p's deferred list to its free list (R282). -/
def State.ripen (s : State) (p : Nat) : Nat → State
  | 0 => s
  | n + 1 =>
    let l := s.pool p
    if l.deferHead = endOfList then s
    else
      let f := l.deferHead
      match s.readFrame p f with
      | (s, none) => s
      | (s, some e) =>
      if (s.kv.ge + 2 ^ 32 - e.retire) % 2 ^ 32 < 2 then s
      else
        let s := s.setFrame p f { e with fstate := 0, link := l.freeHead }
        let tail := if e.link = endOfList then endOfList else l.deferTail
        let s := s.setPool p ⟨f, l.free + 1, e.link, tail, l.deferred - 1⟩
        s.ripen p n

/-- Whether any pool has a deferred frame. -/
def State.anyDeferred (s : State) : Bool := (List.range 4).any (fun p => (s.pool p).deferHead != endOfList)

/-- try_advance of R282; two advances ripen everything, so a few rounds suffice. -/
def State.tryAdvance (s : State) : Nat → State
  | 0 => s
  | n + 1 =>
    if s.anyDeferred && decide (s.readers (s.kv.ge + 1) = 0) then
      let s := { s with kv := { s.kv with ge := (s.kv.ge + 1) % 2 ^ 32 } }
      ((List.range 4).foldl (fun s p => s.ripen p (s.pool p).deferred) s).tryAdvance n
    else s

/-- Rounds of try_advance that free every deferred frame when nobody reads. -/
def advanceRounds : Nat := 4

/-- drop(f) of R282. -/
def State.dropRef (s : State) (p f : Nat) : State :=
  match s.readFrame p f with
  | (s, none) => s
  | (s, some e) =>
  let e := { e with refs := e.refs - 1 }
  if e.refs ≠ 0 then s.setFrame p f e
  else
    let l := s.pool p
    let s := s.setFrame p f { e with fstate := 2, retire := s.kv.ge, link := endOfList }
    let s := if l.deferTail = endOfList then s
      else match s.readFrame p l.deferTail with
        | (s, none) => s
        | (s, some t) => s.setFrame p l.deferTail { t with link := f }
    let head := if l.deferHead = endOfList then f else l.deferHead
    let s := s.setPool p { l with deferHead := head, deferTail := f, deferred := l.deferred + 1 }
    s.tryAdvance advanceRounds

/-- Takes the head of pool p's free list as a LIVE frame with one reference; none where the list is empty or the entry carries
poison. -/
def State.takeFrame (s : State) (p : Nat) : State × Option Nat :=
  let l := s.pool p
  if l.freeHead = endOfList then (s, none)
  else
    let f := l.freeHead
    match s.readFrame p f with
    | (s, none) => (s, none)
    | (s, some e) =>
      ((s.setFrame p f { refs := 1, fstate := 1 }).setPool p { l with freeHead := e.link, free := l.free - 1 }, some f)

/-- Adds one reference, if it would not pass 65,535 (R280): whether it was added. -/
def State.addRef (s : State) (p f : Nat) : State × Bool :=
  match s.readFrame p f with
  | (s, none) => (s, false)
  | (s, some e) => if 65535 ≤ e.refs then (s, false) else (s.setFrame p f { e with refs := e.refs + 1 }, true)

/-! ### Sequences and registrations -/

/-- A sequence table entry's address (R251, R252). -/
def seqAt (q : Nat) : Nat := 0xF300000000 + 64 * q

def State.seqEntry (s : State) (q : Nat) : Nat := ofLe (s.peek (seqAt q) 64)

def State.setSeqEntry (s : State) (q x : Nat) : State := s.poke (seqAt q) (toLe 64 x)

/-- Changes a sequence's entry, unless it is read as poison. -/
def State.changeSeq (s : State) (q : Nat) (f : Nat → Nat) : State :=
  match s.meetTable (seqAt q) 64 with
  | (s, some _) => s
  | (s, none) => s.setSeqEntry q (f (s.seqEntry q))

/-- A field of an entry replaced. -/
def setBits (x hi lo v : Nat) : Nat := x - bits x hi lo <<< lo + (v % 2 ^ (hi + 1 - lo)) <<< lo

/-- SWAPPING of a sequence (R304). -/
def State.setSwapping (s : State) (q : Nat) (on : Bool) : State := s.changeSeq q (fun e => setBit e 192 on)

/-- Registers an item for a sequence (R253, R281). -/
def State.register (s : State) (ring seq q : Nat) : State :=
  let s := s.changeSeq q (fun e => setBits e 63 32 (bits e 63 32 + 1))
  let g := s.kv.ge
  let r : Registration := ⟨ring, seq, q, g⟩
  let s := { s with kv := { s.kv with regs := s.kv.regs ++ [r] } }
  s.setReaders g (s.readers g + 1)

/-- Deregisters one registration (R282). -/
def State.deregister1 (s : State) (r : Registration) : State :=
  let s := s.changeSeq r.sequence (fun e => setBits e 63 32 (bits e 63 32 - 1))
  (s.setReaders r.epoch (s.readers r.epoch - 1)).tryAdvance advanceRounds

/-- Deregisters every registration of an item, whatever its status (R253). -/
def State.deregister (s : State) (ring seq : Nat) : State :=
  let mine := s.kv.regs.filter (fun r => decide (r.ring = ring ∧ r.seq = seq))
  let s := { s with kv := { s.kv with regs := s.kv.regs.filter (fun r => !decide (r.ring = ring ∧ r.seq = seq)) } }
  mine.foldl State.deregister1 s

end Sys2Proof.Machine
end

