-- ==== Sys2Proof/Machine/Queues.lean ====
section
/-! DEFINITION. Queues as data: ingest and host receive queues 0–51 (R68–R72), transmit and launch queues 52–71 (R54, R97, R98) and
internal queues 128–159 (R216–R218); what the completion and the abort of a push or pop do to its queue. -/

namespace Sys2Proof.Machine

/-! ### Access -/

def State.ingest (s : State) (q : Nat) : Ingest := kget s.lodge.ingest q {}

def State.setIngest (s : State) (q : Nat) (v : Ingest) : State := { s with lodge := { s.lodge with ingest := kset s.lodge.ingest q v } }

/-- STREAM_DEPTH: visible items not held by a pop (R69). -/
def State.ingestDepth (s : State) (q : Nat) : Nat := (s.ingest q).items.length

/-- Internal queue k + 128. -/
def State.iq (s : State) (k : Nat) : IntQueue := kget s.disp.iqs k {}

def State.setIq (s : State) (k : Nat) (v : IntQueue) : State := { s with disp := { s.disp with iqs := kset s.disp.iqs k v } }

/-- The slots in use: visible items, the push and the pop in progress. -/
def IntQueue.used (v : IntQueue) : Nat :=
  v.items.length + (if v.pushing.isSome then 1 else 0) + (if v.popping.isSome then 1 else 0)

/-- The frames waiting in transmit queue q (52–71). -/
def State.txFrames (s : State) (q : Nat) : List LaunchFrame :=
  if q < 56 then kget s.lodge.txq (q - 52) [] else kget s.sundial.launch (q - 56) []

def State.setTxFrames (s : State) (q : Nat) (l : List LaunchFrame) : State :=
  if q < 56 then { s with lodge := { s.lodge with txq := kset s.lodge.txq (q - 52) l } }
  else { s with sundial := { s.sundial with launch := kset s.sundial.launch (q - 56) l } }

/-- Places of a transmit queue in use: 32 at most (R54, R97). -/
def State.txUsed (s : State) (q : Nat) : Nat :=
  (s.txFrames q).length + (if (kfind s.lodge.pushes q).isSome then 1 else 0)

/-- A counter of an ingest queue: a host receive queue has none of the stream objects. -/
def State.bumpStream (s : State) (q : Nat) (r : Nat → Reg) (n : Nat) : State := if q < 48 then s.bumpBy (r q) n else s

/-! ### Completion of a push or pop -/

/-- Whether a push or pop in progress is that of an item. -/
def IqBusy.mine (b : IqBusy) (ring seq : Nat) : Bool := decide (b.ring = ring ∧ b.seq = seq)

/-- An internal queue when an item ends: a pushed item becomes visible if `good`, else its slot is the next one again (R217), and a
popped item's slot becomes free. -/
def IntQueue.ended (v : IntQueue) (ring seq : Nat) (good : Bool) : IntQueue :=
  let v := match v.pushing with
    | some b => if b.mine ring seq then
        (if good then { v with pushing := none, items := v.items ++ [b.item] }
         else { v with pushing := none, next := b.item.slot }) else v
    | none => v
  match v.popping with
  | some b => if b.mine ring seq then { v with popping := none } else v
  | none => v

/-- Internal queue k when an item ends. -/
def State.iqEnded (s : State) (ring seq : Nat) (good : Bool) (k : Nat) : State :=
  let v := s.iq k
  let v' := v.ended ring seq good
  if v' = v then s else (s.setIq k v').bumpIf (decide (v.items.length < v'.items.length)) (Regs.iqItems k)

/-- Ingest queue q when an item ends: the slot held by its pop becomes free (R71). -/
def State.popEnded (s : State) (ring seq q : Nat) : State :=
  let v := s.ingest q
  match v.pop with
  | some p => if p.ring = ring ∧ p.seq = seq then s.setIngest q { v with pop := none } else s
  | none => s

/-- Transmit queue q when an item ends. -/
def State.txEnded (s : State) (ring seq : Nat) (good : Bool) (q : Nat) : State :=
  match kfind s.lodge.pushes q with
  | some p =>
    if p.ring = ring ∧ p.seq = seq then
      let s := { s with lodge := { s.lodge with pushes := kdel s.lodge.pushes q } }
      if good then s.setTxFrames q (s.txFrames q ++ [p.frame]) else s
    else s
  | none => s

/-- The queues when an item ends: `good` for one that was not aborted. -/
def State.queuesEnded (s : State) (ring seq : Nat) (good : Bool) : State :=
  let s := (s.disp.iqs.map (·.1)).foldl (fun s k => s.iqEnded ring seq good k) s
  let s := (s.lodge.ingest.map (·.1)).foldl (fun s q => s.popEnded ring seq q) s
  (s.lodge.pushes.map (·.1)).foldl (fun s q => s.txEnded ring seq good q) s

/-! ### Flushes, but for the work orders they abort -/

/-- Whether an item of the queue is being written: a camera's frame or the item of an SPI read (R78, R91). -/
def Ingest.writing (v : Ingest) : Bool := v.frame.isSome || v.taken.isSome

/-- Empties an ingest queue: visible items, the item being written and closed items not yet visible are discarded (R72). -/
def State.emptyIngest (s : State) (q : Nat) : State :=
  let v := s.ingest q
  let s := s.bumpStream q Regs.streamFlushed v.items.length
  let s := s.bumpStream q Regs.streamFlushDiscards (v.done.length + (if v.writing then 1 else 0))
  s.setIngest q { v with items := [], done := [], frame := none, taken := none, dropping := v.dropping || v.writing }

/-- Empties an internal queue (R218): the next slot is the one after that of a pop in progress, which keeps its own. -/
def State.emptyIq (s : State) (k : Nat) : State :=
  let v := s.iq k
  let s := s.bumpBy (Regs.iqFlushed k) v.items.length
  let s := s.bumpIf v.pushing.isSome (Regs.iqFlushDiscards k)
  let next := match v.popping, v.pushing with
    | some b, _ => (b.item.slot + 1) % max 1 (s.reg (Regs.iqSlotCount k))
    | none, some b => b.item.slot
    | none, none => v.next
  s.setIq k { v with items := [], pushing := none, next := next }

/-- Empties a transmit queue (R56, R98): a launch queue counts the frames, the one being enqueued among them. -/
def State.emptyTx (s : State) (q : Nat) : State :=
  let s := if q < 56 then s else s.bumpBy (Regs.lqFlushed (q - 56)) (s.txUsed q)
  ({ s with lodge := { s.lodge with pushes := kdel s.lodge.pushes q } }).setTxFrames q []

/-- The item whose push or pop a flush of queue q aborts: a push in progress on a transmit queue, both on an internal
queue, a pop on an ingest queue. -/
def State.queueBusy (s : State) (q : Nat) : List (Nat × Nat) :=
  if q < 52 then (match (s.ingest q).pop with
    | some p => [(p.ring, p.seq)]
    | none => [])
  else if q < 72 then (match kfind s.lodge.pushes q with
    | some p => [(p.ring, p.seq)]
    | none => [])
  else
    let v := s.iq (q - 128)
    ([v.pushing, v.popping].filterMap id).map (fun b => (b.ring, b.seq))

/-- Empties any queue. -/
def State.emptyQueue (s : State) (q : Nat) : State :=
  if q < 52 then s.emptyIngest q else if q < 72 then s.emptyTx q else s.emptyIq (q - 128)

end Sys2Proof.Machine
end

