-- ==== Sys2Proof/Machine/Work.lean ====
section
/-! DEFINITION. Items from acceptance to completion (R189–R201, R204–R206, R219, R394, R395, R510): reading and grouping records,
completion records, aborts, flushes and barriers. -/

namespace Sys2Proof.Machine

/-! ### Targets and lanes (R190, R191) -/

/-- A target code as a target. -/
def targetOf (code : Nat) : Option Target :=
  if h : code < 32 then some (.unit (.gaffer ⟨code, h⟩))
  else if h : code - 32 < 16 then some (.unit (.chair ⟨code - 32, h⟩))
  else if h : code - 48 < 4 then some (.marver ⟨code - 48, h⟩)
  else if code = 52 then some .pergola
  else if code = 53 then some .kv
  else if code = 54 then some .keeper
  else none

/-- The code of a target. -/
def targetCodeOf : Target → Nat
  | .unit (.gaffer n) => n.val
  | .unit (.chair c) => 32 + c.val
  | .marver m => 48 + m.val
  | .pergola => 52
  | .kv => 53
  | .keeper => 54
  | .unbound => 255

/-- The lane of a target that executes an opcode (R190), none where the target cannot. -/
def laneKind (op : Nat) (t : Target) : Option LaneKind :=
  match t with
  | .unit _ =>
    if op = 0x08 ∨ op = 0x09 ∨ op = 0x0C ∨ op = 0x0D ∨ op = 0x33 then some .copy
    else if op = 0x10 ∨ op = 0x30 ∨ op = 0x31 then some .array
    else if op = 0x18 ∨ op = 0x19 ∨ op = 0x32 then some .vector
    else none
  | .marver _ => if op = 0x0C ∨ op = 0x0D ∨ op = 0x20 ∨ op = 0x21 ∨ op = 0x22 then some .marver else none
  | .pergola =>
    if op = 0x41 ∨ op = 0x42 then some .table else if op = 0x40 ∨ op = 0x43 ∨ op = 0x44 then some .output else none
  | .kv => if op = 0x34 ∨ (0x38 ≤ op ∧ op ≤ 0x3C) then some .kv else none
  | .keeper => if op = 0x50 then some .keeper else none
  | .unbound => none

/-- Whether R190 lists an opcode. -/
def knownOpcode (op : Nat) : Bool :=
  [0x00, 0x01, 0x02, 0x04, 0x05, 0x08, 0x09, 0x0C, 0x0D, 0x10, 0x18, 0x19, 0x20, 0x21, 0x22, 0x30, 0x31, 0x32, 0x33, 0x34,
   0x38, 0x39, 0x3A, 0x3B, 0x3C, 0x40, 0x41, 0x42, 0x43, 0x44, 0x50].contains op

/-- The opcodes the dispatcher executes itself (R191). -/
def dispatcherOp (op : Nat) : Bool := op = 0x00 || op = 0x02 || op = 0x04 || op = 0x05

/-- The agent that makes a lane's accesses. -/
def laneAgent (l : Lane) : Agent :=
  match l.target, l.kind with
  | .unit u, .copy => .servitor u
  | .unit u, _ => .compute u
  | .marver m, _ => .marver m.val
  | .pergola, _ => .pergola
  | .kv, _ => .kvm
  | .keeper, _ => .keeper
  | .unbound, _ => .dispatcher

/-! ### Items in flight -/

def Item.isOf (i : Item) (ring seq : Nat) : Bool := decide (i.ring = ring ∧ i.seq = seq)

def State.item? (s : State) (ring seq : Nat) : Option Item := s.disp.items.find? (fun i => i.isOf ring seq)

/-- Replaces an item. -/
def State.setItem (s : State) (i : Item) : State :=
  { s with disp := { s.disp with items := replaceFirst (fun x => x.isOf i.ring i.seq) (fun _ => i) s.disp.items } }

/-- Gives an item its completion status; its lane stays its own until it completes. -/
def State.setFinish (s : State) (i : Item) (f : Finish) : State := s.setItem { i with finish := some f }

/-- The item that runs in a lane. -/
def State.running (s : State) (l : Lane) : Option Item :=
  s.disp.items.find? (fun i => decide (i.lane = some l) && (i.phase == .executing || i.phase == .pendingWait))

/-- The items that wait at a lane, oldest first. -/
def State.waitingAt (s : State) (l : Lane) : List Item :=
  s.disp.items.filter (fun i => decide (i.lane = some l) && (i.phase == .waiting || i.phase == .held))

/-- RING_INFLIGHT. -/
def State.inflight (s : State) (r : Nat) : Nat := (s.disp.items.filter (fun i => decide (i.ring = r))).length

/-- The owner code of every submission ring (R414). -/
def State.ringOwner (s : State) : Nat := if s.leaseRunning then 2 else 1

/-- Whether R197 refuses the item. -/
def State.leaseRefuses (s : State) (i : Item) : Bool := s.leaseRunning && decide (i.cls = 0)

/-! ### Rings (R390–R394) -/

def State.ring (s : State) (r : Nat) : Ring := kget s.disp.rings r {}
def State.setRing (s : State) (r : Nat) (v : Ring) : State := { s with disp := { s.disp with rings := kset s.disp.rings r v } }
def State.comp (s : State) (c : Nat) : CompRing := kget s.disp.comps c {}
def State.setComp (s : State) (c : Nat) (v : CompRing) : State := { s with disp := { s.disp with comps := kset s.disp.comps c v } }

/-- Distance from a to b in records modulo a ring's size. -/
def ringDistance (size a b : Nat) : Nat := if size = 0 then 0 else (b + size - a % size) % size

/-- Published records not yet taken. -/
def State.published (s : State) (r : Nat) : Nat :=
  ringDistance (s.reg (Regs.ringSize r)) (s.reg (Regs.ringHead r)) (s.reg (Regs.ringTail r))

/-- Advances a head. -/
def State.advanceHead (s : State) (r n : Nat) : State :=
  s.setReg (Regs.ringHead r) ((s.reg (Regs.ringHead r) + n) % s.reg (Regs.ringSize r))

/-- Free completion slots not reserved (R192, R391). -/
def State.freeSlots (s : State) (c : Nat) : Nat :=
  let size := s.reg (Regs.cqSize c)
  size - 1 - ringDistance size (s.reg (Regs.cqHead c)) (s.reg (Regs.cqTail c)) - (s.comp c).reserved

/-! ### Reading and grouping records (R189, R510) -/

/-- A record as the dispatcher reads it. -/
inductive Record where
  | ok (x : Nat)
  | bad (f : Finish)
  deriving DecidableEq, Repr

/-- Reads the k-th record past the head. -/
def State.readRecord (s : State) (r k : Nat) : State × Record :=
  let a := s.reg (Regs.ringBase r) + 64 * ((s.reg (Regs.ringHead r) + k) % s.reg (Regs.ringSize r))
  let who := some (r, (s.ring r).seq)
  match s.answer .dispatcher a 64 false with
  | .ok =>
    match s.readMem .dispatcher who a 64 with
    | (s, .bytes bs _ none) => (s, .ok (ofLe bs))
    | (s, .bytes _ _ (some e)) => (s, .bad (finUncorrected e))
    | (s, .absent) => (s, .bad (finBad 3 (s.reg (Regs.ringTarget r))))
  | ans => (s.notPresent (some r) a ans, .bad (finBad 3 (s.reg (Regs.ringTarget r))))

def isCont (x : Nat) : Bool := decide (bits x 7 0 = 1)
def versionOf (x : Nat) : Nat := bits x 11 8
def chained (x : Nat) : Bool := bit x 12

/-- How a group of records ends. -/
inductive GroupEnd where
  | whole
  | incomplete
  | chainError
  | unreadable (f : Finish)
  deriving DecidableEq, Repr

/-- A group: the state after its reads, its records, how many it takes from the ring, its end. -/
structure Group where
  s : State
  recs : List Nat
  count : Nat
  ends : GroupEnd

/-- The CONT records from the k-th on that belong to a failed item; what is not taken is left unread. -/
def State.absorb (s : State) (r avail : Nat) : Nat → Nat → State × Nat
  | k, n + 1 =>
    if avail ≤ k then (s, k)
    else match s.readRecord r k with
      | (s1, .ok x) => if isCont x then s1.absorb r avail (k + 1) n else (s, k)
      | (_, .bad _) => (s, k)
  | k, 0 => (s, k)

/-- Takes continuation records from the k-th on: `n` bounds the records left of the 16. -/
def State.continueGroup (s : State) (r avail version : Nat) (recs : List Nat) : Nat → Nat → Group
  | k, n + 1 =>
    if avail ≤ k then ⟨s, recs, k, .incomplete⟩
    else match s.readRecord r k with
      | (s1, .bad f) =>
        let (s2, c) := s1.absorb r avail (k + 1) avail
        ⟨s2, recs ++ [0], c, .unreadable f⟩
      | (s1, .ok x) =>
        if !isCont x then ⟨s, recs, k, .chainError⟩
        else if versionOf x ≠ version ∨ (chained x = true ∧ n = 0) then
          let (s2, c) := s1.absorb r avail (k + 1) avail
          ⟨s2, recs ++ [x], c, .chainError⟩
        else if chained x then s1.continueGroup r avail version (recs ++ [x]) (k + 1) n
        else ⟨s1, recs ++ [x], k + 1, .whole⟩
  | k, 0 => ⟨s, recs, k, .whole⟩

/-- Groups the records at the head of a ring into the next item. -/
def State.group (s : State) (r : Nat) : Group :=
  let avail := s.published r
  if avail = 0 then ⟨s, [], 0, .incomplete⟩
  else match s.readRecord r 0 with
    | (s1, .bad f) =>
      let (s2, c) := s1.absorb r avail 1 avail
      ⟨s2, [0], c, .unreadable f⟩
    | (s1, .ok x) =>
      if isCont x then
        let (s2, c) := s1.absorb r avail 1 avail
        ⟨s2, [x], c, .chainError⟩
      else if chained x then s1.continueGroup r avail (versionOf x) [x] 1 15
      else ⟨s1, [x], 1, .whole⟩

/-- Whether the group's first record could be read. -/
def Group.readable (g : Group) : Bool :=
  match g.ends with
  | .unreadable _ => decide (1 < g.recs.length)
  | _ => true

/-! ### Completion (R194, R198, R394, R395) -/

/-- The completion record (R198). -/
def State.record (s : State) (i : Item) (f : Finish) (phase : Bool) : Nat :=
  i.seq % 2 ^ 32 + (if i.readable then i.opcode else 0xFF) <<< 32 + (f.status % 16) <<< 40 + (i.cls % 4) <<< 44
  + (if i.preempted then 2 ^ 46 else 0) + (if phase then 2 ^ 47 else 0) + (i.ring % 64) <<< 48 + (f.detail % 1024) <<< 54
  + (f.aux % 2 ^ 32) <<< 64 + (s.outNs % 1000000000) <<< 96 + (s.outNs / 1000000000 % 4) <<< 126

/-- Posts the message that covers the records written so far (R395). -/
def State.coverRecords (s : State) (c : Nat) : State :=
  (s.setComp c { s.comp c with sinceMessage := 0, firstAt := none }).msix (s.reg (Regs.cqVector c))

/-- Writes one completion record to completion ring c (R394, R395). -/
def State.writeRecord (s : State) (c : Nat) (i : Item) (f : Finish) : State :=
  let tail := s.reg (Regs.cqTail c)
  let a := s.reg (Regs.cqBase c) + 16 * tail
  let bs := toLe 16 (s.record i f (s.flag (Regs.cqPhase c)))
  let s := match s.answer .dispatcher a 16 true with
    | .ok => (s.writeMem .dispatcher a bs).1
    | ans => s.notPresent (some i.ring) a ans
  let last := decide (s.reg (Regs.cqSize c) ≤ tail + 1)
  let s := s.setReg (Regs.cqTail c) (if last then 0 else tail + 1)
  let s := if last then s.setReg (Regs.cqPhase c) (1 - s.reg (Regs.cqPhase c)) else s
  let k := s.comp c
  let s := s.setComp c { k with sinceMessage := k.sinceMessage + 1, firstAt := some (k.firstAt.getD s.now) }
  if s.reg (Regs.cqVector c) < 64 ∧ s.reg (Regs.cqCoalesceCount c) ≤ k.sinceMessage + 1 then s.coverRecords c else s

/-- Whether every item accepted from the rings of a BARRIER before it has completed (R204). -/
def barrierMet (items : List Item) (b : Item) : Bool :=
  (items.takeWhile (fun i => !i.isOf b.ring b.seq)).all (fun i => !bit (b.field 95 32) i.ring)

/-- Finishes the pending barriers whose condition now holds. -/
def State.retestBarriers (s : State) : State :=
  { s with disp := { s.disp with items := s.disp.items.map (fun i =>
      if i.readable && decide (i.opcode = 2) && i.phase == .pendingWait && i.finish.isNone && barrierMet s.disp.items i then
        { i with finish := some (finDone 0) } else i) } }

/-- The journal of class-0 completions (R313): the newest 1,024. -/
def State.journalize (s : State) (i : Item) (f : Finish) : State :=
  if i.cls ≠ 0 then s
  else
    let e : JournalEntry := ⟨i.ring, i.seq, s.targetCode i, f.status, s.outTime >>> 24⟩
    { s with disp := { s.disp with journal := keepLast 1024 (s.disp.journal ++ [e]) } }

/-- Drops an item's pending semaphore wait. -/
def State.dropWait (s : State) (ring seq : Nat) : State :=
  (s.disp.gaffers.map (·.1)).foldl (fun s g =>
    let v := s.gaffer g
    let w := v.waits.filter (fun w => !decide (w.ring = ring ∧ w.seq = seq))
    if w.length = v.waits.length then s else s.setGaffer g { v with waits := w }) s

/-- A PG_BIN completes (R112, R127, R135, R142): with DONE or DONE_WITH_LOSS it counts, its te is the last, unless the time line stepped
meanwhile, and its EPOCH_SEQ serves PG_NEIGHBOURS; one that closed its epoch and ends otherwise leaves no EPOCH_SEQ that serves, since
the tables are no longer those of the last; in every case the Pergola has no bin any more. -/
def State.binCompletes (s : State) (i : Item) (f : Finish) : State :=
  match s.pergola.bin with
  | none => s
  | some b =>
    if b.ring = i.ring ∧ b.seq = i.seq then
      let t := { s with pergola := { s.pergola with bin := none, spilled := [] } }
      if 2 ≤ f.status then { t with pergola := { t.pergola with seqUsable := t.pergola.seqUsable && b.closed.isNone } }
      else
        let t := ((t.setReg Regs.pgEpochSeq ((t.reg Regs.pgEpochSeq + 1) % 2 ^ 32)).bump Regs.pgEpochs).bumpIf (decide (f.status = 1)) Regs.pgLossEpochs
        let t := s.pergola.spilled.foldl (fun t g => t.bump (Regs.gridSpillEpochs g)) t
        { t with pergola := { t.pergola with lastTe := if b.stepped then none else some b.te, seqUsable := true } }
    else s

/-- An item completes with a status (R194, R198): its queue item becomes visible or its slot free, its registrations end
(R253), SWAPPING is cleared (R304), its record is written where required, its completion slot is released, and waiting barriers are tested again.
`good` is false for an abort. -/
def State.complete (s : State) (i : Item) (f : Finish) (good : Bool) : State :=
  let s := { s with disp := { s.disp with items := s.disp.items.filter (fun x => !x.isOf i.ring i.seq) } }
  let s := ((s.dropWait i.ring i.seq).queuesEnded i.ring i.seq good).deregister i.ring i.seq
  let s := if i.readable && decide (i.opcode = 0x3B) && (i.phase == .executing || i.phase == .pendingWait) then
    s.setSwapping (i.field 75 64) false else s
  let s := ((s.binCompletes i f).journalize i f).bump (Regs.ringItemsCompleted i.ring)
  let s := match i.lane with
    | some ⟨.marver m, _⟩ => s.bumpIf (decide (0x20 ≤ i.opcode) && decide (i.opcode ≤ 0x22)) (Regs.mvItems m.val)
    | _ => s
  let c := s.reg (Regs.ringCq i.ring)
  let s := s.setComp c { s.comp c with reserved := (s.comp c).reserved - 1 }
  let s := if (i.readable && bit i.rec0 14) || f.status != 0 then s.writeRecord c i f else s
  s.retestBarriers

/-! ### Aborts (R199, R200) -/

/-- The low bits of the descriptor fields an opcode writes through, in its first record. -/
def writtenFields (i : Item) : List Nat :=
  match i.opcode with
  | 0x08 => [104]
  | 0x09 => [104]
  | 0x10 => if bit i.rec0 35 then [384] else [224, 424]
  | 0x19 => [104]
  | 0x20 => [144]
  | 0x21 => [144]
  | 0x22 => [144]
  | 0x42 => [96]
  | 0x43 => [176]
  | _ => []

/-- A descriptor as memory holds it, without an access. -/
def State.tensorAt (s : State) (a : Nat) : Option Tensor :=
  if a % 64 = 0 ∧ a ≠ 0 then parseTensor (ofLe (s.peek a 64)) else none

/-- The ranges the vector unit of an item has stored to. -/
def State.vectorStores (s : State) (i : Item) : List (Nat × Nat) :=
  let v := kget s.disp.vectors (s.targetCode i) {}
  if v.running && decide (v.ring = i.ring ∧ v.seq = i.seq) then v.stored else []

/-- The bytes of the tensor that a descriptor at an address describes. -/
def State.descriptorSpans (s : State) (a : Nat) : List (Nat × Nat) :=
  match s.tensorAt a with
  | some t => t.spans.map (fun p => (p.1.toNat, p.2))
  | none => []

/-- The DST_SCALES field of a Marver item whose destination has an MX format (R232). -/
def State.scalesField (s : State) (i : Item) : List Nat :=
  if i.opcode = 0x20 ∨ i.opcode = 0x21 then
    (match s.tensorAt (i.field 183 144) with
      | some t => if t.fmt.mx then [184] else []
      | none => [])
  else []

/-- The label buffers of a PG_LABELS (R129, R130). -/
def State.labelRanges (s : State) (i : Item) : List (Nat × Nat) :=
  match s.tensorAt (i.field 175 136) with
  | some l =>
    let x := ofLe (s.peek (i.field 215 176) 192)
    (List.range 12).filterMap (fun k =>
      let base := bits x (128 * k + 39) (128 * k)
      let n := bits x (128 * k + 95) (128 * k + 64) * l.size 0 * (l.fmt.bits / 8)
      if base = 0 ∨ n = 0 then none else some (base, n))
  | none => []

/-- The output descriptors of the entries of a work list or of a bucket table (R265, R272). -/
def State.listedOutputs (s : State) (i : Item) : List (Nat × Nat) :=
  if i.opcode = 0x32 then
    (List.range (i.field 36 33)).flatMap (fun k =>
      let x := ofLe (s.peek (i.field 103 64 + 32 * k) 32)
      s.descriptorSpans (bits x 167 128) ++ s.descriptorSpans (bits x 207 168))
  else (List.range (i.field 79 64)).flatMap (fun k =>
    s.descriptorSpans (bits (ofLe (s.peek (i.field 167 128 + 64 * k) 64)) 295 256))

/-- The destination bytes that an aborted item covers (R200); of KV_APPEND and the swaps R257 and R299 say otherwise. -/
def State.abortRanges (s : State) (i : Item) : List (Nat × Nat) :=
  if !i.readable then []
  else if i.opcode = 0x0D then [(i.field 103 64, i.field 159 128)]
  else if i.opcode = 0x18 then s.vectorStores i
  else if i.opcode = 0x41 then
    (i.field 295 256, 256) :: ((List.range 2).filter (fun g => s.flag (Regs.gridEnable g))).flatMap (fun g =>
      s.descriptorSpans (i.field (335 + 80 * g) (296 + 80 * g)) ++ s.descriptorSpans (i.field (375 + 80 * g) (336 + 80 * g)))
  else if i.opcode = 0x44 then s.labelRanges i
  else if 0x30 ≤ i.opcode ∧ i.opcode ≤ 0x32 then s.listedOutputs i
  else if i.opcode = 0x34 then (if i.field 34 32 = 4 then [(i.field 199 160, 64 + 8 * i.field 159 128)] else [])
  else (writtenFields i ++ s.scalesField i).flatMap (fun lo =>
    s.descriptorSpans (i.field (lo + 39) lo))

/-- The agent that writes an item's destinations: the servitor for attention items (R265). -/
def writeAgent (i : Item) (l : Lane) : Agent :=
  match l.target with
  | .unit u => if i.opcode = 0x30 ∨ i.opcode = 0x31 then .servitor u else laneAgent l
  | _ => laneAgent l

/-- Leaves the destinations of an aborted item undefined where they can be written at all. -/
def State.forgetItem (s : State) (i : Item) : State :=
  (s.abortRanges i).foldl (fun s p =>
    match i.lane with
    | some l => if s.answer (writeAgent i l) p.1 p.2 true = .ok then s.forgetRange p.1 p.2 else s
    | none => s) s

/-- Stops the vector unit that runs an item. -/
def State.stopVector (s : State) (i : Item) : State :=
  let k := s.targetCode i
  let v := kget s.disp.vectors k {}
  if v.running && decide (v.ring = i.ring ∧ v.seq = i.seq) then
    { s with disp := { s.disp with vectors := kset s.disp.vectors k {} } }
  else s

/-- An item ends with an abort: it completes at once, and what its destinations hold is undefined (R200). -/
def State.abort (s : State) (i : Item) (f : Finish) : State := ((s.forgetItem i).stopVector i).complete i f false

/-- Aborts every item that a test accepts, oldest first. -/
def State.abortAll (s : State) (p : Item → Bool) (f : Finish) : State :=
  (s.disp.items.filter p).foldl (fun s i =>
    match s.item? i.ring i.seq with
    | some j => s.abort j f
    | none => s) s

/-- Aborts the push or pop in progress of a queue, then empties it (R56, R72, R218). -/
def State.flushQueue (s : State) (q : Nat) : State :=
  let busy := s.queueBusy q
  let s := s.emptyQueue q
  s.abortAll (fun i => busy.contains (i.ring, i.seq)) (finFlush 2 q)

/-! ### Flushing a ring (R219) -/

/-- Drops the CONT records at the head that belong to a skipped item (R219): `n` bounds the records. -/
def State.discardConts (s : State) (r : Nat) : Nat → State
  | 0 => s
  | n + 1 =>
    if (s.ring r).dropping = false ∨ s.published r = 0 then s
    else match s.readRecord r 0 with
      | (s1, .ok x) =>
        if isCont x then
          let s2 := (s1.advanceHead r 1).bumpIf (!(s1.ring r).dropped) (Regs.ringFlushDiscards r)
          (s2.setRing r { s2.ring r with dropped := true }).discardConts r n
        else s.setRing r { s.ring r with dropping := false, dropped := false }
      | (_, .bad _) => s.setRing r { s.ring r with dropping := false, dropped := false }

/-- Skips every published record, grouped into items (R219): `n` bounds the groups. -/
def State.skipRecords (s : State) (r : Nat) : Nat → State
  | 0 => s
  | n + 1 =>
    if s.published r = 0 then s
    else
      let g := s.group r
      let s1 := (g.s.advanceHead r g.count).bump (Regs.ringFlushSkipped r)
      let open_ := decide (g.ends = .incomplete)
      let v := s1.ring r
      (s1.setRing r { seq := (v.seq + 1) % 2 ^ 32, dropping := open_, dropped := false }).skipRecords r n

/-- A flush of ring r (R219), with the DETAIL of R201: 1 ring flush, 3 lease pre-emption. -/
def State.flushRing (s : State) (r detail : Nat) : State :=
  let s := s.abortAll (fun i => decide (i.ring = r)) (finFlush detail 0)
  let s := s.discardConts r (s.published r)
  s.skipRecords r (s.published r)

/-- Flushes and stops a submission ring (R396). -/
def State.stopRing (s : State) (r : Nat) : State := (s.flushRing r 1).setReg (Regs.ringEnable r) 0

/-- Flushes and disables every ring of both kinds (R397). -/
def State.stopAllRings (s : State) : State :=
  let s := (List.range 64).foldl (fun s r => if s.flag (Regs.ringEnable r) then s.stopRing r else s) s
  (List.range 64).foldl (fun s c => s.setReg (Regs.cqEnable c) 0) s

/-! ### Waits (R204, R206, R214) -/

/-- The TIMEOUT of a BARRIER, SEM_WAIT, push or pop in µs. -/
def Item.timeout (i : Item) : Nat := if i.opcode = 0x0C ∨ i.opcode = 0x0D then i.field 191 160 else i.field 127 96

/-- The item begins to wait. -/
def State.startWait (s : State) (i : Item) : State :=
  if i.phase = .pendingWait then s else s.setItem { i with phase := .pendingWait, since := s.now }

/-- Waited µs. -/
def State.waited (s : State) (i : Item) : Nat := (s.now - i.since) / 1000

/-- A wait whose condition does not hold: it fails at once when TIMEOUT is 0, else it waits (R204). -/
def State.waitOrFail (s : State) (i : Item) (detail : Nat) : State :=
  if i.timeout = 0 ∧ i.phase ≠ .pendingWait then s.setFinish i (finTimeout detail 0) else s.startWait i

/-! ### Items in lanes -/

/-- The item that runs in a lane with a given opcode and has not been run yet. -/
def State.ready (s : State) (l : Lane) (op : Nat) : Option Item :=
  match s.running l with
  | some i => if i.readable && decide (i.opcode = op) && i.finish.isNone then some i else none
  | none => none

/-- What the checks before start give (R200): the state after their reads, and a cause or what to run. -/
abbrev Checked (α : Type) := State × Except Finish α

/-- Runs the item of a lane: its checks, then R197, then its effect. -/
def State.runItem {α : Type} (s : State) (l : Lane) (op : Nat) (check : State → Item → Checked α)
    (run : State → Item → α → State) : State :=
  match s.ready l op with
  | none => s
  | some i =>
    match check s i with
    | (s1, .error f) => s1.setFinish i f
    | (s1, .ok a) => if s1.leaseRefuses i then s1.setFinish i (finConflict 3 0) else run s1 i a

/-! ### Residue checks (R354–R356) -/

/-- The gaffers of a compute unit. -/
def unitGaffers : CUnit → List Nat
  | .gaffer g => [g.val]
  | .chair c => [2 * c.val, 2 * c.val + 1]

/-- A mismatch of gaffer g with the residue observed (R356, R374): counted, logged, and the item's status with the entry's number. -/
def State.residueMismatch (s : State) (i : Item) (g kind detail residue : Nat) : State × Finish :=
  let s := (s.bump Regs.residueMismatches).bump (Regs.gafferResidueMismatches g)
  let s := s.setGaffer g { s.gaffer g with residueTimes := s.now :: (s.gaffer g).residueTimes }
  let (s, k) := s.logEvent { severity := .contained, source := 1, inst := g, kind := kind, detail := detail, ring := some i.ring,
                             sub := residue % 127 }
  (s, ⟨5, 0, k⟩)

/-- A fault that can strike inside a tile or an operation: how many it lets go by, its gaffer, its row, its column or lane over the
whole unit, and its change. -/
structure Hit where
  turn : Nat
  gaffer : Nat
  row : Nat
  col : Nat
  error : Int
  deriving DecidableEq, Repr

/-- The faults of a unit's gaffers that `fault` reads, lowest column first. -/
def State.unitHits (s : State) (u : CUnit) (fault : Gaffer → Option Strike) : List Hit :=
  (unitGaffers u).zipIdx.filterMap (fun g => (fault (s.gaffer g.1)).map (fun f => ⟨f.turn, g.1, f.row, 64 * g.2 + f.place % 64, f.error⟩))

/-- A fault once its place has been used: it has struck, or it lets one tile or operation fewer go by. -/
def Strike.used (f : Option Strike) : Option Strike :=
  f.bind (fun f => if f.turn = 0 then none else some { f with turn := f.turn - 1 })

/-- An accumulator with what the faults at its place do to it. -/
def bendAt (hits : List Hit) (row col : Nat) (x : Acc) : Acc :=
  hits.foldl (fun x h => if h.row = row ∧ h.col = col then x.bent h.error else x) x

/-- The check at the end of an output tile of mt rows and nt columns (R356): a fault in it shows unless its change is a multiple of 127
(R357). `at_` gives the accumulator of a place with the residue predicted for it; what escapes is answered. -/
def State.arrayCheck (s : State) (u : CUnit) (i : Item) (mt nt : Nat) (at_ : Nat → Nat → Watched) : State × Except Finish (List Hit) :=
  let here := (s.unitHits u Gaffer.arrayFault).filter (fun h => decide (h.row < mt) && decide (h.col < nt))
  let s := here.foldl (fun s h => s.setGaffer h.gaffer { s.gaffer h.gaffer with arrayFault := Strike.used (s.gaffer h.gaffer).arrayFault }) s
  let hits := here.filter (fun h => h.turn == 0)
  let seen (h : Hit) : Nat := (bendAt hits h.row h.col (at_ h.row h.col).acc).res
  match hits.find? (fun h => decide (seen h ≠ (at_ h.row h.col).res)) with
  | some h =>
    let (s, f) := s.residueMismatch i h.gaffer 11 h.col (seen h)
    (s, .error f)
  | none => (s, .ok hits)

/-- The checks of the output tiles of `most` columns that make up mt rows and nt columns; the hits have their columns over all. -/
def State.arrayChecks (s : State) (u : CUnit) (i : Item) (most mt nt : Nat) (at_ : Nat → Nat → Watched) :
    State × Except Finish (List Hit) :=
  (List.range (ceilDiv nt most)).foldl (fun acc k =>
    match acc with
    | (s, .error f) => (s, .error f)
    | (s, .ok hits) =>
      match s.arrayCheck u i mt (min most (nt - k * most)) (fun m n => at_ m (k * most + n)) with
      | (s, .error f) => (s, .error f)
      | (s, .ok more) => (s, .ok (hits ++ more.map (fun h => { h with col := k * most + h.col })))) (s, .ok [])

/-- The check at the end of a covered vector operation over lanes (R354–R356): its results as FP32 patterns, with what escaped. -/
def State.vectorCheck (s : State) (u : CUnit) (i : Item) (index : Nat) (xs : List Exact) : State × Except Finish (List Nat) :=
  let here := (s.unitHits u Gaffer.vectorFault).filter (fun h => decide (h.col < xs.length))
  let s := here.foldl (fun s h => s.setGaffer h.gaffer { s.gaffer h.gaffer with vectorFault := Strike.used (s.gaffer h.gaffer).vectorFault }) s
  let hits := here.filter (fun h => h.turn == 0)
  let ys := xs.zipIdx.map (fun x => hits.foldl (fun (y : Exact) h => if h.col = x.2 then y.bent h.error else y) x.1)
  match hits.findSome? (fun h => (ys[h.col]?.bind Exact.mismatch).map (fun r => (h, r))) with
  | some (h, r) =>
    let (s, f) := s.residueMismatch i h.gaffer 12 index r
    (s, .error f)
  | none => (s, .ok (ys.map Exact.round))

/-- The checks of one covered operation after another. -/
def State.vectorRows (s : State) (u : CUnit) (i : Item) : List (List Exact) → State × Except Finish (List (List Nat))
  | [] => (s, .ok [])
  | r :: t =>
    match s.vectorCheck u i 0 r with
    | (s, .error f) => (s, .error f)
    | (s, .ok ys) =>
      match s.vectorRows u i t with
      | (s, .error f) => (s, .error f)
      | (s, .ok l) => (s, .ok (ys :: l))

/-- The first level of the tree of R211: each lane of the lower half beside its partner. -/
def firstLevel (t : List Nat) : List Exact := List.zipWith exactAdd (t.take (t.length / 2)) (t.drop (t.length / 2))

/-- The sum of lanes by the fixed tree of R211, each level an operation under the check; `n` bounds the levels. -/
def State.treeSum (s : State) (u : CUnit) (i : Item) (index : Nat) (t : List Nat) : Nat → State × Except Finish Nat
  | 0 => (s, .ok (t.headD 0))
  | n + 1 =>
    if t.length < 2 then (s, .ok (t.headD 0))
    else match s.vectorCheck u i index (firstLevel t) with
      | (s, .error f) => (s, .error f)
      | (s, .ok l) => s.treeSum u i index l n

/-- Takes rows of lanes one after another into what the lanes hold, each row an operation under the check. -/
def State.laneSteps (s : State) (u : CUnit) (i : Item) (op : Nat → Nat → Exact) (acc : List Nat) :
    List (List Nat) → State × Except Finish (List Nat)
  | [] => (s, .ok acc)
  | r :: t =>
    match s.vectorCheck u i 0 (List.zipWith op r acc) with
    | (s, .error f) => (s, .error f)
    | (s, .ok ys) => s.laneSteps u i op (ys ++ acc.drop r.length) t

end Sys2Proof.Machine
end

