-- ==== Sys2Proof/Machine/PergolaData.lean ====
section
/-! DEFINITION. The Pergola's own state (R104–R111, R139–R141): the pose ring, carry buffers, and what it takes from a
Lodge item. -/

namespace Sys2Proof.Machine

/-! ### Access -/

def State.pgStream (s : State) (k : Nat) : PgStream := kget s.pergola.streams k {}

def State.setPgStream (s : State) (k : Nat) (v : PgStream) : State :=
  { s with pergola := { s.pergola with streams := kset s.pergola.streams k v } }

/-- Where the parts of the Pergola tables lie (R141). -/
def poseBase : Nat := 0xF101000000
def hashBase (g : Nat) : Nat := 0xF100000000 + g * 0x800000

/-- Whether the Pergola works (R102); it does not while R339 holds the accelerator side in reset. -/
def State.pergolaWorks (s : State) : Bool := s.pdOn 38 && s.pdOn 39 && !s.leaseRunning && !s.shift.closed && !s.keeper.heldReset

/-- The parts of the tables whose layout no rule gives hold free values (log 26). -/
def State.forgetTables (s : State) : State :=
  { s with mem := (s.mem.zero 0xF101040000 0xF101800000).forget 0xF101040000 0xF101800000 s.freeIx }.skipFree

/-! ### Emptying -/

/-- Empties a carry buffer; the next bin counts its points as stale (R111). -/
def State.emptyCarry (s : State) (k : Nat) : State :=
  let v := s.pgStream k
  s.setPgStream k { v with carry := [], staleDue := v.staleDue + v.carry.length }

/-- Empties the pose ring, and the integrator starts again (R105, R106). -/
def State.emptyPoses (s : State) : State :=
  { s with pergola := { s.pergola with
      poseNext := 0, poseCount := 0, lastTick := none, omega := [0, 0, 0], speed := 0, orient := [0x3FF0000000000000, 0, 0, 0] } }

/-- A step of the output time line (R106, R111, R112). -/
def State.pergolaStep (s : State) : State :=
  let s := (List.range 12).foldl State.emptyCarry s
  let t := s.emptyPoses
  { t with pergola := { t.pergola with lastTe := none, bin := t.pergola.bin.map (fun b => { b with stepped := true }) } }

/-- A write of STREAM_ENABLE of a scanner stream (R108, R111): the next sweep starts with the first point seen. -/
def State.pergolaStream (s : State) (q : Nat) : State :=
  if 24 ≤ q ∧ q < 36 then
    let s := s.emptyCarry (q - 24)
    s.setPgStream (q - 24) { s.pgStream (q - 24) with sweep := none, latest := none }
  else s

/-- R30 step 4 (R139): carry buffers and slice state are discarded, the ring is empty, the next bin is a first one. -/
def State.pergolaRestart (s : State) : State :=
  let s := s.emptyPoses
  { s with pergola := { s.pergola with streams := [], bin := none, lastTe := none } }

/-- Either half was turned off (R102, R141): the tables are lost, and the Pergola starts afresh. -/
def State.pergolaLost (s : State) : State :=
  { s with mem := s.mem.zero 0xF100000000 0xF101800000, pergola := {} }

/-! ### Poses (R106, R107) -/

/-- The address of the ring's slot n. -/
def poseSlot (n : Nat) : Nat := poseBase + 64 * (n % 4096)

/-- The k-th newest sample as memory holds it, k from 0. -/
def State.poseSample (s : State) (k : Nat) : Option Nat :=
  if k < s.pergola.poseCount then some (ofLe (s.peek (poseSlot (s.pergola.poseNext + 4096 - 1 - k)) 64)) else none

/-- A sample's time in 2^-16 ns and its words: three FP64 and four FP32 patterns. -/
def sampleTime (x : Nat) : Nat := t128Time x
def sampleWords (x : Nat) : List Nat :=
  [bits x 191 128, bits x 255 192, bits x 319 256, bits x 351 320, bits x 383 352, bits x 415 384, bits x 447 416]

/-- Adds a sample to the ring. -/
def State.pushPose (s : State) (x : Nat) : State :=
  let s := s.poke (poseSlot s.pergola.poseNext) (toLe 64 x)
  { s with pergola := { s.pergola with
      poseNext := (s.pergola.poseNext + 1) % 4096, poseCount := min 4096 (s.pergola.poseCount + 1) } }

/-- The place of the newest sample at or before t (2^-16 ns), from k on. -/
def State.poseBefore (s : State) (t : Nat) : Nat → Nat → Option Nat
  | _, 0 => none
  | k, n + 1 =>
    match s.poseSample k with
    | none => none
    | some x => if sampleTime x ≤ t then some k else s.poseBefore t (k + 1) n

/-- PFLAGS of a sample. -/
def sampleFlags (x : Nat) : Nat := bits x 511 480

/-- A pose (none where the samples' words are no numbers), whether it was extrapolated, the flags of the samples, their places in
the ring, and what it was found from. -/
structure PoseAt where
  motion : Option Motion
  extrapolated : Bool
  flags : Nat
  used : List Nat
  key : List Nat
  deriving DecidableEq, Repr

/-- The pose of one sample. -/
def posed (x k : Nat) : PoseAt := ⟨motionOf (sampleWords x), false, sampleFlags x, [k], sampleWords x⟩

/-- The pose at t between two samples, or past the second of them: it carries the flags of both. -/
def blendPose (a b t : Nat) (extrapolated : Bool) (used : List Nat) : PoseAt :=
  let num := (t : Int) - sampleTime a
  let den := (sampleTime b : Int) - sampleTime a
  let m := (motionOf (sampleWords a)).bind (fun x => (motionOf (sampleWords b)).map (fun y => x.blend y num den))
  ⟨m, extrapolated, sampleFlags a ||| sampleFlags b, used, sampleWords a ++ sampleWords b ++ [num.toNat, den.toNat]⟩

/-- The pose at t in 2^-16 ns (R106), with the places of the samples used. -/
def State.poseAt (s : State) (t : Nat) : Option PoseAt :=
  match s.poseBefore t 0 s.pergola.poseCount with
  | none => none
  | some 0 =>
    match s.poseSample 0, s.poseSample 1 with
    | some b, prev =>
      if sampleTime b = t then some (posed b 0)
      else if t - sampleTime b ≤ s.reg Regs.poseExtrapLimit * 65536000 then prev.map (fun a => blendPose a b t true [0, 1])
      else none
    | none, _ => none
  | some (k + 1) =>
    match s.poseSample (k + 1), s.poseSample k with
    | some a, some b =>
      if sampleTime a = t then some (posed a (k + 1)) else some (blendPose a b t false [k, k + 1])
    | _, _ => none

/-! ### What the Pergola takes from the Lodge -/

/-- A visible inertial or wheel item is seen by the integrator, which leaves it in its queue (R104, log 27). -/
def State.poseSees (s : State) (q : Nat) (it : IngestItem) : State :=
  let bs := s.peek (s.ingestBase q + it.slot * s.ingestSlot q) 128
  let word (o : Nat) : Nat := ofLe (slice bs o 4)
  if 36 ≤ q ∧ q < 42 then
    let l := (t128Time it.time, [word 16, word 20, word 24]) :: (kget s.lodge.gyro q []).take 4095
    { s with lodge := { s.lodge with gyro := kset s.lodge.gyro q l } }
  else if 42 ≤ q ∧ q < 48 then
    let l := (t128Time it.time, [word 24, word 28, word 32, word 36]) :: (kget s.lodge.wheel q []).take 255
    { s with lodge := { s.lodge with wheel := kset s.lodge.wheel q l } }
  else s

/-- dur × S of a stream in 2^-16 ns, and S (R108). -/
def State.sweepPeriod (s : State) (k : Nat) : Nat := s.reg (Regs.pgsSweepPeriod k) * 65536000
def State.sliceCount (s : State) (k : Nat) : Nat := s.reg (Regs.pgsSlices k)

/-- Puts a point into its slice (R108), the stream's sweep having started at `start`. -/
def State.sliced (s : State) (p : PgPoint) (start : Int) : PgPoint :=
  match p.time with
  | none => p
  | some t =>
    let n : Int := s.sliceCount p.stream
    let per : Int := s.sweepPeriod p.stream
    let i := if per = 0 then 0 else (t - start) * n / per
    let c := decide (n ≤ i)
    let i := if c then n - 1 else i
    { p with slice := i, clamped := c, mid := start * (2 * n) + (2 * i + 1) * per, den := (2 * n).toNat }

/-- A point record of R89 with the item's reference in 2^-16 ns. -/
def pgPoint (k sweep ref : Nat) (r : Nat) : PgPoint :=
  { stream := k, sweep := sweep,
    time := if bit r 144 then none else some ((ref + bits r 31 0 * 16384 : Nat) : Int),
    x := bits r 63 32, y := bits r 95 64, z := bits r 127 96, intensity := bits r 135 128, ret := bits r 137 136 }

/-- A point reaches the Pergola: it starts the sweep if it is the first of it, and is sliced. -/
def State.receivePoint (s : State) (p : PgPoint) : State × PgPoint :=
  match p.time with
  | none => (s, p)
  | some t =>
    let v := s.pgStream p.stream
    let v := match v.sweep with
      | some (n, _) => if n = p.sweep then v else { v with sweep := some (p.sweep, t) }
      | none => { v with sweep := some (p.sweep, t) }
    let v := { v with latest := some (match v.latest with
      | some m => max m t
      | none => t) }
    let start := match v.sweep with
      | some (_, st) => st
      | none => t
    let p := s.sliced p start
    ((s.setPgStream p.stream v).bumpIf p.clamped (Regs.pgsClamped p.stream), p)

/-- The running bin pops one item of stream 24 + k (R110, R131). Only pops of PG_BINs count as popped: an item that another work
order's QUEUE_POP took between two bins is a gap (log 70). -/
def State.binTakes (s : State) (b : PgBin) (i : Item) (k : Nat) (it : IngestItem) : State :=
  let a := s.ingestBase (24 + k) + it.slot * s.ingestSlot (24 + k)
  let t := s.touch i .pergola [((a : Int), it.len)]
  let s := t.s
  let h := ofLe (s.peek a 64)
  let seq := bits h 319 288
  let v := s.pgStream k
  let gap := match v.lastSeq with
    | some l => if l = seq then 0 else (seq + 2 ^ 32 - l - 1) % 2 ^ 32
    | none => 0
  let s := s.setPgStream k { v with lastSeq := some seq }
  let (s, ps) := (List.range (bits h 335 320)).foldl (fun ((s, ps) : State × List PgPoint) n =>
    let (s, p) := s.receivePoint (pgPoint k (bits h 287 256) (t128Time h) (ofLe (s.peek (a + 64 + 24 * n) 24)))
    (s, p :: ps)) (s, [])
  let bad := b.bad.orElse (fun _ => t.entry)
  { s with pergola := { s.pergola with bin := some { b with points := b.points ++ ps.reverse, gaps := b.gaps + gap, bad := bad } } }

/-- The work order of the running bin, while its epoch is open. -/
def State.openBin (s : State) : Option (PgBin × Item) :=
  match s.pergola.bin with
  | some b => if b.closed.isSome then none else (s.item? b.ring b.seq).bind (fun i => if i.finish.isNone then some (b, i) else none)
  | none => none

/-- Whether the running bin lists stream 24 + k. -/
def Item.binStream (i : Item) (k : Nat) : Bool := bit (i.field 43 32) k

/-- The running bin pops every visible item of one of its streams. -/
def State.binPops (s : State) (k : Nat) : Nat → State
  | 0 => s
  | n + 1 =>
    match s.openBin with
    | none => s
    | some (b, i) =>
      let v := s.ingest (24 + k)
      match v.items with
      | [] => s
      | it :: rest =>
        if i.binStream k && s.ingestOn (24 + k) then ((s.setIngest (24 + k) { v with items := rest }).binTakes b i k it).binPops k n
        else s

/-- An item of queue q has become visible. -/
def State.pergolaSees (s : State) (q : Nat) : State :=
  let s := match (s.ingest q).items.getLast? with
    | some it => s.poseSees q it
    | none => s
  if 24 ≤ q ∧ q < 36 then s.binPops (q - 24) (s.ingest q).items.length else s

end Sys2Proof.Machine
end

