-- ==== Sys2Proof/Machine/Rings.lean ====
section
/-! DEFINITION. Rings and dispatch (R189–R206, R219, R390–R396, R510): doorbells, taking items, lanes, barriers and
semaphores, the enables and the configuration of rings. -/

namespace Sys2Proof.Machine

/-! ### Doorbells (R386, R392) -/

/-- Whether R29, R30, R335 or R453 holds the doorbells closed. -/
def State.doorbellsOpen (s : State) : Bool :=
  !s.disp.shut && !s.power.doorbellsShut && (match s.shift.phase with
    | .notServing | .drive | .lease => true
    | _ => false)

/-- A write of SQ_TAIL in doorbell block n. -/
def State.sqTail (s : State) (n v : Nat) : State :=
  let size := s.reg (Regs.ringSize n)
  let head := s.reg (Regs.ringHead n)
  if s.doorbellsOpen && s.flag (Regs.ringEnable n) && decide (v < size)
      && decide (ringDistance size head (s.reg (Regs.ringTail n)) ≤ ringDistance size head v) then s.setReg (Regs.ringTail n) v
  else s.bump Regs.hifDoorbellErrors

/-- A write of CQ_HEAD in doorbell block n. -/
def State.cqHeadTo (s : State) (n v : Nat) : State :=
  let size := s.reg (Regs.cqSize n)
  let head := s.reg (Regs.cqHead n)
  if s.doorbellsOpen && s.flag (Regs.cqEnable n) && decide (v < size)
      && decide (ringDistance size head v ≤ ringDistance size head (s.reg (Regs.cqTail n))) then s.setReg (Regs.cqHead n) v
  else s.bump Regs.hifDoorbellErrors

/-- SQ_TAIL_WRITE: through BAR0, so ignored while the PCIe power domain is not on (R446). -/
def execSqTailWrite (r : Fin 64) (v : Nat) (s : State) : Res := if s.pdOn 44 then .next (s.sqTail r.val v) else .next s

/-- CQ_HEAD_WRITE, as SQ_TAIL_WRITE. -/
def execCqHeadWrite (c : Fin 64) (v : Nat) (s : State) : Res := if s.pdOn 44 then .next (s.cqHeadTo c.val v) else .next s

/-! ### Taking an item (R190–R192, R200) -/

/-- The power domains of a target (R439). -/
def targetDomains : Target → List Nat
  | .unit (.gaffer g) => [gafferPd g.val]
  | .unit (.chair c) => [gafferPd (2 * c.val), gafferPd (2 * c.val + 1)]
  | .marver m => [34 + m.val]
  | .pergola => [38, 39]
  | .kv => [41]
  | .keeper => [1]
  | .unbound => []

/-- Whether a target is fenced, or is the former chair of a fenced gaffer: the gaffer (R184). -/
def State.fencedTarget (s : State) (t : Target) : Option Nat :=
  match t with
  | .unit (.gaffer g) => if s.fenced g.val then some g.val else none
  | .unit (.chair c) =>
    [2 * c.val, 2 * c.val + 1].find? (fun g => s.fenced g && (s.formed c.val || (s.gaffer g).formerChair))
  | _ => none

/-- Whether a target is present (R18, R191): formed, not inside a formed chair, its power domain on. -/
def State.present (s : State) (t : Target) : Bool :=
  (targetDomains t).all s.pdOn && (match t with
    | .unit (.gaffer g) => !s.formed (g.val / 2)
    | .unit (.chair c) => s.formed c.val
    | .unbound => false
    | .pergola => s.pergolaWorks
    | _ => true)

/-- Whether a join or split of the target has not ended: it takes no work order (R182). -/
def State.targetChanging (s : State) (t : Target) : Bool :=
  match t with
  | .unit (.gaffer g) => s.chairChanging (g.val / 2)
  | .unit (.chair c) => s.chairChanging c.val
  | _ => false

/-- What the dispatcher's own check of a whole item gives: a cause, or the lane it goes to (none: the dispatcher). -/
def State.route (s : State) (code op : Nat) : Except Finish (Option Lane) :=
  if !knownOpcode op then .error (finBad 1 op)
  else if dispatcherOp op then .ok none
  else match targetOf code with
    | none => .error (finBad 3 code)
    | some t =>
      match laneKind op t with
      | none => .error (finBad 2 code)
      | some k =>
        match s.fencedTarget t with
        | some g => .error (finFence g)
        | none => if s.present t then .ok (some ⟨t, k⟩) else .error (finBad 3 code)

/-- The dispatcher's verdict on a group (R190, R200, R510): a record read as poison, VERSION_REFUSED, a lease's refusal of KP_DECLARE,
which goes ahead of every BAD_DESCRIPTOR cause (R312), then those. -/
def State.judge (s : State) (r : Nat) (g : Group) : Except Finish (Option Lane) :=
  let x := g.recs.headD 0
  let early : Option Finish :=
    if g.readable && decide (versionOf x ≠ 1) then some ⟨7, 0, versionOf x⟩
    else if g.readable && s.leaseRunning && decide (bits x 7 0 = 0x50) then some (finConflict 3 0)
    else none
  match g.ends with
  | .unreadable f => .error (if f.status = 6 then early.getD f else f)
  | .chainError => .error (early.getD (finBad 4 g.count))
  | _ => match early with
    | some f => .error f
    | none => s.route (s.reg (Regs.ringTarget r)) (bits x 7 0)

/-- Whether a ring stalls before its next item (R192). -/
def State.stalled (s : State) (r : Nat) (fence : Bool) (lane : Option Lane) : Bool :=
  (fence && decide (s.inflight r ≠ 0))
  || s.disp.items.any (fun i => decide (i.ring = r) && i.readable && i.finish.isNone
      && decide (i.opcode = 2 ∨ i.opcode = 4 ∨ i.opcode = 5))
  || (match lane with
      | some l => decide (8 ≤ (s.waitingAt l).length) || s.targetChanging l.target
      | none => false)
  || !s.flag (Regs.cqEnable (s.reg (Regs.ringCq r))) || decide (s.freeSlots (s.reg (Regs.ringCq r)) = 0)

/-- The gaffer mask that holds for an attention item when it is dispatched (R275). -/
def State.attMaskOf (s : State) (op : Nat) : Nat :=
  if op = 0x30 then s.reg Regs.attPrefillGaffers else if op = 0x31 then s.reg Regs.attDecodeGaffers else 0

/-- Accepts an item (R192): its slot is reserved, its records leave the ring. -/
def State.accept (s : State) (i : Item) (count : Nat) : State :=
  let r := i.ring
  let c := s.reg (Regs.ringCq r)
  let s := s.setComp c { s.comp c with reserved := (s.comp c).reserved + 1 }
  let s := (s.advanceHead r count).bump (Regs.ringItemsAccepted r)
  let s := s.setRing r { s.ring r with seq := ((s.ring r).seq + 1) % 2 ^ 32 }
  { s with disp := { s.disp with items := s.disp.items ++ [i] } }

/-- ITEM_DISPATCH (R192): the next item of a ring, if nothing stalls it; a cause found now is its status. -/
def execItemDispatch (r : Fin 64) (s : State) : Res :=
  let n := r.val
  if !s.flag (Regs.ringEnable n) || !s.pdOn 41 then .next s
  else
    let s0 := s.discardConts n (s.published n)
    let g := s0.group n
    if (s0.ring n).dropping || decide (g.ends = .incomplete) then .next s0
    else
      let v := g.s.judge n g
      let lane := match v with
        | .ok l => l
        | .error _ => none
      if s0.stalled n (g.readable && !isCont (g.recs.headD 0) && bit (g.recs.headD 0) 13) lane then .next s0
      else
        let fin := match v with
          | .ok _ => none
          | .error f => some f
        let i : Item :=
          { ring := n
            seq := (s0.ring n).seq
            recs := g.recs
            mask := s0.attMaskOf (bits (g.recs.headD 0) 7 0)
            readable := g.readable
            lane := lane
            finish := fin }
        .next ((g.s.bumpIf (decide (g.ends = .chainError)) (Regs.ringBadChain n)).accept i g.count)

/-- RING_FLUSH_DISCARD (R219): CONT records at the head that belong to a skipped item are dropped. -/
def execRingFlushDiscard (r : Fin 64) (s : State) : Res := .next (s.discardConts r.val (s.published r.val))

/-! ### Lanes (R193, R195, R196) -/

/-- The candidates of a lane: the oldest waiting item of each ring. -/
def State.candidates (s : State) (l : Lane) : List Item :=
  (s.waitingAt l).foldl (fun acc i => if acc.any (fun j => decide (j.ring = i.ring)) then acc else acc ++ [i]) []

/-- The ring that a lane last served in round robin. -/
def State.lastServed (s : State) (l : Lane) : Nat := ((s.disp.rrLast.find? (fun e => decide (e.1 = l))).map (·.2)).getD 63

def State.setLastServed (s : State) (l : Lane) (r : Nat) : State :=
  { s with disp := { s.disp with rrLast := (l, r) :: s.disp.rrLast.filter (fun e => !decide (e.1 = l)) } }

/-- The next item of a free lane (R195): the oldest of class 0, else round robin by ring number. -/
def State.nextFor (s : State) (l : Lane) : Option Item :=
  let cs := s.candidates l
  match cs.find? (fun i => decide (i.cls = 0)) with
  | some i => some i
  | none => (sortBy (fun i => (i.ring + 63 - s.lastServed l) % 64) cs).head?

/-- Whether a golden set runs on the lane's unit: it goes ahead of every waiting item but those of class 0 (R331). -/
def State.goldenHolds (s : State) (l : Lane) : Bool :=
  match l.target with
  | .unit u => (unitGaffers u).any (fun g => (kget s.keeper.golden g {}).running)
  | _ => false

/-- LANE_SELECT. -/
def execLaneSelect (l : Lane) (s : State) : Res :=
  if (s.running l).isSome || s.targetChanging l.target then .next s
  else match s.nextFor l with
    | none => .next s
    | some i =>
      if i.cls ≠ 0 ∧ s.goldenHolds l = true then .next s else
      let s := if i.cls = 0 then s else s.setLastServed l i.ring
      .next (s.setItem { i with phase := .executing })

/-- Whether an opcode has pre-emption points (R196). -/
def preemptible (op : Nat) : Bool := op = 0x08 || op = 0x09 || op = 0x10 || op = 0x30 || op = 0x31

/-- Whether the item in a lane yields at its next pre-emption point to a class-0 item (R196), which a lease refuses and which then
changes nothing (R197), or, with `forced`, to a Lamplighter work order. -/
def State.yields (s : State) (l : Lane) (forced : Bool) : Option Item :=
  match s.running l with
  | some i =>
    if i.readable && decide (2 ≤ i.cls) && preemptible i.opcode && i.finish.isNone && i.phase == .executing
        && (forced || (s.candidates l).any (fun j => decide (j.cls = 0) && decide (j.ring ≠ i.ring) && !s.leaseRunning)) then some i
    else none
  | none => none

/-- The item in a lane yields: it waits again, as the first of its ring. -/
def State.preempt (s : State) (l : Lane) (forced : Bool) : State :=
  match s.yields l forced with
  | some i => (s.setItem { i with phase := .held, preempted := true }).bump (Regs.ringPreemptions i.ring)
  | none => s

/-- Completes an item whose status stands (R194, R198): an abort leaves its queue item behind. -/
def State.completeItem (s : State) (r seq : Nat) : State :=
  match s.item? r seq with
  | some i => match i.finish with
    | some f => s.complete i f (decide (f.status ≠ 2 ∧ f.status ≠ 3))
    | none => s
  | none => s

/-! ### NOP, BARRIER, semaphores (R204–R206) -/

/-- The ring's item that the dispatcher itself is to execute, with its opcode. -/
def State.dispatcherItem (s : State) (r op : Nat) : Option Item :=
  s.disp.items.find? (fun i => decide (i.ring = r) && i.readable && i.lane.isNone && i.finish.isNone && decide (i.opcode = op))

/-- NOP. -/
def execNop (r : Fin 64) (s : State) : Res :=
  match s.dispatcherItem r.val 0 with
  | some i => .next (s.setFinish i (if s.leaseRefuses i then finConflict 3 0 else finDone 0))
  | none => .next s

/-- BARRIER. -/
def execBarrier (r : Fin 64) (s : State) : Res :=
  match s.dispatcherItem r.val 2 with
  | some i =>
    if i.phase = .pendingWait then .next s
    else if s.leaseRefuses i then .next (s.setFinish i (finConflict 3 0))
    else if barrierMet s.disp.items i then .next (s.setFinish i (finDone 0))
    else .next (s.waitOrFail i 2)
  | none => .next s

/-- Semaphore k of gaffer g (R176). -/
def State.sem (s : State) (g k : Nat) : Nat := kget (s.gaffer g).sems k 0

def State.setSem (s : State) (g k v : Nat) : State := s.setGaffer g { s.gaffer g with sems := kset (s.gaffer g).sems k v }

/-- Whether a wait's condition holds (R205). -/
def semMet (value want : Nat) (equal : Bool) : Bool := if equal then decide (value = want) else decide (want ≤ value)

/-- Tests gaffer g's pending waits in the order in which they registered, again after each that is satisfied (R206):
`n` bounds the waits. -/
def State.testWaits (s : State) (g : Nat) : Nat → State
  | 0 => s
  | n + 1 =>
    let v := s.gaffer g
    match v.waits.find? (fun w => semMet (s.sem g w.sem) w.value w.equal) with
    | none => s
    | some w =>
      let s := s.setGaffer g { v with waits := v.waits.filter (· != w) }
      let s := if w.acquire then s.setSem g w.sem (s.sem g w.sem - w.value) else s
      let s := match s.item? w.ring w.seq with
        | some i => s.setFinish i (finDone 0)
        | none => s
      s.testWaits g n

def State.semChanged (s : State) (g : Nat) : State := s.testWaits g (s.gaffer g).waits.length

/-- A signal reaches a servitor plot (R205, R206): it adds with saturation or sets, then the waits are tested. -/
def State.signalSem (s : State) (g k v : Nat) (sets : Bool) : State :=
  let sum := s.sem g k + v
  let s := s.bumpIf (!sets && decide (2 ^ 32 ≤ sum)) (Regs.semSaturations g)
  (s.setSem g k (if sets then v else min sum (2 ^ 32 - 1))).semChanged g

/-- SEM_SIGNAL (R205, R206). -/
def execSemSignal (r : Fin 64) (s : State) : Res :=
  match s.dispatcherItem r.val 4 with
  | none => .next s
  | some i =>
    let g := i.field 39 32
    let k := i.field 44 40
    if 31 < g then .next (s.setFinish i (finBad 6 0))
    else if s.fenced g || !s.pdOn (gafferPd g) then
      .next ((s.logAbsent (some r.val) 0 (gafferStop g) g).setFinish i (finBad 3 (s.targetCode i)))
    else if s.leaseRefuses i then .next (s.setFinish i (finConflict 3 0))
    else
      .next ((s.setFinish i (finDone 0)).signalSem g k (i.field 95 64) (bit i.rec0 48))

/-- Offers a wait to its servitor plot: satisfied, registered in one of 64 places, or left to be offered again (R206). -/
def State.offerWait (s : State) (i : Item) : State :=
  let g := i.field 39 32
  let k := i.field 44 40
  let v := i.field 95 64
  let equal := bit i.rec0 48
  let acquire := bit i.rec0 49
  if semMet (s.sem g k) v equal then
    let s := if acquire then s.setSem g k (s.sem g k - v) else s
    (s.setFinish i (finDone 0)).semChanged g
  else if i.timeout = 0 then s.setFinish i (finTimeout 2 0)
  else
    let s := s.startWait i
    if 64 ≤ (s.gaffer g).waits.length then s
    else
      let w : SemWait := ⟨i.ring, i.seq, k, equal, acquire, v⟩
      s.setGaffer g { s.gaffer g with waits := (s.gaffer g).waits ++ [w] }

/-- SEM_WAIT (R205, R206). -/
def execSemWait (r : Fin 64) (s : State) : Res :=
  match s.dispatcherItem r.val 5 with
  | none => .next s
  | some i =>
    let g := i.field 39 32
    if i.phase = .pendingWait then .next s
    else if 31 < g ∨ (bit i.rec0 48 = true ∧ bit i.rec0 49 = true) then .next (s.setFinish i (finBad 6 0))
    else if s.fenced g then .next (s.setFinish i (finFence g))
    else if !s.pdOn (gafferPd g) then
      .next ((s.logAbsent (some r.val) 0 (gafferStop g) g).setFinish i (finBad 3 (s.targetCode i)))
    else if s.leaseRefuses i then .next (s.setFinish i (finConflict 3 0))
    else .next (s.offerWait i)

/-- SEM_WAIT_REOFFER (R206): a wait that found no place is offered again. -/
def execSemWaitReoffer (r : Fin 64) (s : State) : Res :=
  match s.dispatcherItem r.val 5 with
  | none => .next s
  | some i =>
    let g := i.field 39 32
    if i.phase = .pendingWait ∧ (s.gaffer g).waits.all (fun w => !decide (w.ring = i.ring ∧ w.seq = i.seq)) then
      .next (s.offerWait i)
    else .next s



/-! ### Coalescing and messages (R395) -/

/-- CQ_COALESCE_TIMEOUT. -/
def execCqCoalesceTimeout (c : Fin 64) (s : State) : Res :=
  let n := c.val
  match (s.comp n).firstAt with
  | some t =>
    if s.reg (Regs.cqVector n) < 64 ∧ s.reg (Regs.cqCoalesceTime n) ≠ 0 ∧ t + s.reg (Regs.cqCoalesceTime n) * 1000 ≤ s.now then
      .next (s.coverRecords n)
    else .next s
  | none => .next s

/-- Clears the mask of a vector (R395): its pending message is posted. -/
def State.unmask (s : State) (v : Nat) : State :=
  let was := decide (v ∈ s.link.pendingMsix)
  let open_ := if v ∈ s.link.unmasked then s.link.unmasked else v :: s.link.unmasked
  let s := { s with link := { s.link with unmasked := open_, pendingMsix := s.link.pendingMsix.filter (· != v) } }
  if was then s.msix v else s

/-- MSIX_UNMASK, a write of the MSI-X table, as SQ_TAIL_WRITE. -/
def execMsixUnmask (v : Fin 64) (s : State) : Res := if s.pdOn 44 then .next (s.unmask v.val) else .next s

/-! ### Enables and configuration (R191, R390, R391, R396) -/

/-- RING_FLUSH. -/
def hookRingFlush (r : Nat) : Hook := actHook (fun s _ => .ok (s.flushRing r 1))

def execRingFlush (p : Path) (r : Fin 64) (v : Nat) (s : State) : Res :=
  .next (s.writeObject p (0x2940 + r.val) 2 (toLe 1 v) (hookRingFlush r.val))

/-- Whether a ring may lie at an extent (R390). -/
def State.ringPlace (s : State) (lo len : Nat) : Bool := inHostWindow lo len || s.inFreeDdr lo len

/-- RING_ENABLE. -/
def hookRingEnable (r : Nat) : Hook := fun s _ data =>
  if ofLe data = 0 then .ok (if s.flag (Regs.ringEnable r) then s.stopRing r else s)
  else if s.flag (Regs.ringEnable r) then .ok s
  else
    let lo := s.reg (Regs.ringBase r)
    let len := s.reg (Regs.ringSize r) * 64
    if len = 0 || !s.ringPlace lo len then .error outOfRange
    else match clash s.allClaims 6 r lo len with
      | some e => .error e
      | none =>
        let s := { s with link := { s.link with failedReads := s.link.failedReads.filter (fun f => decide (f.ring ≠ r)) } }
        .ok ((((s.setReg (Regs.ringEnable r) 1).setReg (Regs.ringHead r) 0).setReg (Regs.ringTail r) 0).setRing r {})

def execRingEnable (p : Path) (r : Fin 64) (v : Nat) (s : State) : Res :=
  .next (s.writeObject p (0x2940 + r.val) 0x0A (toLe 1 v) (hookRingEnable r.val))

/-- The lowest enabled submission ring that names completion ring c. -/
def State.ringNaming (s : State) (c : Nat) : Option Nat :=
  (List.range 64).find? (fun r => s.flag (Regs.ringEnable r) && decide (s.reg (Regs.ringCq r) = c))

/-- CQ_ENABLE. -/
def hookCqEnable (c : Nat) : Hook := fun s _ data =>
  if ofLe data = 0 then
    match s.ringNaming c with
    | some r => .error (conflictKind 6 r)
    | none => .ok (s.setReg (Regs.cqEnable c) 0)
  else if s.flag (Regs.cqEnable c) then .ok s
  else
    let lo := s.reg (Regs.cqBase c)
    let len := s.reg (Regs.cqSize c) * 16
    if len = 0 || !s.ringPlace lo len then .error outOfRange
    else match clash s.allClaims 7 c lo len with
      | some e => .error e
      | none =>
        .ok (((((s.setReg (Regs.cqEnable c) 1).setReg (Regs.cqHead c) 0).setReg (Regs.cqTail c) 0).setReg (Regs.cqPhase c) 0).setComp c {})

def execCqEnable (p : Path) (c : Fin 64) (v : Nat) (s : State) : Res :=
  .next (s.writeObject p (0x29C0 + c.val) 1 (toLe 1 v) (hookCqEnable c.val))

/-- RING_TARGET (R191). -/
def hookRingTarget (r : Nat) : Hook := fun s _ data =>
  if s.inflight r ≠ 0 then .error conflictPlain else .ok (s.setReg (Regs.ringTarget r) (ofLe data))

/-- A configuration object that may not change while an enable is set. -/
def heldHook (enable : Reg) (h : Hook) : Hook := fun s p data => if s.flag enable then .error conflictPlain else h s p data

/-- Stores a scalar. -/
def regHook (r : Reg) : Hook := fun s _ data => .ok (s.setReg r (ofLe data))

/-- RING_SIZE and CQ_SIZE: a power of two, refused while the ring is enabled. -/
def powerHook (enable r : Reg) : Hook := rangeFirst (fun _ data => isPow2 (ofLe data)) (heldHook enable (regHook r))

end Sys2Proof.Machine
end

