-- ==== Sys2Proof/Machine/Copy.lean ====
section
/-! DEFINITION. The copy lane (R207, R214–R218, R370): COPY, FILL, QUEUE_PUSH, QUEUE_POP, and the enables, flushes and
configuration of internal queues. -/

namespace Sys2Proof.Machine

/-! ### Moving data with its poison (R370) -/

/-- Codes of one row of a tensor. -/
def State.rowCodes (s : State) (t : Tensor) (outer : List Nat) : List Nat :=
  (List.range (t.size 0)).map (fun k => s.elem t (k :: outer))

/-- Marks the elements of a destination whose source elements carry poison. -/
def State.poisonElems (s : State) (src dst : Tensor) (bad : List (Nat × Nat)) : State :=
  if bad = [] then s
  else (src.indices).foldl (fun s idx =>
    if src.badElem bad idx then
      let (a, b) := dst.place idx
      s.pokePoison a.toNat (dst.width b)
    else s) s

/-- How a copying unit ends: UNCORRECTED_ERROR when it met poison. -/
def copyEnd (entry : Option Nat) (aux : Nat) : Finish :=
  match entry with
  | some e => finUncorrected e
  | none => finDone aux

/-- Copies n bytes, poison with them. -/
def State.copyBytes (s : State) (i : Item) (rd wr : Agent) (src dst n : Nat) : State × Finish :=
  let t := s.touch i rd [((src : Int), n)]
  match t.gone with
  | some f => (t.s, f)
  | none =>
    match t.s.landing i wr [((dst : Int), n)] with
    | (s1, some f) => (s1, f)
    | (s1, none) =>
      let s2 := s1.put wr dst (s1.peek src n)
      let s3 := t.bad.foldl (fun s g =>
        let lo := max g.1 src
        let hi := min (g.1 + g.2) (src + n)
        if lo < hi then s.pokePoison (dst + (lo - src)) (hi - lo) else s) s2
      (s3, copyEnd t.entry (auxBytes n))

/-! ### COPY and FILL (R207) -/

/-- The checks of COPY. -/
def checkCopy (ag : Agent) (s : State) (i : Item) : Checked (Tensor × Tensor) :=
  match s.descriptors i ag [⟨1, i.field 103 64, false⟩, ⟨2, i.field 143 104, true⟩] with
  | (s, .ok [a, b]) =>
    if a.fmt ≠ b.fmt ∨ a.sizes ≠ b.sizes ∨ a.layout ≠ 0 ∨ b.layout ≠ 0 ∨ a.meets b then (s, .error (finBad 8 2))
    else (s, .ok (a, b))
  | (s, .error f) => (s, .error f)
  | (s, .ok _) => (s, .error (finBad 6 0))

/-- The effect of COPY. -/
def State.copyTensor (s : State) (ag : Agent) (i : Item) (p : Tensor × Tensor) : State :=
  let t := s.touch i ag p.1.spans
  match t.gone with
  | some f => t.s.setFinish i f
  | none =>
    match t.s.landing i ag p.2.spans with
    | (s1, some f) => s1.setFinish i f
    | (s1, none) =>
      let s2 := p.1.rows.foldl (fun s r => s.setRun ag p.2 r 0 (s1.rowCodes p.1 r)) s1
      (s2.poisonElems p.1 p.2 t.bad).setFinish i (copyEnd t.entry (auxBytes p.2.bytes))

/-- COPY. -/
def execCopy (u : CUnit) (s : State) : Res :=
  .next (s.runItem ⟨.unit u, .copy⟩ 0x08 (checkCopy (.servitor u)) (fun s i p => s.copyTensor (.servitor u) i p))

/-- The checks of FILL. -/
def checkFill (ag : Agent) (s : State) (i : Item) : Checked Tensor := s.descriptor i ag (i.field 143 104) 1 true

/-- The effect of FILL. -/
def State.fillTensor (s : State) (ag : Agent) (i : Item) (t : Tensor) : State :=
  match s.landing i ag t.spans with
  | (s1, some f) => s1.setFinish i f
  | (s1, none) =>
    (t.rows.foldl (fun s r => s.setRun ag t r 0 (List.replicate (t.size 0) t.fill)) s1).setFinish i (finDone (auxBytes t.bytes))

/-- FILL. -/
def execFill (u : CUnit) (s : State) : Res :=
  .next (s.runItem ⟨.unit u, .copy⟩ 0x09 (checkFill (.servitor u)) (fun s i t => s.fillTensor (.servitor u) i t))

/-! ### Queues (R97, R214–R217) -/

def Item.queue (i : Item) : Nat := i.field 39 32
def Item.qAddr (i : Item) : Nat := i.field 103 64
def Item.qLength (i : Item) : Nat := i.field 159 128

/-- The owner of a queue (R97, R215): the Dziosh driver's, a launch queue's, an internal queue's. -/
def State.queueOwner (s : State) (q : Nat) : Nat :=
  if q < 56 then 1 else if q < 72 then s.reg (Regs.lqOwner (q - 56)) else s.reg (Regs.iqOwner (q - 128))

/-- An earlier item that waits for the same operation on the same queue goes first (R71, R217). -/
def State.queueTurn (s : State) (i : Item) : Bool :=
  !(s.disp.items.takeWhile (fun j => !j.isOf i.ring i.seq)).any (fun j => j.readable && j.phase == .pendingWait
      && j.finish.isNone && decide (j.opcode = i.opcode) && decide (j.queue = i.queue))

/-- ADDR of a push or pop: a multiple of 64, reachable, and all of its bytes in one range (R201 detail 5 and 7). -/
def State.checkAddr (s : State) (i : Item) (ag : Agent) (n : Nat) (write : Bool) : Checked Unit :=
  if i.qAddr % 64 ≠ 0 ∨ s.fixedAnswer ag i.qAddr 1 write = .absent then (s, .error (finBad 5 1))
  else match s.checkSpans i ag [((i.qAddr : Int), n)] write 1 with
    | (s, some f) => (s, .error f)
    | (s, none) => (s, .ok ())

/-- Whether a queue answers: an internal queue enabled (R218), a Lodge queue with the Lodge on (R18). -/
def State.queueUp (s : State) (q : Nat) : Bool :=
  if q < 72 then s.pdOn 40 else s.flag (Regs.iqEnable (q - 128))

/-- The checks of QUEUE_PUSH. -/
def checkPush (ag : Agent) (s : State) (i : Item) : Checked Unit :=
  let q := i.queue
  let n := i.qLength
  if !((decide (52 ≤ q) && decide (q ≤ 71)) || (decide (128 ≤ q) && decide (q ≤ 159))) then (s, .error (finBad 6 0))
  else if !s.queueUp q then (s, .error (finBad 3 (s.targetCode i)))
  else match s.checkAddr i ag n false with
    | (s, .error f) => (s, .error f)
    | (s, .ok _) =>
      let bad := if q < 72 then decide (n < 92) || decide (9244 < n)
        else decide (n < 64) || decide (s.reg (Regs.iqSlotSize (q - 128)) < n)
      if bad then (s, .error (finBad 10 0))
      else if s.queueOwner q ≠ s.ringOwner then (s, .error (finConflict 1 (s.queueOwner q)))
      else (s, .ok ())

/-- A push waits: for its turn, or for a free slot, which is counted once (R217). -/
def State.pushWaits (s : State) (i : Item) (full : Bool) : State :=
  let q := i.queue
  let count := full && !i.counted && decide (72 ≤ q)
  let i := if count then { i with counted := true } else i
  ((s.setItem i).bumpIf count (Regs.iqFullWaits (q - 128))).waitOrFail i 1

/-- A push into a transmit or launch queue (R97, R98). -/
def State.pushFrame (s : State) (ag : Agent) (i : Item) : State :=
  let q := i.queue
  if (kfind s.lodge.pushes q).isSome || !s.queueTurn i || decide (32 ≤ s.txUsed q) then s.pushWaits i false
  else
    let t := s.touch i ag [((i.qAddr : Int), i.qLength)]
    match t.gone, t.entry with
    | some f, _ => t.s.setFinish i f
    | none, some e => t.s.setFinish i (finUncorrected e)
    | none, none =>
      let h := ofLe (t.s.peek i.qAddr 32)
      if 56 ≤ q ∧ 999999999 < bits h 93 64 then t.s.setFinish i (finBad 6 0)
      else if bits h 143 128 + 32 ≠ i.qLength then t.s.setFinish i (finBad 8 0)
      else
        let f : LaunchFrame :=
          { time := t128Time h
            stamped := bit h 144
            data := t.s.peek (i.qAddr + 32) (bits h 143 128) }
        let p : TxPush := ⟨i.ring, i.seq, f⟩
        ({ t.s with lodge := { t.s.lodge with pushes := kset t.s.lodge.pushes q p } }).setFinish i (finDone 0)

/-- A push into an internal queue (R217). -/
def State.pushSlot (s : State) (ag : Agent) (i : Item) : State :=
  let k := i.queue - 128
  let v := s.iq k
  let full := decide (s.reg (Regs.iqSlotCount k) ≤ v.used)
  if v.pushing.isSome || !s.queueTurn i || full then s.pushWaits i (full && v.pushing.isNone)
  else
    let a := s.reg (Regs.iqBase k) + v.next * s.reg (Regs.iqSlotSize k)
    let (s1, f) := s.copyBytes i ag ag i.qAddr a i.qLength
    if f.status ≠ 0 ∧ f.status ≠ 4 then s1.setFinish i f
    else
      let b : IqBusy := ⟨i.ring, i.seq, ⟨v.next, i.qLength⟩⟩
      let next := (v.next + 1) % s.reg (Regs.iqSlotCount k)
      let f := if f.status = 0 then finDone 0 else f
      (s1.setIq k { v with next := next, pushing := some b }).setFinish i f

/-- QUEUE_PUSH: into a transmit, launch or internal queue, waiting for a free slot if needed. -/
def execQueuePush (l : Lane) (s : State) : Res :=
  .next (s.runItem l 0x0C (checkPush (laneAgent l))
    (fun s i _ => if i.queue < 72 then s.pushFrame (laneAgent l) i else s.pushSlot (laneAgent l) i))

/-- The slot size a pop must have room for (R215). -/
def State.popSlot (s : State) (q : Nat) : Nat := if q < 52 then s.ingestSlot q else s.reg (Regs.iqSlotSize (q - 128))

/-- Whether a running PG_BIN holds an ingest queue (R132): the Pergola's own hold, of the enabled streams of its STREAMS. -/
def State.pergolaHolds (s : State) (q : Nat) : Bool :=
  match s.running ⟨.pergola, .table⟩ with
  | some b => b.readable && decide (b.opcode = 0x41) && decide (24 ≤ q) && decide (q < 36) && bit (b.field 43 32) (q - 24)
      && s.flag (Regs.streamEnable q)
  | none => false

/-- The pops that wait on a queue when a PG_BIN takes hold of it complete with CONFLICT, naming the Pergola (R132). -/
def State.popsRefused (s : State) (q : Nat) : State :=
  if s.pergolaHolds q then
    { s with disp := { s.disp with items := s.disp.items.map (fun i =>
        if i.readable && i.phase == .pendingWait && i.finish.isNone && decide (i.opcode = 0x0D) && decide (i.queue = q) then
          { i with finish := some (finConflict 2 8) } else i) } }
  else s

/-- The checks of QUEUE_POP. -/
def checkPop (ag : Agent) (s : State) (i : Item) : Checked Unit :=
  let q := i.queue
  if !(decide (q ≤ 51) || (decide (128 ≤ q) && decide (q ≤ 159))) then (s, .error (finBad 6 0))
  else if !s.queueUp q then (s, .error (finBad 3 (s.targetCode i)))
  else match s.checkAddr i ag (s.popSlot q) true with
    | (s, .error f) => (s, .error f)
    | (s, .ok _) =>
      if i.qLength < s.popSlot q then (s, .error (finBad 10 0))
      else if s.queueOwner q ≠ s.ringOwner then (s, .error (finConflict 1 (s.queueOwner q)))
      else if s.pergolaHolds q then (s, .error (finConflict 2 8))
      else (s, .ok ())

/-- A pop from an ingest queue (R71): the oldest visible item is held and its whole slot copied. -/
def State.popIngest (s : State) (ag : Agent) (i : Item) : State :=
  let q := i.queue
  let v := s.ingest q
  match v.items with
  | [] => s.waitOrFail i 1
  | it :: rest =>
    if v.pop.isSome || !s.queueTurn i then s.waitOrFail i 1
    else
      let n := s.ingestSlot q
      let p : IngestPop := ⟨i.ring, i.seq, it⟩
      let s1 := s.setIngest q { v with items := rest, pop := some p }
      let (s2, f) := s1.copyBytes i .lodge ag (s.ingestBase q + it.slot * n) i.qAddr n
      s2.setFinish i f

/-- A pop from an internal queue (R217). -/
def State.popIq (s : State) (ag : Agent) (i : Item) : State :=
  let k := i.queue - 128
  let v := s.iq k
  match v.items with
  | [] => s.waitOrFail i 1
  | it :: rest =>
    if v.popping.isSome || !s.queueTurn i then s.waitOrFail i 1
    else
      let b : IqBusy := ⟨i.ring, i.seq, it⟩
      let s1 := s.setIq k { v with items := rest, popping := some b }
      let (s2, f) := s1.copyBytes i ag ag (s.reg (Regs.iqBase k) + it.slot * s.reg (Regs.iqSlotSize k)) i.qAddr it.len
      s2.setFinish i f

/-- QUEUE_POP. -/
def execQueuePop (l : Lane) (s : State) : Res :=
  .next (s.runItem l 0x0D (checkPop (laneAgent l))
    (fun s i _ => if i.queue < 52 then s.popIngest (laneAgent l) i else s.popIq (laneAgent l) i))

/-! ### The end of a wait (R200, R204, R206, R215) -/

/-- The opcodes whose record has a TIMEOUT; a wait of the KV manager has none (R257, R295). -/
def hasTimeout (op : Nat) : Bool := decide (op = 0x02) || decide (op = 0x05) || decide (op = 0x0C) || decide (op = 0x0D)

/-- Whether a push or pop that waits could go on now. -/
def State.queueReady (s : State) (i : Item) : Bool :=
  let q := i.queue
  let k := q - 128
  s.queueTurn i && (if i.opcode = 0x0C then
      (if q < 72 then (kfind s.lodge.pushes q).isNone && decide (s.txUsed q < 32)
       else (s.iq k).pushing.isNone && decide ((s.iq k).used < s.reg (Regs.iqSlotCount k)))
    else if i.opcode = 0x0D then
      (if q < 52 then decide ((s.ingest q).items ≠ []) && (s.ingest q).pop.isNone
       else decide ((s.iq k).items ≠ []) && (s.iq k).popping.isNone)
    else false)

/-- The wait of SEM_WAIT is met in a servitor plot that has not registered it. -/
def State.semReady (s : State) (i : Item) : Bool :=
  decide (i.opcode = 0x05) && semMet (s.sem (i.field 39 32) (i.field 44 40)) (i.field 95 64) (bit i.rec0 48)

/-- WAIT_TIMEOUT: the ring's first wait whose TIMEOUT has expired; one whose condition is met by then succeeds (R200). -/
def execWaitTimeout (r : Fin 64) (s : State) : Res :=
  match s.disp.items.find? (fun i => decide (i.ring = r.val) && i.readable && hasTimeout i.opcode && i.phase == .pendingWait && i.finish.isNone
      && decide (i.timeout ≠ 0xFFFFFFFF) && decide (i.since + i.timeout * 1000 ≤ s.now)) with
  | some i =>
    if s.queueReady i then .next s
    else if s.semReady i then .next (s.offerWait i)
    else
      let detail := if i.opcode = 0x0C ∨ i.opcode = 0x0D then 1 else 2
      .next ((s.dropWait i.ring i.seq).setFinish i (finTimeout detail (s.waited i)))
  | none => .next s

/-! ### Internal queue objects (R216, R218) -/

/-- IQ_FLUSH. -/
def hookIqFlush (k : Nat) : Hook := ownedHook (Regs.iqOwner k) (actHook (fun s _ => .ok (s.flushQueue (128 + k))))

def execIqFlush (p : Path) (q : Fin 32) (v : Nat) (s : State) : Res :=
  .next (s.writeObject p (0x2980 + q.val) 6 (toLe 1 v) (hookIqFlush q.val))

/-- Whether an internal queue ring may lie at an extent: one scratchpad window, or DDR5 outside the drive region. -/
def State.iqPlace (s : State) (lo len : Nat) : Bool :=
  s.inFreeDdr lo len || inOne lo len (fun r => match r with
    | .spad _ => true
    | .chair _ => true
    | _ => false)

/-- The ring that internal queue k's objects describe: first byte and length. -/
def State.iqExtent (s : State) (k : Nat) : Nat × Nat :=
  (s.reg (Regs.iqBase k), s.reg (Regs.iqSlotSize k) * s.reg (Regs.iqSlotCount k))

/-- Whether enabling internal queue k is in range. -/
def State.iqReady (s : State) (k : Nat) : Bool :=
  let (lo, len) := s.iqExtent k
  s.flag (Regs.iqEnable k) || (len != 0 && s.iqPlace lo len)

/-- IQ_ENABLE. -/
def hookIqEnable (k : Nat) : Hook := rangeFirst (fun s data => ofLe data = 0 || s.iqReady k) (ownedHook (Regs.iqOwner k) (fun s _ data =>
  if ofLe data = 0 then .ok (if s.flag (Regs.iqEnable k) then (s.flushQueue (128 + k)).setReg (Regs.iqEnable k) 0 else s)
  else if s.flag (Regs.iqEnable k) then .ok s
  else
    let (lo, len) := s.iqExtent k
    match clash (s.iqClaims ++ s.lodgeClaims) 13 (0x200 + 128 + k) lo len with
    | some e => .error e
    | none => .ok ((s.setReg (Regs.iqEnable k) 1).setIq k {})))

def execIqEnable (p : Path) (q : Fin 32) (v : Nat) (s : State) : Res :=
  .next (s.writeObject p (0x2980 + q.val) 2 (toLe 1 v) (hookIqEnable q.val))

/-- A geometry object of an internal queue: out of range once the ring it makes breaks R216, and refused while enabled. -/
def hookIqConfig (k : Nat) (r : Reg) : Hook := rangeFirst (fun s data =>
    let (lo, len) := (s.setReg r (ofLe data)).iqExtent k
    decide (len = 0) || decide (lo = 0) || s.iqPlace lo len)
  (ownedHook (Regs.iqOwner k) (heldHook (Regs.iqEnable k) (regHook r)))

/-- LQ_FLUSH (R56, R57): a frame being enqueued is discarded with the rest. -/
def hookLqFlush (n : Nat) : Hook := ownedHook (Regs.lqOwner n) (actHook (fun s _ => .ok (s.flushQueue (56 + n))))

def execLqFlush (p : Path) (q : Fin 16) (v : Nat) (s : State) : Res :=
  .next (s.writeObject p (0x2220 + q.val) 7 (toLe 1 v) (hookLqFlush q.val))

/-- ETH_TX_FLUSH (R98). -/
def hookEthTxFlush (n : Nat) : Hook := actHook (fun s _ => .ok (s.flushQueue (52 + n)))

def execEthTxFlush (p : Path) (port : Fin 4) (v : Nat) (s : State) : Res :=
  .next (s.writeObject p (0x2338 + port.val) 0x0D (toLe 1 v) (hookEthTxFlush port.val))

end Sys2Proof.Machine
end

