-- ==== Sys2Proof/Machine/Kv.lean ====
section
/-! DEFINITION. The KV manager (R245–R253, R259, R260, R277, R278): pools, sequences, page tables, translations, KV_PAGE_MAP and the
objects that set pools up. -/

namespace Sys2Proof.Machine

/-! ### Page-table entries (R248, R249) -/

/-- A page-table entry: STATE (0 EMPTY, 1 OPEN, 2 SEALED, 3 SWAPPED), SHARED, SLICES, FRAME. -/
structure Pte where
  st : Nat := 0
  shared : Bool := false
  slices : Nat := 0
  frame : Nat := 0
  deriving DecidableEq, Repr

def Pte.pack (e : Pte) : Nat :=
  e.st % 8 + (if e.shared then 8 else 0) + (e.slices % 2 ^ 13) <<< 4 + (e.frame % 2 ^ 32) <<< 32

def Pte.unpack (x : Nat) : Pte := { st := bits x 2 0, shared := bit x 3, slices := bits x 16 4, frame := bits x 63 32 }

/-- Whether a page holds a frame. -/
def Pte.mapped (e : Pte) : Bool := e.st = 1 || e.st = 2

/-- Entry i of a sequence's directory (R248, R251). -/
def dirAt (q i : Nat) : Nat := 0xF300040000 + (q * 64 + i) * 4

def State.dir (s : State) (q i : Nat) : Nat := ofLe (s.peek (dirAt q i) 4)

def State.setDir (s : State) (q i x : Nat) : State := s.poke (dirAt q i) (toLe 4 x)

/-- The level-2 table of a valid directory entry. -/
def State.l2At (s : State) (table : Nat) : Nat := s.reg Regs.kvL2Base + table * 2048

/-- Where a page's entry lies, none under an invalid directory entry. -/
def State.pteAt (s : State) (q b : Nat) : Option Nat :=
  let d := s.dir q (b / 256)
  if bit d 16 then some (s.l2At (d % 65536) + 8 * (b % 256)) else none

/-- A page's entry; EMPTY under an invalid directory entry. -/
def State.pte (s : State) (q b : Nat) : Pte :=
  match s.pteAt q b with
  | some a => Pte.unpack (ofLe (s.peek a 8))
  | none => {}

/-- Writes a page's entry under a valid directory entry. -/
def State.setPte (s : State) (q b : Nat) (e : Pte) : State :=
  match s.pteAt q b with
  | some a => s.poke a (toLe 8 e.pack)
  | none => s

/-- The choice among n things that the spec leaves open: a free value below n (log 2). -/
def State.pick (s : State) (n : Nat) : State × Nat :=
  let (x, s) := s.draw
  (s, x % n)

/-- Takes some free level-2 table for a directory entry and leaves every entry of it EMPTY (R248). -/
def State.takeTable (s : State) (q i : Nat) : Option State :=
  if s.kv.l2Free = [] then none
  else
    let (s, k) := s.pick s.kv.l2Free.length
    let t := s.kv.l2Free.getD k 0
    let s := { s with kv := { s.kv with l2Free := removeAt s.kv.l2Free k } }
    some ((s.poke (s.l2At t) (List.replicate 2048 0)).setDir q i (t + 65536))

/-- The state with a level-2 table under a page's directory entry, none when no table is left. -/
def State.withTable (s : State) (q b : Nat) : Option State :=
  if bit (s.dir q (b / 256)) 16 then some s else s.takeTable q (b / 256)

/-- Returns a level-2 table once every entry in it is EMPTY (R248). -/
def State.returnTable (s : State) (q i : Nat) : State :=
  let d := s.dir q i
  if bit d 16 && (List.range 256).all (fun k => decide ((s.pte q (256 * i + k)).st = 0)) then
    let s := s.setDir q i 0
    { s with kv := { s.kv with l2Free := (d % 65536) :: s.kv.l2Free } }
  else s

/-- The pages of [lo, hi) that are not EMPTY, ascending. -/
def State.usedPages (s : State) (q lo hi : Nat) : List Nat :=
  (List.range 64).flatMap (fun i =>
    if bit (s.dir q i) 16 then
      ((List.range 256).map (fun k => 256 * i + k)).filter (fun b => decide (lo ≤ b) && decide (b < hi) && decide ((s.pte q b).st ≠ 0))
    else [])

/-! ### Sequence entries (R252, R304) -/

def seqPool (e : Nat) : Nat := bits e 2 1

/-- The counts of a sequence entry after a page goes from one state to another. -/
def recount (e before after_ : Nat) : Nat :=
  let up (x hi lo : Nat) (minus plus : Bool) : Nat :=
    setBits x hi lo (bits x hi lo + (if plus then 1 else 0) - (if minus then 1 else 0))
  let e := up e 95 64 (decide (before ≠ 0)) (decide (after_ ≠ 0))
  let e := up e 127 96 (decide (before = 2)) (decide (after_ = 2))
  up e 159 128 (decide (before = 3)) (decide (after_ = 3))

/-- Changes a page's entry and the sequence's counts with it. -/
def State.changePage (s : State) (q b : Nat) (e : Pte) : State :=
  let old := s.pte q b
  (s.setPte q b e).setSeqEntry q (recount (s.seqEntry q) old.st e.st)

/-- Counts or stops counting a page in SHARED_MAPPED (R304). -/
def State.markShared (s : State) (q b : Nat) (on : Bool) : State :=
  let k := q * 16384 + b
  let l := s.kv.shared
  let l' := if on then (if k ∈ l then l else k :: l) else l.filter (· != k)
  let e := s.seqEntry q
  ({ s with kv := { s.kv with shared := l' } }).setSeqEntry q (setBits e 191 160 (bits e 191 160 + l'.length - l.length))

/-- A page becomes EMPTY and drops its frame; an emptied level-2 table returns (R250, R282). -/
def State.releasePage (s : State) (q b : Nat) : State :=
  let p := seqPool (s.seqEntry q)
  let e := s.pte q b
  let s := ((s.changePage q b {}).markShared q b false).returnTable q (b / 256)
  if e.mapped then s.dropRef p e.frame else s

/-- A page OPEN with slice count n: SEALED once every slice has come (R250). -/
def State.addSlice (s : State) (q b : Nat) : State :=
  let p := seqPool (s.seqEntry q)
  let e := s.pte q b
  let e' := { e with slices := e.slices + 1 }
  if s.poolSlices p ≤ e'.slices then (s.changePage q b { e' with st := 2 }).bump Regs.kvSealed else s.changePage q b e'

/-! ### Reads of the tables, and poison in them (R370) -/

/-- A read of n bytes of a table: poison stops the KV manager; a block that gives no answer is detail 3. -/
def State.readTable (s : State) (i : Item) (a n : Nat) : State × Option Finish :=
  let t := s.touch i .kvm [((a : Int), n)]
  match t.gone, t.entry with
  | some f, _ => (t.s, some f)
  | none, some e => (t.s.kvDamaged t.entry, some (finUncorrected e))
  | none, none => (t.s, none)

/-- Reads several ranges; the first cause decides. -/
def State.readTables (s : State) (i : Item) : List (Nat × Nat) → State × Option Finish
  | [] => (s, none)
  | r :: rs => match s.readTable i r.1 r.2 with
    | (s, some f) => (s, some f)
    | (s, none) => s.readTables i rs

/-- The ranges that a look at pages [lo, hi) reads: the sequence entry, the directory entries, the level-2 lines. -/
def State.tableRanges (s : State) (q lo hi : Nat) : List (Nat × Nat) :=
  (seqAt q, 64) :: (List.range 64).flatMap (fun i =>
    let a := max lo (256 * i)
    let b := min hi (256 * i + 256)
    if a < b then
      (dirAt q i, 4) :: (match s.pteAt q a with
        | some x => [(x / 64 * 64, roundUp (x % 64 + 8 * (b - a)) 64)]
        | none => [])
    else [])

/-- What a stopped KV manager answers (R370), then what the reads of pages [lo, hi) of a sequence's tables meet. -/
def State.kvLook (s : State) (i : Item) (q lo hi : Nat) : State × Option Finish :=
  match s.kv.stopped with
  | some e => (s, some (finUncorrected e))
  | none => s.readTables i (s.tableRanges q lo hi)

/-- Lines of the translation cache: 512 KiB of 64-byte lines (R251). -/
def cacheLines : Nat := 8192

/-- A miss of the translation cache (R253): it reads the directory entry and one line of the level-2 table, is counted, and takes the
place of some line. -/
def State.translateMiss (s : State) (i : Item) (q b : Nat) : State × Except Finish Pte :=
  match s.readTable i (dirAt q (b / 256)) 4 with
  | (s, some f) => (s, .error f)
  | (s, none) =>
    match s.pteAt q b with
    | none => (s, .ok {})
    | some a =>
      match (s.bump Regs.kvXlateMisses).readTable i (a / 64 * 64) 64 with
      | (s, some f) => (s, .error f)
      | (s, none) =>
        let (s, rest) := if s.kv.cache.length < cacheLines then (s, s.kv.cache)
          else
            let (s, k) := s.pick cacheLines
            (s, removeAt s.kv.cache k)
        ({ s with kv := { s.kv with cache := (q * 2048 + b / 8) :: rest } }, .ok (s.pte q b))

/-- Translates a page (R253): a hit reads the translation cache alone, whose words its code guards (R359, R370). -/
def State.translate (s : State) (i : Item) (q b : Nat) : State × Except Finish Pte :=
  match s.kv.stopped with
  | some e => (s, .error (finUncorrected e))
  | none =>
    if s.kv.cache.contains (q * 2048 + b / 8) then
      match s.touchArray .translationCache with
      | (s, some e) => (s, .error (finUncorrected e))
      | (s, none) => (s, .ok (s.pte q b))
    else s.translateMiss i q b

/-- Translates pages one after another. -/
def State.translateAll (s : State) (i : Item) (q : Nat) : List Nat → State × Except Finish (List Pte)
  | [] => (s, .ok [])
  | b :: bs =>
    match s.translate i q b with
    | (s, .error f) => (s, .error f)
    | (s, .ok e) =>
      match s.translateAll i q bs with
      | (s, .error f) => (s, .error f)
      | (s, .ok es) => (s, .ok (e :: es))

/-! ### Sequences -/

/-- Whether a sequence is ACTIVE (R252). -/
def State.seqActive (s : State) (q : Nat) : Bool := bit (s.seqEntry q) 0

/-- Whether an item that waits for INFLIGHT 0 truncates, closes or swaps out a sequence (R260, R295). -/
def State.seqClosing (s : State) (q : Nat) : Bool :=
  s.disp.items.any (fun i => i.readable && i.phase == .pendingWait && i.finish.isNone && decide (i.field 75 64 = q)
    && (decide (i.opcode = 0x3B) || (decide (i.opcode = 0x34) && (decide (i.field 34 32 = 2) || decide (i.field 34 32 = 3)))))

/-- Sequences of a pool that are ACTIVE. -/
def State.activeIn (s : State) (p : Option Nat) : Nat :=
  ((List.range 4096).filter (fun q => s.seqActive q && (match p with
    | some k => decide (seqPool (s.seqEntry q) = k)
    | none => true))).length

/-! ### KV_PAGE_MAP (R259, R260) -/

def kvLane : Lane := ⟨.kv, .kv⟩

def Item.sequence (i : Item) : Nat := i.field 75 64
def Item.firstPage (i : Item) : Nat := i.field 127 96
def Item.pages (i : Item) : Nat := i.field 159 128
def Item.mapOp (i : Item) : Nat := i.field 34 32

/-- An item during whose run the tables stopped the KV manager completes with UNCORRECTED_ERROR (R370). -/
def State.kvEnds (s t : State) (i : Item) : State :=
  match s.kv.stopped, t.kv.stopped, t.item? i.ring i.seq with
  | none, some e, some j => t.setFinish j (finUncorrected e)
  | _, _, _ => t

/-- Runs the item of the KV lane with an opcode, and with an OP where the opcode has several. -/
def State.runKv {α : Type} (s : State) (op : Nat) (sub : Item → Bool) (check : State → Item → Checked α)
    (run : State → Item → α → State) : State :=
  match s.ready kvLane op with
  | some i => if sub i then s.kvEnds (s.runItem kvLane op check run) i else s
  | none => s

/-- Whether an item has an OP of KV_PAGE_MAP. -/
def mapIs (k : Nat) (i : Item) : Bool := decide (i.mapOp = k)

/-- A reserved OP of KV_PAGE_MAP is a field that is invalid (R201 detail 6). -/
def checkOpen (s : State) (i : Item) : Checked Unit :=
  let q := i.sequence
  match s.kvLook i q 0 0 with
  | (s, some f) => (s, .error f)
  | (s, none) =>
    if 5 ≤ i.mapOp then (s, .error (finBad 6 0))
    else if s.seqActive q || !s.flag (Regs.kvpEnable (i.field 77 76)) then (s, .error (finBad 6 0))
    else (s, .ok ())

/-- A sequence that opens or closes has no slice with a tag. -/
def State.forgetBlocks (s : State) (q : Nat) : State :=
  { s with kv := { s.kv with blocks := s.kv.blocks.filter (fun (e : Nat × Nat) => decide (e.1 / 2 ^ 14 ≠ q)) } }

/-- KV_OPEN; it is also what answers an item whose OP is reserved. -/
def execKvOpen (s : State) : Res :=
  .next (s.runKv 0x34 (fun i => decide (i.mapOp = 0) || decide (5 ≤ i.mapOp)) checkOpen (fun s i _ =>
    ((s.setSeqEntry i.sequence (1 + 2 * i.field 77 76)).forgetBlocks i.sequence).setFinish i (finDone 0)))

/-- The checks of an operation on the pages [lo, hi) of an ACTIVE sequence. -/
def checkMap (lo hi : Nat) (s : State) (i : Item) : Checked Unit :=
  match s.kvLook i i.sequence lo hi with
  | (s, some f) => (s, .error f)
  | (s, none) => if s.seqActive i.sequence then (s, .ok ()) else (s, .error (finBad 10 0))

/-- The range check of ALLOC and READ. -/
def checkRange (s : State) (i : Item) : Checked Unit :=
  if i.pages = 0 then (s, .error (finBad 6 0))
  else if 16384 < i.firstPage + i.pages then (s, .error (finBad 10 0))
  else checkMap i.firstPage (i.firstPage + i.pages) s i

/-- The pages of an item's range. -/
def Item.pageList (i : Item) : List Nat := (List.range i.pages).map (fun k => i.firstPage + k)

/-- Allocates one EMPTY page. -/
def State.allocPage (s : State) (q b : Nat) : State :=
  match s.withTable q b with
  | none => s
  | some s1 =>
    match s1.takeFrame (seqPool (s1.seqEntry q)) with
    | (s2, some f) => s2.changePage q b { st := 1, frame := f }
    | (s2, none) => s2

/-- KV_ALLOC: whole or not at all. -/
def State.allocPages (s : State) (i : Item) : State :=
  let q := i.sequence
  let p := seqPool (s.seqEntry q)
  let need := i.pageList.filter (fun b => decide ((s.pte q b).st = 0))
  let tables := ((need.map (fun b => b / 256)).eraseDups.filter (fun d => !bit (s.dir q d) 16)).length
  if (s.pool p).free < need.length ∨ s.kv.l2Free.length < tables then
    (s.bump (Regs.kvpAllocFails p)).setFinish i (finBad 10 0)
  else (need.foldl (fun s b => s.allocPage q b) s).setFinish i (finDone need.length)

def execKvAlloc (s : State) : Res := .next (s.runKv 0x34 (mapIs 1) checkRange (fun s i _ => s.allocPages i))

/-- Releases the pages from B on once INFLIGHT is 0, else waits (R260); `close` closes the sequence. -/
def State.releaseFrom (s : State) (i : Item) (lo : Nat) (close : Bool) : State :=
  let q := i.sequence
  if bits (s.seqEntry q) 63 32 ≠ 0 then s.startWait i
  else
    let bs := s.usedPages q lo 16384
    let s := bs.foldl (fun s b => s.releasePage q b) s
    (if close then (s.setSeqEntry q 0).forgetBlocks q else s).setFinish i (finDone bs.length)

def execKvTruncate (s : State) : Res :=
  .next (s.runKv 0x34 (mapIs 2) (fun s i => checkMap i.firstPage 16384 s i) (fun s i _ => s.releaseFrom i i.firstPage false))

def execKvClose (s : State) : Res :=
  .next (s.runKv 0x34 (mapIs 3) (checkMap 0 16384) (fun s i _ => s.releaseFrom i 0 true))

/-- The checks of a plain output or input address (R201 details 5 and 7). -/
def State.checkPlain (s : State) (i : Item) (ag : Agent) (a n field : Nat) (write : Bool) : Checked Unit :=
  if a % 64 ≠ 0 ∨ s.fixedAnswer ag a 1 write = .absent then (s, .error (finBad 5 field))
  else match s.checkSpans i ag [((a : Int), n)] write field with
    | (s, some f) => (s, .error f)
    | (s, none) => (s, .ok ())

def checkKvRead (s : State) (i : Item) : Checked Unit :=
  match checkRange s i with
  | (s, .error f) => (s, .error f)
  | (s, .ok _) => s.checkPlain i .kvm (i.field 199 160) (64 + 8 * i.pages) 1 true

/-- KV_READ: the sequence entry, then the entries of the range. -/
def execKvRead (s : State) : Res :=
  .next (s.runKv 0x34 (mapIs 4) checkKvRead (fun s i _ =>
    let q := i.sequence
    let a := i.field 199 160
    let bs := toLe 64 (s.seqEntry q) ++ i.pageList.flatMap (fun b => toLe 8 (s.pte q b).pack)
    match s.landing i .kvm [((a : Int), bs.length)] with
    | (s, some f) => s.setFinish i f
    | (s, none) => (s.put .kvm a bs).setFinish i (finDone (auxBytes bs.length))))

/-! ### Objects (R245, R247, R277, R278, R293, R303) -/

/-- The formats of R245. -/
def poolFormat (c : Nat) : Bool := [0x03, 0x04, 0x05, 0x06, 0x07, 0x08, 0x10, 0x11].contains c

/-- Whether the frames of pool p lie wholly in installed DDR5 outside the drive region, and its geometry keeps R245. -/
def State.poolPlace (s : State) (p : Nat) : Bool :=
  s.inFreeDdr (s.reg (Regs.kvpBase p)) (s.reg (Regs.kvpFrames p) * s.frameBytes p) && decide (s.poolSlices p ≤ 4096)

/-- Whether the frame table of pool p keeps the placement of R278. -/
def State.metaPlace (s : State) (p : Nat) : Bool :=
  s.inFreeDdr (s.reg (Regs.kvpMetaBase p)) (s.reg (Regs.kvpFrames p) * 16)

/-- Whether a swap area lies within the host window (R293). -/
def State.swapPlace (s : State) (p : Nat) : Bool :=
  decide (s.reg (Regs.kvpSwapBase p) = 0) || inHostWindow (s.reg (Regs.kvpSwapBase p)) (s.reg (Regs.kvpSwapSlots p) * s.swapSlotBytes p)

/-- Overlaps of a range of pool p, its frames or its frame table, with a structure of another owner. -/
def State.poolMeets (s : State) (number lo len : Nat) : Option Reply :=
  clash (s.poolClaims ++ s.tableClaims ++ s.l2Claims ++ s.lodgeClaims ++ s.iqClaims) 13 number lo len

/-- The frames of pool p lie over its own frame table. -/
def State.ownClash (s : State) (p : Nat) : Option Reply :=
  if overlaps (s.reg (Regs.kvpBase p)) (s.reg (Regs.kvpFrames p) * s.frameBytes p) (s.reg (Regs.kvpMetaBase p))
      (s.reg (Regs.kvpFrames p) * 16) then some (conflictKind 13 (0x100 + p)) else none

/-- Overlaps that R247 refuses for the frames of pool p. -/
def State.framesClash (s : State) (p : Nat) : Option Reply :=
  (s.poolMeets (0x100 + p) (s.reg (Regs.kvpBase p)) (s.reg (Regs.kvpFrames p) * s.frameBytes p)).orElse (fun _ => s.ownClash p)

/-- Overlaps that R278 refuses for the frame table of pool p. -/
def State.tableClash (s : State) (p : Nat) : Option Reply :=
  (s.poolMeets (0x120 + p) (s.reg (Regs.kvpMetaBase p)) (s.reg (Regs.kvpFrames p) * 16)).orElse (fun _ => s.ownClash p)

/-- Overlaps of either. -/
def State.poolClash (s : State) (p : Nat) : Option Reply := (s.framesClash p).orElse (fun _ => s.tableClash p)

/-- Writes the frame table of a pool: every frame FREE, linked in ascending order (R278). -/
def State.freeAll (s : State) (p : Nat) : State :=
  let n := s.reg (Regs.kvpFrames p)
  let s := (List.range n).foldl (fun s f => s.setFrame p f { link := if f + 1 < n then f + 1 else endOfList }) s
  s.setPool p { freeHead := if n = 0 then endOfList else 0, free := n }

/-- KVP_ENABLE. -/
def hookKvpEnable (p : Nat) : Hook := rangeFirst
  (fun s data => decide (ofLe data = 0) || s.flag (Regs.kvpEnable p) || (s.poolPlace p && s.metaPlace p))
  (fun s _ data =>
    if ofLe data = 0 then
      if s.flag (Regs.kvpEnable p) && decide (s.activeIn (some p) ≠ 0) then .error conflictPlain
      else .ok ((s.setReg (Regs.kvpEnable p) 0).setPool p {})
    else if s.flag (Regs.kvpEnable p) then .ok s
    else match s.poolClash p with
      | some e => .error e
      | none => .ok ((s.freeAll p).setReg (Regs.kvpEnable p) 1))

def execKvpEnable (p : Path) (pool : Fin 4) (v : Nat) (s : State) : Res :=
  .next (s.writeObject p (0x2610 + pool.val) 1 (toLe 1 v) (hookKvpEnable pool.val))

/-- An object of pool p other than KVP_ENABLE: `ok` tests the pool as the write would leave it. -/
def hookPool (p : Nat) (r : Reg) (ok : State → Bool) : Hook := rangeFirst
  (fun s data => ok (s.setReg r (ofLe data)))
  (heldHook (Regs.kvpEnable p) (fun s _ data =>
    let t := s.setReg r (ofLe data)
    match (if t.reg (Regs.kvpSwapBase p) = 0 then none
        else clash t.swapClaims 13 (0x130 + p) (t.reg (Regs.kvpSwapBase p)) (t.reg (Regs.kvpSwapSlots p) * t.swapSlotBytes p)) with
    | some e => .error e
    | none => .ok t))

/-- An object of pool p that places its frames or its frame table: a write that overlaps another owner's claim is refused (R247, R278).
Tables and frames of size 0 claim nothing. -/
def hookPoolPlace (p : Nat) (r : Reg) (ok : State → Bool) (meets : State → Option Reply) : Hook := fun s w data =>
  match hookPool p r ok s w data with
  | .error e => .error e
  | .ok t =>
    match meets t with
    | some e => .error e
    | none => .ok t

/-- The objects of pool p by sub-index. -/
def hookPoolObject (p sub : Nat) : Option Hook :=
  let frames (s : State) : Option Reply := s.framesClash p
  let geometry (s : State) : Bool := s.poolPlace p && s.swapPlace p
  match sub with
  | 1 => some (hookKvpEnable p)
  | 2 => some (hookPoolPlace p (Regs.kvpBase p) (fun s => s.poolPlace p) frames)
  | 3 => some (hookPoolPlace p (Regs.kvpFrames p) (fun s => s.poolPlace p && s.metaPlace p) (fun s => s.poolClash p))
  | 4 => some (hookPoolPlace p (Regs.kvpFormat p) (fun s => poolFormat (s.reg (Regs.kvpFormat p)) && geometry s) frames)
  | 5 => some (hookPoolPlace p (Regs.kvpLayers p) geometry frames)
  | 6 => some (hookPoolPlace p (Regs.kvpHeads p) geometry frames)
  | 7 => some (hookPoolPlace p (Regs.kvpDim p) geometry frames)
  | 0x0A => some (heldHook (Regs.kvpEnable p) (regHook (Regs.kvpAllocFails p)))
  | 0x0B => some (hookPoolPlace p (Regs.kvpMetaBase p) (fun s => s.metaPlace p) (fun s => s.tableClash p))
  | 0x0C => some (hookPool p (Regs.kvpSalt p) (fun _ => true))
  | 0x0D => some (hookPool p (Regs.kvpSwapBase p) (fun s => s.swapPlace p))
  | 0x0E => some (hookPool p (Regs.kvpSwapSlots p) (fun s => s.swapPlace p))
  | _ => none

/-- KV_L2_BASE and KV_L2_COUNT (R248, R277): the pool of tables lies in DDR5, and every table of it is then free. -/
def hookL2 (r : Reg) : Hook := rangeFirst
  (fun s data =>
    let t := s.setReg r (ofLe data)
    decide (t.reg Regs.kvL2Count = 0) || t.inFreeDdr (t.reg Regs.kvL2Base) (t.reg Regs.kvL2Count * 2048))
  (fun s _ data =>
    let t := s.setReg r (ofLe data)
    if s.activeIn none ≠ 0 then .error conflictPlain
    else match clash (t.poolClaims ++ t.tableClaims ++ t.lodgeClaims ++ t.iqClaims) 13 0x110 (t.reg Regs.kvL2Base)
        (t.reg Regs.kvL2Count * 2048) with
      | some e => .error e
      | none => .ok { t with kv := { t.kv with l2Free := List.range (t.reg Regs.kvL2Count), cache := [] } })

end Sys2Proof.Machine
end

