-- ==== Sys2Proof/Machine/Matmul.lean ====
section
/-! DEFINITION. The array (R150–R157, R162–R164, R167–R170, R208, R209, R370, R509): operands, the long accumulator of each
output element, epilogues, and the drain of each output tile. -/

namespace Sys2Proof.Machine

/-! ### Writing results (R149, R155–R157) -/

/-- The gaffer whose column n produces an element. -/
def columnGaffer (u : CUnit) (n : Nat) : Nat :=
  match u with
  | .gaffer g => g.val
  | .chair c => 2 * c.val + (n / 64) % 2

/-- The gaffer whose generator serves a unit's vector unit (R156). -/
def vectorGaffer : CUnit → Nat
  | .gaffer g => g.val
  | .chair c => 2 * c.val

/-- One draw of gaffer g's generator under stochastic rounding; none under RNE. -/
def State.drawFor (s : State) (round : Bool) (g : Nat) : State × Option Nat :=
  if round then
    let x := s.reg (Regs.srState g)
    (s.setReg (Regs.srState g) (srNext x), some (srDraw x))
  else (s, none)

/-- Draws for a list of elements, by the gaffers that produce them. -/
def State.drawAll (s : State) (round : Bool) : List Nat → State × List (Option Nat)
  | [] => (s, [])
  | g :: gs =>
    let (s1, d) := s.drawFor round g
    let (s2, ds) := s1.drawAll round gs
    (s2, d :: ds)

/-- A zero rounded from an accumulator is +0 (R155). -/
def plusZero (f : Fmt) (c : Nat) : Nat :=
  match f.float with
  | some (eb, mb, _) => if c = 2 ^ (eb + mb) then 0 else c
  | none => c

/-- What one written element is and how it counts (R157). -/
structure Written where
  code : Nat
  nan : Bool
  overflow : Bool

/-- One element of a format without blocks. -/
def writePlain (f : Fmt) (mode : Option Nat) (v : Num) (fromAcc : Bool) : Written :=
  let e := encodeNum f mode v
  ⟨if fromAcc then plusZero f e.code else e.code, v.isNan, e.overflow⟩

/-- One block of an MX format: its scale code and its elements (R149); where every finite result is zero, so is its code. -/
def writeBlock (f : Fmt) (vs : List (Num × Option Nat)) (fromAcc : Bool) : Nat × List Written :=
  match blockScale f (vs.map (·.1)) with
  | none => (0xFF, vs.map (fun v => ⟨0, v.1.isNan, v.1.isInf && !f.hasInf⟩))
  | some sc => (sc, vs.map (fun v =>
      if vs.all (fun w => decide (w.1.mag.1 = 0)) && !v.1.isInf then ⟨0, false, false⟩
      else
        let e := blockElem f sc v.2 v.1
        ⟨if fromAcc then plusZero f e.code else e.code, v.1.isNan, e.overflow⟩))

/-- Lists cut into pieces of k: `n` bounds the pieces. -/
def piecesOf {α : Type} (k : Nat) (l : List α) : Nat → List (List α)
  | 0 => []
  | n + 1 => match l with
    | [] => []
    | _ :: _ => l.take k :: piecesOf k (l.drop k) n

/-- Counts what was written on the gaffers that wrote it (R157). -/
def State.countWritten (s : State) (ws : List (Nat × Written)) : State :=
  ws.foldl (fun s w => (s.bumpIf w.2.nan (Regs.nanOut w.1)).bumpIf w.2.overflow (Regs.overflowOut w.1)) s

/-- Writes one run of results of a row from element n0 on, with their scales when the format is MX: values with their draws
and their gaffers. -/
def State.writeResults (s : State) (ag : Agent) (out : Tensor) (scales : Option Tensor) (outer : List Nat) (n0 : Nat)
    (vs : List (Num × Option Nat)) (gs : List Nat) (fromAcc : Bool) : State :=
  match scales with
  | none =>
    let ws := vs.map (fun v => writePlain out.fmt v.2 v.1 fromAcc)
    (s.setRun ag out outer n0 (ws.map (·.code))).countWritten (gs.zip ws)
  | some sc =>
    let bs := (piecesOf 32 vs vs.length).map (fun b => writeBlock out.fmt b fromAcc)
    let ws := bs.flatMap (·.2)
    let s1 := s.setRun ag out outer n0 (ws.map (·.code))
    (s1.setRun ag sc outer (n0 / 32) (bs.map (·.1))).countWritten (gs.zip ws)

/-! ### The work order (R208, R209) -/

/-- A MATMUL whose checks have passed. -/
structure MatPlan where
  a : Tensor
  aScales : Option Tensor
  b : Tensor
  bScales : Option Tensor
  out : Option Tensor
  outScales : Option Tensor
  bias : Option Tensor
  scale : Option Tensor
  accIn : Option Tensor
  accOut : Option Tensor

def MatPlan.rows (p : MatPlan) : Nat := p.a.size 1
def MatPlan.cols (p : MatPlan) : Nat := p.b.size 1
def MatPlan.depth (p : MatPlan) : Nat := p.a.size 0

def Item.epilogue (i : Item) : Nat := i.field 39 37
def Item.limb (i : Item) : Nat := i.field 34 33
def Item.round (i : Item) : Bool := bit i.rec0 32
def Item.accOut (i : Item) : Bool := bit i.rec0 35
def Item.accIn (i : Item) : Bool := bit i.rec0 36

/-- A 16-bit operand, the only one that may be a query (R162). -/
def wide16 (f : Fmt) : Bool := decide (f = .bf16) || decide (f = .fp16)

/-- The pairs of R162 under a limb mode. -/
def pairOk (a b : Fmt) (limb : Nat) : Bool :=
  if wide16 a = wide16 b then decide (limb = 0) else decide (limb = 1 ∨ limb = 2)

/-- Reads a descriptor where it is used. -/
def State.descriptorIf (s : State) (i : Item) (ag : Agent) (used : Bool) (w : Want) : State × Except Finish (Option Tensor) :=
  if used then
    match s.descriptor i ag w.addr w.field w.write with
    | (s, .error f) => (s, .error f)
    | (s, .ok t) => (s, .ok (some t))
  else (s, .ok none)

/-- Reads a descriptor where it is used, whose tensor lies in the executing scratchpad or else gives the cause f (R209). -/
def State.padDescriptorIf (s : State) (u : CUnit) (i : Item) (used : Bool) (w : Want) (f : Finish) : State × Except Finish (Option Tensor) :=
  if !used then (s, .ok none)
  else if w.addr % 64 ≠ 0 then (s, .error (finBad 5 w.field))
  else match s.fetchStruct i (.compute u) w.addr 64 w.field with
    | (s, .stop f) => (s, .error f)
    | (s, .ok x) =>
      match parseTensor x with
      | none => (s, .error (finBad 6 w.field))
      | some t =>
        if !t.spans.all (fun p => decide (0 ≤ p.1) && within p.1.toNat p.2 (unitBase u) (unitSpan u)) then (s, .error f)
        else match s.checkSpans i (.compute u) t.spans w.write w.field with
          | (s, some f) => (s, .error f)
          | (s, none) => (s, .ok (some t))

/-- A row vector of FP32 (R208). -/
def Tensor.isRow (t : Tensor) (n : Nat) : Bool := decide (t.fmt = .fp32) && decide (t.layout = 0) && decide (t.sizes = [n])

/-- A tensor of accumulator records (R208). -/
def Tensor.isRecords (t : Tensor) (n m : Nat) : Bool :=
  decide (t.fmt = .uint8) && decide (t.layout = 0) && decide (t.sizes = [32, n, m]) && decide (t.stride0 = 1)

/-- The accumulator record of one element as memory holds it. -/
def State.accRecord (s : State) (t : Tensor) (n m : Nat) : Option Acc :=
  Acc.ofRecord (ofLe (s.peek (t.place [0, n, m]).1.toNat 32))

/-- Whether an optional tensor meets a test; none passes. -/
def orNone (o : Option Tensor) (p : Tensor → Bool) : Bool :=
  match o with
  | some t => p t
  | none => true

/-- The shape, format and placement rules of R209 with the field each names, in the order of R209's list, up to the records. -/
def MatPlan.cause (p : MatPlan) (i : Item) : Option Finish :=
  let m := p.rows
  let n := p.cols
  let k := p.depth
  if p.a.layout ≠ 1 then some (finBad 8 1)
  else if p.b.layout ≠ 2 then some (finBad 8 3)
  else if k ≠ p.b.size 0 then some (finBad 8 1)
  else if 65536 < m then some (finBad 8 1)
  else if 65536 < n then some (finBad 8 3)
  else if !orNone p.aScales (fun t => t.scalesFor p.a) then some (finBad 8 2)
  else if !orNone p.bScales (fun t => t.scalesFor p.b) then some (finBad 8 4)
  else if !pairOk p.a.fmt p.b.fmt i.limb then some (finBad 8 0)
  else if !orNone p.out (fun t => decide (t.layout = 0) && decide (t.fmt ≠ .e8m0) && decide (t.sizes = [n, m])) then some (finBad 8 5)
  else if !orNone p.outScales (fun t => decide (t.fmt = .e8m0) && decide (t.layout = 0) && decide (t.sizes = [ceilDiv n 32, m])) then
    some (finBad 8 10)
  else if !orNone p.bias (fun t => t.isRow n) then some (finBad 8 6)
  else if !orNone p.scale (fun t => t.isRow n) then some (finBad 8 7)
  else if !orNone p.accIn (fun t => t.isRecords n m) then some (finBad 8 8)
  else if !orNone p.accOut (fun t => t.isRecords n m) then some (finBad 8 9)
  else if i.accOut = true ∧ i.epilogue ≠ 0 then some (finBad 8 0)
  else none

/-- The records of ACC_IN, which the item reads before it starts: poison among them ends it before anything is written and outranks
what a damaged record could give (R370). -/
def State.accRecords (s : State) (u : CUnit) (i : Item) (p : MatPlan) : Checked (List (Option Acc)) :=
  match p.accIn with
  | none => (s, .ok [])
  | some t =>
    let idx := outerIndices [p.cols, p.rows]
    let r := s.touch i (.compute u) (idx.map (fun x => ((t.place [0, x.getD 0 0, x.getD 1 0]).1, 32)))
    match r.gone, r.entry with
    | some f, _ => (r.s, .error f)
    | none, some e => (r.s, .error (finUncorrected e))
    | none, none => (r.s, .ok (idx.map (fun x => r.s.accRecord t (x.getD 0 0) (x.getD 1 0))))

/-- The rules of R209 on the records and on the depth, in the order of its list. -/
def recordCause (k : Nat) (recs : List (Option Acc)) : Option Finish :=
  if recs.any (fun r => r.isNone) then some (finBad 8 8)
  else if 2 ^ 20 < k then some (finBad 10 1)
  else if recs.any (fun r => decide (2 ^ 20 < (r.getD ({} : Acc)).c + k)) then some (finBad 10 8)
  else none

/-- The checks of MATMUL (R200, R209): reserved codes, the descriptors in field order, then the rules between them. -/
def checkMatmul (u : CUnit) (s : State) (i : Item) : Checked MatPlan :=
  let ag : Agent := .compute u
  let x := i.rec0
  if 4 < i.epilogue ∨ i.limb = 3 then (s, .error (finBad 6 0))
  else match s.descriptor i ag (bits x 103 64) 1 false with
  | (s, .error f) => (s, .error f)
  | (s, .ok a) =>
  match s.descriptorIf i ag a.fmt.mx ⟨2, bits x 143 104, false⟩ with
  | (s, .error f) => (s, .error f)
  | (s, .ok aScales) =>
  match s.descriptor i ag (bits x 183 144) 3 false with
  | (s, .error f) => (s, .error f)
  | (s, .ok b) =>
  match s.descriptorIf i ag b.fmt.mx ⟨4, bits x 223 184, false⟩ with
  | (s, .error f) => (s, .error f)
  | (s, .ok bScales) =>
  match s.descriptorIf i ag (!i.accOut) ⟨5, bits x 263 224, true⟩ with
  | (s, .error f) => (s, .error f)
  | (s, .ok out) =>
  match s.descriptorIf i ag (!i.accOut && decide (i.epilogue ≠ 0)) ⟨6, bits x 303 264, false⟩ with
  | (s, .error f) => (s, .error f)
  | (s, .ok bias) =>
  match s.descriptorIf i ag (!i.accOut && decide (3 ≤ i.epilogue)) ⟨7, bits x 343 304, false⟩ with
  | (s, .error f) => (s, .error f)
  | (s, .ok scale) =>
  match s.descriptorIf i ag i.accIn ⟨8, bits x 383 344, false⟩ with
  | (s, .error f) => (s, .error f)
  | (s, .ok accIn) =>
  match s.descriptorIf i ag i.accOut ⟨9, bits x 423 384, true⟩ with
  | (s, .error f) => (s, .error f)
  | (s, .ok accOut) =>
  match s.padDescriptorIf u i ((out.map (·.fmt.mx)).getD false) ⟨10, bits x 463 424, true⟩ (finBad 8 10) with
  | (s, .error f) => (s, .error f)
  | (s, .ok outScales) =>
    let p : MatPlan := ⟨a, aScales, b, bScales, out, outScales, bias, scale, accIn, accOut⟩
    match p.cause i with
    | some f => (s, .error f)
    | none =>
      match s.accRecords u i p with
      | (s, .error f) => (s, .error f)
      | (s, .ok recs) =>
        match recordCause p.depth recs with
        | some f => (s, .error f)
        | none => (s, .ok p)

/-! ### Dot products (R148, R150, R163, R164) -/

/-- An operand element with its scale. -/
def State.operand (s : State) (t : Tensor) (scales : Option Tensor) (k row : Nat) : Num :=
  match scales with
  | some v => scaledElem t.fmt (s.elem t [k, row]) (s.elem v [k / 32, row])
  | none => decodeNum t.fmt (s.elem t [k, row])

/-- One row of an operand. -/
def State.operandRow (s : State) (t : Tensor) (scales : Option Tensor) (row : Nat) : List Num :=
  (List.range (t.size 0)).map (fun k => s.operand t scales k row)

/-- A row as the array takes it: a single-limb query is rounded first (R164). -/
def limbRow (limb : Nat) (f : Fmt) (vs : List Num) : List Num :=
  if limb = 2 ∧ wide16 f = true then (piecesOf 32 vs vs.length).flatMap singleLimb else vs

/-- What a two-limb query element multiplies a key by in the hi pass and in the lo pass: its limbs where both are finite, else
itself and nothing (R163). -/
def limbPair (f : Fmt) (q k : Num) : Num × Num :=
  match q, k with
  | .fin s m e, .fin _ _ _ =>
    let j := if f = .bf16 then 1 else 4
    (.fin s (m >>> j) (e + j), .fin s (m % 2 ^ j) e)
  | _, _ => (q, .fin false 0 0)

/-- The operand pairs of a two-limb dot product: those of the hi limbs, then those of the lo limbs. -/
def limbTerms (f : Fmt) (qs ks : List Num) : List (Num × Num) :=
  let ps := qs.zip ks
  ps.map (fun p => ((limbPair f p.1 p.2).1, p.2))
    ++ ps.map (fun p => ((limbPair f p.1 p.2).2, if (limbPair f p.1 p.2).2.isZero then .fin false 0 0 else p.2))

/-- The operand pairs that the array multiplies for one A row and one B column, in order. -/
def dotTerms (limb : Nat) (fa fb : Fmt) (as bs : List Num) : List (Num × Num) :=
  if limb = 1 then (if wide16 fa then limbTerms fa as bs else limbTerms fb bs as) else as.zip bs

/-- The dot product of one A row and one B column under a limb mode; c counts one term per element. -/
def dotRows (acc : Acc) (limb : Nat) (fa fb : Fmt) (as bs : List Num) : Acc :=
  { (dotTerms limb fa fb as bs).foldl (fun x p => x.take (Num.mul p.1 p.2)) acc with c := acc.c + (as.zip bs).length }

/-- The same beside the residue predicted through every term (R355). -/
def dotWatched (acc : Acc) (limb : Nat) (fa fb : Fmt) (as bs : List Num) : Watched :=
  (dotTerms limb fa fb as bs).foldl (fun x p => x.take p.1 p.2) ⟨acc, acc.res⟩

/-! ### Output tiles (R170, R196, R370) -/

/-- Columns of an output tile: 64, or 128 of a chair. -/
def tileCols : CUnit → Nat
  | .gaffer _ => 64
  | .chair _ => 128

/-- The bytes of the A rows and the B columns that a tile reads, and of what its drain reads. -/
def MatPlan.tileSpans (p : MatPlan) (r0 mt n0 nt : Nat) : List (Int × Nat) :=
  let ua := p.a.fmt.chunk.2
  let ub := p.b.fmt.chunk.2
  (List.range p.a.chunks).map (fun j => ((p.a.base : Int) + ((j * p.a.alloc + r0) * ua * 64 : Nat), mt * ua * 64))
  ++ (List.range (ceilDiv nt 64)).flatMap (fun g => (List.range p.b.chunks).map (fun j =>
      ((p.b.base : Int) + (((n0 / 64 + g) * p.b.chunks + j) * 64 * ub * 64 : Nat), 64 * ub * 64)))
  ++ (match p.aScales with
      | some t => (List.range mt).map (fun m => ((t.place [0, r0 + m]).1, t.size 0))
      | none => [])
  ++ (match p.bScales with
      | some t => (List.range nt).map (fun n => ((t.place [0, n0 + n]).1, t.size 0))
      | none => [])
  ++ ([p.bias, p.scale].filterMap id).flatMap (fun t => (List.range nt).map (fun n => ((t.place [n0 + n]).1, 4)))
  ++ (match p.accIn with
      | some t => (List.range mt).flatMap (fun m => (List.range nt).map (fun n => ((t.place [0, n0 + n, r0 + m]).1, 32)))
      | none => [])

/-- The accumulator that output element (n, m) starts from. -/
def State.matStart (s : State) (p : MatPlan) (m n : Nat) : Acc :=
  match p.accIn with
  | some t => (s.accRecord t n m).getD ({} : Acc)
  | none => {}

/-- The accumulator of output element (n, m) at the end of its dot product. -/
def State.matAcc (s : State) (p : MatPlan) (limb : Nat) (m n : Nat) : Acc :=
  dotRows (s.matStart p m n) limb p.a.fmt p.b.fmt (limbRow limb p.a.fmt (s.operandRow p.a p.aScales m))
    (limbRow limb p.b.fmt (s.operandRow p.b p.bScales n))

/-- The same beside its predicted residue. -/
def State.matWatched (s : State) (p : MatPlan) (limb : Nat) (m n : Nat) : Watched :=
  dotWatched (s.matStart p m n) limb p.a.fmt p.b.fmt (limbRow limb p.a.fmt (s.operandRow p.a p.aScales m))
    (limbRow limb p.b.fmt (s.operandRow p.b p.bScales n))

/-- The addition or multiply-add of an epilogue of R209, on a result rounded once to FP32. -/
def State.epilogueStep (s : State) (p : MatPlan) (epi : Nat) (n : Nat) (v : Num) : Exact :=
  let x := plusZero .fp32 (toF32 v)
  let b := match p.bias with
    | some t => s.elem t [n]
    | none => 0
  let c := match p.scale with
    | some t => s.elem t [n]
    | none => 0
  if 3 ≤ epi then exactFma x c b else exactAdd x b

/-- The rest of an epilogue: the maximum with 0 of its even codes. -/
def epilogueEnd (epi y : Nat) : Num := f32 (if epi % 2 = 0 ∧ (f32 y).isNan = false then fmax y 0 else y)

/-- What the rows of a tile's accumulators give before the last rounding: an epilogue's additions and multiply-adds stand under the
check of the vector unit (R354), one row after another. -/
def State.rowResults (s : State) (u : CUnit) (i : Item) (p : MatPlan) (n0 : Nat) (accs : List (List Acc)) :
    State × Except Finish (List (List Num)) :=
  if i.epilogue = 0 then (s, .ok (accs.map (fun r => r.map Acc.value)))
  else
    match s.vectorRows u i (accs.map (fun r => r.zipIdx.map (fun a => s.epilogueStep p i.epilogue (n0 + a.2) a.1.value))) with
    | (s, .error f) => (s, .error f)
    | (s, .ok ys) => (s, .ok (ys.map (fun r => r.map (epilogueEnd i.epilogue))))

/-- The drain of one row of a tile: results to OUT, or raw accumulators to ACC_OUT. -/
def State.drainRow (s : State) (u : CUnit) (i : Item) (p : MatPlan) (m n0 : Nat) (accs : List Acc) (vs : List Num) : State :=
  let ag : Agent := .compute u
  match p.accOut, p.out with
  | some t, _ =>
    accs.zipIdx.foldl (fun s a => s.put ag (t.place [0, n0 + a.2, m]).1.toNat (toLe 32 a.1.record)) s
  | none, some t =>
    let gs := (List.range accs.length).map (fun n => columnGaffer u (n0 + n))
    let s := (gs.zip accs).foldl (fun s a => s.bumpIf a.2.inexact (Regs.accInexact a.1)) s
    let (s1, ds) := s.drawAll i.round (if i.epilogue = 0 then gs else gs.map (fun _ => vectorGaffer u))
    s1.writeResults ag t p.outScales [m] n0 (vs.zip ds) gs (decide (i.epilogue = 0))
  | none, none => s

/-- One output tile: its reads first; poison or a residue mismatch ends the item before the drain (R356, R370). -/
def State.matTile (s : State) (u : CUnit) (i : Item) (p : MatPlan) (r0 n0 : Nat) : State × Option Finish :=
  let mt := min 64 (p.rows - r0)
  let nt := min (tileCols u) (p.cols - n0)
  let t := s.touch i (.compute u) (p.tileSpans r0 mt n0 nt)
  match t.gone, t.entry with
  | some f, _ => (t.s, some f)
  | none, some e => (t.s, some (finUncorrected e))
  | none, none =>
    match t.s.arrayCheck u i mt nt (fun m n => t.s.matWatched p i.limb (r0 + m) (n0 + n)) with
    | (s, .error f) => (s, some f)
    | (s, .ok hits) =>
      let accs := (List.range mt).map (fun m => (List.range nt).map (fun n => bendAt hits m n (s.matAcc p i.limb (r0 + m) (n0 + n))))
      match s.rowResults u i p n0 accs with
      | (s, .error f) => (s, some f)
      | (s, .ok vs) => ((accs.zip vs).zipIdx.foldl (fun s r => s.drainRow u i p (r0 + r.2) n0 r.1.1 r.1.2) s, none)

/-- The tiles in order: row tiles, and within each the column groups (R170). -/
def MatPlan.tiles (p : MatPlan) (u : CUnit) : List (Nat × Nat) :=
  (List.range (ceilDiv p.rows 64)).flatMap (fun r => (List.range (ceilDiv p.cols (tileCols u))).map (fun g => (r * 64, g * tileCols u)))

/-- The effect of MATMUL. -/
def State.matmul (s : State) (u : CUnit) (i : Item) (p : MatPlan) : State :=
  let (s1, f) := (p.tiles u).foldl (fun (acc : State × Option Finish) t =>
    match acc.2 with
    | some _ => acc
    | none => acc.1.matTile u i p t.1 t.2) (s, none)
  s1.setFinish i (f.getD (finDone 0))

/-- MATMUL. -/
def execMatmul (u : CUnit) (s : State) : Res :=
  .next (s.runItem ⟨.unit u, .array⟩ 0x10 (checkMatmul u) (fun s i p => s.matmul u i p))

end Sys2Proof.Machine
end

