-- ==== Sys2Proof/Machine/Vector.lean ====
section
/-! DEFINITION. The vector unit (R158–R160, R172, R210–R213, R370): vector programs, one instruction a command, and REDUCE. -/

namespace Sys2Proof.Machine

/-! ### Instructions (R211) -/

/-- Lanes of a unit. -/
def laneCount : CUnit → Nat
  | .gaffer _ => 64
  | .chair _ => 128

def vOp (x : Nat) : Nat := bits x 7 0
def vD (x : Nat) : Nat := bits x 12 8
def vA (x : Nat) : Nat := bits x 17 13
def vB (x : Nat) : Nat := bits x 22 18
def vC (x : Nat) : Nat := bits x 27 23
def vP (x : Nat) : Nat := bits x 30 28
def vBf (x : Nat) : Bool := bit x 31
def vImm (x : Nat) : Nat := bits x 63 32

/-- Element size es of R211. -/
def vSize (x : Nat) : Nat := if vBf x then 2 else 4

/-- The operations R211 lists. -/
def knownVector (op : Nat) : Bool :=
  [0x00, 0x01, 0x02, 0x03, 0x04, 0x05, 0x10, 0x11, 0x12, 0x13, 0x14, 0x15, 0x16, 0x17, 0x18, 0x19, 0x20, 0x21, 0x22, 0x30, 0x31,
   0x40].contains op

/-- Cycles of an instruction (R172). -/
def vCost (u : CUnit) (op : Nat) : Nat :=
  if op = 0x00 then 0
  else if op = 0x20 ∨ op = 0x21 ∨ op = 0x22 then 2
  else if op = 0x30 ∨ op = 0x31 then (match u with
    | .gaffer _ => 8
    | .chair _ => 10)
  else 1

/-! ### The unit's state -/

/-- The target code of a compute unit. -/
def unitCode : CUnit → Nat
  | .gaffer g => g.val
  | .chair c => 32 + c.val

def State.vec (s : State) (u : CUnit) : VectorUnit := kget s.disp.vectors (unitCode u) {}

def State.setVec (s : State) (u : CUnit) (v : VectorUnit) : State :=
  { s with disp := { s.disp with vectors := kset s.disp.vectors (unitCode u) v } }

/-- A register: every lane reads +0 until written (R210). -/
def VectorUnit.reg (v : VectorUnit) (l k : Nat) : List Nat := kget v.regs k (List.replicate l 0)

def VectorUnit.setReg (v : VectorUnit) (k : Nat) (x : List Nat) : VectorUnit := { v with regs := kset v.regs k x }

/-- The program stops and its item takes a status. -/
def State.vecStop (s : State) (u : CUnit) (f : Finish) : State :=
  let v := s.vec u
  let s := s.setVec u {}
  match s.item? v.ring v.seq with
  | some i => s.setFinish i f
  | none => s

/-- Where the program goes after instruction j − 1: bodies that end here run again or are left. -/
def loopBack : List LoopFrame → Nat → Nat → List LoopFrame × Nat
  | f :: fs, j, n + 1 =>
    if f.past ≠ j then (f :: fs, j)
    else if 1 < f.left then ({ f with left := f.left - 1 } :: fs, f.first)
    else loopBack fs j n
  | fs, j, _ => (fs, j)

/-- The program stands before its next instruction: past the last it ends (R212), an unknown OP stops it. -/
def State.vecSettle (s : State) (u : CUnit) (v : VectorUnit) : State :=
  let s := s.setVec u v
  match v.prog[v.index]? with
  | none => s.vecStop u (finDone 0)
  | some x => if knownVector (vOp x) then s else s.vecStop u (finBad 9 v.index)

/-- Moves past the present instruction. -/
def State.vecAdvance (s : State) (u : CUnit) (v : VectorUnit) (cost : Nat) : State :=
  let (loops, j) := loopBack v.loops (v.index + 1) v.loops.length
  s.vecSettle u { v with index := j, loops := loops, cycles := v.cycles + cost }

/-- The next instruction, if a program runs and the item still executes. -/
def State.vecNext (s : State) (u : CUnit) : Option (VectorUnit × Item × Nat) :=
  let v := s.vec u
  match s.item? v.ring v.seq, v.prog[v.index]? with
  | some i, some x => if v.running && i.finish.isNone && i.phase == .executing then some (v, i, x) else none
  | _, _ => none

/-- Whether the next instruction would pass MAX_CYCLES (R212). -/
def vecOver (u : CUnit) (v : VectorUnit) (x : Nat) : Bool :=
  decide (v.maxCycles ≠ 0) && decide (v.maxCycles < v.cycles + vCost u (vOp x))


/-- Runs one instruction of a given OP: its effect gives the unit afterwards, or what stops the program. -/
def State.vecRun (s : State) (u : CUnit) (op : Nat)
    (f : State → VectorUnit → Item → Nat → State × Except Finish VectorUnit) : Res :=
  match s.vecNext u with
  | none => .next s
  | some (v, i, x) =>
    if vOp x ≠ op || vecOver u v x then .next s
    else match f s v i x with
      | (s1, .error e) => .next (s1.vecStop u e)
      | (s1, .ok v1) => .next (s1.vecAdvance u v1 (vCost u op))

/-- An instruction on registers alone: the destination's lanes from the source registers. -/
def State.vecReg (s : State) (u : CUnit) (op : Nat) (g : (Nat → List Nat) → Nat → List Nat) : Res :=
  s.vecRun u op (fun s v _ x => (s, .ok (v.setReg (vD x) (g (v.reg (laneCount u)) x))))

/-- An instruction whose operations the residue check covers (R354): `g` their exact results from the source registers, `h` the
destination's lanes from what the check lets pass. -/
def State.vecCalc (s : State) (u : CUnit) (op : Nat) (g : (Nat → List Nat) → Nat → List Exact) (h : List Nat → List Nat) : Res :=
  s.vecRun u op (fun s v i x =>
    match s.vectorCheck u i v.index (g (v.reg (laneCount u)) x) with
    | (s, .error f) => (s, .error f)
    | (s, .ok l) => (s, .ok (v.setReg (vD x) (h l))))

/-! ### VECTOR (R210) -/

/-- The instructions of an inline program: seven in words 1–14 of each CONT record. -/
def inlineProgram (recs : List Nat) : List Nat :=
  recs.flatMap (fun r => (List.range 7).map (fun k => bits r (95 + 64 * k) (32 + 64 * k)))

/-- A program's 64-bit words in a byte string read as one number. -/
def wordsOf (n x : Nat) : List Nat := (List.range n).map (fun k => bits x (64 * k + 63) (64 * k))

def Item.maxCycles (i : Item) : Nat := i.field 63 48
def Item.progLen (i : Item) : Nat := i.field 143 128
def Item.progAt (i : Item) : Nat := i.field 103 64

/-- The checks of VECTOR: the program. -/
def checkVector (u : CUnit) (s : State) (i : Item) : Checked (List Nat) :=
  let n := i.progLen
  let conts := i.recs.drop 1
  if 2 ≤ i.cls ∧ (i.maxCycles = 0 ∨ 1024 < i.maxCycles) then (s, .error (finBad 10 0))
  else if n = 0 ∨ 4096 < n then (s, .error (finBad 6 0))
  else if i.progAt = 0 then
    if 7 * conts.length < n then (s, .error (finBad 6 0)) else (s, .ok ((inlineProgram conts).take n))
  else if i.progAt % 8 ≠ 0 then (s, .error (finBad 5 1))
  else if s.fixedAnswer (.compute u) i.progAt 1 false ≠ .ok then (s, .error (finBad 5 1))
  else match s.checkSpans i (.compute u) [((i.progAt : Int), 8 * n)] false 1 with
    | (s, some f) => (s, .error f)
    | (s, none) => match s.fetchStruct i (.compute u) i.progAt (8 * n) 1 with
      | (s, .ok x) => (s, .ok (wordsOf n x))
      | (s, .stop f) => (s, .error f)

/-- VECTOR: starts a program with cleared registers. -/
def execVector (u : CUnit) (s : State) : Res :=
  .next (s.runItem ⟨.unit u, .vector⟩ 0x18 (checkVector u) (fun s i prog =>
    if (s.vec u).running then s
    else
      let addrs := (List.range 8).map (fun k => i.field (191 + 32 * k) (160 + 32 * k))
      let v : VectorUnit := ⟨true, i.ring, i.seq, prog, 0, [], [], addrs, i.round, 0, i.maxCycles * 1024, []⟩
      s.vecSettle u v))

/-- A gaffer's clock in MHz by level (R177). -/
def levelMHz (l : Nat) : Nat := [400, 600, 800, 1000, 1100, 1200, 1350, 1500].getD l 1200

/-- VECTOR_TIMEOUT (R212): the next instruction would pass MAX_CYCLES; what has been stored stands. -/
def execVectorTimeout (u : CUnit) (s : State) : Res :=
  match s.vecNext u with
  | some (v, _, x) =>
    if vecOver u v x then
      .next (s.vecStop u (finTimeout 3 (v.maxCycles / levelMHz (s.reg (Regs.gafferLevelNow (vectorGaffer u))))))
    else .next s
  | none => .next s

/-! ### The instructions -/

/-- END. -/
def execVEnd (u : CUnit) (s : State) : Res := s.vecRun u 0x00 (fun s _ _ _ => (s, .error (finDone 0)))

/-- Where a memory instruction starts: p + imm without wrap, in the window and aligned, else detail 9 (R211, R212). -/
def State.vecAddr (s : State) (u : CUnit) (v : VectorUnit) (x n : Nat) (write : Bool) : Except Finish Nat :=
  let o : Int := (v.addrs.getD (vP x) 0 : Int) + toSigned 32 (vImm x)
  if o < 0 ∨ (unitSpan u : Int) < o + n ∨ o % (vSize x : Int) ≠ 0 then .error (finBad 9 v.index)
  else
    let a := unitBase u + o.toNat
    if s.answer (.compute u) a n write = .ok then .ok a else .error (finBad 9 v.index)

/-- Loads n elements as FP32 bits; poison stops the program (R370). -/
def State.vecLoad (s : State) (u : CUnit) (v : VectorUnit) (i : Item) (x n : Nat) : State × Except Finish (List Nat) :=
  match s.vecAddr u v x (n * vSize x) false with
  | .error f => (s, .error f)
  | .ok a =>
    let t := s.touch i (.compute u) [((a : Int), n * vSize x)]
    match t.gone, t.entry with
    | some f, _ => (t.s, .error f)
    | none, some e => (t.s, .error (finUncorrected e))
    | none, none =>
      (t.s, .ok ((List.range n).map (fun k =>
        let e := ofLe (t.s.peek (a + k * vSize x) (vSize x))
        if vBf x then widen e else e)))

/-- LD. -/
def execVLd (u : CUnit) (s : State) : Res :=
  s.vecRun u 0x01 (fun s v i x => match s.vecLoad u v i x (laneCount u) with
    | (s, .error f) => (s, .error f)
    | (s, .ok l) => (s, .ok (v.setReg (vD x) l)))

/-- LDB. -/
def execVLdb (u : CUnit) (s : State) : Res :=
  s.vecRun u 0x03 (fun s v i x => match s.vecLoad u v i x 1 with
    | (s, .error f) => (s, .error f)
    | (s, .ok l) => (s, .ok (v.setReg (vD x) (List.replicate (laneCount u) (l.headD 0)))))

/-- ST: BF16 elements round under ROUND and draw from the unit's generator; NaN and overflow are counted (R157). -/
def execVSt (u : CUnit) (s : State) : Res :=
  s.vecRun u 0x02 (fun s v _ x =>
    let n := laneCount u
    match s.vecAddr u v x (n * vSize x) true with
    | .error f => (s, .error f)
    | .ok a =>
      let vs := v.reg n (vA x)
      let gs := (List.range n).map (columnGaffer u)
      let (s1, ds) := s.drawAll (v.round && vBf x) (vs.map (fun _ => vectorGaffer u))
      let ws : List Written := (vs.zip ds).map (fun p =>
        if vBf x then writePlain .bf16 p.2 (f32 p.1) false else ⟨p.1, (f32 p.1).isNan, false⟩)
      let bytes := ws.flatMap (fun w => toLe (vSize x) w.code)
      let s2 := (s1.put (.compute u) a bytes).countWritten (gs.zip ws)
      (s2, .ok { v with stored := (a, n * vSize x) :: v.stored }))

/-- PADD. -/
def execVPadd (u : CUnit) (s : State) : Res :=
  s.vecRun u 0x04 (fun s v _ x =>
    (s, .ok { v with addrs := v.addrs.set (vP x) ((v.addrs.getD (vP x) 0 + vImm x) % 2 ^ 32) }))

/-- MOVI. -/
def execVMovi (u : CUnit) (s : State) : Res := s.vecReg u 0x05 (fun _ x => List.replicate (laneCount u) (vImm x))

/-- Lane-wise combination of two registers. -/
def lanes2 {α : Type} (f : Nat → Nat → α) (r : Nat → List Nat) (x : Nat) : List α := List.zipWith f (r (vA x)) (r (vB x))

/-- ADD. -/
def execVAdd (u : CUnit) (s : State) : Res := s.vecCalc u 0x10 (lanes2 exactAdd) id
/-- SUB. -/
def execVSub (u : CUnit) (s : State) : Res := s.vecCalc u 0x11 (lanes2 exactSub) id
/-- MUL. -/
def execVMul (u : CUnit) (s : State) : Res := s.vecCalc u 0x12 (lanes2 exactMul) id
/-- FMA. -/
def execVFma (u : CUnit) (s : State) : Res :=
  s.vecCalc u 0x13 (fun r x => List.zipWith (fun p c => exactFma p.1 p.2 c) ((r (vA x)).zip (r (vB x))) (r (vC x))) id
/-- MIN. -/
def execVMin (u : CUnit) (s : State) : Res := s.vecReg u 0x14 (lanes2 fmin)
/-- MAX. -/
def execVMax (u : CUnit) (s : State) : Res := s.vecReg u 0x15 (lanes2 fmax)
/-- CLT. -/
def execVClt (u : CUnit) (s : State) : Res := s.vecReg u 0x16 (lanes2 (fun a b => if flt a b then 0x3F800000 else 0))
/-- SEL: a NaN in vc counts as ≠ 0. -/
def execVSel (u : CUnit) (s : State) : Res :=
  s.vecReg u 0x17 (fun r x => List.zipWith (fun p c => if (f32 c).isZero then p.2 else p.1) ((r (vA x)).zip (r (vB x))) (r (vC x)))
/-- CVTI. -/
def execVCvti (u : CUnit) (s : State) : Res := s.vecReg u 0x18 (fun r x => (r (vA x)).map cvti)
/-- CVTF. -/
def execVCvtf (u : CUnit) (s : State) : Res := s.vecReg u 0x19 (fun r x => (r (vA x)).map cvtf)
/-- EXP. -/
def execVExp (u : CUnit) (s : State) : Res := s.vecReg u 0x20 (fun r x => (r (vA x)).map fexp)
/-- RCP. -/
def execVRcp (u : CUnit) (s : State) : Res := s.vecReg u 0x21 (fun r x => (r (vA x)).map frcp)
/-- RSQ. -/
def execVRsq (u : CUnit) (s : State) : Res := s.vecReg u 0x22 (fun r x => (r (vA x)).map frsq)

/-- The fixed tree of R211: `n` bounds the levels. -/
def laneTree (op : Nat → Nat → Nat) (t : List Nat) : Nat → Nat
  | 0 => t.headD 0
  | n + 1 =>
    let h := t.length / 2
    if h = 0 then t.headD 0 else laneTree op (List.zipWith op (t.take h) (t.drop h)) n

/-- RSUM. -/
def execVRsum (u : CUnit) (s : State) : Res :=
  s.vecRun u 0x30 (fun s v i x =>
    match s.treeSum u i v.index (v.reg (laneCount u) (vA x)) 7 with
    | (s, .error f) => (s, .error f)
    | (s, .ok y) => (s, .ok (v.setReg (vD x) (List.replicate (laneCount u) y))))
/-- RMAX. -/
def execVRmax (u : CUnit) (s : State) : Res :=
  s.vecReg u 0x31 (fun r x => List.replicate (laneCount u) (laneTree fmax (r (vA x)) 7))

/-- LOOP: the body lies inside the program and inside the enclosing body, and the depth is at most 4 (R212). -/
def execVLoop (u : CUnit) (s : State) : Res :=
  s.vecRun u 0x40 (fun s v _ x =>
    let n := bits (vImm x) 15 0
    let times := bits (vImm x) 31 16
    let past := v.index + 1 + n
    let outer := match v.loops with
      | f :: _ => f.past
      | [] => v.prog.length
    if n = 0 ∨ 255 < n ∨ times = 0 ∨ v.prog.length < past ∨ outer < past ∨ 4 ≤ v.loops.length then (s, .error (finBad 9 v.index))
    else (s, .ok { v with loops := ⟨v.index + 1, past, times⟩ :: v.loops }))

/-! ### REDUCE (R213) -/

def Item.redOp (i : Item) : Nat := i.field 35 33
def Item.redDim (i : Item) : Nat := i.field 38 36

/-- The checks of REDUCE. -/
def checkReduce (u : CUnit) (s : State) (i : Item) : Checked (Tensor × Tensor) :=
  if 5 < i.redOp then (s, .error (finBad 6 0))
  else match s.descriptors i (.compute u) [⟨1, i.field 103 64, false⟩, ⟨2, i.field 143 104, true⟩] with
    | (s, .ok [a, b]) =>
      let fl (f : Fmt) : Bool := decide (f = .fp32) || decide (f = .bf16)
      if a.rank ≤ i.redDim then (s, .error (finBad 6 0))
      else if !fl a.fmt then (s, .error (finBad 8 1))
      else if (if i.redOp < 4 then !fl b.fmt else decide (b.fmt ≠ .int32)) || decide (b.sizes ≠ a.sizes.set i.redDim 1) then
        (s, .error (finBad 8 2))
      else (s, .ok (a, b))
    | (s, .error f) => (s, .error f)
    | (s, .ok _) => (s, .error (finBad 6 0))

/-- A lane's partial maximum or minimum (R213); a lane that holds no element starts from −∞ or +∞. -/
def lanePart (op : Nat) (xs : List Nat) : Nat :=
  match xs with
  | [] => if op = 1 then 0xFF800000 else 0x7F800000
  | x :: t => t.foldl (if op = 1 then fmax else fmin) x

/-- The sum or the sum of squares of a list over l lanes (R213): lane j takes the elements j, j + l, j + 2l …, SUM from the lane's first
element and SUMSQ from +0, a lane without one has +0, and the tree of R211 combines the lanes. -/
def State.laneSum (s : State) (u : CUnit) (i : Item) (squares : Bool) (xs : List Nat) : State × Except Finish Nat :=
  let l := laneCount u
  let rows := (List.range (ceilDiv xs.length l)).map (fun k => (xs.drop (k * l)).take l)
  let first := if squares then [] else rows.headD []
  let op : Nat → Nat → Exact := if squares then (fun x a => exactFma x x a) else (fun x a => exactAdd a x)
  match s.laneSteps u i op (first ++ List.replicate (l - first.length) 0) (if squares then rows else rows.drop 1) with
  | (s, .error f) => (s, .error f)
  | (s, .ok parts) => s.treeSum u i 0 parts 7

/-- Whether x is more extreme than y, with −0 below +0. -/
def moreExtreme (wantMax : Bool) (x y : Nat) : Bool :=
  if wantMax then flt y x || ((f32 x).isZero && (f32 y).isZero && decide (y = 0x80000000) && decide (x = 0))
  else flt x y || ((f32 x).isZero && (f32 y).isZero && decide (x = 0x80000000) && decide (y = 0))

/-- The lowest index among the extreme elements, ignoring NaN; −1 if every element is NaN (R213). -/
def argExtreme (wantMax : Bool) (xs : List Nat) : Nat :=
  ((xs.zipIdx.foldl (fun (best : Option (Nat × Nat)) x =>
    if (f32 x.1).isNan then best
    else match best with
      | none => some x
      | some b => if moreExtreme wantMax x.1 b.1 then some x else some b) none).map (·.2)).getD 0xFFFFFFFF

/-- The elements j, j + l, j + 2l … of a list. -/
def strided (xs : List Nat) (l j : Nat) : List Nat :=
  (List.range ((xs.length + l - 1 - j) / l)).map (fun k => xs.getD (j + k * l) 0)

/-- One output element of REDUCE: poison in its inputs stops the item before it is written (R370). -/
def State.reduceElem (s : State) (u : CUnit) (i : Item) (p : Tensor × Tensor) (idx : List Nat) : State × Option Finish :=
  let ins := (List.range (p.1.size i.redDim)).map (fun k => idx.set i.redDim k)
  let t := ins.foldl (fun (t : Touched) x =>
    match t.gone, t.entry with
    | none, none => t.s.touch i (.compute u) [((p.1.place x).1, p.1.fmt.bits / 8)]
    | _, _ => t) (s.touch i (.compute u) [])
  match t.gone, t.entry with
  | some f, _ => (t.s, some f)
  | none, some e => (t.s, some (finUncorrected e))
  | none, none =>
    let xs := ins.map (fun x => if p.1.fmt = .bf16 then widen (t.s.elem p.1 x) else t.s.elem p.1 x)
    let l := laneCount u
    let g := vectorGaffer u
    let parts := (List.range l).map (fun j => lanePart i.redOp (strided xs l j))
    let extreme := if i.redOp = 1 then laneTree fmax parts 7 else laneTree fmin parts 7
    if 4 ≤ i.redOp then (t.s.setElem (.compute u) p.2 idx (argExtreme (decide (i.redOp = 4)) xs), none)
    else match (if i.redOp = 1 ∨ i.redOp = 2 then (t.s, .ok extreme) else t.s.laneSum u i (decide (i.redOp = 3)) xs) with
    | (s, .error f) => (s, some f)
    | (s, .ok r) =>
      let (s1, d) := s.drawFor (i.round && decide (p.2.fmt = .bf16)) g
      let w : Written := if p.2.fmt = .bf16 then writePlain .bf16 d (f32 r) false else ⟨r, (f32 r).isNan, false⟩
      ((s1.setElem (.compute u) p.2 idx w.code).countWritten [(g, w)], none)

/-- REDUCE. -/
def execReduce (u : CUnit) (s : State) : Res :=
  .next (s.runItem ⟨.unit u, .vector⟩ 0x19 (checkReduce u) (fun s i p =>
    let (s1, f) := p.2.indices.foldl (fun (acc : State × Option Finish) idx =>
      match acc.2 with
      | some _ => acc
      | none => acc.1.reduceElem u i p idx) (s, none)
    s1.setFinish i (f.getD (finDone 0))))

end Sys2Proof.Machine
end

