-- ==== Sys2Proof/Machine/Attention.lean ====
section
/-! DEFINITION. Attention (R186, R253–R276, R161): parisons and KV_APPEND, ATT_PREFILL and ATT_DECODE, ATT_MERGE. -/

namespace Sys2Proof.Machine

/-- A refusal code of R274 or R302. -/
def finCode (code : Nat) : Finish := finBad 11 code

/-! ### Slices and parisons (R245, R246, R254) -/

/-- A packed array of rows of a format. -/
def rowTensor (f : Fmt) (width rows base : Nat) : Tensor :=
  { base := base, fmt := f, layout := 0, pad := 0, fill := 0, sizes := [width, rows], stride0 := 1,
    strides := [((width * f.bits / 8 : Nat) : Int)], mask := 0 }

/-- Geometry of a pool as KV work uses it. -/
structure Geometry where
  fmt : Fmt
  d : Nat
  layers : Nat
  heads : Nat
  slice : Nat

def State.geometry (s : State) (p : Nat) : Geometry :=
  ⟨s.poolFmt p, s.reg (Regs.kvpDim p), s.reg (Regs.kvpLayers p), s.reg (Regs.kvpHeads p), s.sliceSize p⟩

/-- Bytes of 16 rows of keys. -/
def Geometry.rowsBytes (g : Geometry) : Nat := 16 * g.d * g.fmt.bits / 8
/-- Bytes of a parison, and of the scales of a slice. -/
def Geometry.parison (g : Geometry) : Nat := 2 * g.rowsBytes
def Geometry.scales (g : Geometry) : Nat := if g.fmt.mx then g.d else 0
/-- Bytes of a parison with its tag. -/
def Geometry.held (g : Geometry) : Nat := g.parison + 64 + g.scales

/-- The four arrays of a slice: K, V and their scales. `at_` is where the rows lie and `sc` where the scales lie. -/
def Geometry.keys (g : Geometry) (at_ : Nat) : Tensor := rowTensor g.fmt g.d 16 at_
def Geometry.values (g : Geometry) (at_ : Nat) : Tensor := rowTensor g.fmt g.d 16 (at_ + g.rowsBytes)
def Geometry.keyScales (g : Geometry) (sc : Nat) : Tensor := rowTensor .e8m0 (g.d / 32) 16 sc
def Geometry.valueScales (g : Geometry) (sc : Nat) : Tensor := rowTensor .e8m0 (g.d / 32) 16 (sc + 16 * (g.d / 32))

/-- Where slice (l, h) of frame f lies. -/
def State.sliceAt (s : State) (p f l h : Nat) : Nat :=
  s.reg (Regs.kvpBase p) + f * s.frameBytes p + (l * s.reg (Regs.kvpHeads p) + h) * s.sliceSize p

/-- A tag of R254, as its first 64 bytes spell it. -/
structure Tag where
  word : Nat
  deriving DecidableEq, Repr

def Tag.valid (t : Tag) : Bool := bit t.word 26
def Tag.block (t : Tag) : Nat := bits t.word 45 32
def Tag.count (t : Tag) : Nat := bits t.word 52 48
def Tag.names (t : Tag) (q l h : Nat) : Bool :=
  decide (bits t.word 11 0 = q) && decide (bits t.word 19 12 = l) && decide (bits t.word 25 20 = h)
/-- The position of the slice's next token. -/
def Tag.next (t : Tag) : Nat := 16 * t.block + t.count

/-- A tag with BLOCK and COUNT replaced. -/
def Tag.with (t : Tag) (block count : Nat) : Tag := ⟨setBits (setBits t.word 45 32 block) 52 48 count⟩

/-- The tag that INIT writes. -/
def Tag.fresh (g : Geometry) (q l h block : Nat) : Tag :=
  ⟨q % 4096 + (l % 256) <<< 12 + (h % 64) <<< 20 + 2 ^ 26 + (block % 2 ^ 14) <<< 32 + g.fmt.code <<< 64 + g.d <<< 80⟩

/-- Whether an address lies, for n bytes, in the executing scratchpad and answers. -/
def State.ownPad (s : State) (u : CUnit) (ag : Agent) (a n : Nat) (write : Bool) : Bool :=
  decide (a % 64 = 0) && within a n (unitBase u) (unitSpan u) && s.fixedAnswer ag a n write == .ok

/-! ### KV_APPEND (R255–R257) -/

/-- The fields of KV_APPEND. -/
def Item.layer (i : Item) : Nat := i.field 83 76
def Item.head (i : Item) : Nat := i.field 89 84
def Item.pos (i : Item) : Nat := i.field 127 96
def Item.tokens (i : Item) : Nat := i.field 143 128
def Item.parison (i : Item) : Nat := i.field 199 160
def Item.init (i : Item) : Bool := bit i.rec0 32
def Item.moves (i : Item) : Bool := bit i.rec0 33

/-- A KV_APPEND whose checks have passed. -/
structure AppendPlan where
  g : Geometry
  tag : Tag
  k : Option Tensor
  kScales : Option Tensor
  v : Option Tensor
  vScales : Option Tensor

/-- The tensors that are appended: those of R255 that the item uses. -/
def checkTokens (ag : Agent) (g : Geometry) (tag : Tag) (s : State) (i : Item) : Checked AppendPlan :=
  let used := decide (0 < i.tokens)
  match s.descriptorIf i ag used ⟨2, i.field 239 200, false⟩ with
  | (s, .error f) => (s, .error f)
  | (s, .ok k) =>
  match s.descriptorIf i ag (used && g.fmt.mx) ⟨3, i.field 279 240, false⟩ with
  | (s, .error f) => (s, .error f)
  | (s, .ok kScales) =>
  match s.descriptorIf i ag used ⟨4, i.field 319 280, false⟩ with
  | (s, .error f) => (s, .error f)
  | (s, .ok v) =>
  match s.descriptorIf i ag (used && g.fmt.mx) ⟨5, i.field 359 320, false⟩ with
  | (s, .error f) => (s, .error f)
  | (s, .ok vScales) =>
    let rows (t : Tensor) : Bool := decide (t.fmt = g.fmt) && decide (t.layout = 0) && decide (t.sizes = [g.d, i.tokens])
    let scales (t : Tensor) : Bool := decide (t.fmt = .e8m0) && decide (t.layout = 0) && decide (t.sizes = [g.d / 32, i.tokens])
    if orNone k rows && orNone v rows && orNone kScales scales && orNone vScales scales then (s, .ok ⟨g, tag, k, kScales, v, vScales⟩)
    else (s, .error (finCode 7))

/-- The tag the item goes on from: that of the source under MOVE, a fresh one under INIT (R256). -/
def checkTag (u : CUnit) (g : Geometry) (s : State) (i : Item) : Checked Tag :=
  let ag : Agent := .servitor u
  let at_ := if i.moves then i.field 239 200 else i.parison
  let fresh := Tag.fresh g i.sequence i.layer i.head (i.pos / 16)
  if i.init && !i.moves then
    (if i.pos % 16 = 0 then (s, .ok fresh) else (s, .error (finCode 2)))
  else match s.fetchStruct i ag (at_ + g.parison) 64 (if i.moves then 2 else 1) with
    | (s, .stop f) => (s, .error f)
    | (s, .ok x) =>
      let t : Tag := ⟨x⟩
      if !t.valid || !t.names i.sequence i.layer i.head then (s, .error (finCode 2))
      else if i.init then (if i.pos % 16 = 0 then (s, .ok fresh) else (s, .error (finCode 2)))
      else if i.pos = t.next then (s, .ok t) else (s, .error (finCode 2))

/-- The checks of KV_APPEND (R256). -/
def checkAppend (u : CUnit) (s : State) (i : Item) : Checked AppendPlan :=
  let ag : Agent := .servitor u
  let q := i.sequence
  match s.kvLook i q 0 0 with
  | (s, some f) => (s, .error f)
  | (s, none) =>
    let p := seqPool (s.seqEntry q)
    let g := s.geometry p
    if 4096 < i.tokens ∨ (i.moves = true ∧ 0 < i.tokens) then (s, .error (finBad 6 0))
    else if !s.seqActive q || s.seqClosing q || decide (g.layers ≤ i.layer) || decide (g.heads ≤ i.head) then (s, .error (finCode 1))
    else if !s.ownPad u ag i.parison g.held true then (s, .error (finBad 5 1))
    else if i.moves ∧ (i.field 239 200 % 64 ≠ 0 ∨ s.fixedAnswer ag (i.field 239 200) g.held true ≠ .ok) then (s, .error (finBad 5 2))
    else match checkTag u g s i with
      | (s, .error f) => (s, .error f)
      | (s, .ok tag) =>
        let full := (tag.count + i.tokens) / 16
        match s.translateAll i q ((List.range (min 16384 (tag.block + full) - tag.block)).map (tag.block + ·)) with
        | (s, .error f) => (s, .error f)
        | (s, .ok es) =>
          if 16384 < tag.block + full ∨ es.any (fun e => e.st != 1) = true then (s, .error (finCode 3))
          else checkTokens ag g tag s i

/-- Where an append stands. -/
structure Appending where
  s : State
  block : Nat
  count : Nat
  entry : Option Nat := none
  stop : Option Finish := none

/-- The number of a slice among all. -/
def sliceKey (q l h : Nat) : Nat := q * 2 ^ 14 + l * 2 ^ 6 + h

/-- Writes the tag as it stands. -/
def Appending.store (x : Appending) (ag : Agent) (i : Item) (p : AppendPlan) : Appending :=
  let s := x.s.put ag (i.parison + p.g.parison) (toLe 64 (p.tag.with x.block x.count).word)
  { x with s := { s with kv := { s.kv with blocks := kset s.kv.blocks (sliceKey i.sequence i.layer i.head) x.block } } }

/-- Copies one row with its poison. -/
def Appending.row (x : Appending) (ag : Agent) (i : Item) (src : Option Tensor) (dst : Tensor) (from_ onto : Nat) : Appending :=
  match src, x.stop with
  | some t, none =>
    let idx := (List.range (t.size 0)).map (fun k => [k, from_])
    let sp : List (Int × Nat) := if t.fmt.narrow || decide (t.stride0 = 1) then [(t.rowAt [from_], ceilDiv (t.size 0 * t.fmt.bits) 8)]
      else idx.map (fun j => ((t.place j).1, t.fmt.bits / 8))
    let r := x.s.touch i ag sp
    match r.gone with
    | some f => { x with s := r.s, stop := some f }
    | none =>
      let s := r.s.setRun ag dst [onto] 0 (idx.map (fun j => r.s.elem t j))
      let s := if r.bad = [] then s else idx.foldl (fun s j =>
        if t.badElem r.bad j then
          let (a, b) := dst.place [j.headD 0, onto]
          s.pokePoison a.toNat (dst.width b)
        else s) s
      { x with s := s, entry := x.entry.orElse (fun _ => r.entry) }
  | _, _ => x

/-- Flushes the full parison into slice (l, h) of its page (R257): poison leaves page and tag as they are (R370). -/
def Appending.flush (x : Appending) (u : CUnit) (i : Item) (p : AppendPlan) : Appending :=
  if x.stop.isSome then x
  else match x.s.translate i i.sequence x.block with
  | (s, .error f) => { x with s := s, stop := some f }
  | (s, .ok e) =>
    let pool := seqPool (s.seqEntry i.sequence)
    if e.st ≠ 1 then { x with s := s, stop := some (finCode 3) }
    else if s.poolSlices pool ≤ e.slices then { x with s := s, stop := some (finCode 9) }
    else
      let at_ := s.sliceAt pool e.frame i.layer i.head
      let rows := i.parison
      let sc := i.parison + p.g.parison + 64
      let t := s.touch i (.servitor u) [((rows : Int), p.g.parison), ((sc : Int), p.g.scales)]
      match t.gone, t.entry with
      | some f, _ => { x with s := t.s, stop := some f }
      | none, some k => { x with s := t.s, stop := some (finUncorrected k) }
      | none, none =>
        match t.s.landing i (.servitor u) [((at_ : Int), p.g.parison + p.g.scales)] with
        | (s, some f) => { x with s := s, stop := some f }
        | (s, none) =>
          let s := s.put (.servitor u) at_ (s.peek rows p.g.parison ++ s.peek sc p.g.scales)
          let s := (s.addSlice i.sequence x.block).bump Regs.kvFlushes
          ({ x with s := s, block := x.block + 1, count := 0 }).store (.servitor u) i p

/-- Appends token k of the item. -/
def Appending.token (x : Appending) (u : CUnit) (i : Item) (p : AppendPlan) (k : Nat) : Appending :=
  let ag : Agent := .servitor u
  let x := if x.count = 16 then x.flush u i p else x
  if x.stop.isSome then x
  else
    let sc := i.parison + p.g.parison + 64
    let x1 := x.row ag i p.k (p.g.keys i.parison) k x.count
    let x2 := x1.row ag i p.v (p.g.values i.parison) k x.count
    let x3 := x2.row ag i p.kScales (p.g.keyScales sc) k x.count
    let x4 := x3.row ag i p.vScales (p.g.valueScales sc) k x.count
    if x4.stop.isSome then x4 else ({ x4 with count := x4.count + 1 }).store ag i p

/-- MOVE: the parison and its tag come over, poison with them (R370), and the source's tag is no longer VALID. -/
def Appending.takeOver (x : Appending) (u : CUnit) (i : Item) (p : AppendPlan) : Appending :=
  if i.moves then
    let ag : Agent := .servitor u
    let src := i.field 239 200
    let a := src + p.g.parison
    let cleared (s : State) : State := s.put ag a (toLe 64 (setBit (ofLe (s.peek a 64)) 26 false))
    match x.s.copyBytes i ag ag src i.parison p.g.held with
    | (s, ⟨0, _, _⟩) => { x with s := cleared s }
    | (s, ⟨4, _, entry⟩) => { x with s := cleared s, entry := some entry }
    | (s, f) => { x with s := s, stop := some f }
  else x

/-- The effect of KV_APPEND (R257). -/
def State.append (s : State) (u : CUnit) (i : Item) (p : AppendPlan) : State :=
  let s := s.register i.ring i.seq i.sequence
  let x : Appending := { s := s, block := p.tag.block, count := p.tag.count }
  let x := x.takeOver u i p
  let x := if i.init && x.stop.isNone then x.store (.servitor u) i p else x
  let x := (List.range i.tokens).foldl (fun (x : Appending) k => x.token u i p k) x
  let x := if x.count = 16 then x.flush u i p else x
  x.s.setFinish i (x.stop.getD (copyEnd x.entry 0))

/-- KV_APPEND. -/
def execKvAppend (u : CUnit) (s : State) : Res :=
  .next (s.runItem ⟨.unit u, .copy⟩ 0x33 (checkAppend u) (fun s i p => s.append u i p))

/-! ### Work-list entries (R261–R266) -/

/-- A work-list entry as its 64 bytes spell it (R265). -/
structure AttEntry where
  word : Nat
  deriving DecidableEq, Repr

def AttEntry.sequence (e : AttEntry) : Nat := bits e.word 11 0
def AttEntry.layer (e : AttEntry) : Nat := bits e.word 19 12
def AttEntry.head (e : AttEntry) : Nat := bits e.word 25 20
def AttEntry.group (e : AttEntry) : Nat := bits e.word 30 26
def AttEntry.final (e : AttEntry) : Bool := bit e.word 31
def AttEntry.qpos (e : AttEntry) : Nat := bits e.word 63 32
def AttEntry.qn (e : AttEntry) : Nat := bits e.word 79 64
def AttEntry.causal (e : AttEntry) : Bool := bit e.word 80
def AttEntry.gcount (e : AttEntry) : Nat := bits e.word 87 81
def AttEntry.t0 (e : AttEntry) : Nat := bits e.word 127 96
def AttEntry.t1 (e : AttEntry) : Nat := bits e.word 159 128
def AttEntry.window (e : AttEntry) : Nat := bits e.word 191 160
def AttEntry.q (e : AttEntry) : Nat := bits e.word 231 192
def AttEntry.out (e : AttEntry) : Nat := bits e.word 295 256
def AttEntry.maskMap (e : AttEntry) : Nat := bits e.word 359 320
def AttEntry.parison (e : AttEntry) : Nat := bits e.word 423 384
def AttEntry.globals (e : AttEntry) : Nat := bits e.word 487 448
def AttEntry.maskStride (e : AttEntry) : Nat := bits e.word 503 488
/-- Query rows M. -/
def AttEntry.rows (e : AttEntry) : Nat := e.qn * e.group
/-- Position of row m. -/
def AttEntry.rowPos (e : AttEntry) (m : Nat) : Nat := e.qpos + m / e.group
/-- Key pages [first, past) of the range. -/
def AttEntry.firstPage (e : AttEntry) : Nat := e.t0 / 16
def AttEntry.pastPage (e : AttEntry) : Nat := ceilDiv e.t1 16

/-- An entry whose checks have passed. -/
structure AttPlan where
  e : AttEntry
  g : Geometry
  globals : List Nat
  q : Tensor
  out : Tensor
  tag : Option Tag

/-- A bitmap's bit for a query page and a key page (R262). -/
def State.maskBit (s : State) (e : AttEntry) (qb kb : Nat) : Bool :=
  bit (ofLe (s.peek (e.maskMap + (qb - e.qpos / 16) * e.maskStride + kb / 8) 1)) (kb % 8)

/-- Whether row position p sees key t (R261). -/
def State.allowed (s : State) (e : AttEntry) (globals : List Nat) (p t : Nat) : Bool :=
  decide (e.t0 ≤ t) && decide (t < e.t1) && (!e.causal || decide (t ≤ p))
  && (if e.maskMap ≠ 0 then s.maskBit e (p / 16) (t / 16)
      else decide (e.window = 0) || decide ((p : Int) - t < e.window ∧ (t : Int) - p < e.window) || globals.contains t || globals.contains p)

/-- Whether some row of a tile sees a position of page b (R263). -/
def State.pageSeen (s : State) (e : AttEntry) (globals : List Nat) (r0 mt b : Nat) : Bool :=
  ((List.range mt).map (fun m => e.rowPos (r0 + m))).eraseDups.any (fun p =>
    (List.range 16).any (fun k => s.allowed e globals p (16 * b + k)))

/-- The row tiles of an entry: first row and rows. -/
def AttEntry.tiles (e : AttEntry) : List (Nat × Nat) :=
  (List.range (ceilDiv e.rows 64)).map (fun k => (64 * k, min 64 (e.rows - 64 * k)))

/-- The first page held by the parison, or one past every page. -/
def AttPlan.parisonPage (p : AttPlan) : Nat :=
  match p.tag with
  | some t => t.block
  | none => 16384

/-- The pages of an entry, ascending. -/
def AttEntry.pageList (e : AttEntry) : List Nat := (List.range (e.pastPage - e.firstPage)).map (fun k => e.firstPage + k)

/-- Pages below the parison that some tile will fetch. -/
def State.wantedPages (s : State) (p : AttPlan) : List Nat :=
  p.e.pageList.filter (fun b => decide (b < p.parisonPage) && p.e.tiles.any (fun t => s.pageSeen p.e p.globals t.1 t.2 b))

/-- Whether a list rises strictly. -/
def rising : List Nat → Bool
  | a :: b :: t => decide (a < b) && rising (b :: t)
  | _ => true

/-- Checks of the numbers of an entry: code 5, then code 10. -/
def AttEntry.cause (e : AttEntry) (decoding : Bool) : Option Finish :=
  let most := if decoding then 16 else 4096
  if e.t1 ≤ e.t0 ∨ 16384 < e.t1 - e.t0 ∨ e.qn = 0 ∨ most < e.qn ∨ e.group = 0 ∨ 16 < e.group then some (finCode 5)
  else if 64 < e.gcount ∨ e.window % 16 ≠ 0 ∨ 262144 < e.window
      ∨ (e.maskMap ≠ 0 ∧ e.maskStride < ceilDiv (ceilDiv e.t1 16) 8) then some (finCode 10)
  else none

/-- Reads G, or lets the bitmap's bytes be met (R262). -/
def State.attMask (s : State) (i : Item) (u : CUnit) (e : AttEntry) : Checked (List Nat) :=
  if e.maskMap ≠ 0 then
    let qs := (e.qpos + e.qn - 1) / 16 - e.qpos / 16 + 1
    match s.fetchStruct i (.servitor u) e.maskMap ((qs - 1) * e.maskStride + (e.t1 - 1) / 16 / 8 + 1) 1 with
    | (s, .stop f) => (s, .error f)
    | (s, .ok _) => (s, .ok [])
  else if e.gcount = 0 then (s, .ok [])
  else match s.fetchStruct i (.servitor u) e.globals (4 * e.gcount) 1 with
    | (s, .stop f) => (s, .error f)
    | (s, .ok x) =>
      let gs := (List.range e.gcount).map (fun k => bits x (32 * k + 31) (32 * k))
      if rising gs then (s, .ok gs) else (s, .error (finCode 10))

/-- The tag an entry's PARISON names (R266): code 2, and code 4 beyond the slice's tokens. Without one, an entry that reaches a
position at or above 16 × BLOCK of the slice's tag is refused, that of a lost tag too (R258); the code is log 30's. -/
def State.attTag (s : State) (i : Item) (u : CUnit) (g : Geometry) (e : AttEntry) : Checked (Option Tag) :=
  if e.parison = 0 then
    match kfind s.kv.blocks (sliceKey e.sequence e.layer e.head) with
    | some b => if 16 * b < e.t1 then (s, .error (finCode 2)) else (s, .ok none)
    | none => (s, .ok none)
  else if !s.ownPad u (.compute u) e.parison g.held false then (s, .error (finBad 5 1))
  else match s.fetchStruct i (.compute u) (e.parison + g.parison) 64 1 with
    | (s, .stop f) => (s, .error f)
    | (s, .ok x) =>
      let t : Tag := ⟨x⟩
      if !t.valid || !t.names e.sequence e.layer e.head then (s, .error (finCode 2))
      else if t.next < e.t1 then (s, .error (finCode 4))
      else (s, .ok (some t))

/-- FP32, BF16 or FP16. -/
def resultFmt (f : Fmt) : Bool := decide (f = .fp32) || wide16 f

/-- The checks of one entry (R266). -/
def State.attEntry (s : State) (i : Item) (u : CUnit) (decoding : Bool) (x : Nat) : Checked AttPlan :=
  let e : AttEntry := ⟨x⟩
  let ag : Agent := .compute u
  match s.kvLook i e.sequence 0 0 with
  | (s, some f) => (s, .error f)
  | (s, none) =>
    let g := s.geometry (seqPool (s.seqEntry e.sequence))
    if !s.seqActive e.sequence || s.seqClosing e.sequence || decide (g.layers ≤ e.layer) || decide (g.heads ≤ e.head) then
      (s, .error (finCode 1))
    else match e.cause decoding with
    | some f => (s, .error f)
    | none =>
    match s.attMask i u e with
    | (s, .error f) => (s, .error f)
    | (s, .ok globals) =>
    match s.descriptor i ag e.q 1 false with
    | (s, .error f) => (s, .error f)
    | (s, .ok q) =>
    match s.descriptor i (.servitor u) e.out 1 true with
    | (s, .error f) => (s, .error f)
    | (s, .ok out) =>
      let outOk := decide (out.layout = 0) && (if e.final then resultFmt out.fmt && decide (out.sizes = [g.d, e.rows])
        else decide (out.fmt = .fp32) && decide (out.sizes = [g.d + 2, e.rows]))
      if !wide16 q.fmt || !pairOk q.fmt g.fmt i.limb then (s, .error (finCode 7))
      else if q.layout ≠ 0 ∨ q.sizes ≠ [g.d, e.rows] ∨ outOk = false then (s, .error (finBad 8 1))
      else if i.field 287 256 < 512 * g.d + 4 * min e.rows 64 * 64 * ceilDiv (e.t1 - e.t0) 64 then (s, .error (finCode 6))
      else match s.attTag i u g e with
        | (s, .error f) => (s, .error f)
        | (s, .ok tag) =>
          let p : AttPlan := ⟨e, g, globals, q, out, tag⟩
          let pages := s.wantedPages p
          match s.translateAll i e.sequence (pages.filter (fun b => decide (b < 16384))) with
          | (s, .error f) => (s, .error f)
          | (s, .ok es) =>
            if pages.any (fun b => decide (16384 ≤ b)) || es.any (fun e => !e.mapped) then (s, .error (finCode 4)) else (s, .ok p)

/-- The checks of every entry of a work list (R266). -/
def State.attEntries (s : State) (i : Item) (u : CUnit) (decoding : Bool) : List Nat → Checked (List AttPlan)
  | [] => (s, .ok [])
  | x :: xs =>
    match s.attEntry i u decoding x with
    | (s, .error f) => (s, .error f)
    | (s, .ok p) =>
      match s.attEntries i u decoding xs with
      | (s, .error f) => (s, .error f)
      | (s, .ok ps) => (s, .ok (p :: ps))

def Item.entries (i : Item) : Nat := i.field 79 64
def Item.scale (i : Item) : Nat := i.field 127 96
def Item.workList (i : Item) : Nat := i.field 167 128
def Item.workArea (i : Item) : Nat := i.field 231 192
def Item.workBytes (i : Item) : Nat := i.field 287 256

/-- The checks of ATT_PREFILL and ATT_DECODE (R264, R266). -/
def checkAttention (u : CUnit) (decoding : Bool) (s : State) (i : Item) : Checked (List AttPlan) :=
  let ag : Agent := .compute u
  let mask := i.mask
  let most := if decoding then 256 else 1
  if i.limb = 3 ∨ (f32 i.scale).isNan ∨ (f32 i.scale).isInf then (s, .error (finBad 6 0))
  else if i.entries = 0 ∨ most < i.entries then (s, .error (finCode 5))
  else if !(unitGaffers u).all (fun g => bit mask g) then (s, .error (finCode 8))
  else if !s.ownPad u ag i.workList (64 * i.entries) false then (s, .error (finBad 5 1))
  else if !s.ownPad u ag i.workArea 1 true then (s, .error (finBad 5 2))
  else if !s.ownPad u ag i.workArea i.workBytes true then (s, .error (finBad 7 2))
  else match s.fetchStruct i ag i.workList (64 * i.entries) 1 with
    | (s, .stop f) => (s, .error f)
    | (s, .ok x) => s.attEntries i u decoding ((List.range i.entries).map (fun k => bits x (512 * k + 511) (512 * k)))

/-! ### The computation (R267–R270) -/

/-- A V element widened to BF16 (R268). -/
def vBar (v : Num) : Num := bf16 (encodeNum .bf16 none v).code

/-- A key position that a tile reads: its position, its key row, its widened value row. -/
structure KeyRow where
  t : Nat
  k : List Num
  v : List Num

/-- The rows of a slice or parison whose rows lie at `at_` and scales at `sc`: n positions from `first` on. -/
def State.keyRows (s : State) (g : Geometry) (at_ sc first n : Nat) : List KeyRow :=
  let scaled (t : Tensor) : Option Tensor := if g.fmt.mx then some t else none
  (List.range n).map (fun r => ⟨first + r, s.operandRow (g.keys at_) (scaled (g.keyScales sc)) r,
    (s.operandRow (g.values at_) (scaled (g.valueScales sc)) r).map vBar⟩)

/-- What fetching the pages of a tile gives. -/
structure PageFetch where
  s : State
  keys : List KeyRow := []
  entry : Option Nat := none
  stop : Option Finish := none

/-- Fetches one page of a tile: from its frame, or from the parison (R253, R266). -/
def PageFetch.page (x : PageFetch) (i : Item) (u : CUnit) (p : AttPlan) (b : Nat) : PageFetch :=
  if x.stop.isSome then x
  else if p.parisonPage ≤ b then
    let at_ := p.e.parison
    let t := x.s.touch i (.compute u) [((at_ : Int), p.g.held)]
    let n := (p.tag.map Tag.count).getD 0
    { s := t.s, keys := x.keys ++ t.s.keyRows p.g at_ (at_ + p.g.parison + 64) (16 * b) n,
      entry := x.entry.orElse (fun _ => t.entry), stop := t.gone }
  else match x.s.translate i p.e.sequence b with
    | (s, .error f) => { x with s := s, stop := some f }
    | (s, .ok e) =>
      let at_ := s.sliceAt (seqPool (s.seqEntry p.e.sequence)) e.frame p.e.layer p.e.head
      let t := s.touch i (.servitor u) [((at_ : Int), p.g.parison + p.g.scales)]
      { s := t.s, keys := x.keys ++ t.s.keyRows p.g at_ (at_ + p.g.parison) (16 * b) 16,
        entry := x.entry.orElse (fun _ => t.entry), stop := t.gone }

/-- A row of results: m, s and o as FP32 patterns, and whether s and each o overflowed where they were rounded. -/
structure AttRow where
  m : Nat
  s : Nat
  o : List Nat
  lost : List Bool := []

/-- An accumulator's result rounded to FP32. -/
def Acc.f32 (x : Acc) : Nat := plusZero .fp32 (toF32 x.value)

def minusInf : Nat := 0xFF800000
def nan32 : Nat := 0x7FC00000

/-- The query of row m as the array takes it. -/
def State.attQuery (s : State) (i : Item) (p : AttPlan) (m : Nat) : List Num := limbRow i.limb p.q.fmt (s.operandRow p.q none m)

/-- The dot product of row m and a key. -/
def State.attScore (s : State) (i : Item) (p : AttPlan) (m : Nat) (k : KeyRow) : Acc :=
  dotRows {} i.limb p.q.fmt p.g.fmt (s.attQuery i p m) k.k

/-- The same beside its predicted residue. -/
def State.attWatched (s : State) (i : Item) (p : AttPlan) (m : Nat) (k : KeyRow) : Watched :=
  dotWatched {} i.limb p.q.fmt p.g.fmt (s.attQuery i p m) k.k

/-- What the scaled scores of a row leave to its second pass (R267, R269): its maximum and the weights of the keys, or the row itself
where no exponential is taken for it. -/
def State.attWeights (s : State) (p : AttPlan) (keys : List KeyRow) (m : Nat) (scaled : List Nat) : Except AttRow (Nat × List Num) :=
  let pos := p.e.rowPos m
  let scores := (keys.zip scaled).map (fun x =>
    let seen := s.allowed p.e p.globals pos x.1.t
    (seen, if seen then x.2 else minusInf))
  let none_ := List.replicate p.g.d 0
  if !scores.any (·.1) then .error ⟨minusInf, 0, none_, []⟩
  else if scores.any (fun x => x.1 && ((f32 x.2).isNan || decide (x.2 = 0x7F800000))) then
    .error ⟨nan32, nan32, none_.map (fun _ => nan32), []⟩
  else
    let top := scores.foldl (fun a x => fmax a x.2) minusInf
    .ok (top, scores.map (fun x => bf16 (encodeNum .bf16 none (f32 (fexpDiff x.2 top))).code))

/-- The sum of a row's weights, and element j of its output, beside their predicted residues; nothing where no weight is taken. -/
def weightSum : Except AttRow (Nat × List Num) → Watched
  | .ok (_, ps) => ps.foldl (fun x w => x.take w (.fin false 1 0)) ⟨{}, 0⟩
  | .error _ => ⟨{}, 0⟩
def weightedValue (keys : List KeyRow) (j : Nat) : Except AttRow (Nat × List Num) → Watched
  | .ok (_, ps) => (ps.zip keys).foldl (fun x w => x.take w.1 (w.2.v.getD j .nan)) ⟨{}, 0⟩
  | .error _ => ⟨{}, 0⟩

/-- One row of a tile from its weights, its sum and its output accumulators: the row, and the accumulators it rounded with the column
of each. -/
def finishRow (w : Except AttRow (Nat × List Num)) (sum : Acc) (os : List Acc) : AttRow × List (Nat × Acc) :=
  match w with
  | .error r => (r, [])
  | .ok (top, _) =>
    let lost (a : Acc) : Bool := (encodeNum .fp32 none a.value).overflow
    (⟨top, sum.f32, os.map Acc.f32, lost sum :: os.map lost⟩, (0, sum) :: os.zipIdx.map (fun a => (a.2, a.1)))

/-- The second pass of a tile (R267): the sums and the output columns stand under the check of the array (R354). -/
def State.attRows (s : State) (u : CUnit) (i : Item) (p : AttPlan) (keys : List KeyRow)
    (ws : List (Except AttRow (Nat × List Num))) : State × Except Finish (List (AttRow × List (Nat × Acc))) :=
  let row (m : Nat) : Except AttRow (Nat × List Num) := ws.getD m (.error ⟨minusInf, 0, [], []⟩)
  match s.arrayCheck u i ws.length 1 (fun m _ => weightSum (row m)) with
  | (s, .error f) => (s, .error f)
  | (s, .ok sums) =>
    match s.arrayChecks u i (tileCols u) ws.length p.g.d (fun m j => weightedValue keys j (row m)) with
    | (s, .error f) => (s, .error f)
    | (s, .ok outs) =>
      (s, .ok (ws.zipIdx.map (fun w => finishRow w.1 (bendAt sums w.2 0 (weightSum w.1).acc)
        ((List.range p.g.d).map (fun j => bendAt outs w.2 j (weightedValue keys j w.1).acc)))))

/-- The multiplications that normalise a row (R270): each element times rcp(s); none where s is 0. -/
def AttRow.norms (r : AttRow) : List Exact := if (f32 r.s).isZero then [] else r.o.map (fun o => exactMul o (frcp r.s))

/-- A normalised row from their results; +0 throughout where s is 0. -/
def AttRow.final (r : AttRow) (norms : List Nat) : List Num :=
  if (f32 r.s).isZero then r.o.map (fun _ => .fin false 0 0) else norms.map f32

/-- The normalisation of a tile's rows, under the check of the vector unit. -/
def State.normalise (s : State) (u : CUnit) (i : Item) (rows : List AttRow) : State × Except Finish (List (List Num)) :=
  match s.vectorRows u i (rows.map AttRow.norms) with
  | (s, .error f) => (s, .error f)
  | (s, .ok ys) => (s, .ok ((rows.zip ys).map (fun r => r.1.final r.2)))

/-- Writes a normalised row: it comes from the vector unit, whose generator serves it (R156), and counts on the gaffers `gs`. -/
def State.writeFinal (s : State) (u : CUnit) (ag : Agent) (out : Tensor) (row : Nat) (r : AttRow) (vs : List Num) (round : Bool)
    (gs : List Nat) : State :=
  let s := s.bumpIf (f32 r.s).isZero Regs.attEmptyRows
  let (s1, ds) := s.drawAll (round && wide16 out.fmt) (gs.map (fun _ => vectorGaffer u))
  s1.writeResults ag out none [row] 0 (vs.zip ds) gs false

/-- Writes a partial row: m, s, then o (R270). -/
def State.writePartial (s : State) (ag : Agent) (out : Tensor) (row : Nat) (r : AttRow) (gs : List Nat) : State :=
  let codes := r.m :: r.s :: r.o
  let ws : List Written := codes.zipIdx.map (fun c => ⟨c.1, (f32 c.1).isNan, decide (1 ≤ c.2) && r.lost.getD (c.2 - 1) false⟩)
  let g := gs.headD 0
  (s.setRun ag out [row] 0 codes).countWritten ((g :: g :: gs).zip ws)

/-- One row tile: its fetches; poison ends the item before the tile is written (R263, R370). -/
def State.attTile (s : State) (u : CUnit) (i : Item) (p : AttPlan) (r0 mt : Nat) : State × Option Finish :=
  let pages := p.e.pageList.filter (fun b => s.pageSeen p.e p.globals r0 mt b)
  let s := (s.bumpBy Regs.attPagesRead pages.length).bumpBy Regs.attPagesSkipped (p.e.pageList.length - pages.length)
  let t := s.touch i (.compute u) ((List.range mt).map (fun m => (p.q.rowAt [r0 + m], ceilDiv (p.g.d * p.q.fmt.bits) 8)))
  let x := pages.foldl (fun (x : PageFetch) b => x.page i u p b) { s := t.s, entry := t.entry, stop := t.gone }
  match x.stop, x.entry with
  | some f, _ => (x.s, some f)
  | none, some e => (x.s, some (finUncorrected e))
  | none, none =>
    match x.s.landing i (.servitor u) ((List.range mt).map (fun m => (p.out.rowAt [r0 + m], p.out.size 0 * p.out.fmt.bits / 8))) with
    | (s, some f) => (s, some f)
    | (s, none) =>
      match s.arrayChecks u i (tileCols u) mt x.keys.length (fun m n => match x.keys[n]? with
          | some k => x.s.attWatched i p (r0 + m) k
          | none => ⟨{}, 0⟩) with
      | (s, .error f) => (s, some f)
      | (s, .ok hits) =>
      let accs := (List.range mt).map (fun m => x.keys.zipIdx.map (fun k => bendAt hits m k.2 (x.s.attScore i p (r0 + m) k.1)))
      let steps := accs.map (fun (l : List Acc) => l.map (fun a => exactMul a.f32 i.scale))
      match s.vectorRows u i steps with
      | (s, .error f) => (s, some f)
      | (s, .ok scaled) =>
      match s.attRows u i p x.keys (scaled.zipIdx.map (fun r => x.s.attWeights p x.keys (r0 + r.2) r.1)) with
      | (s, .error f) => (s, some f)
      | (s, .ok second) =>
      let scores := accs.map (fun l => (x.keys.zip l).map (fun a => (a.1.t % 64, a.2)))
      let rows := (second.zip scores).map (fun r => (r.1.1, r.2 ++ r.1.2))
      match (if p.e.final then s.normalise u i (rows.map (·.1)) else (s, .ok [])) with
      | (s, .error f) => (s, some f)
      | (s, .ok vals) =>
      let gs := (List.range p.g.d).map (fun j => columnGaffer u j)
      (rows.zipIdx.foldl (fun s r =>
        let s := r.1.2.foldl (fun s c => s.bumpIf c.2.inexact (Regs.accInexact (columnGaffer u c.1))) s
        if p.e.final then s.writeFinal u (.servitor u) p.out (r0 + r.2) r.1.1 (vals.getD r.2 []) i.round gs
        else s.writePartial (.servitor u) p.out (r0 + r.2) r.1.1 gs) s, none)

/-- The tiles of every entry in order; the first cause to arise stops the item. -/
def State.attTiles (s : State) (u : CUnit) (i : Item) (ps : List AttPlan) : State × Option Finish :=
  (ps.flatMap (fun p => p.e.tiles.map (fun t => (p, t)))).foldl (fun (acc : State × Option Finish) x =>
    match acc.2 with
    | some _ => acc
    | none => acc.1.attTile u i x.1 x.2.1 x.2.2) (s, none)

/-- The effect of an attention item: its entries register, its work area is used, its tiles are computed. -/
def State.attention_ (s : State) (u : CUnit) (i : Item) (ps : List AttPlan) : State :=
  let s := ps.foldl (fun s p => s.register i.ring i.seq p.e.sequence) s
  let s := s.forgetRange i.workArea i.workBytes
  let (s1, f) := s.attTiles u i ps
  s1.setFinish i (f.getD (finDone 0))

/-- ATT_PREFILL. -/
def execAttPrefill (u : CUnit) (s : State) : Res :=
  .next (s.runItem ⟨.unit u, .array⟩ 0x30 (checkAttention u false) (fun s i ps => s.attention_ u i ps))

/-- ATT_DECODE. -/
def execAttDecode (u : CUnit) (s : State) : Res :=
  .next (s.runItem ⟨.unit u, .array⟩ 0x31 (checkAttention u true) (fun s i ps => s.attention_ u i ps))

/-! ### ATT_MERGE (R161, R272, R273) -/

/-- A bucket whose checks have passed. -/
structure MergeEntry where
  split : Nat
  dim : Nat
  rows : Nat
  parts : Nat
  out : Tensor
  stats : Option Tensor

/-- Bytes of one partial of a bucket. -/
def MergeEntry.partBytes (b : MergeEntry) : Nat := (b.dim + 2) * b.rows * 4

/-- One row of partial k. -/
def State.partRow (s : State) (b : MergeEntry) (k row : Nat) : AttRow :=
  let at_ := b.parts + k * b.partBytes + row * (b.dim + 2) * 4
  let x := (List.range (b.dim + 2)).map (fun j => ofLe (s.peek (at_ + 4 * j) 4))
  ⟨x.getD 0 0, x.getD 1 0, x.drop 2, []⟩

/-- The merge step (R161, R273): its multiplications and its multiply-adds stand under the check of the vector unit (R354). -/
def State.mergeRows (s : State) (u : CUnit) (i : Item) (a b : AttRow) : State × Except Finish AttRow :=
  if (f32 a.m).isNan || (f32 b.m).isNan then (s, .ok ⟨nan32, nan32, a.o.map (fun _ => nan32), []⟩)
  else if a.m = minusInf ∧ b.m = minusInf then (s, .ok ⟨minusInf, 0, a.o.map (fun _ => 0), []⟩)
  else
    let m := fmax a.m b.m
    match s.vectorCheck u i 0 ((b.s :: b.o).map (fun y => exactMul y (fexpDiff b.m m))) with
    | (s, .error f) => (s, .error f)
    | (s, .ok ys) =>
      match s.vectorCheck u i 0 (List.zipWith (fun x y => exactFma x (fexpDiff a.m m) y) (a.s :: a.o) ys) with
      | (s, .error f) => (s, .error f)
      | (s, .ok zs) => (s, .ok ⟨m, zs.headD 0, zs.drop 1, []⟩)

/-- One level of the tree: neighbours merged, an odd last one kept. -/
def State.mergePairs (s : State) (u : CUnit) (i : Item) : List AttRow → State × Except Finish (List AttRow)
  | a :: b :: t =>
    match s.mergeRows u i a b with
    | (s, .error f) => (s, .error f)
    | (s, .ok r) =>
      match s.mergePairs u i t with
      | (s, .error f) => (s, .error f)
      | (s, .ok l) => (s, .ok (r :: l))
  | l => (s, .ok l)

/-- The tree of R273; `n` bounds its levels, four for 16 partials. -/
def State.mergeTree (s : State) (u : CUnit) (i : Item) (l : List AttRow) : Nat → State × Except Finish AttRow
  | 0 => (s, .ok (l.headD ⟨minusInf, 0, [], []⟩))
  | n + 1 =>
    match s.mergePairs u i l with
    | (s, .error f) => (s, .error f)
    | (s, .ok l) => s.mergeTree u i l n

/-- The trees of a bucket's rows, one after another. -/
def State.mergeTrees (s : State) (u : CUnit) (i : Item) : List (List AttRow) → State × Except Finish (List AttRow)
  | [] => (s, .ok [])
  | l :: t =>
    match s.mergeTree u i l 4 with
    | (s, .error f) => (s, .error f)
    | (s, .ok r) =>
      match s.mergeTrees u i t with
      | (s, .error f) => (s, .error f)
      | (s, .ok rs) => (s, .ok (r :: rs))

/-- The checks of one bucket entry (R272). -/
def State.checkBucket (s : State) (i : Item) (u : CUnit) (x : Nat) : Checked MergeEntry :=
  let ag : Agent := .compute u
  match s.descriptor i ag (bits x 167 128) 1 true with
  | (s, .error f) => (s, .error f)
  | (s, .ok out) =>
  match s.descriptorIf i ag (decide (bits x 207 168 ≠ 0)) ⟨1, bits x 207 168, true⟩ with
  | (s, .error f) => (s, .error f)
  | (s, .ok stats) =>
    let b : MergeEntry := ⟨bits x 7 0, bits x 31 16, bits x 63 32, bits x 103 64, out, stats⟩
    let ok := decide (1 ≤ b.split) && decide (b.split ≤ 16) && decide (b.dim % 32 = 0) && decide (32 ≤ b.dim) && decide (b.dim ≤ 256)
      && decide (1 ≤ b.rows) && decide (b.rows ≤ 65536) && s.ownPad u ag b.parts (b.split * b.partBytes) false
      && resultFmt out.fmt && decide (out.layout = 0) && decide (out.sizes = [b.dim, b.rows])
      && orNone stats (fun t => decide (t.fmt = .fp32) && decide (t.layout = 0) && decide (t.sizes = [2, b.rows]))
    if ok then (s, .ok b) else (s, .error (finCode 11))

def State.checkBuckets (s : State) (i : Item) (u : CUnit) : List Nat → Checked (List MergeEntry)
  | [] => (s, .ok [])
  | x :: xs =>
    match s.checkBucket i u x with
    | (s, .error f) => (s, .error f)
    | (s, .ok b) =>
      match s.checkBuckets i u xs with
      | (s, .error f) => (s, .error f)
      | (s, .ok bs) => (s, .ok (b :: bs))

def Item.buckets (i : Item) : Nat := i.field 36 33
def Item.bucketTable (i : Item) : Nat := i.field 103 64

/-- The checks of ATT_MERGE. -/
def checkMerge (u : CUnit) (s : State) (i : Item) : Checked (List MergeEntry) :=
  if i.buckets = 0 ∨ 8 < i.buckets then (s, .error (finBad 6 0))
  else if !(within i.bucketTable (32 * i.buckets) (unitBase u) (unitSpan u)
      && s.fixedAnswer (.compute u) i.bucketTable (32 * i.buckets) false == .ok) then (s, .error (finBad 5 1))
  else match s.fetchStruct i (.compute u) i.bucketTable (32 * i.buckets) 1 with
    | (s, .stop f) => (s, .error f)
    | (s, .ok x) => s.checkBuckets i u ((List.range i.buckets).map (fun k => bits x (256 * k + 255) (256 * k)))

/-- Merges and writes one bucket; poison among its partials stops the item before the bucket is written (R370). -/
def State.mergeBucket (s : State) (u : CUnit) (i : Item) (b : MergeEntry) : State × Option Finish :=
  let ag : Agent := .compute u
  let t := s.touch i ag [((b.parts : Int), b.split * b.partBytes)]
  match t.gone, t.entry with
  | some f, _ => (t.s, some f)
  | none, some e => (t.s, some (finUncorrected e))
  | none, none =>
    match t.s.mergeTrees u i ((List.range b.rows).map (fun r => (List.range b.split).map (fun k => t.s.partRow b k r))) with
    | (s, .error f) => (s, some f)
    | (s, .ok rows) =>
    match s.normalise u i rows with
    | (s, .error f) => (s, some f)
    | (s, .ok vals) =>
    let g := vectorGaffer u
    ((rows.zipIdx.map (fun r => (r.2, r.1))).foldl (fun s r =>
      let s := s.writeFinal u ag b.out r.1 r.2 (vals.getD r.1 []) i.round (r.2.o.map (fun _ => g))
      match b.stats with
      | some st =>
        let ws : List Written := [r.2.m, r.2.s].map (fun c => ⟨c, (f32 c).isNan, false⟩)
        (s.setRun ag st [r.1] 0 [r.2.m, r.2.s]).countWritten ([g, g].zip ws)
      | none => s) s, none)

/-- ATT_MERGE. -/
def execAttMerge (u : CUnit) (s : State) : Res :=
  .next (s.runItem ⟨.unit u, .vector⟩ 0x32 (checkMerge u) (fun s i bs =>
    let (s1, f) := bs.foldl (fun (acc : State × Option Finish) b =>
      match acc.2 with
      | some _ => acc
      | none => acc.1.mergeBucket u i b) (s, none)
    s1.setFinish i (f.getD (finDone 0))))

end Sys2Proof.Machine
end

