-- ==== Sys2Proof/Machine/Arbor.lean ====
section
/-! DEFINITION. The Arbor (R284–R304): the block hash, the tree and its index, lookup, insertion, release, copy-on-write, swap to
host memory in the portable page format, and the export of a pre-empted lease. -/

namespace Sys2Proof.Machine

/-! ### The block hash (R284) -/

def mix64 (x : Nat) : Nat :=
  let x := x ^^^ (x >>> 33)
  let x := (x * 0xff51afd7ed558ccd) % 2 ^ 64
  let x := x ^^^ (x >>> 33)
  let x := (x * 0xc4ceb9fe1a85ec53) % 2 ^ 64
  x ^^^ (x >>> 33)

/-- The hash of a block's 16 tokens under its parent's hash. -/
def blockHash (parent tokens : Nat) : Nat :=
  (List.range 16).foldl (fun h i => mix64 (h ^^^ bits tokens (32 * i + 31) (32 * i))) parent

/-- What stands for the parent hash of block 0. -/
def State.rootHash (s : State) (p : Nat) : Nat := s.reg (Regs.kvpSalt p) ^^^ p

/-! ### Nodes and the index (R285, R286) -/

def nodeCount : Nat := 40960
def noNode : Nat := 0xFFFF
def removedNode : Nat := 0xFFFE
def nodeAt (k : Nat) : Nat := 0xF3001C0000 + 96 * k

/-- A node as its 96 bytes spell it. -/
structure Node where
  word : Nat
  deriving DecidableEq, Repr

def Node.hash (n : Node) : Nat := bits n.word 63 0
def Node.parent (n : Node) : Nat := bits n.word 79 64
def Node.pool (n : Node) : Nat := bits n.word 81 80
def Node.valid (n : Node) : Bool := bit n.word 82
def Node.frame (n : Node) : Nat := bits n.word 127 96
def Node.children (n : Node) : Nat := bits n.word 143 128
def Node.tokens (n : Node) : Nat := bits n.word 767 256

def Node.make (hash parent pool frame tokens : Nat) : Node :=
  ⟨hash + parent <<< 64 + pool <<< 80 + 2 ^ 82 + frame <<< 96 + tokens <<< 256⟩

def State.node (s : State) (k : Nat) : Node := ⟨ofLe (s.peek (nodeAt k) 96)⟩
def State.setNode (s : State) (k : Nat) (n : Node) : State := s.poke (nodeAt k) (toLe 96 n.word)

/-- Changes a node's CHILDREN. -/
def State.addChild (s : State) (k : Nat) (up : Bool) : State :=
  if k = noNode then s
  else
    let n := s.node k
    s.setNode k ⟨setBits n.word 143 128 (if up then n.children + 1 else n.children - 1)⟩

/-- Valid nodes (ARB_NODES). -/
def State.validNodes (s : State) : List Nat := (List.range nodeCount).filter (fun k => (s.node k).valid)

/-- The 16 slots that a hash probes, in order, by key. -/
def probeKeys (h : Nat) : List Nat :=
  (List.range 16).map (fun i => 4 * ((h % 65536 + i / 4) % 65536) + i % 4)

/-- Where a slot of the index lies: the index starts 0x3C_0000 past the nodes, and a bucket holds four slots of 16 bits. -/
def slotAt (key : Nat) : Nat := nodeAt 0 + 0x3C0000 + 2 * key

def State.slotOf (s : State) (key : Nat) : Nat := ofLe (s.peek (slotAt key) 2)
def State.setSlot (s : State) (key v : Nat) : State := s.poke (slotAt key) (toLe 2 v)

/-- Reads a node, or a slot's bucket, as a table (R370). -/
def State.readNode (s : State) (i : Item) (k : Nat) : State × Option Finish :=
  if nodeCount ≤ k then (s, none) else s.readTable i (nodeAt k) 96
def State.readSlotOf (s : State) (i : Item) (key : Nat) : State × Option Finish := s.readTable i (slotAt key / 8 * 8) 8

/-- What probing for a block gives: the state with its collisions counted, the matching node, whether a collision was met, and what
the tables' own words stopped it with. -/
structure Search where
  s : State
  found : Option Nat := none
  collided : Bool := false
  stop : Option Finish := none

/-- One slot of a probe. -/
def Search.probe (x : Search) (i : Item) (h : Nat) (fits : Node → Bool) (key : Nat) : Search :=
  if x.found.isSome || x.stop.isSome then x
  else match x.s.readSlotOf i key with
    | (s, some f) => { x with s := s, stop := some f }
    | (s, none) =>
      let k := s.slotOf key
      match s.readNode i k with
      | (s, some f) => { x with s := s, stop := some f }
      | (s, none) =>
        if nodeCount ≤ k ∨ (s.node k).hash ≠ h then { x with s := s }
        else if fits (s.node k) then { x with s := s, found := some k }
        else { x with s := s.bump Regs.arbCollisions, collided := true }

/-- Probes for a hash; `fits` is the rest of what makes a node match. -/
def State.search (s : State) (i : Item) (h : Nat) (fits : Node → Bool) : Search :=
  (probeKeys h).foldl (fun (x : Search) key => x.probe i h fits key) { s := s }

/-- Probes for a block of a sequence's pool under a parent node (R286). -/
def State.match_ (s : State) (i : Item) (p parent hash tokens : Nat) : Search :=
  s.search i hash (fun n => decide (n.pool = p) && decide (n.parent = parent) && decide (n.tokens = tokens))

/-- Takes some free node. -/
def State.freeNode (s : State) : Option (State × Nat) :=
  let l := (List.range nodeCount).filter (fun k => !(s.node k).valid)
  if l = [] then none
  else
    let (s, k) := s.pick l.length
    some (s, l.getD k 0)

/-- Sets or clears NODE of a frame. -/
def State.markNode (s : State) (p f : Nat) (on : Bool) : State :=
  match s.readFrame p f with
  | (s, none) => s
  | (s, some e) => s.setFrame p f { e with node := on }

/-! ### Lookup and insertion (R287–R290) -/

def Item.parentNode (i : Item) : Nat := i.field 95 80
def Item.tokensAt (i : Item) : Nat := i.field 199 160
def Item.resultAt (i : Item) : Nat := i.field 239 200

/-- Reads data of the item for the KV manager; poison ends it. -/
def State.kvData (s : State) (i : Item) (a n field : Nat) : State × Fetched :=
  if a % 64 ≠ 0 then (s, .stop (finBad 5 field)) else s.fetchStruct i .kvm a n field

/-- Whether PARENT agrees with B and holds the frame of page B − 1 (R289). -/
def State.parentOk (s : State) (i : Item) : Bool :=
  let q := i.sequence
  let k := i.parentNode
  if i.firstPage = 0 then decide (k = noNode)
  else
    let n := s.node k
    let e := s.pte q (i.firstPage - 1)
    decide (k < nodeCount) && n.valid && e.mapped && decide (n.frame = e.frame) && decide (n.pool = seqPool (s.seqEntry q))

/-- The checks of ARB_LOOKUP (`want` EMPTY) and ARB_INSERT (`want` SEALED); the tokens of each block. -/
def checkBlocks (want : Nat) (s : State) (i : Item) : Checked (List Nat) :=
  let q := i.sequence
  let lo := i.firstPage
  let n := i.pages
  match s.kvLook i q (lo - 1) (min 16384 (lo + n)) with
  | (s, some f) => (s, .error f)
  | (s, none) =>
    if n = 0 ∨ 16384 < n ∨ 16384 < lo + n then (s, .error (finCode 10))
    else if !s.seqActive q then (s, .error (finCode 1))
    else if i.pageList.any (fun b => decide ((s.pte q b).st ≠ want)) then (s, .error (finCode 2))
    else match s.readNode i (if lo = 0 then noNode else i.parentNode) with
    | (s, some f) => (s, .error f)
    | (s, none) =>
    if !s.parentOk i then (s, .error (finCode 3))
    else match s.kvData i i.tokensAt (64 * n) 1 with
      | (s, .stop f) => (s, .error f)
      | (s, .ok x) =>
        match s.checkPlain i .kvm i.resultAt (8 * n) 2 true with
        | (s, .error f) => (s, .error f)
        | (s, .ok _) => (s, .ok ((List.range n).map (fun k => bits x (512 * k + 511) (512 * k))))

/-- Where a walk of blocks stands: parent node and hash, result entries, blocks counted, whether it has stopped, and what the tables'
own words stopped it with. -/
structure Walk where
  s : State
  parent : Nat
  hash : Nat
  results : List Nat := []
  counted : Nat := 0
  stopped : Bool := false
  fault : Option Finish := none

/-- Adds a result entry; the FRAME of an entry with no node is a free value (R288 states none). -/
def Walk.result (x : Walk) (node outcome : Nat) (frame : Option Nat) : Walk :=
  match frame with
  | some f => { x with results := x.results ++ [node + outcome <<< 16 + (f % 2 ^ 32) <<< 32] }
  | none =>
    let (v, s) := x.s.draw
    { x with s := s, results := x.results ++ [node + outcome <<< 16 + (v % 2 ^ 32) <<< 32] }

/-- The walk stops at a block. -/
def Walk.halt (x : Walk) (node outcome : Nat) (frame : Option Nat) : Walk := { x.result node outcome frame with stopped := true }

/-- One block of a lookup. -/
def Walk.look (x : Walk) (i : Item) (q b tokens : Nat) : Walk :=
  if x.fault.isSome then x
  else if x.stopped then x.result noNode 11 none
  else
    let p := seqPool (x.s.seqEntry q)
    let h := blockHash x.hash tokens
    let m := x.s.match_ i p x.parent h tokens
    let x := { x with s := m.s, fault := m.stop }
    if x.fault.isSome then x
    else match m.found with
    | none => x.halt noNode (if m.collided then 2 else 1) none
    | some k =>
      let f := (m.s.node k).frame
      match m.s.addRef p f with
      | (s1, false) => { x with s := s1 }.halt k 9 (some f)
      | (s1, true) =>
        match s1.withTable q b with
        | none => x.halt k 10 (some f)
        | some s2 =>
          let e : Pte := { st := 2, shared := true, slices := s2.poolSlices p, frame := f }
          let s3 := ((s2.changePage q b e).markShared q b true).bump Regs.arbHits
          { ({ x with s := s3 }).result k 0 (some f) with parent := k, hash := h, counted := x.counted + 1 }

/-- A new node for a block: the first slot empty or removed on its path, and a reference for it. -/
def Walk.insertNew (x : Walk) (q b h tokens : Nat) : Walk :=
  let p := seqPool (x.s.seqEntry q)
  let e := x.s.pte q b
  match x.s.freeNode with
  | none => { (x.halt noNode 7 none) with s := (x.halt noNode 7 none).s.bump Regs.arbTreeFull }
  | some (s1, k) =>
    match (probeKeys h).find? (fun key => decide (nodeCount ≤ x.s.slotOf key)) with
    | none => { (x.halt noNode 8 none) with s := (x.halt noNode 8 none).s.bump Regs.arbTreeFull }
    | some key =>
      match s1.addRef p e.frame with
      | (s2, false) => { x with s := s2 }.halt noNode 9 none
      | (s2, true) =>
        let s3 := (s2.markNode p e.frame true).setNode k (Node.make h x.parent p e.frame tokens)
        let s4 := ((s3.setSlot key k).addChild x.parent true).setPte q b { e with shared := true }
        { ({ x with s := s4 }).result k 3 (some e.frame) with parent := k, hash := h, counted := x.counted + 1 }

/-- One block of an insertion (R290). -/
def Walk.insert (x : Walk) (i : Item) (dedup : Bool) (q b tokens : Nat) : Walk :=
  if x.fault.isSome then x
  else if x.stopped then x.result noNode 11 none
  else
    let p := seqPool (x.s.seqEntry q)
    let h := blockHash x.hash tokens
    let m := x.s.match_ i p x.parent h tokens
    let x := { x with s := m.s, fault := m.stop }
    if x.fault.isSome then x
    else match m.found with
    | none => x.insertNew q b h tokens
    | some k =>
      let f := (m.s.node k).frame
      let e := m.s.pte q b
      let on (y : Walk) : Walk := { y with parent := k, hash := h }
      if e.frame = f then on (x.result k 4 (some f))
      else if !dedup then on (x.result k 6 (some f))
      else match m.s.addRef p f with
        | (s1, false) => { x with s := s1 }.halt k 9 (some f)
        | (s1, true) =>
          let s2 := ((s1.setPte q b { e with frame := f, shared := true }).markShared q b true).dropRef p e.frame
          on { ({ x with s := s2 }).result k 5 (some f) with counted := x.counted + 1 }

/-- Where a walk starts. -/
def State.walk (s : State) (i : Item) : Walk :=
  let p := seqPool (s.seqEntry i.sequence)
  let k := i.parentNode
  { s := s, parent := k, hash := if k = noNode then s.rootHash p else (s.node k).hash }

/-- Writes the result entries and ends the item; poison in the tables ends it at once (R370). -/
def Walk.finish (x : Walk) (i : Item) : State :=
  match x.fault with
  | some f => x.s.setFinish i f
  | none =>
  match x.s.landing i .kvm [((i.resultAt : Int), 8 * x.results.length)] with
  | (s, some f) => s.setFinish i f
  | (s, none) => (s.put .kvm i.resultAt (x.results.flatMap (toLe 8))).setFinish i (finDone x.counted)

/-- ARB_LOOKUP. -/
def execArbLookup (s : State) : Res :=
  .next (s.runKv 0x38 (fun _ => true) (checkBlocks 0) (fun s i ts =>
    ((i.pageList.zip ts).foldl (fun (x : Walk) b => x.look i i.sequence b.1 b.2) (s.walk i)).finish i))

/-- ARB_INSERT. -/
def execArbInsert (s : State) : Res :=
  .next (s.runKv 0x39 (fun _ => true) (checkBlocks 2) (fun s i ts =>
    ((i.pageList.zip ts).foldl (fun (x : Walk) b => x.insert i (bit i.rec0 32) i.sequence b.1 b.2) (s.walk i)).finish i))

/-! ### Release (R291, R292) -/

/-- Removes one node from the tree; none where it cannot be removed. -/
def State.unpinNode (s : State) (k : Nat) : Option State :=
  let n := s.node k
  if nodeCount ≤ k ∨ n.valid = false ∨ n.children ≠ 0 then none
  else
    let s := match (probeKeys n.hash).find? (fun key => decide (s.slotOf key = k)) with
      | some key => s.setSlot key removedNode
      | none => s
    let s := (s.addChild n.parent false).setNode k ⟨setBit n.word 82 false⟩
    some ((s.markNode n.pool n.frame false).dropRef n.pool n.frame)

/-- The checks of ARB_RELEASE UNPIN, and of an OP that is reserved. -/
def checkUnpin (s : State) (i : Item) : Checked (List Nat) :=
  match s.kvLook i 0 0 0 with
  | (s, some f) => (s, .error f)
  | (s, none) =>
    if 2 ≤ i.mapOp then (s, .error (finBad 6 0))
    else if i.pages = 0 ∨ 4096 < i.pages then (s, .error (finCode 10))
    else match s.kvData i i.tokensAt (2 * i.pages) 1 with
      | (s, .stop f) => (s, .error f)
      | (s, .ok x) => (s, .ok ((List.range i.pages).map (fun k => bits x (16 * k + 15) (16 * k))))

/-- The reads that removing a node makes: the node, its parent, the buckets on its path. -/
def State.readForUnpin (s : State) (i : Item) (k : Nat) : State × Option Finish :=
  match s.readNode i k with
  | (s, some f) => (s, some f)
  | (s, none) =>
    if nodeCount ≤ k then (s, none)
    else match s.readNode i (s.node k).parent with
      | (s, some f) => (s, some f)
      | (s, none) => s.readTables i ((probeKeys (s.node k).hash).map (fun key => (slotAt key / 8 * 8, 8)))

/-- UNPIN; it is also what answers an ARB_RELEASE whose OP is reserved. -/
def execUnpin (s : State) : Res :=
  .next (s.runKv 0x3A (fun i => decide (i.mapOp ≠ 1)) checkUnpin (fun s i ks =>
    let (s1, f) := ks.foldl (fun (acc : State × Option Finish) k =>
      match acc.2 with
      | some _ => acc
      | none =>
        match acc.1.readForUnpin i k with
        | (s, some f) => (s, some f)
        | (s, none) =>
          match s.unpinNode k with
          | none => (s, some (finCode 4))
          | some s1 => (s1, none)) (s, none)
    s1.setFinish i (f.getD (finDone 0))))

/-- The checks of ARB_RELEASE REOPEN. -/
def checkReopen (s : State) (i : Item) : Checked Unit :=
  let q := i.sequence
  let b := i.firstPage
  match s.kvLook i q b (min 16384 (b + 1)) with
  | (s, some f) => (s, .error f)
  | (s, none) =>
    if 16384 ≤ b then (s, .error (finCode 10))
    else if !s.seqActive q then (s, .error (finCode 1))
    else if (s.pte q b).st ≠ 2 then (s, .error (finCode 2))
    else (s, .ok ())

/-- The copy-on-write of R292. -/
def State.reopenPage (s : State) (i : Item) : State :=
  let q := i.sequence
  let b := i.firstPage
  let p := seqPool (s.seqEntry q)
  let e := s.pte q b
  match s.readFrame p e.frame with
  | (s, none) => s
  | (s, some h) =>
  if h.refs = 1 ∧ bits (s.seqEntry q) 63 32 = 0 then
    ((s.changePage q b { e with st := 1, slices := 0, shared := false }).markShared q b false).setFinish i (finDone 0)
  else
    if (s.pool p).freeHead = endOfList then s.setFinish i (finBad 10 0)
    else
      let base (f : Nat) : Nat := s.reg (Regs.kvpBase p) + f * s.frameBytes p
      let t := s.touch i .kvm [((base e.frame : Int), s.frameBytes p)]
      match t.gone, t.entry with
      | some f, _ => t.s.setFinish i f
      | none, some k => t.s.setFinish i (finUncorrected k)
      | none, none =>
        match t.s.takeFrame p with
        | (s2, none) => s2
        | (s2, some f2) =>
          let s3 := s2.poke (base f2) (s2.peek (base e.frame) (s2.frameBytes p))
          let s4 := (s3.changePage q b { st := 1, frame := f2 }).markShared q b false
          ((s4.bump Regs.arbCowCopies).dropRef p e.frame).setFinish i (finDone 0)

/-- REOPEN. -/
def execReopen (s : State) : Res := .next (s.runKv 0x3A (mapIs 1) checkReopen (fun s i _ => s.reopenPage i))

/-! ### Page records (R297) -/

/-- The number of the node that holds a frame, and the node. -/
def State.nodeIx (s : State) (p f : Nat) : Option Nat :=
  if (s.frame p f).node then
    (List.range nodeCount).find? (fun k => (s.node k).valid && decide ((s.node k).pool = p) && decide ((s.node k).frame = f))
  else none
def State.nodeOf (s : State) (p f : Nat) : Option Node := (s.nodeIx p f).map s.node

/-- The parent hash of a node (R284). -/
def State.parentHash (s : State) (p : Nat) (n : Node) : Nat := if n.parent = noNode then s.rootHash p else (s.node n.parent).hash

/-- The page-format version selected (R433, R434). -/
def State.pageFormat (s : State) : Nat := ofLe (slice (s.blob Blobs.ifSelect (List.replicate 7 1)) 3 1)

/-- The header of a page's record, with the CRC of its body. -/
def State.pageHeader (s : State) (p b : Nat) (e : Pte) (body : Bytes) : Bytes :=
  let g := s.geometry p
  let n := s.nodeOf p e.frame
  let hash := (n.map Node.hash).getD 0
  let parent := (n.map (s.parentHash p)).getD 0
  let tokens := (n.map Node.tokens).getD 0
  let head := toLe 48 (0x4B504147 + 1 <<< 32 + g.fmt.code <<< 40 + g.d <<< 48 + g.layers <<< 64 + g.heads <<< 80 + e.st <<< 88
    + (if n.isSome then 2 ^ 91 else 0) + e.slices <<< 96 + b <<< 128 + (g.layers * g.heads * g.slice) <<< 160
    + s.reg (Regs.kvpSalt p) <<< 192 + hash <<< 256 + parent <<< 320)
  let front := head ++ toLe 4 (crc32c body)
  front ++ toLe 4 (crc32c front) ++ List.replicate 8 0 ++ toLe 64 tokens

/-- Where swap slot k lies. -/
def State.slotAddr (s : State) (p k : Nat) : Nat := s.reg (Regs.kvpSwapBase p) + k * s.swapSlotBytes p

/-- Bytes of a page record's body. -/
def State.bodyBytes (s : State) (p : Nat) : Nat := s.poolSlices p * s.sliceSize p

/-- Writes page b's record to a slot: what ends the attempt, if anything does; nothing is written of a page that carries poison. -/
def State.writePage (s : State) (i : Item) (p b slot : Nat) (e : Pte) : State × Option Finish :=
  let at_ := s.reg (Regs.kvpBase p) + e.frame * s.frameBytes p
  let n := s.bodyBytes p
  match s.readTable i (s.entryAt p e.frame) 16 with
  | (s, some f) => (s, some f)
  | (s, none) =>
  let t := s.touch i .kvm [((at_ : Int), n)]
  match t.gone, t.entry with
  | some f, _ => (t.s, some f)
  | none, some k => (t.s, some (finUncorrected k))
  | none, none =>
    let a := s.slotAddr p slot
    let k := (t.s.nodeIx p e.frame).getD noNode
    match t.s.readTables i ([k, (t.s.node k).parent].filterMap (fun j => if nodeCount ≤ j then none else some (nodeAt j, 96))) with
    | (s, some f) => (s, some f)
    | (s, none) =>
    match s.landing i .kvm [((a : Int), 128 + n)] with
    | (s, some f) => (s, some f)
    | (s, none) =>
      let body := s.peek at_ n
      (s.put .kvm a (s.pageHeader p b e body ++ body), none)

/-! ### Swap (R294–R299) -/

def Item.slot0 (i : Item) : Nat := i.field 191 160

/-- The checks that the two swaps share (R294, R299); `slots` whether SLOT0 names slots. -/
def checkSwap (slots : Item → Bool) (s : State) (i : Item) : Checked Unit :=
  let q := i.sequence
  match s.kvLook i q i.firstPage (min 16384 (i.firstPage + i.pages)) with
  | (s, some f) => (s, .error f)
  | (s, none) =>
    let p := seqPool (s.seqEntry q)
    if !s.seqActive q then (s, .error (finCode 1))
    else if 256 < i.pages ∧ 2 ≤ i.cls then (s, .error (finBad 10 0))
    else if i.pages = 0 ∨ 16384 < i.pages ∨ 16384 < i.firstPage + i.pages then (s, .error (finCode 10))
    else if s.reg (Regs.kvpSwapBase p) = 0 ∨ (slots i = true ∧ s.reg (Regs.kvpSwapSlots p) < i.slot0 + i.pages) then
      (s, .error (finCode 5))
    else (s, .ok ())

/-- Swaps one page out; EMPTY and SWAPPED pages are skipped. One that fails keeps its entry, and its slot is undefined (R299). -/
def State.swapOutPage (s : State) (i : Item) (b slot : Nat) : State × Option Finish × Bool :=
  let q := i.sequence
  let p := seqPool (s.seqEntry q)
  let e := s.pte q b
  if !e.mapped then (s, none, false)
  else match s.writePage i p b slot e with
    | (s, some f) => (s.forgetRange (s.slotAddr p slot) (s.swapSlotBytes p), some f, false)
    | (s, none) =>
      let s := (s.changePage q b { e with st := 3, frame := slot, shared := false }).markShared q b false
      ((s.bump Regs.arbPagesOut).dropRef p e.frame, none, true)

/-- Treats the pages of a swap in order; AUX counts those moved. -/
def State.swapPages (s : State) (i : Item) (one : State → Nat → State × Option Finish × Bool) : State :=
  let (s1, f, n) := i.pageList.foldl (fun (acc : State × Option Finish × Nat) b =>
    match acc.2.1 with
    | some _ => acc
    | none =>
      let (s1, f, moved) := one acc.1 b
      (s1, f, if moved then acc.2.2 + 1 else acc.2.2)) (s, none, 0)
  s1.setFinish i (f.getD (finDone n))

/-- KV_SWAP_OUT (R295): it waits for INFLIGHT 0. -/
def execKvSwapOut (s : State) : Res :=
  .next (s.runKv 0x3B (fun _ => true) (checkSwap (fun _ => true)) (fun s i _ =>
    let q := i.sequence
    let s := s.setSwapping q true
    if bits (s.seqEntry q) 63 32 ≠ 0 then s.startWait i
    else (s.swapPages i (fun s b => s.swapOutPage i b (i.slot0 + (b - i.firstPage)))).setSwapping q false))

/-- A record's header as a number. -/
structure Header where
  word : Nat
  deriving DecidableEq, Repr

def Header.st (h : Header) : Nat := bits h.word 90 88
def Header.hashed (h : Header) : Bool := bit h.word 91
def Header.slices (h : Header) : Nat := bits h.word 108 96

/-- The checks of R298 on a header, but for CHECK: codes 6, 7 and 8. -/
def State.headerCause (s : State) (p b : Nat) (h : Header) : Option Finish :=
  let g := s.geometry p
  let x := h.word
  let lh := g.layers * g.heads
  if bits x 31 0 ≠ 0x4B504147 ∨ bits x 447 416 ≠ crc32c (toLe 52 x) then some (finCode 6)
  else if bits x 39 32 ≠ s.pageFormat then some (finCode 7)
  else if bits x 47 40 ≠ g.fmt.code ∨ bits x 63 48 ≠ g.d ∨ bits x 79 64 ≠ g.layers ∨ bits x 87 80 ≠ g.heads
      ∨ bits x 255 192 ≠ s.reg (Regs.kvpSalt p) then some (finCode 8)
  else if bits x 159 128 ≠ b ∨ ¬ (h.st = 1 ∧ h.slices ≤ lh ∨ h.st = 2 ∧ h.slices = lh) then some (finCode 6)
  else none

/-- RELINK: the node that a hashed record matches, with room for one more reference (R296), or what its tables stop the item with. -/
def State.relink (s : State) (i : Item) (p : Nat) (h : Header) : State × Except Finish (Option Nat) :=
  if !h.hashed then (s, .ok none)
  else
    let m := s.search i (bits h.word 319 256) (fun n => decide (n.pool = p) && decide (s.parentHash p n = bits h.word 383 320)
      && decide (n.tokens = bits h.word 1023 512))
    match m.stop, m.found with
    | some f, _ => (m.s, .error f)
    | none, some k =>
      match m.s.readTable i (m.s.entryAt p (m.s.node k).frame) 16 with
      | (s, some f) => (s, .error f)
      | (s, none) => (s, .ok (if (s.frame p (s.node k).frame).refs < 65535 then some (s.node k).frame else none))
    | none, none => (m.s, .ok none)

/-- A page swapped in under the header's STATE. -/
def State.placePage (s : State) (q b f : Nat) (h : Header) (shared : Bool) : State :=
  (s.changePage q b { st := h.st, shared := shared, slices := h.slices, frame := f }).bump Regs.arbPagesIn

/-- Reads bytes of a slot; poison and a failed read end the item. -/
def State.readSlot (s : State) (i : Item) (a n : Nat) : State × Option Finish :=
  let t := s.touch i .kvm [((a : Int), n)]
  (t.s, t.gone.orElse (fun _ => t.entry.map finUncorrected))

/-- Brings one page in from a slot (R296, R298). -/
def State.bringPage (s : State) (i : Item) (b slot : Nat) : State × Option Finish × Bool :=
  let q := i.sequence
  let p := seqPool (s.seqEntry q)
  let a := s.slotAddr p slot
  let fail (s : State) (f : Finish) : State × Option Finish × Bool := (s.bump Regs.arbSwapCheckFails, some f, false)
  match s.readSlot i a 128 with
  | (s, some f) => (s, some f, false)
  | (s, none) =>
    let h : Header := ⟨ofLe (s.peek a 128)⟩
    match s.headerCause p b h with
    | some f => fail s f
    | none =>
      match (if bit i.rec0 33 then s.relink i p h else (s, .ok none)) with
      | (s, .error f) => (s, some f, false)
      | (s, .ok link) =>
      match s.withTable q b with
      | none => (s, some (finBad 10 0), false)
      | some s1 =>
        match link with
        | some f => ((s1.addRef p f).1.placePage q b f h true, none, true)
        | none =>
          let n := s.bodyBytes p
          if (s.pool p).freeHead = endOfList then (s, some (finBad 10 0), false)
          else match s.readSlot i (a + 128) n with
            | (s, some f) => (s, some f, false)
            | (s, none) =>
              let body := s.peek (a + 128) n
              if crc32c body ≠ bits h.word 415 384 then fail s (finCode 9)
              else match (s.withTable q b).map (fun s => s.takeFrame p) with
                | some (s, some f) => ((s.poke (s.reg (Regs.kvpBase p) + f * s.frameBytes p) body).placePage q b f h false, none, true)
                | some (s, none) => (s, some (finBad 10 0), false)
                | none => (s, some (finBad 10 0), false)

/-- One page of KV_SWAP_IN: SWAPPED pages from their slots, or EMPTY pages from SLOT0 under IMPORT. -/
def State.swapInPage (s : State) (i : Item) (b : Nat) : State × Option Finish × Bool :=
  let e := s.pte i.sequence b
  if bit i.rec0 32 then (if e.st = 0 then s.bringPage i b (i.slot0 + (b - i.firstPage)) else (s, none, false))
  else if e.st = 3 then s.bringPage i b e.frame
  else (s, none, false)

/-- KV_SWAP_IN. -/
def execKvSwapIn (s : State) : Res :=
  .next (s.runKv 0x3C (fun _ => true) (checkSwap (fun i => bit i.rec0 32)) (fun s i _ => s.swapPages i (fun s b => s.swapInPage i b)))

/-! ### Export (R300, R301) -/

/-- The item that stands for an entry of the export list, whose accesses the KV manager makes for no ring. -/
def exportItem : Item := { ring := 0, seq := 0, recs := [0], lane := some kvLane }

/-- Writes every OPEN or SEALED page of a sequence to its slot: whether every page of the entry was written whole; poison in the tables
ends it (R370). -/
def State.exportSequence (s : State) (q slot0 : Nat) : State × Bool :=
  match s.kvLook exportItem q 0 16384 with
  | (s, some _) => (s, false)
  | (s, none) =>
  let p := seqPool (s.seqEntry q)
  if s.reg (Regs.kvpSwapBase p) = 0 then (s, false)
  else
    ((s.usedPages q 0 16384).filter (fun b => (s.pte q b).mapped)).foldl (fun (acc : State × Bool) b =>
      if !acc.2 then acc
      else if acc.1.reg (Regs.kvpSwapSlots p) ≤ slot0 + b then (acc.1, false)
      else match acc.1.writePage exportItem p b (slot0 + b) (acc.1.pte q b) with
        | (s, some _) => (s.forgetRange (s.slotAddr p (slot0 + b)) (s.swapSlotBytes p), false)
        | (s, none) => (s.bump Regs.arbPagesOut, s.flag Regs.hifLinkUp)) (s, true)

/-- What the objects of R300 record of entry n: started, and written whole or abandoned. -/
def State.exportOutcome (s : State) (n : Nat) (written : Bool) : State :=
  let s := s.setReg Regs.arbExportStarted (setBit (s.reg Regs.arbExportStarted) n true)
  if written then (s.setReg Regs.arbExportWritten (setBit (s.reg Regs.arbExportWritten) n true)).bump Regs.arbExportDone
  else s.setReg Regs.arbExportAbandoned (min n (s.reg Regs.arbExportAbandoned))

/-- The objects of the KV manager and the Arbor (R277, R303). -/
def kvObject (k : Nat) : Bool := decide (0x260000 ≤ k) && decide (k < 0x262100)

/-- The objects that R29 step 3 resets: those of R277, and the export outcomes (R247, R300). -/
def kvScrubbed (k : Nat) : Bool :=
  (kvObject k && decide (k < 0x262000) && (decide (k < 0x261000) || decide (k % 256 ≤ 0x0A)))
  || [0x26200B, 0x26200C, 0x26200E, 0x26200F].contains k

/-- The objects that R30 step 4 resets: all but those of R300 (R247, R301). -/
def kvReleased (k : Nat) : Bool := kvObject k && !([0x26200A, 0x26200B, 0x26200C, 0x26200E, 0x26200F].contains k)

/-- Empties the KV manager and the Arbor (R29 step 3, R30 step 4): sequences, pools, tree, epochs and some objects. -/
def State.forgetKv (s : State) (mine : Nat → Bool) : State :=
  { s with
    regs := s.regs.filter (fun e => !mine e.1)
    blobs := s.blobs.filter (fun e => !mine e.1)
    kv := {}
    mem := s.mem.zero 0xF300000000 0xF300600000 }

end Sys2Proof.Machine
end

