-- ==== Sys2Proof/Machine/Gaffers.lean ====
section
/-! DEFINITION. Gaffers and chairs (R156, R176–R185, R377): joins and splits, levels, generators, fences and their lifting, and the
completion of items with the fencing policy after it. -/

namespace Sys2Proof.Machine

/-! ### Scratchpads and semaphores -/

/-- Writes a gaffer's scratchpad with zeros and its semaphores to 0 (R176, R182, R440). -/
def State.wipeGaffer (s : State) (g : Nat) : State :=
  let s := { s with mem := s.mem.zero (spadBase g) (spadBase g + 0x300000) }
  (s.setGaffer g { s.gaffer g with sems := [] }).semChanged g

/-- Whether no work order waits, runs or has yet to complete at a target code (R181). -/
def State.unitIdle (s : State) (code : Nat) : Bool :=
  !s.disp.items.any (fun i => match i.lane with
    | some l => decide (targetCodeOf l.target = code)
    | none => false)

/-- Whether the golden work orders run on gaffer g: a set of the Lamplighter's or a start test (R329, R330, R336). -/
def State.goldenOn (s : State) (g : Nat) : Bool := (kget s.keeper.golden g {}).running || s.keeper.testing.contains g

/-- Whether gaffer g is idle in the sense of R181: nothing at it or its chair, no golden work order, and no join or split under way;
one that R339 holds in reset is not (log 51). -/
def State.gafferIdle (s : State) (g : Nat) : Bool :=
  !s.keeper.heldReset && s.unitIdle g && s.unitIdle (32 + g / 2) && !s.chairChanging (g / 2) && !s.goldenOn g
    && !(s.formed (g / 2) && (s.goldenOn (2 * (g / 2)) || s.goldenOn (2 * (g / 2) + 1)))

/-! ### The policy (R377) -/

/-- Events of a list within the window. -/
def State.recent (s : State) (ts : List Nat) : Nat :=
  (ts.filter (fun t => decide (s.now ≤ t + s.reg Regs.fenceWindow * 1000000))).length

/-- The rule of the policy that gaffer g meets (R374 TYPE 16), if any. -/
def State.policyRule (s : State) (g : Nat) : Option Nat :=
  let v := s.gaffer g
  if s.reg Regs.fenceResidueK ≤ s.recent v.residueTimes then some 1
  else if s.reg Regs.fenceUeK ≤ s.recent v.ueTimes then some 2
  else if s.reg Regs.fenceCorrectedRate < s.recent v.ceTimes then some 3
  else if s.reg Regs.fenceLinkK ≤ s.recent v.linkTimes ∨ s.recent v.fenceDue.toList ≠ 0 then some 4
  else none

/-- Whether a fence of gaffer g is pending: the policy is met and takes effect when its item completes (R181, R377). -/
def State.fencePending (s : State) (g : Nat) : Bool := s.flag Regs.fencePolicyEnable && (s.policyRule g).isSome

/-! ### Joins and splits (R181, R182) -/

/-- The first failed condition of a change of chair c, if any (R181, R412). -/
def State.chairCause (s : State) (c : Nat) (join : Bool) : Option Nat :=
  let gs := [2 * c, 2 * c + 1]
  if join && gs.any (fun g => s.fenced g || s.fencePending g) then some 8
  else if join && gs.any (fun g => !s.pdOn (gafferPd g)) then some 9
  else if gs.any (fun g => !s.gafferIdle g) then some 10
  else none

/-- Begins a join or split of chair c: windows are holes until it completes, and nothing survives. -/
def State.beginChair (s : State) (c : Nat) : State :=
  let s := { s with disp := { s.disp with chairsChanging := s.disp.chairsChanging ++ [c] } }
  (s.wipeGaffer (2 * c)).wipeGaffer (2 * c + 1)

/-- CHAIR_FORMED (R181). -/
def hookChairFormed : Hook := fun s _ data =>
  let new := ofLe data
  let changed := (List.range 16).filter (fun c => bit new c != s.formed c)
  let causes := changed.filterMap (fun c => s.chairCause c (bit new c))
  match causes with
  | [] => .ok (changed.foldl State.beginChair (s.setReg Regs.chairFormed new))
  | x :: xs => .error (conflictCondition (xs.foldl min x))

def execChairFormedWrite (p : Path) (v : Nat) (s : State) : Res :=
  .next (s.writeObject p 0x2500 3 (toLe 2 v) hookChairFormed)

/-- The level a gaffer moves to: its own, that of its chair's even gaffer, or a lower one where the cap holds it (R180, R447). -/
def State.levelGoal (s : State) (g : Nat) : Nat :=
  let e := if s.formed (g / 2) then 2 * (g / 2) else g
  let want := s.reg (Regs.gafferLevel e)
  if bit (s.reg Regs.pwrCapHeld) e then min want ((s.gaffer e).raiseTo.getD (s.reg (Regs.gafferLevelNow e))) else want

/-- The highest level that counts for VDD_CORE at gaffer g: the one in force and, while a change is under way, the one it moves
to, since the code changes first on a raise (R178, R448). -/
def State.levelHeld (s : State) (g : Nat) : Nat :=
  if (s.gaffer g).levelChanging then max (s.reg (Regs.gafferLevelNow g)) (s.levelGoal g) else s.reg (Regs.gafferLevelNow g)

/-- Whether gaffer g's power domain turns on at present (R442). -/
def State.gafferRises (s : State) (g : Nat) : Bool :=
  let p := s.pd (gafferPd g)
  decide (p.target = some .on) && p.begun && decide (p.state ≠ .on)

/-- The level a gaffer has when its power domain reports on (R178, R440): the one retained, else the one it moves to. -/
def State.levelAtOn (s : State) (g : Nat) : Nat :=
  if (s.pd (gafferPd g)).state = .off || s.flag (Regs.pdLost (gafferPd g)) then s.levelGoal g else s.levelHeld g

/-- The code of VDD_CORE that the levels need (R448): 10 mV steps above 0.60 V. A gaffer that turns on counts from the start of that. -/
def State.vcoreCode (s : State) : Nat :=
  let code (level : Nat) : Nat := [55, 58, 62, 66, 69, 72, 76, 80].getD level 80 + 5 - 60
  if s.reg Regs.pwrVcoreMode = 0 then 25
  else (List.range 32).foldl (fun m g =>
    if s.pdOn (gafferPd g) then max m (code (s.levelHeld g))
    else if s.gafferRises g then max m (code (s.levelAtOn g))
    else m) 15

/-- VCORE_SEL and PWR_VCORE_NOW follow the levels (R448); a raised code settles in PWR_VCORE_SETTLE. -/
def State.setVcore (s : State) : State :=
  let c := s.vcoreCode
  let t := { s with pins := { s.pins with vcoreSel := c } }.setReg Regs.pwrVcoreNow (600 + 10 * c)
  if s.pins.vcoreSel < c then { t with power := { t.power with vcoreAt := s.now + 1000 * s.reg Regs.pwrVcoreSettle } } else t

/-- A bit of PWR_CAP_HELD, both of a formed chair (R447). -/
def State.setCapHeld (s : State) (g : Nat) (held : Bool) : State :=
  let v := setBit (s.reg Regs.pwrCapHeld) g held
  s.setReg Regs.pwrCapHeld (if s.formed (g / 2) then setBit (setBit v (2 * (g / 2)) held) (2 * (g / 2) + 1) held else v)

/-- PWR_CAP_HELD of gaffer g stays 1 only while its level in force is below the one requested (R447). -/
def State.capHeld (s : State) (g : Nat) : State :=
  let e := if s.formed (g / 2) then 2 * (g / 2) else g
  if s.reg (Regs.gafferLevelNow e) < s.reg (Regs.gafferLevel e) then s else s.setCapHeld e false

/-- A change of level begins: the code of VDD_CORE rises at once where the new level needs it, the gaffer's own change then comes
no sooner than the code has settled, and the code falls only when the change is complete (R178, R448). A lowering waits for nothing,
a superseded raise included. -/
def State.beginLevel (s : State) (g : Nat) : State :=
  let t := (s.setGaffer g { s.gaffer g with levelChanging := true }).setVcore
  let raises := decide (s.reg (Regs.gafferLevelNow g) < s.levelGoal g)
  t.setGaffer g { t.gaffer g with levelAt := if raises then max s.now t.power.vcoreAt else s.now }

/-- The change of level of gaffer g, both halves of a formed chair, is complete (R178). -/
def State.endLevel (s : State) (g : Nat) : State :=
  let goal := s.levelGoal g
  let s := s.setGaffer g { s.gaffer g with levelChanging := false, raiseTo := none }
  let s := s.setReg (Regs.gafferLevelNow g) goal
  let s := if s.formed (g / 2) then (s.setReg (Regs.gafferLevelNow (2 * (g / 2))) goal).setReg (Regs.gafferLevelNow (2 * (g / 2) + 1)) goal else s
  (s.capHeld g).setVcore

/-- Gaffer g, back on its own generator, moves to its own level (R182, R184): at once, unless VDD_CORE must rise first. -/
def State.ownLevel (s : State) (g : Nat) : State :=
  let t := s.beginLevel g
  if (t.gaffer g).levelAt ≤ s.now then t.endLevel g else t

/-- A gaffer's power domain begins to turn on: VDD_CORE rises first where its level needs that (R448). -/
def State.gafferTurnsOn (s : State) (g : Nat) : State :=
  let t := s.setVcore
  t.setGaffer g { t.gaffer g with levelAt := if s.pins.vcoreSel < t.pins.vcoreSel then t.power.vcoreAt else s.now }

/-- A change of power domain d that a fence, a lift or a restart forces, begun at once (R184, R185, R336, R444): it takes the place of
any change in progress. -/
def State.forces (s : State) (d : Nat) (target : PdState) (goal : Option PdState) : State :=
  let s := s.setPd d { state := (s.pd d).state, target := some target, begun := true, goal := goal, forced := true }
  if target = .on ∧ 2 ≤ d ∧ d ≤ 33 then s.gafferTurnsOn (d - 2) else s

/-- No change of power domain d is in progress. -/
def State.settlePd (s : State) (d : Nat) (v : PdState) : State := s.setPd d { state := v }

/-- CHAIR_CHANGE_COMPLETE (R182 steps 3 and 4); a split that a fence forces ends when the fenced gaffer goes off (R184). -/
def execChairChangeComplete (c : Fin 16) (s : State) : Res :=
  if c.val ∈ s.disp.chairsChanging ∧ (s.gaffer (2 * c.val)).drainDue = false ∧ (s.gaffer (2 * c.val + 1)).drainDue = false then
    let n := c.val
    let s := { s with disp := { s.disp with chairsChanging := s.disp.chairsChanging.filter (· != n) } }
    if s.formed n then
      let s := s.setReg (Regs.gafferLevelNow (2 * n + 1)) (s.reg (Regs.gafferLevelNow (2 * n)))
      let s := s.setGaffer (2 * n + 1) { s.gaffer (2 * n + 1) with levelChanging := false, raiseTo := none }
      .next ((s.setCapHeld (2 * n) (bit (s.reg Regs.pwrCapHeld) (2 * n))).setVcore)
    else .next ((s.ownLevel (2 * n)).ownLevel (2 * n + 1))
  else .next s

/-! ### Levels (R178, R180) -/



/-- GAFFER_LEVEL: refused for the odd gaffer of a formed chair; a write during a change replaces its target. -/
def hookGafferLevel (g : Nat) : Hook := fun s _ data =>
  if g % 2 = 1 ∧ s.formed (g / 2) = true then .error (conflictKind 9 (g / 2))
  else
    .ok ((s.setReg (Regs.gafferLevel g) (ofLe data)).beginLevel g)

def execGafferLevelWrite (p : Path) (g : Fin 32) (v : Nat) (s : State) : Res :=
  .next (s.writeObject p (0x2520 + g.val) 1 (toLe 1 v) (hookGafferLevel g.val))

/-- LEVEL_CHANGE_COMPLETE: the group, both halves of a formed chair, is at its new level; none before a raised VDD_CORE has had
its time to settle (R448). The odd gaffer of a formed chair has no change of its own: one begun before the join ends with it. -/
def execLevelChangeComplete (g : Fin 32) (s : State) : Res :=
  let n := g.val
  let odd := decide (n % 2 = 1) && s.formed (n / 2)
  if (s.gaffer n).levelChanging && !odd && decide ((s.gaffer n).levelAt ≤ s.now) then .next (s.endLevel n) else .next s

/-! ### The generator (R156) -/

/-- The lowest ring with a work order with stochastic rounding in flight on gaffer g. -/
def State.stochasticRing (s : State) (g : Nat) : Option Nat :=
  let rs := (s.disp.items.filter (fun i => i.readable && bit i.rec0 32
      && [0x10, 0x18, 0x19, 0x30, 0x31, 0x32].contains i.opcode
      && (match i.lane with
          | some l => decide (targetCodeOf l.target = g ∨ targetCodeOf l.target = 32 + g / 2)
          | none => false))).map (·.ring)
  match rs with
  | [] => none
  | r :: t => some (t.foldl min r)

/-- SR_SEED. -/
def hookSrSeed (g : Nat) : Hook := fun s _ data =>
  match s.stochasticRing g with
  | some r => .error (conflictKind 6 r)
  | none => .ok ((s.setReg (Regs.srSeed g) (ofLe data)).setReg (Regs.srState g) (ofLe data))

def execSrSeedWrite (p : Path) (g : Fin 32) (v : Nat) (s : State) : Res :=
  .next (s.writeObject p (0x2540 + g.val) 1 (toLe 8 v) (hookSrSeed g.val))

/-! ### Fences (R183, R184) -/

/-- The cause codes of GAFFER_FENCE_CAUSE. -/
def fenceCause : FenceBy → Nat
  | .host .keeper => 3
  | .host _ => 1
  | .policy => 2
  | .keeper => 3

/-- Work at a gaffer or its chair that has not ended yet. -/
def atGaffer (g : Nat) (i : Item) : Bool :=
  i.finish.isNone && (match i.lane with
    | some l => decide (targetCodeOf l.target = g ∨ targetCodeOf l.target = 32 + g / 2)
    | none => false)

/-- The event that follows a fence or the lift of one: the Keeper has paired the gaffers anew (R314). -/
def State.pairingChanged (s : State) : State :=
  if s.pdOn 1 then s.logs { severity := .contained, source := 9, kind := 38 } else s

/-- A golden set ends without a result: its deferrals and its forcing end too. -/
def Golden.ended (v : Golden) : Golden := { v with running := false, forced := false, deferred := 0, since := none, behind := [] }

/-- The golden set of gaffer g ends (R184, R332): a fenced gaffer, or one that is off, runs none. -/
def State.endGolden (s : State) (g : Nat) : State :=
  { s with keeper := { s.keeper with golden := s.keeper.golden.map (fun (e : Nat × Golden) => (e.1, if e.1 = g then e.2.ended else e.2)) } }

/-- A fence takes the power domain of gaffer g off (R184 step 3); one that is off stays off. -/
def State.drains (s : State) (g : Nat) : State :=
  let s := s.setGaffer g { s.gaffer g with lift := .none, drainDue := true }
  if (s.pd (gafferPd g)).state = .off then s.settlePd (gafferPd g) .off else s.forces (gafferPd g) .off none

/-- Step 1 and 2 of R184: the chair splits, work, waits and a golden set end with ABORTED_FENCE. -/
def State.fenceNow (s : State) (g cause : Nat) : State :=
  let c := g / 2
  let was := s.formed c
  let s := s.setReg Regs.gafferFence (setBit (s.reg Regs.gafferFence) g true)
  let s := (s.setReg (Regs.gafferFenceCause g) cause).bump (Regs.gafferFences g)
  let s := s.attention 2
  let waiting := (s.gaffer g).waits
  let s := s.abortAll (atGaffer g) (finFence g)
  let s := s.abortAll (fun i => waiting.any (fun w => i.isOf w.ring w.seq) ||
      (i.readable && decide (i.opcode = 5) && i.phase == .pendingWait && i.finish.isNone && decide (i.field 39 32 = g))) (finFence g)
  let s := if was then
      let s := s.setReg Regs.chairFormed (setBit (s.reg Regs.chairFormed) c false)
      { s with disp := { s.disp with chairsChanging := s.disp.chairsChanging.filter (· != c) ++ [c] } }
    else s
  let s := s.setReg Regs.pwrCapHeld (setBit (s.reg Regs.pwrCapHeld) g false)
  let s := ((s.setGaffer g { s.gaffer g with sems := [], waits := [], formerChair := was }).drains g).endGolden g
  (s.logs { severity := .contained, source := 1, inst := g, kind := 36, detail := cause, sub := g }).pairingChanged

/-- A cause of R183 fences gaffer g: a second cause counts only when it is the Keeper, and any set ends a lift (R185). -/
def State.fence (s : State) (g cause : Nat) : State :=
  if !s.fenced g then s.fenceNow g cause
  else if (s.gaffer g).lift = .testing then
    (s.setReg (Regs.gafferFenceCause g) cause).drains g
  else if cause = 3 then s.setReg (Regs.gafferFenceCause g) 3
  else s

/-- Step 2 of R185: the power domain of a gaffer in a fence lift turns on (R7, R442). -/
def State.liftTurnsOn (s : State) (g : Nat) : State := s.forces (gafferPd g) .on none

/-- Steps 3 and 4 of R184: the power domain is off, and the partner of a split chair opens with zeros. A clear that came meanwhile then
goes on with step 2 of R185. -/
def State.fenceOff (s : State) (g : Nat) : State :=
  let c := g / 2
  let partner := if g % 2 = 0 then g + 1 else g - 1
  let split := s.chairChanging c && (s.gaffer g).formerChair
  let s := s.wipeGaffer g
  let s := s.setGaffer g { s.gaffer g with drainDue := false }
  let s := s.bumpIf (decide ((s.pd (gafferPd g)).state ≠ .off)) (Regs.pdTransitions (gafferPd g))
  let s := s.settlePd (gafferPd g) .off
  let s := if split then
      let s := { s with disp := { s.disp with chairsChanging := s.disp.chairsChanging.filter (· != c) } }
      (s.wipeGaffer partner).ownLevel partner
    else s
  if (s.gaffer g).lift = .testing then s.liftTurnsOn g else s

/-- A fence lift begins (R185 steps 1 and 2); a clear that comes before the fence has reached step 3 of R184 lets that step and
step 4 happen first. -/
def State.beginLift (s : State) (g : Nat) : State :=
  let s := s.setGaffer g { s.gaffer g with lift := .testing }
  if (s.gaffer g).drainDue then s else s.liftTurnsOn g

/-- GAFFER_FENCE: every bit written 1 is a set, bits that fall lift, and a fence of the Keeper's is lifted only over the safety
channel or by the Keeper (R183, R185; a 1 written for a gaffer in a fence lift is a new set, log 73). A command for one gaffer
(`only`) sets or clears no other bit. -/
def hookGafferFence (only : Option Nat) : Hook := fun s p data =>
  let new := ofLe data
  let named := (List.range 32).filter (fun g => only.isNone || only == some g)
  let cleared := named.filter (fun g => s.fenced g && !bit new g)
  let set_ := named.filter (fun g => bit new g)
  if p ≠ .canSafety ∧ p ≠ .keeper ∧ cleared.any (fun g => decide (s.reg (Regs.gafferFenceCause g) = 3)) then .error (conflictKind 13 0x400)
  else
    let s := set_.foldl (fun s g => s.fence g (fenceCause (.host p))) s
    .ok ((cleared.filter (fun g => decide ((s.gaffer g).lift = .none))).foldl State.beginLift s)

/-- GAFFER_FENCE_SET: by a write of GAFFER_FENCE, by the policy, or by the Keeper. -/
def execGafferFenceSet (by_ : FenceBy) (g : Fin 32) (s : State) : Res :=
  match by_ with
  | .host p => .next (s.writeObject p 0x2500 2 (toLe 4 (setBit (s.reg Regs.gafferFence) g.val true)) (hookGafferFence (some g.val)))
  | b => .next (s.fence g.val (fenceCause b))

/-- FENCE_POWER_OFF (R184 steps 3 and 4). -/
def execFencePowerOff (g : Fin 32) (s : State) : Res :=
  if (s.gaffer g.val).drainDue && s.drained (gafferPd g.val) then .next (s.fenceOff g.val).setVcore
  else .next s

/-- GAFFER_FENCE_CLEAR: a write of GAFFER_FENCE that clears one bit. -/
def execGafferFenceClear (p : Path) (g : Fin 32) (s : State) : Res :=
  .next (s.writeObject p 0x2500 2 (toLe 4 (setBit (s.reg Regs.gafferFence) g.val false)) (hookGafferFence (some g.val)))

/-- START_TEST_COMPLETE (R185 step 4): `failedItem` is the golden item that failed, if any. -/
def State.startTestEnds (s : State) (g : Nat) (failedItem : Option Nat) : State :=
  if (s.gaffer g).lift = .testing then
    match failedItem with
    | none =>
      let s := s.setReg Regs.gafferFence (setBit (s.reg Regs.gafferFence) g false)
      let s := s.setReg (Regs.gafferFenceCause g) 0
      let s := s.setGaffer g { s.gaffer g with
        lift := .none, formerChair := false, residueTimes := [], ueTimes := [], ceTimes := [], linkTimes := [], fenceDue := none }
      s.pairingChanged
    | some k =>
      let s := (s.setReg (Regs.gafferFenceCause g) 4).bump Regs.llGoldenFails
      let s := s.logs { severity := .contained, source := 1, inst := g, kind := 37, detail := k, sub := g }
      s.drains g
  else s

/-! ### The policy acts (R377) -/

/-- Fences every gaffer that meets the policy, with its log entry. -/
def State.policyFences (s : State) : State :=
  if !s.flag Regs.fencePolicyEnable then s
  else (List.range 32).foldl (fun s g =>
    if s.fenced g then s
    else match s.policyRule g with
      | none => s
      | some r =>
        ((s.bump Regs.fencePolicyFences).logs { severity := .contained, source := 1, inst := g, kind := 16, detail := r, sub := g }).fence g 2) s

end Sys2Proof.Machine
end

