-- ==== Sys2Proof/Machine/Sundial.lean ====
section
/-! DEFINITION. The Sundial (chapter 2): the tick, the distribution tree, gPTP, the two servos, switches, alarms,
triggers, PPS, launch queues, sleep. -/

namespace Sys2Proof.Machine

/-! ### The tick and the distribution tree (R34–R38, R43) -/

/-- The slew of one 2 ns tick in 2^-40 ns (R43). -/
def State.slewStep (s : State) : Nat := s.reg Regs.timeSlewRate * (2 * 2 ^ 40) / 1000000

/-- r moved toward 0 by one tick's slew. -/
def slewed (r : Int) (k : Nat) : Int := if r.natAbs ≤ k then r else if 0 < r then r - k else r + k

/-- One counter after one tick (R34). -/
def TimeDomain.ticked (d : TimeDomain) : TimeDomain := { d with counter := ((d.counter : Int) + 2 * 2 ^ 40 + d.rate).toNat }

/-- The local clock alone moves on by 2 ns, and the die's sensors take a new reading (log 40). -/
def State.later (s : State) : State :=
  { s with now := s.now + 2, power := { s.power with dieTemp := Config.dieTemperature (s.now + 2) } }

/-- The sleep counter: 32,768 Hz of local time since it was 0 (log 3). -/
def State.sleepCount (s : State) : Nat := (s.now - s.sundial.sleepZero) * 32768 / 1000000000

/-- The window of R59 goes on while the active time domain is LOCKED, and begins anew when it is LOCKED again. -/
def State.windowNow (s : State) : Option (Nat × Nat) :=
  if s.activeDom.servo = .locked then some (s.sundial.window.getD (s.outTime, s.sleepCount)) else none

/-- One 2 ns tick (log 3): local time, and while the time base runs both counters and the residual. -/
def State.tick (s : State) : State :=
  if s.sundial.running && s.pdOn 1 then
    { s.later with sundial := { s.sundial with
        domA := s.sundial.domA.ticked, domB := s.sundial.domB.ticked,
        residual := slewed s.sundial.residual s.slewStep, window := s.windowNow } }
  else s.later

/-- RATE of R37 in units of 2^-40: the active rate word is twice it; a slew adds its own rate. -/
def State.messageRate (s : State) : Int :=
  let slew : Int := s.reg Regs.timeSlewRate * 2 ^ 40 / 1000000
  s.activeDom.rate / 2 + (if s.sundial.residual = 0 then 0 else if 0 < s.sundial.residual then slew else -slew)

/-- The 24-byte time message (R37). -/
def State.timeMsg (s : State) : Nat :=
  let t := s.outTime
  let body := s.sundial.messageSeq % 256 + ((t >>> 40) / 1000000000 % 2 ^ 64) <<< 8 + ((t >>> 40) % 1000000000) <<< 72
    + ((t >>> 24) % 65536) <<< 102 + s.timeFlags s.sundial.active <<< 118 + ofSigned 32 s.messageRate <<< 136
  body + crc16 (toLe 22 body) <<< 176

/-- Whether an event of a given period in ns is due again. -/
def State.periodDue (s : State) (last : Option Nat) (ns : Nat) : Bool :=
  match last with
  | none => true
  | some t => decide (t + ns ≤ s.now)

/-- TIME_MESSAGE (R37): at the launch tick, 128 ns after the last. -/
def execTimeMessage (s : State) : Res :=
  if s.pdOn 1 && s.sundial.running && s.periodDue s.sundial.launchedAt 128 then
    .next { s with sundial := { s.sundial with
      message := s.timeMsg, messageSeq := (s.sundial.messageSeq + 1) % 256, launchedAt := some s.now } }
  else .next s

/-- A free error within ± n. -/
def freeWithin (n ix : Nat) : Int := (Config.freeNat ix % (2 * n + 1) : Nat) - (n : Int)

/-- Whether the message last launched reaches a tap now (R35): the tap's power domain is on, its branch delay has passed since the
launch tick, and the tap has not heard it before. -/
def State.tapHears (s : State) (tap launch : Nat) : Bool :=
  s.pdOn 1 && s.pdOn (tapDomain tap) && decide (launch * 8 + (s.tap tap).delay ≤ s.now * 8) && decide ((s.tap tap).heard ≠ some launch)

/-- A tap takes a message (R38): it re-phases its tick to the launch tick plus the branch delay, which is removed, within 162.5 ps,
and holds its rate within 100 ppm. -/
def Tap.take (t : Tap) (msg launch now ix : Nat) : Tap :=
  { t with
    heard := some launch
    seq := some (msg % 256)
    flags := bits msg 135 118
    rate := toSigned 32 (bits msg 167 136)
    base := (bits msg 71 8 * 1000000000 + bits msg 101 72) <<< 40 + bits msg 117 102 <<< 24 + t.delay * 2 ^ 37
    edge := launch * 8 + t.delay
    takenAt := some now
    skew := freeWithin 178670680064 ix
    ppm := freeWithin 100 (ix + 1)
    silent := false }

/-- TAP_MESSAGE (R37, R38): the message last launched, unchanged but for the bits that errors on the branch flip, reaches a tap. One
that fails its CRC or its SEQ is discarded and counted; then the next good one is taken whatever its SEQ. -/
def execTapMessage (tap : Fin 24) (errors : Nat) (s : State) : Res :=
  match s.sundial.launchedAt with
  | none => .next s
  | some launch =>
    if !s.tapHears tap.val launch then .next s
    else
      let t := s.tap tap.val
      let msg := s.sundial.message ^^^ errors
      let good := decide (crc16 (toLe 22 msg) = bits msg 191 176)
      let next := match t.seq with
        | none => true
        | some q => decide (msg % 256 = (q + 1) % 256)
      if good && next then .next ((s.setTap tap.val (t.take msg launch s.now s.freeIx)).skipFree.skipFree)
      else .next ((s.bump Regs.timeTapErrors).setTap tap.val { t with seq := none, heard := some launch })

/-- TAP_SILENCE (R38): no message for 500 ns; logged once per silence. R374 names no TYPE for it: a free value. -/
def execTapSilence (tap : Fin 24) (s : State) : Res :=
  let t := s.tap tap.val
  if s.pdOn (tapDomain tap.val) && s.tapQuiet tap.val && !t.silent then
    let (k, s1) := s.draw
    .next ((s1.setTap tap.val { t with silent := true }).logs
      { severity := .contained, source := 12, kind := k % 256 })
  else .next s

/-- DELAY_LINE_RECALIBRATION (R36): every 1 ms. -/
def execDelayLineRecalibration (s : State) : Res :=
  if s.pdOn 1 && s.periodDue s.sundial.delayLines 1000000 then
    .next { s with sundial := { s.sundial with delayLines := some s.now } }
  else .next s

/-! ### Steps and switches (R41–R44, R50, R51) -/

/-- A PPS output's pulse in progress, and a trigger's. -/
def State.ppsActive (s : State) (k : Nat) : Bool := (kfind s.sundial.ppsPulse k).isSome
def State.trigActive (s : State) (t : Nat) : Bool := (kfind s.sundial.trigPulse t).isSome

/-- Alarm a's target k in 2^-16 ns (R49). -/
def State.alarmTime (s : State) (a : Nat) : Nat :=
  t128Time (s.reg (Regs.alarmTarget a)) + kget s.sundial.alarmNext a 0 * s.reg (Regs.alarmPeriod a) * 65536

/-- The least k of a series start + k × step above a time (from the given k on), step positive. -/
def firstAfter (start step time k : Nat) : Nat := max k (if time < start then 0 else (time - start) / step + 1)

/-- Alarm a fires (R49, R50): its actions, then its next target or, one-shot, disarmed. `skip` moves a periodic alarm to
the first target after the present time. -/
def State.alarmFires (s : State) (a : Nat) (late skip : Bool) : State :=
  let s := ((s.observes 49).bump (Regs.alarmFired a)).bumpIf late (Regs.alarmLate a)
  let s := if bit (s.reg (Regs.alarmAction a)) 0 then s.msix (s.reg (Regs.alarmVector a)) else s
  let per := s.reg (Regs.alarmPeriod a)
  if per = 0 then s.setReg (Regs.alarmArm a) 0
  else
    let k := kget s.sundial.alarmNext a 0
    let k' := if skip then firstAfter (t128Time (s.reg (Regs.alarmTarget a))) (per * 65536) (s.outTime >>> 24) k else k + 1
    { s with sundial := { s.sundial with alarmNext := kset s.sundial.alarmNext a k' } }

/-- Trigger t's next pulse: the first k whose edge is still ahead, from the given k on (R51). -/
def State.trigAhead (s : State) (t k : Nat) : Nat :=
  let start := t128Time (s.reg (Regs.trigStart t))
  let per := 65536 * max 1 (s.reg (Regs.trigPeriod t))
  let now := s.outTime >>> 24
  max k (if now ≤ start then 0 else ceilDiv (now - start) per)

/-- Where an edge, in 2^-16 ns, lies in the tick that begins now: its distance rounded to a whole ns; none when it lies behind by more
than half a ns or in a later tick (R51). -/
def State.edgeInTick (s : State) (edge : Nat) : Option Nat :=
  let d : Int := ((edge <<< 24 : Nat) : Int) - s.outTime
  if d < -(2 ^ 39) ∨ 2 * 2 ^ 40 ≤ d then none else some ((d + 2 ^ 39) / 2 ^ 40).toNat

/-- What a forward jump of the output time line passes over (R50–R52): alarms passed fire once, skipped pulses are not
emitted. -/
def State.passedOver (s : State) (old : Nat) : State :=
  let s := (List.range 8).foldl (fun s a =>
    if s.flag (Regs.alarmArm a) && decide (s.alarmTime a ≤ s.outTime >>> 24) && decide (old >>> 24 < s.alarmTime a) then
      s.alarmFires a true true else s) s
  { s with sundial := { s.sundial with
      trigNext := (List.range 4).foldl (fun m t =>
        if s.flag (Regs.trigEnable t) then kset m t (s.trigAhead t (kget m t 0)) else m) s.sundial.trigNext } }

/-- The last whole second before the present output time. -/
def State.secondBefore (s : State) : Nat := (s.outTime - 1) / (1000000000 * 2 ^ 40)

/-- The PPS outputs go on with the whole seconds of the new time line (R52). -/
def State.ppsRestart (s : State) : State :=
  { s with sundial := { s.sundial with ppsSecond := [(0, s.secondBefore), (1, s.secondBefore)] } }

/-- What a step of the output time line leaves behind (R41, R50, R51, R52): STEPPED, TIME_LAST_STEP, and what it passed. -/
def State.stepped (s : State) (old : Nat) : State :=
  let d : Int := (s.outTime : Int) - old
  let s := s.setReg Regs.timeLastStep (ofSigned 64 (nsOf40 d))
  let s := { s with sundial := { s.sundial with steppedAt := some s.now } }.ppsRestart.pergolaStep
  if d ≤ 0 then s else s.passedOver old

/-- Changes a time domain's counter by an offset in 2^-16 ns; an active domain steps the output time line (R41, R44). -/
def State.stepDomain (s : State) (b : Bool) (o : Int) : State :=
  let old := s.outTime
  let d := s.dom b
  let s := s.setDom b { d with counter := ((d.counter : Int) + o * 2 ^ 24).toNat }
  if s.sundial.active = b then s.stepped old else s

/-- d of R43 for a switch to b: the new counter less the old, in 2^-40 ns. -/
def State.switchDiff (s : State) (b : Bool) : Int := ((s.dom b).counter : Int) - (s.dom (!b)).counter

/-- |d| within TIME_SWITCH_LIMIT. -/
def State.switchNear (s : State) (b : Bool) : Bool :=
  decide ((s.switchDiff b).natAbs ≤ s.reg Regs.timeSwitchLimit * 2 ^ 40)

/-- Makes b the active time domain with a residual. -/
def State.activate (s : State) (b : Bool) (r : Int) : State :=
  (({ s with sundial := { s.sundial with active := b, residual := r } }).setReg Regs.timeActiveDomain (if b then 1 else 0))

/-- The automatic switch of R44 when the active time domain leaves LOCKED. -/
def State.autoSwitch (s : State) : State :=
  let b := !s.sundial.active
  if !s.flag Regs.timeSwitchAuto then s
  else if (s.dom b).servo == .locked && s.switchNear b then s.activate b (s.switchDiff b)
  else s.bump Regs.timeSwitchRefusals

/-- Index of a time domain's objects. -/
def domIx (b : Bool) : Nat := if b then 1 else 0

/-- A time domain's servo enters a state; leaving LOCKED is counted and may switch (R44, R64). -/
def State.enterServo (s : State) (b : Bool) (d : TimeDomain) (v : Servo) : State :=
  let was := d.servo
  let s := s.setDom b { d with servo := v, goodRun := 0, badRun := 0 }
  if was = .locked ∧ v ≠ .locked then
    let s := s.bump (Regs.tdLockLosses (domIx b))
    if s.sundial.active = b then s.autoSwitch else s
  else s

/-- HOLDOVER: the bound at loss is kept and grows (R40). -/
def State.enterHoldover (s : State) (b : Bool) : State :=
  let d := s.dom b
  s.enterServo b { d with uncBase := some (d.largest + 4 * 65536), uncSince := s.now, stepDue := false } .holdover

/-! ### The servos (R40, R41, R63) -/

/-- The rate word within ±500 ppm (R34). -/
def boundRate (r : Int) : Int := max (-1099511627) (min 1099511627 r)

/-- The offset as measured, in the object and among the last 8. -/
def State.notedOffset (s : State) (b : Bool) (o : Int) : State :=
  let s := s.setReg (Regs.tdOffset (domIx b)) (ofSigned 64 o)
  let d := s.dom b
  s.setDom b { d with offsets := (o :: d.offsets).take 8, lastSync := some s.now, pendingSync := none }

/-- Steers the rate by an offset (R40 leaves the law open). -/
def State.steer (s : State) (b : Bool) (o : Int) : State :=
  let d := s.dom b
  s.setDom b { d with rate := boundRate (Config.servoRate d.rate o) }

/-- ACQUIRING after this Sync: a due step is taken, else the rate is steered (R41). The step at the next Sync takes that Sync's own
offset, even one back within the limit: R41 does not say which (DESIGN CHOICE, log 69). -/
def State.acquire (s : State) (b : Bool) (o : Int) : State :=
  let far := decide (s.reg Regs.timeStepLimit * 65536 < o.natAbs)
  let due := (s.dom b).stepDue
  let s := if due then s.stepDomain b o else s.steer b o
  let d := s.dom b
  let run := if o.natAbs ≤ 100 * 65536 then d.goodRun + 1 else 0
  let d := { d with stepDue := far && !due, goodRun := run }
  if 8 ≤ run then s.enterServo b { d with stepDue := false } .locked else s.setDom b d

/-- One offset in 2^-16 ns reaches a servo (R40, R41, R63). In COASTING |o| is compared with the exact bound that UNC encodes, where
R63 says "the UNC carried at that moment" (DESIGN CHOICE, log 69). -/
def State.feed (s : State) (b : Bool) (o : Int) : State :=
  let unc := s.boundScaled b
  let s := s.notedOffset b o
  let d := s.dom b
  let far := decide (s.reg Regs.timeStepLimit * 65536 < o.natAbs)
  match d.servo with
  | .freeRun | .holdover => (s.enterServo b { d with stepDue := far } .acquiring).steer b o
  | .coasting =>
    let s := s.setReg Regs.relockStep (ofSigned 64 (roundDivEven o 65536))
    let past := match unc with
      | some u => decide (u < o.natAbs * 1000000)
      | none => false
    let s := if past then (s.bump Regs.coastViolations).logs
        { severity := .contained, source := 12, kind := 35, detail := domIx b } else s
    let s := s.stepDomain b o
    s.enterServo b { s.dom b with stepDue := false } .acquiring
  | .acquiring => s.acquire b o
  | .locked =>
    let s := s.steer b o
    let d := s.dom b
    let run := if 1000 * 65536 < o.natAbs then d.badRun + 1 else 0
    if 3 ≤ run then s.enterServo b { d with stepDue := far } .acquiring else s.setDom b { d with badRun := run }

/-- The link of a port. -/
def State.gptpLink (s : State) (port : Nat) : LinkDelay := kget s.sundial.links port {}

def State.setLink (s : State) (port : Nat) (l : LinkDelay) : State :=
  { s with sundial := { s.sundial with links := kset s.sundial.links port l } }

/-- A MAC hands its gPTP frames to the Sundial (R39, R74): the time base and the Lodge are on, and the link is up. -/
def State.portEnabled (s : State) (p : Nat) : Bool := s.pdOn 1 && s.pdOn 40 && s.flag (Regs.ethLinkUp p)

/-- The time domain of a domainNumber (R39, R64): the two differ. -/
def State.domainOf (s : State) (n : Nat) : Option Bool :=
  [false, true].find? (fun b => decide (s.reg (Regs.tdGptpDomain (domIx b)) = n))

/-- Whether a Sync on a port is one this time domain listens to (R39): its source gPTP and its slave port. -/
def State.hearsSync (s : State) (b : Bool) (port : Nat) : Bool :=
  s.portEnabled port && s.sundial.running && decide (s.reg (Regs.tdSource (domIx b)) = 0)
  && decide (s.reg (Regs.tdSlavePort (domIx b)) = port)

/-- The receive stamp in a domain's own counter, 2^-16 ns, corrected by ETH_RX_LAT (R36, R48). -/
def State.rxStamp (s : State) (b : Bool) (port fine : Nat) : Int :=
  ((s.dom b).counter >>> 24 + fine * 8192 : Nat) - (s.reg (Regs.ethRxLat port) * 8192 : Nat)

/-- Master minus local: the origin time plus the link delay less the receive stamp. A Sync without a valid link delay
only renews the receipt time. The link delay is valid from the first completed exchange on and stays so (DESIGN CHOICE: R39 does not
say when it begins and ceases to be, log 69). -/
def State.syncOffset (s : State) (b : Bool) (port : Nat) (origin stamp : Int) : State :=
  match (s.gptpLink port).delay with
  | some dl => s.feed b (origin + dl - stamp)
  | none => s.setDom b { s.dom b with lastSync := some s.now, pendingSync := none }

/-- SYNC_RECEIVED (R39, R40): `origin` is the origin time with the correction, in 2^-16 ns; two-step waits. -/
def execSyncReceived (domainNumber : Fin 256) (port : Fin 4) (seq : Nat) (twoStep : Bool) (origin : Int) (fine : Fin 16) (s : State) : Res :=
  match s.domainOf domainNumber.val with
  | none => .next s
  | some b =>
    if !s.hearsSync b port.val then .next s
    else if twoStep then
      .next (s.setDom b { s.dom b with
        lastSync := some s.now,
        pendingSync := some { port := port.val, seq := seq, stamp := s.rxStamp b port.val fine.val } })
    else .next (s.syncOffset b port.val origin (s.rxStamp b port.val fine.val))

/-- FOLLOW_UP_RECEIVED (R39). -/
def execFollowUpReceived (domainNumber : Fin 256) (port : Fin 4) (seq : Nat) (origin : Int) (s : State) : Res :=
  match s.domainOf domainNumber.val with
  | none => .next s
  | some b => match (s.dom b).pendingSync with
    | some q =>
      if s.hearsSync b port.val && decide (q.port = port.val) && decide (q.seq = seq) then
        .next (s.syncOffset b port.val origin q.stamp)
      else .next s
    | none => .next s

/-- ANNOUNCE_RECEIVED (R39): recorded; no BMCA is run. -/
def execAnnounceReceived (port : Fin 4) (msg : Bytes) (s : State) : Res :=
  if s.portEnabled port.val then .next (s.setLink port.val { s.gptpLink port.val with announce := msg }) else .next s

/-- SIGNALING_RECEIVED (R39): received and ignored. -/
def execSignalingReceived (_port : Fin 4) (s : State) : Res := .next s

/-- SYNC_RECEIPT_TIMEOUT (R40): the receipt timeout in ns; PPS edges come every second (log 18). -/
def State.receiptTimeout (s : State) (b : Bool) : Nat :=
  let n := s.reg (Regs.tdSyncTimeout (domIx b))
  if s.reg (Regs.tdSource (domIx b)) = 1 then n * 1000000000
  else n * 1000000000 / 2 ^ (-(s.sreg 8 (Regs.tdLogSyncInterval (domIx b)))).toNat

def execSyncReceiptTimeout (dom : Bool) (s : State) : Res :=
  let d := s.dom dom
  let due := match d.lastSync with
    | some t => decide (t + s.receiptTimeout dom ≤ s.now)
    | none => true
  if due && (d.servo == .locked || d.servo == .acquiring) then
    .next ((s.bump (Regs.tdSyncTimeouts (domIx dom))).enterHoldover dom)
  else .next s

/-! ### Link delay (R39): messages as IEEE 802.1AS-2020 lays them out (log 19) -/

/-- Big-endian bytes. -/
def toBe (n x : Nat) : Bytes := (toLe n x).reverse

/-- The port identity: the EUI-64 of ETH_MAC_ADDR and the port number. -/
def State.portIdentity (s : State) (p : Nat) : Bytes :=
  let m := toBe 6 (s.reg (Regs.ethMacAddr p))
  m.take 3 ++ [0xFF, 0xFE] ++ m.drop 3 ++ toBe 2 (p + 1)

/-- A gPTP message to the peer: Ethernet header, common header with its correction field in 2^-16 ns, body. -/
def State.gptpFrame (s : State) (p kind seq flags correction : Nat) (body : Bytes) : Bytes :=
  [0x01, 0x80, 0xC2, 0x00, 0x00, 0x0E] ++ toBe 6 (s.reg (Regs.ethMacAddr p)) ++ [0x88, 0xF7]
  ++ [BitVec.ofNat 8 (0x10 + kind), 0x12] ++ toBe 2 (34 + body.length) ++ [0, 0] ++ toBe 2 flags
  ++ toBe 8 correction ++ List.replicate 4 0 ++ s.portIdentity p ++ toBe 2 seq
  ++ [if kind = 2 then 0 else 0x05, if kind = 2 then BitVec.ofNat 8 (s.reg (Regs.tdLogPdelayInterval 0)) else 0x7F] ++ body

/-- A timestamp: 48-bit seconds, 32-bit nanoseconds of a time in 2^-16 ns; the rest goes to the correction field. -/
def ptpStamp (t16 : Nat) : Bytes := toBe 6 (t16 / 65536 / 1000000000) ++ toBe 4 (t16 / 65536 % 1000000000)

/-- Local time in 2^-16 ns, `fine` × 125 ps after the present tick. -/
def State.local16 (s : State) (fine : Nat) : Nat := s.now * 65536 + fine * 8192

/-- A Pdelay frame waits for the MAC of its port. -/
def State.queueGptp (s : State) (p : Nat) (f : LaunchFrame) : State :=
  { s with sundial := { s.sundial with gptpq := kset s.sundial.gptpq p (kget s.sundial.gptpq p [] ++ [f]) } }

/-- The interval between Pdelay_Req messages in ns (R39, R64): 2^k s. -/
def State.pdelayInterval (s : State) : Nat :=
  let k := s.sreg 8 (Regs.tdLogPdelayInterval 0)
  if 0 ≤ k then 1000000000 * 2 ^ k.toNat else 1000000000 / 2 ^ (-k).toNat

/-- PDELAY_REQ_TIMER (R39): a Pdelay_Req waits for the MAC, one interval after the last. -/
def execPdelayReqTimer (port : Fin 4) (s : State) : Res :=
  let p := port.val
  let l := s.gptpLink p
  if s.portEnabled p && s.periodDue l.askedAt s.pdelayInterval then
    let seq := (l.reqSeq + 1) % 65536
    .next ((s.setLink p { l with reqSeq := seq, askedAt := some s.now, sentAt := none, t2 := none, t4 := none }).queueGptp p
      { time := 0, stamped := false, data := s.gptpFrame p 2 seq 0 0 (List.replicate 20 0), kind := .pdelayReq })
  else .next s

/-- PDELAY_REQ_RECEIVED (R39): answered two-step on every enabled port, with the receive stamp less ETH_RX_LAT (R48). -/
def execPdelayReqReceived (port : Fin 4) (seq : Nat) (requester : Bytes) (fine : Fin 16) (s : State) : Res :=
  let p := port.val
  if s.portEnabled p then
    let who := padTo 10 requester
    let t2 := t128Time (s.stampAt (tapEth p) fine.val (-(s.reg (Regs.ethRxLat p) : Int)))
    .next (s.queueGptp p { time := 0, stamped := false, data := s.gptpFrame p 3 seq 0x0200 (t2 % 65536) (ptpStamp t2 ++ who),
                           kind := .pdelayResp seq who })
  else .next s

/-- PDELAY_RESP_RECEIVED (R39): with the follow-up the mean link delay is ((t4 − t1) − (t3 − t2)) / 2. -/
def execPdelayRespReceived (port : Fin 4) (seq : Nat) (followUp : Bool) (time : Int) (fine : Fin 16) (s : State) : Res :=
  let l := s.gptpLink port.val
  if !s.portEnabled port.val || decide (l.reqSeq ≠ seq) then .next s
  else match l.sentAt, followUp with
    | none, _ => .next s
    | some _, false =>
      .next (s.setLink port.val { l with
        t2 := some time, t4 := some ((s.local16 fine.val : Int) - s.reg (Regs.ethRxLat port.val) * 8192) })
    | some t1, true =>
      match l.t2, l.t4 with
      | some t2, some t4 =>
        .next (s.setLink port.val { l with sentAt := none, delay := some (((t4 - t1) - (time - t2)) / 2) })
      | _, _ => .next s

/-! ### Sources and switches by command -/

/-- A change of source (R40). -/
def State.setSource (s : State) (b : Bool) (v : Nat) : State :=
  let r := Regs.tdSource (domIx b)
  let changed := decide (s.reg r ≠ v) || decide (v = 2)
  let s := s.setReg r v
  if changed && ((s.dom b).servo == .locked || (s.dom b).servo == .acquiring) then s.enterHoldover b else s

/-- TD_SOURCE (R40, R57). -/
def hookTdSource (b : Bool) : Hook := fun s p data =>
  let v := ofLe data
  if v = 1 ∧ (s.reg Regs.ppsInOwner ≠ s.writer p) then .error (conflictOwner (s.reg Regs.ppsInOwner))
  else .ok (s.setSource b v)

def execTdSourceWrite (p : Path) (dom : Bool) (v : Nat) (s : State) : Res :=
  .next (s.writeObject p (0x2201 + domIx dom) 1 (toLe 1 v) (hookTdSource dom))

/-- TIME_ACTIVE_DOMAIN (R44, R412): the lowest-numbered failed condition is named. -/
def hookActiveDomain : Hook := fun s _ data =>
  let b := decide (ofLe data = 1)
  if (s.dom b).servo ≠ .locked then .error (conflictCondition 3)
  else if s.sundial.active ≠ b ∧ s.switchNear b = false then .error (conflictCondition 4)
  else if s.sundial.residual ≠ 0 then .error (conflictCondition 5)
  else if s.sundial.active = b then .ok s
  else .ok (s.activate b (s.switchDiff b))

def execTimeActiveDomainWrite (p : Path) (v : Nat) (s : State) : Res :=
  .next (s.writeObject p 0x2200 2 (toLe 1 v) hookActiveDomain)

/-- TIME_FORCE_SWITCH (R44): a switch with a step; r = 0. -/
def hookForceSwitch : Hook := fun s _ data =>
  let b := decide (ofLe data = 1)
  if (s.dom b).servo = .freeRun then .error (conflictCondition 6)
  else .ok ((s.activate b 0).stepped s.outTime)

def execTimeForceSwitch (p : Path) (v : Nat) (s : State) : Res :=
  .next (s.writeObject p 0x2200 6 (toLe 1 v) hookForceSwitch)

/-- SLEW_COMPLETE (R43): what is left of r is no more than one tick's slew, and r becomes 0. -/
def execSlewComplete (s : State) : Res :=
  if s.sundial.residual.natAbs ≤ s.slewStep then .next { s with sundial := { s.sundial with residual := 0 } } else .next s

/-- STEPPED_EXPIRY (R41). -/
def execSteppedExpiry (s : State) : Res :=
  match s.sundial.steppedAt with
  | some t => if t + 1000000000 ≤ s.now then .next { s with sundial := { s.sundial with steppedAt := none } } else .next s
  | none => .next s

/-- TD_GPTP_DOMAIN must differ between A and B (R64). -/
def hookGptpDomain (b : Bool) : Hook := fun s _ data =>
  if s.reg (Regs.tdGptpDomain (domIx (!b))) = ofLe data then .error (conflictCondition 7)
  else .ok (s.setReg (Regs.tdGptpDomain (domIx b)) (ofLe data))

/-- TD_SLAVE_PORT. A change of slave port is no change of source. -/
def hookPdelayInterval : Hook := fun s _ data =>
  .ok ((s.setReg (Regs.tdLogPdelayInterval 0) (ofLe data)).setReg (Regs.tdLogPdelayInterval 1) (ofLe data))

/-! ### Alarms (R49, R50) -/

/-- ALARM_FIRE. -/
def execAlarmFire (a : Fin 8) (s : State) : Res :=
  if s.pdOn 1 && s.sundial.running && s.flag (Regs.alarmArm a.val) && decide (s.alarmTime a.val ≤ s.outTime >>> 24) then
    .next (s.alarmFires a.val false false)
  else .next s

/-- ALARM_ARM (R50, R57): a target already past fires at once and counts ALARM_LATE. -/
def hookAlarmArm (a : Nat) : Hook := ownedHook (Regs.alarmOwner a) (fun s _ data =>
  if ofLe data = 0 then .ok (s.setReg (Regs.alarmArm a) 0)
  else if s.flag (Regs.alarmArm a) then .ok s
  else
    let s := s.setReg (Regs.alarmArm a) 1
    let s := { s with sundial := { s.sundial with alarmNext := kset s.sundial.alarmNext a 0 } }
    if s.alarmTime a < s.outTime >>> 24 then .ok (s.alarmFires a true true) else .ok s)

def execAlarmArm (p : Path) (a : Fin 8) (v : Nat) (s : State) : Res :=
  .next (s.writeObject p (0x2210 + a.val) 6 (toLe 1 v) (hookAlarmArm a.val))

/-- A new target or period starts its series anew. -/
def hookAlarmSeries (a : Nat) (r : Reg) : Hook := ownedHook (Regs.alarmOwner a) (fun s _ data =>
  .ok ({ s with sundial := { s.sundial with alarmNext := kset s.sundial.alarmNext a 0 } }.setReg r (ofLe data)))

/-! ### Triggers and PPS (R51–R53) -/

/-- Whether trigger t still has a pulse to give. -/
def State.trigLeft (s : State) (t : Nat) : Bool :=
  decide (s.reg (Regs.trigCount t) = 0) || decide (kget s.sundial.trigNext t 0 < s.reg (Regs.trigCount t))

/-- The edge of trigger t's next pulse, in 2^-16 ns. -/
def State.trigEdge (s : State) (t : Nat) : Nat :=
  t128Time (s.reg (Regs.trigStart t)) + kget s.sundial.trigNext t 0 * s.reg (Regs.trigPeriod t) * 65536

/-- The level of TRIG_OUTt under function 1 of its multiplexer (R51, R66): active high, or low with TRIG_POLARITY 1. -/
def State.trigLevel (s : State) (t : Nat) : Bool := s.trigActive t != s.flag (Regs.trigPolarity t)

/-- The level of TRIG_OUTt; none while the pin is high-Z (R503). -/
def State.tpinOut (s : State) (t : Nat) : Option Bool :=
  match kget s.pins.tpinActive t 0 with
  | 1 => some (s.trigLevel t)
  | 2 => some (s.flag (Regs.tpinLevel t))
  | _ => none

/-- The Sundial drives the pin while the multiplexer selects it (R51): the edge lies `ns` into the tick. -/
def State.driveTrig (s : State) (t ns : Nat) : State :=
  if kget s.pins.tpinActive t 0 = 1 then s.emit (.trig t (s.trigLevel t) ns) else s

/-- TRIGGER_PULSE (R51): a pulse whose edge lies in the tick that begins begins there, to the nearest ns of the output time line. One
whose edge has passed is late and is not emitted, nor is one whose predecessor still lasts: the next pulse is the first still ahead. -/
def execTriggerPulse (t : Fin 4) (s : State) : Res :=
  if !(s.pdOn 1 && s.sundial.running && s.flag (Regs.trigEnable t.val) && s.trigLeft t.val) then .next s
  else match s.edgeInTick (s.trigEdge t.val), s.trigActive t.val with
    | some ns, false =>
      .next (({ s with sundial := { s.sundial with
        trigNext := kset s.sundial.trigNext t.val (kget s.sundial.trigNext t.val 0 + 1),
        trigPulse := kset s.sundial.trigPulse t.val (s.now, s.now + ns + s.reg (Regs.trigWidth t.val)) } }.bump
        (Regs.trigPulses t.val)).driveTrig t.val ns)
    | _, _ =>
      if s.outTime >>> 24 < s.trigEdge t.val then .next s
      else .next { s with sundial := { s.sundial with
        trigNext := kset s.sundial.trigNext t.val (s.trigAhead t.val (kget s.sundial.trigNext t.val 0 + 1)) } }

/-- A change of pin function that waited for the end of a pulse takes effect (R503). -/
def State.tpinTakes (s : State) (t : Nat) : State :=
  match kfind s.pins.tpinNext t with
  | some f => { s with pins := { s.pins with tpinActive := kset s.pins.tpinActive t f, tpinNext := kdel s.pins.tpinNext t } }
  | none => s

/-- TRIGGER_PULSE_END (R51, R503): in the tick that holds the end the pin goes inactive, and a change of pin function that waited takes
effect. -/
def execTriggerPulseEnd (t : Fin 4) (s : State) : Res :=
  match kfind s.sundial.trigPulse t.val with
  | some (_, e) =>
    if e < s.now + 2 then
      .next (({ s with sundial := { s.sundial with trigPulse := kdel s.sundial.trigPulse t.val } }.driveTrig t.val (e - s.now)).tpinTakes t.val)
    else .next s
  | none => .next s

/-- TRIG_ENABLE (R51): a start already past begins at the first edge still ahead. -/
def hookTrigEnable (t : Nat) : Hook := ownedHook (Regs.trigOwner t) (fun s _ data =>
  let on := decide (ofLe data = 1)
  let fresh := on && !s.flag (Regs.trigEnable t)
  let s := s.setReg (Regs.trigEnable t) (ofLe data)
  if fresh then .ok { s with sundial := { s.sundial with trigNext := kset s.sundial.trigNext t (s.trigAhead t 0) } }
  else .ok s)

/-- TRIG_WIDTH: at most the period less 8 ns; TRIG_PERIOD keeps it so. -/
def hookTrigWidth (t : Nat) : Hook := fun s p data =>
  if s.reg (Regs.trigPeriod t) < ofLe data + 8 then .error outOfRange
  else ownedHook (Regs.trigOwner t) (fun s _ d => .ok (s.setReg (Regs.trigWidth t) (ofLe d))) s p data

/-- A new start or period: the series begins at the first edge still ahead. -/
def hookTrigSeries (t : Nat) (r : Reg) : Hook := ownedHook (Regs.trigOwner t) (fun s _ data =>
  let s := s.setReg r (ofLe data)
  .ok { s with sundial := { s.sundial with trigNext := kset s.sundial.trigNext t (s.trigAhead t 0) } })

/-- The whole second nearest the present output time. -/
def State.nearSecond (s : State) : Nat := (s.outTime + 500000000 * 2 ^ 40) / (1000000000 * 2 ^ 40)

/-- PPS_OUT_PULSE (R52): the tick that begins holds a whole second; the pin is held inactive under gating unless the active time domain
is LOCKED. -/
def execPpsOutPulse (k : Fin 2) (s : State) : Res :=
  if !(s.pdOn 1 && s.sundial.running && s.flag (Regs.ppsOutEnable k.val)
      && decide (kget s.sundial.ppsSecond k.val 0 < s.nearSecond)) then .next s
  else match s.edgeInTick (s.nearSecond * 1000000000 * 65536) with
    | none => .next s
    | some ns =>
      let s1 := { s with sundial := { s.sundial with ppsSecond := kset s.sundial.ppsSecond k.val s.nearSecond } }
      if s.reg (Regs.ppsOutGating k.val) = 1 ∧ s.activeDom.servo ≠ .locked then .next s1
      else .next ({ s1 with sundial := { s1.sundial with
        ppsPulse := kset s1.sundial.ppsPulse k.val (s.now + ns + s.reg (Regs.ppsOutWidth k.val) * 1000) } }.emit (.pps k.val true ns))

/-- PPS_OUT_PULSE_END (R52). -/
def execPpsOutPulseEnd (k : Fin 2) (s : State) : Res :=
  match kfind s.sundial.ppsPulse k.val with
  | some e =>
    if e < s.now + 2 then
      .next ({ s with sundial := { s.sundial with ppsPulse := kdel s.sundial.ppsPulse k.val } }.emit (.pps k.val false (e - s.now)))
    else .next s
  | none => .next s

/-- PPS_OUT_ENABLE: the first pulse is that of the next whole second. -/
def hookPpsEnable (k : Nat) : Hook := ownedHook (Regs.ppsOutOwner k) (fun s _ data =>
  let s := s.setReg (Regs.ppsOutEnable k) (ofLe data)
  .ok { s with sundial := { s.sundial with ppsSecond := kset s.sundial.ppsSecond k (s.outNs / 1000000000) } })

/-- PPS_IN_EDGE (R53, R66): an edge of the active direction is stamped, accepted within 999 to 1,001 ms of the previous accepted
edge, and fed to servos on PPS_IN. PPS_IN_EDGES counts every active edge, a rejected one too (DESIGN CHOICE: the table says only that
it is a counter, log 69). -/
def execPpsInEdge (rising : Bool) (fine : Fin 16) (s : State) : Res :=
  if !(s.pdOn 1 && s.sundial.running) || rising == s.flag Regs.ppsInPolarity then .next s
  else
    let s1 := (s.setReg Regs.ppsInLast (s.stampAt tapPins fine.val 0)).bump Regs.ppsInEdges
    let good := match s.sundial.ppsAccepted with
      | none => true
      | some t => decide (t + 999000000 ≤ s.now) && decide (s.now ≤ t + 1001000000)
    if !good then .next (s1.bump Regs.ppsInRejects)
    else
      let s2 := { s1 with sundial := { s1.sundial with ppsAccepted := some s.now } }
      .next ([false, true].foldl (fun s b =>
        if s.reg (Regs.tdSource (domIx b)) = 1 then
          let c : Int := ((s.dom b).counter >>> 24 : Nat) + fine.val * 8192
          s.feed b (roundDivEven c (65536 * 1000000000) * (65536 * 1000000000) - c)
        else s) s2)

/-! ### Launch queues (R54–R56) -/

def State.launchQ (s : State) (n : Nat) : List LaunchFrame := kget s.sundial.launch n []

def State.setLaunchQ (s : State) (n : Nat) (q : List LaunchFrame) : State :=
  { s with sundial := { s.sundial with launch := kset s.sundial.launch n q } }

/-- The output time line in 2^-16 ns. -/
def State.out16 (s : State) : Nat := s.outTime >>> 24

/-- The transmit stamp of a frame that port p starts now, in 2^-16 ns (R48). -/
def State.launchStamp (s : State) (p : Nat) : Nat := s.out16 + s.reg (Regs.ethTxLat p) * 8192

/-- Whether a launch time falls into the tick that begins, or before it: a frame that starts now has its stamp at most 2 ns too early,
and its fine phase adds less than 2 ns (R54). -/
def State.timeCome (s : State) (p time : Nat) : Bool := decide (time < s.launchStamp p + 2 * 65536)

/-- Whether the head of a launch queue is due. -/
def State.launchDue (s : State) (n : Nat) : Bool :=
  match s.launchQ n with
  | f :: _ => s.timeCome (n / 4) f.time
  | [] => false

/-- The MAC of a port can start a frame: link up, Lodge on, nothing on the wire. -/
def State.macFree (s : State) (p : Nat) : Bool :=
  s.pdOn 40 && s.flag (Regs.ethLinkUp p) && (kfind s.sundial.onWire p).isNone

/-- The wire time of a frame with preamble and FCS in ns, rounded up, at the rate in force (10, 5, 2.5 or 1 Gb/s). -/
def State.wireTime (s : State) (p n : Nat) : Nat := ceilDiv ((n + 12) * 8 * [10, 10, 20, 40, 100].getD (s.reg (Regs.ethRate p)) 10) 100

/-- What a frame's start tells the link-delay measurement: t1 of a Pdelay_Req; t3 of a Pdelay_Resp, which its follow-up carries. -/
def State.startTold (s : State) (p fine : Nat) (f : LaunchFrame) (stamp : Nat) : State :=
  match f.kind with
  | .plain => s
  | .pdelayReq => s.setLink p { s.gptpLink p with sentAt := some ((s.local16 fine : Int) + s.reg (Regs.ethTxLat p) * 8192) }
  | .pdelayResp seq who =>
    let t3 := t128Time stamp
    s.queueGptp p { time := 0, stamped := false, data := s.gptpFrame p 10 seq 0 (t3 % 65536) (ptpStamp t3 ++ who) }

/-- Puts a frame on the wire of a port, at a fine phase that is free: its transmit stamp is the raw capture plus ETH_TX_LAT (R48). -/
def State.startFrame (s : State) (p : Nat) (f : LaunchFrame) : State :=
  let fine := Config.freeNat s.freeIx % 16
  let stamp := s.stampAt (tapEthTx p) fine (s.reg (Regs.ethTxLat p))
  let w : WireFrame := { stamp := stamp, endsAt := s.now + s.wireTime p f.data.length, frame := f }
  ({ s with sundial := { s.sundial with onWire := kset s.sundial.onWire p w } }.skipFree).startTold p fine f stamp

/-- Whether a launch frame of port p has its time before a frame of n bytes would have left (R54). -/
def State.launchBefore (s : State) (p n : Nat) : Bool :=
  (List.range 4).any (fun i => match s.launchQ (4 * p + i) with
    | f :: _ => decide (f.time < s.launchStamp p + s.wireTime p n * 65536)
    | [] => false)

/-- The transmit stamp of the frame on a port's wire, in 2^-16 ns. -/
def State.wireStamp (s : State) (p : Nat) : Nat := t128Time (((kfind s.sundial.onWire p).map (·.stamp)).getD 0)

/-- LAUNCH_RELEASE (R54, R55): the head frame leaves when its launch time has come, the port is free and no lower queue of the port has
a frame due; late beyond LQ_LATE_LIMIT it is dropped. One whose stamp comes out more than 3.2 ns past its launch time is late. -/
def execLaunchRelease (q : Fin 16) (s : State) : Res :=
  let n := q.val
  let p := n / 4
  match s.launchQ n with
  | [] => .next s
  | f :: rest =>
    if !s.timeCome p f.time then .next s
    else if s.reg (Regs.lqLateLimit n) * 65536 < s.launchStamp p - f.time then
      .next ((s.setLaunchQ n rest).bump (Regs.lqLateDrop n))
    else if !s.macFree p || (List.range (n % 4)).any (fun i => s.launchDue (4 * p + i)) then .next s
    else
      let s1 := ((s.setLaunchQ n rest).startFrame p f).bump (Regs.lqSent n)
      .next (s1.bumpIf (decide (32 * 65536 < 10 * (s1.wireStamp p - f.time))) (Regs.lqLateSent n))

/-! ### Time across sleep (R59–R62) -/

/-- SLEEP_CORR_WINDOW (R59): once 64 s of output time have passed since the window began, c + (measured − c) / 8 rounded to ppb;
the next window begins. The measurement and the result are rounded to the nearest ppb, ties to even (DESIGN CHOICE: R59 does not say
how, log 69). -/
def execSleepCorrWindow (s : State) : Res :=
  match s.windowNow with
  | none => .next s
  | some (t0, n0) =>
    if s.pdOn 1 && s.sundial.running && decide (t0 + 64000000000 * 2 ^ 40 ≤ s.outTime) then
      let span := s.outTime - t0
      let cycles := s.sleepCount - n0
      let c := s.sreg 32 Regs.sleepCorr
      let measured := roundDivEven ((cycles : Int) * (1000000000 * 2 ^ 40) * 1000000000 - 32768 * span * 1000000000) (32768 * span)
      let s := (s.setReg Regs.sleepCorr (ofSigned 32 (roundDivEven (7 * c + measured) 8))).setReg Regs.sleepCorrValid 1
      .next { s with sundial := { s.sundial with window := some (s.outTime, s.sleepCount) } }
    else .next s

/-- The sleep count of an alarm (R61). -/
def wakeCount (n0 t0 target : Nat) (c : Int) : Nat :=
  ((n0 : Int) + (((target : Int) - t0) * 32768 * (1000000000 + c)) / (65536 * 1000000000 * 1000000000)).toNat

/-- TIME_SAVE (R60): as power domain 1 leaves on. -/
def execTimeSave (s : State) : Res :=
  if s.sundial.running && decide ((s.pd 1).target = some .off) && (s.pd 1).begun then
    let c := s.sreg 32 Regs.sleepCorr
    let t0 := s.out16
    let u := s.uncertainty s.sundial.active
    let sv : SavedTime := { t0 := t0, n0 := s.sleepCount, unc := if u = 2 ^ 64 - 1 then none else some u,
                            servo := s.activeDom.servo, corr := c, standbyLocked := decide ((s.dom (!s.sundial.active)).servo = .locked) }
    let wake := (List.range 8).foldl (fun m a =>
      if s.flag (Regs.alarmArm a) && bit (s.reg (Regs.alarmAction a)) 1 then kset m a (wakeCount s.sleepCount t0 (s.alarmTime a) c)
      else m) []
    let s1 := (s.setReg Regs.sleepEntryTime s.timeNow).setReg Regs.sleepEntryCount s.sleepCount
    .next { s1 with sundial := { s1.sundial with saved := some sv, alarmWake := wake, residual := 0, running := false } }
  else .next s

/-- The rate bound b of R62 in ppm. -/
def State.sleepBound (s : State) : Nat :=
  match s.flag Regs.sleepClockSrc, s.flag Regs.sleepCorrValid with
  | false, true => s.reg Regs.sleepUncRate
  | false, false => 500
  | true, true => 2000
  | true, false => 50000

/-- The reconstructed time in 2^-16 ns (R62). -/
def rebuilt (v : SavedTime) (n1 : Nat) : Nat :=
  v.t0 + (roundDivEven (((n1 - v.n0) * 10 ^ 18 * 65536 : Nat) : Int) (32768 * (1000000000 + v.corr)).toNat).toNat

/-- A time domain loaded with the reconstructed time (R62). -/
def coasting (d : TimeDomain) (t16 : Nat) (unc : Option Nat) (now : Nat) : TimeDomain :=
  { d with counter := t16 <<< 24, servo := .coasting, goodRun := 0, badRun := 0, uncBase := unc, uncSince := now,
           pendingSync := none, stepDue := false }

/-- The exits from LOCKED that a sleep makes (R44, R64): each is counted, and the automatic switch of the active time domain finds no
LOCKED standby. -/
def State.lockLost (s : State) (v : SavedTime) : State :=
  let b := s.sundial.active
  let s := (s.bumpIf (decide (v.servo = .locked)) (Regs.tdLockLosses (domIx b))).bumpIf v.standbyLocked (Regs.tdLockLosses (domIx (!b)))
  if v.servo = .locked then s.autoSwitch else s

/-- TIME_RECONSTRUCT (R62); an alarm whose target passed in sleep fires once, late (R50, R61). -/
def execTimeReconstruct (s : State) : Res :=
  match s.sundial.saved with
  | none => .next s
  | some v =>
    if s.sundial.running || !s.pdOn 1 then .next s
    else
      let n1 := s.sleepCount
      let t := rebuilt v n1
      let unc := v.unc.map (fun u => u * 65536 + (n1 - v.n0) * s.sleepBound * 2000)
      let s1 := s.setReg Regs.sleepWakeCount n1
      let s2 := { s1 with sundial := { s1.sundial with
                running := true, residual := 0,
                domA := coasting s.sundial.domA t unc s.now, domB := coasting s.sundial.domB t unc s.now } }
      .next ((s2.lockLost v).ppsRestart.passedOver (v.t0 <<< 24))

end Sys2Proof.Machine
end

