-- ==== Sys2Proof/Machine/Lodge.lean ====
section
/-! DEFINITION. The Lodge: ingest queues (R68–R75), cameras (R76–R80), inertial units (R90–R92), wheel and odometry
streams (R93–R96) and the transmit side of the Ethernet ports (R98). -/

namespace Sys2Proof.Machine

/-! ### Ingest queues -/

/-- The port FIFO that stream or host receive queue q passes through (R75): its key and its size in bytes. -/
def portFifo (q : Nat) : Nat × Nat :=
  if q < 24 then (q / 4, 262144)
  else if q < 36 then (6 + (q - 24) / 3, 65536)
  else if q < 42 then (10 + (q - 36), 4096)
  else if q < 48 then (16, 4096)
  else (6 + (q - 48), 65536)

/-- The bytes in the port FIFO of queue q. -/
def State.fifoUsed (s : State) (q : Nat) : Nat := kget s.lodge.fifo (portFifo q).1 0

/-- The bytes in the port FIFO of queue q become at most `top`: how far the memory has kept up is a free value (log 58). -/
def State.fifoSettles (s : State) (q top : Nat) : State :=
  if top = 0 then s
  else { s with freeIx := s.freeIx + 1, lodge := { s.lodge with fifo := kset s.lodge.fifo (portFifo q).1 (Config.fifoBehind s.freeIx % (top + 1)) } }

/-- The port FIFO of queue q has been emptying into memory since the last word came in. -/
def State.fifoDrains (s : State) (q : Nat) : State := s.fifoSettles q (s.fifoUsed q)

/-- n bytes come into the port FIFO of queue q, while the memory takes what it can. -/
def State.fifoTakes (s : State) (q n : Nat) : State := s.fifoSettles q (min (portFifo q).2 (s.fifoUsed q + n))

/-- Whether R75 discards an item of queue q at its item-start marker. -/
def State.congested (s : State) (q : Nat) : Bool :=
  let size := (portFifo q).2
  decide (size ≤ s.fifoUsed q)
  || (decide (3 * size ≤ 4 * s.fifoUsed q) && (decide (48 ≤ q) || decide (4 ≤ s.reg (Regs.streamPriority q))))

/-- The port FIFO of queue q is full. -/
def State.fifoFull (s : State) (q : Nat) : Bool := decide ((portFifo q).2 ≤ s.fifoUsed q)

/-- An item discarded under R75. -/
def State.countCongested (s : State) (q : Nat) : State :=
  if q < 48 then s.bump (Regs.streamCongestDrops q) else s.bump (Regs.ethHrxLost (q - 48))

/-- An item that cannot continue is discarded, and the rest is dropped until the next item-start marker (R75). -/
def State.cutShort (s : State) (q : Nat) : State :=
  (s.setIngest q { s.ingest q with frame := none, taken := none, dropping := true }).countCongested q

/-- The oldest closed item of a queue becomes visible (R69). -/
def State.makeVisible (s : State) (q : Nat) : State :=
  let v := s.ingest q
  match v.done with
  | [] => s
  | it :: rest =>
    let s := (s.setIngest q { v with items := v.items ++ [it], done := rest }).bumpStream q Regs.streamItems 1
    if q < 48 then s.setReg (Regs.streamLastTime q) it.time else s

/-- Slots of a queue in use. -/
def Ingest.slots (v : Ingest) : List Nat :=
  v.items.map (·.slot) ++ v.done.map (·.slot) ++ (v.pop.toList.map (·.item.slot)) ++ (v.frame.toList.map (·.slot)) ++ v.taken.toList

/-- The next free slot after the one last taken. -/
def State.freeSlot (s : State) (q : Nat) : Option Nat :=
  let v := s.ingest q
  let n := s.ingestCount q
  let first := match v.last with
    | some l => l + 1
    | none => 0
  ((List.range n).map (fun i => (first + i) % n)).find? (fun k => !v.slots.contains k)

/-- The counter of an item lost to R70. -/
def State.countLost (s : State) (q : Nat) : State :=
  if q < 48 then s.bump (Regs.streamLostItems q) else s.bump (Regs.ethHrxLost (q - 48))

/-- The slot of the oldest visible item, which is discarded (R70). -/
def State.stealSlot (s : State) (q : Nat) : State × Option Nat :=
  let s := if (s.ingest q).items = [] then s.makeVisible q else s
  let v := s.ingest q
  match v.items with
  | [] => (s, none)
  | it :: rest => ((s.setIngest q { v with items := rest, last := some it.slot }).countLost q, some it.slot)

/-- A slot for an item that begins (R70): a free one, else that of the oldest visible item. -/
def State.takeSlot (s : State) (q : Nat) : State × Option Nat :=
  match s.freeSlot q with
  | some k => (s.setIngest q { s.ingest q with last := some k }, some k)
  | none => s.stealSlot q

/-- A producer starts an item at its marker (R70, R75): its slot, or none where the item is discarded whole. -/
def State.startItem (s : State) (q : Nat) : State × Option Nat :=
  let s := s.fifoDrains q
  let s := s.setIngest q { s.ingest q with dropping := s.congested q }
  if s.congested q then (s.countCongested q, none) else s.takeSlot q

/-- An item that begins without a marker of its own, since its packet has begun one already: it is dropped with what that packet is
dropping (R75). -/
def State.followItem (s : State) (q : Nat) : State × Option Nat :=
  if (s.ingest q).dropping then (s.countCongested q, none) else s.takeSlot q

/-- The address of a slot. -/
def State.slotAt (s : State) (q k : Nat) : Nat := s.ingestBase q + k * s.ingestSlot q

/-- An item whose bytes are all written: it is closed, and becomes visible once its last byte is in memory. -/
def State.closeItem (s : State) (q slot len time : Nat) : State :=
  let it : IngestItem := ⟨slot, len, time⟩
  s.setIngest q { s.ingest q with done := (s.ingest q).done ++ [it] }

/-- Bytes that have passed through the port FIFO of queue q lie at an address: where the FIFO has given a word that its code cannot
correct, some of them, which ones is a free value (log 15), are poison (R359, R371). -/
def State.throughFifo (s : State) (q a n : Nat) : State :=
  match s.touchArray (.portFifo (Fin.ofNat 17 (portFifo q).1)) with
  | (s, none) => s
  | (s, some _) =>
    let (x, s) := s.draw
    s.pokePoison (a + x % max 1 n) 1

/-- The bytes of an item go through the port's FIFO into slot k, and the item closes; it is cut short where the FIFO is full
(R69, R75). -/
def State.fillItem (s : State) (q k time : Nat) (bs : Bytes) : State :=
  let s := s.fifoTakes q bs.length
  if s.fifoFull q then s.cutShort q
  else ((s.put .lodge (s.slotAt q k) bs).throughFifo q (s.slotAt q k) bs.length).closeItem q k bs.length time

/-- The bytes of an item whose slot has been asked for, and its closing (R69). -/
def State.fillAny (s : State × Option Nat) (q time : Nat) (bs : Bytes) : State :=
  match s with
  | (s, none) => s
  | (s, some k) => s.fillItem q k time bs

/-- A whole item of one producer: a slot, its bytes, its closing (R69, R70). -/
def State.wholeItem (s : State) (q time : Nat) (bs : Bytes) : State := State.fillAny (s.startItem q) q time bs

/-- Whether queue q takes items: its producer runs and the Lodge is on. -/
def State.ingestLive (s : State) (q : Nat) : Bool := (s.ingest q).live && s.ingestOn q && s.pdOn 40

/-- The oldest pop that waits on queue q is served (R71), unless the Pergola holds the queue (R132). -/
def State.servePop (s : State) (q : Nat) : State :=
  let s := s.popsRefused q
  match s.disp.items.find? (fun i => i.readable && i.phase == .pendingWait && i.finish.isNone && decide (i.opcode = 0x0D)
      && decide (i.queue = q)) with
  | some i => match i.lane with
    | some l => s.popIngest (laneAgent l) i
    | none => s
  | none => s

/-- ITEM_VISIBLE (R69, R71). -/
def execItemVisible (q : Fin 52) (s : State) : Res :=
  if (s.ingest q.val).done = [] then .next s else .next (((s.makeVisible q.val).pergolaSees q.val).servePop q.val)

/-- Whether an ingest ring may lie at an extent (R68): Lodge buffers, or DDR5 outside the drive region. -/
def State.ingestPlace (s : State) (lo len : Nat) : Bool :=
  s.inFreeDdr lo len || inOne lo len (fun r => r == .lodge)

/-- DATA_OFFSET of a camera item (R79). -/
def State.dataOffset (s : State) (q : Nat) : Nat :=
  if s.flag (Regs.camLineTimes q) then roundUp (64 + 4 * s.reg (Regs.camMaxLines q)) 64 else 64

/-- A field of a template (R83). -/
def State.tpl (s : State) (t hi lo : Nat) : Nat := bits (ofLe (s.blob (Blobs.tplData t) (List.replicate 640 0))) hi lo

/-- The template of a scanner stream. -/
def State.streamTemplate (s : State) (q : Nat) : Nat := s.reg (Regs.scnTemplate (q - 24))

/-- The smallest slot that an item of stream q needs (R78, R84, R92, R96). -/
def State.slotNeeded (s : State) (q : Nat) : Nat :=
  if q < 24 then s.dataOffset q + s.reg (Regs.camMaxLines q) * s.reg (Regs.camLineBytes q)
  else if q < 36 then
    let t := s.streamTemplate q
    64 + 24 * s.tpl t 143 128 * s.tpl t 175 160
  else if q < 42 then 64
  else 128

/-- Another enabled stream of the same CSI-2 port with the same virtual channel and data type (R77). -/
def State.sameCamera (s : State) (q : Nat) : Option Nat :=
  (List.range 24).find? (fun k => decide (k ≠ q) && decide (k / 4 = q / 4) && s.flag (Regs.streamEnable k)
    && decide (s.reg (Regs.camVc k) = s.reg (Regs.camVc q)) && decide (s.reg (Regs.camDt k) = s.reg (Regs.camDt q)))

/-- The conditions for enabling an ingest queue, out of range first (R410). -/
def State.enableCheck (s : State) (q : Nat) : Option Reply :=
  let lo := s.ingestBase q
  let len := s.ingestCount q * s.ingestSlot q
  if s.ingestCount q < 2 ∨ len = 0 ∨ lo % 256 ≠ 0 ∨ s.ingestPlace lo len = false then some outOfRange
  else if q < 48 ∧ s.ingestSlot q < s.slotNeeded q then some outOfRange
  else match (if q < 24 then s.sameCamera q else none) with
    | some k => some (conflictKind 2 k)
    | none =>
      if 24 ≤ q ∧ q < 36 ∧ s.flag (Regs.tplValid (s.streamTemplate q)) = false then some (conflictKind 5 (s.streamTemplate q))
      else clash s.lodgeClaims (if q < 48 then 2 else 4) (if q < 48 then q else q - 48) lo len

/-- The enable object of an ingest queue. -/
def ingestEnable (q : Nat) : Reg := if q < 48 then Regs.streamEnable q else Regs.ethHostRx (q - 48)

/-- STREAM_ENABLE and ETH_HOST_RX (R73): 0 flushes and stops, 1 starts at the next item-start marker, and a scanner's
sweeps begin at 0 (R86). -/
def hookIngestEnable (q : Nat) : Hook := fun s _ data =>
  if ofLe data = 0 then
    let s := (s.pergolaStream q).flushQueue q
    .ok ((s.setIngest q { s.ingest q with live := false }).setReg (ingestEnable q) 0)
  else if s.flag (ingestEnable q) then .ok s
  else match s.enableCheck q with
    | some e => .error e
    | none =>
      let s := s.pergolaStream q
      let v := s.ingest q
      .ok ((s.setIngest q { seq := v.seq, live := !s.shift.closed }).setReg (ingestEnable q) 1)

/-- STREAM_ENABLE. -/
def execStreamEnable (p : Path) (q : Fin 48) (v : Nat) (s : State) : Res :=
  .next (s.writeObject p (0x2300 + q.val) 1 (toLe 1 v) (hookIngestEnable q.val))

/-- STREAM_FLUSH (R72). -/
def hookStreamFlush (q : Nat) : Hook := actHook (fun s _ => .ok (s.flushQueue q))

def execStreamFlush (p : Path) (q : Fin 48) (v : Nat) (s : State) : Res :=
  .next (s.writeObject p (0x2300 + q.val) 6 (toLe 1 v) (hookStreamFlush q.val))

/-- A geometry or type-specific object of a stream: refused while it is enabled (R73). -/
def hookStreamConfig (q : Nat) (h : Hook) : Hook := heldHook (ingestEnable q) h

/-- A geometry object of an ingest queue: out of range where the base is no device address (R99, R101) or the ring it makes
breaks R68. The overlap of R68 is checked at the enable alone: only a ring of an enabled queue can clash (log 70). -/
def hookIngestGeometry (q : Nat) (r : Reg) : Hook := rangeFirst (fun s data =>
    let s := s.setReg r (ofLe data)
    let lo := s.ingestBase q
    let len := s.ingestCount q * s.ingestSlot q
    decide (lo % 256 = 0) && decide (lo < 2 ^ 40) && (decide (len = 0) || s.ingestPlace lo len))
  (hookStreamConfig q (regHook r))

/-- CAM_DT: the codes of R77. -/
def hookCamDt (q : Nat) : Hook := rangeFirst (fun _ data =>
    let v := ofLe data
    [0x12, 0x1E, 0x24, 0x2A, 0x2B, 0x2C, 0x2D, 0x2E].contains v || (decide (0x30 ≤ v) && decide (v ≤ 0x37)))
  (hookStreamConfig q (regHook (Regs.camDt q)))

/-- Every stream is flushed and stops (R29 step 2, R74). -/
def State.stopStreams (s : State) : State :=
  (List.range 52).foldl (fun s q =>
    if s.ingestOn q then
      let s := s.flushQueue q
      s.setIngest q { s.ingest q with live := false }
    else s) s

/-- Every enabled stream restarts at its next item-start marker (R30 step 4, R74). -/
def State.restartStreams (s : State) : State :=
  (List.range 52).foldl (fun s q => if s.ingestOn q then s.setIngest q { s.ingest q with live := true } else s) s

/-- The Lodge leaves the on state (R73): every item being written is discarded as a flush discards it, and the FIFOs empty. -/
def State.lodgeLeavesOn (s : State) : State :=
  let s := (List.range 52).foldl (fun s q =>
    let v := s.ingest q
    if v.writing || v.done != [] then
      (s.bumpStream q Regs.streamFlushDiscards (v.done.length + (if v.writing then 1 else 0))).setIngest q
        { v with frame := none, taken := none, done := [], dropping := true }
    else s) s
  { s with lodge := { s.lodge with reading := [], fifo := [] } }

/-! ### Cameras (R76–R80) -/

/-- The streams of a CSI-2 port on a virtual channel whose producers run. -/
def State.cameras (s : State) (port vc : Nat) : List Nat :=
  ((List.range 4).map (4 * port + ·)).filter (fun q => s.ingestLive q && decide (s.reg (Regs.camVc q) = vc))

/-- A camera's stamp (R47, R48). -/
def State.csiStamp (s : State) (port fine : Nat) : Nat := s.stampAt (tapCsi port) fine (-(s.reg (Regs.csiLat port) : Int))

/-- The header of a camera item (R79). -/
def State.cameraHeader (s : State) (q : Nat) (f : Frame) (flags feTime : Nat) : Bytes :=
  toLe 64 (f.time + feTime <<< 128 + (f.num % 65536) <<< 256 + (s.reg (Regs.camVc q) % 256) <<< 272
    + (s.reg (Regs.camDt q) % 256) <<< 280 + (f.lines % 65536) <<< 288 + (s.reg (Regs.camLineBytes q) % 65536) <<< 304
    + flags <<< 320 + s.dataOffset q <<< 352 + min f.crcLines 65535 <<< 384)

/-- Closes the open frame of stream q (R78, R80): FE_TIME, or none for a truncated frame. -/
def State.closeFrame (s : State) (q : Nat) (fe : Option Nat) : State :=
  match (s.ingest q).frame with
  | none => s
  | some f =>
    let noTimes := s.flag (Regs.camLineTimes q) && !f.anyLs
    let flags := f.flags + (if fe.isNone then 1 else 0) + (if noTimes then 16 else 0)
    let s := s.put .lodge (s.slotAt q f.slot) (s.cameraHeader q f flags (fe.getD 0))
    let s := s.setIngest q { s.ingest q with frame := none }
    s.closeItem q f.slot (s.dataOffset q + f.lines * s.reg (Regs.camLineBytes q)) f.time

/-- A packet that no stream claims. -/
def State.csiUnmatched (s : State) (port : Nat) : State := s.bump (Regs.csiUnmatched port)

/-- What a packet does once its header's ECC is checked (R76): one wrong bit is corrected and counted, two discard the packet. -/
def State.csiPacket (s : State) (port headerErrors : Nat) (f : State → State) : State :=
  if !s.pdOn 40 then s
  else if headerErrors = 2 then s.bump (Regs.csiEccErrors port)
  else f (s.bumpIf (decide (headerErrors = 1)) (Regs.csiEccCorrected port))

/-- A short packet for every camera of its virtual channel. -/
def State.csiShort (s : State) (port vc headerErrors : Nat) (f : State → Nat → State) : State :=
  s.csiPacket port headerErrors (fun s =>
    match s.cameras port vc with
    | [] => s.csiUnmatched port
    | qs => qs.foldl f s)

/-- A new frame of stream q. -/
def State.openFrame (s : State) (q frame stamp : Nat) : State :=
  let s := s.closeFrame q none
  match s.startItem q with
  | (s, none) => s.setIngest q { s.ingest q with dropping := true }
  | (s, some k) => s.setIngest q { s.ingest q with frame := some { slot := k, time := stamp, num := frame, lastAt := s.now } }

/-- CSI_FRAME_START. -/
def execCsiFrameStart (port : Fin 6) (vc : Fin 16) (headerErrors : Fin 3) (frame : Nat) (fine : Fin 16) (s : State) : Res :=
  let stamp := s.csiStamp port.val fine.val
  .next (s.csiShort port.val vc.val headerErrors.val (fun s q => s.openFrame q frame stamp))

/-- Bytes of RAW10: four samples in five bytes (PRESUMED, log 21). -/
def unpack10 : Bytes → Bytes
  | a :: b :: c :: d :: e :: t =>
    let l := e.toNat
    toLe 2 (a.toNat * 4 + bits l 1 0) ++ toLe 2 (b.toNat * 4 + bits l 3 2) ++ toLe 2 (c.toNat * 4 + bits l 5 4)
      ++ toLe 2 (d.toNat * 4 + bits l 7 6) ++ unpack10 t
  | _ => []

/-- Bytes of RAW12: two samples in three bytes. -/
def unpack12 : Bytes → Bytes
  | a :: b :: c :: t =>
    toLe 2 (a.toNat * 16 + bits c.toNat 3 0) ++ toLe 2 (b.toNat * 16 + bits c.toNat 7 4) ++ unpack12 t
  | _ => []

/-- Bytes of RAW14: four samples in seven bytes. -/
def unpack14 : Bytes → Bytes
  | a :: b :: c :: d :: e :: f :: g :: t =>
    let l := e.toNat + 256 * f.toNat + 65536 * g.toNat
    toLe 2 (a.toNat * 64 + bits l 5 0) ++ toLe 2 (b.toNat * 64 + bits l 11 6) ++ toLe 2 (c.toNat * 64 + bits l 17 12)
      ++ toLe 2 (d.toNat * 64 + bits l 23 18) ++ unpack14 t
  | _ => []

/-- Bytes of RAW16: the high byte of a sample first. -/
def unpack16 : Bytes → Bytes
  | a :: b :: t => [b, a] ++ unpack16 t
  | _ => []

/-- The elements a line is written in (R77). -/
def csiElements (dt : Nat) (bs : Bytes) : Bytes :=
  if dt = 0x2B then unpack10 bs
  else if dt = 0x2C then unpack12 bs
  else if dt = 0x2D then unpack14 bs
  else if dt = 0x2E then unpack16 bs
  else bs

/-- One line of stream q's open frame (R78, R80). A line dropped beyond CAM_MAX_LINES that has a CRC error counts like one that is
kept (log 70). -/
def State.storeLine (s : State) (q : Nat) (f : Frame) (crcGood : Bool) (bs : Bytes) : State :=
  let pitch := s.reg (Regs.camLineBytes q)
  let out := csiElements (s.reg (Regs.camDt q)) bs
  let crc := if crcGood then 0 else 1
  let mark (f : Frame) (b : Nat) : Frame := { f with flags := f.flags ||| b }
  let f := if crcGood then f else mark f 8
  let f := { f with crcLines := f.crcLines + crc, lastAt := s.now, seen := f.seen + 1 }
  if s.reg (Regs.camMaxLines q) ≤ f.lines then s.setIngest q { s.ingest q with frame := some (mark f 2) }
  else
    let f := if out.length = pitch then f else mark f 4
    let at_ := s.slotAt q f.slot
    let s := (s.put .lodge (at_ + s.dataOffset q + f.lines * pitch) (padTo pitch out)).throughFifo q (at_ + s.dataOffset q + f.lines * pitch) pitch
    let s := if s.flag (Regs.camLineTimes q) then s.put .lodge (at_ + 64 + 4 * f.lines) (toLe 4 (f.lineStamp.getD 0xFFFFFFFF)) else s
    s.setIngest q { s.ingest q with frame := some { f with lines := f.lines + 1, lineStamp := none } }

/-- The stream of a port that claims a virtual channel and data type. -/
def State.camera (s : State) (port vc dt : Nat) : Option Nat := (s.cameras port vc).find? (fun q => decide (s.reg (Regs.camDt q) = dt))

/-- A line for the open frame of stream q, if the FIFO of its port has room for it (R75). -/
def State.takeLine (s : State) (q : Nat) (crcGood : Bool) (data : Bytes) : State :=
  match (s.ingest q).frame with
  | none => s
  | some f =>
    let s := s.fifoDrains q
    if s.fifoFull q then s.cutShort q else (s.storeLine q f crcGood data).fifoTakes q data.length

/-- CSI_LINE: the header's ECC first, then the stream of its virtual channel and data type. -/
def execCsiLine (port : Fin 6) (vc : Fin 16) (dt : Nat) (headerErrors : Fin 3) (crcGood : Bool) (data : Bytes) (s : State) : Res :=
  let p := port.val
  .next (s.csiPacket p headerErrors.val (fun s =>
    match s.camera p vc.val dt with
    | none => s.csiUnmatched p
    | some q => (s.bumpIf (!crcGood) (Regs.csiCrcErrors p)).takeLine q crcGood data))

/-- The offset of R46 of one time after another, both in 2^-16 ns. -/
def offset46 (t ref : Int) : Nat :=
  let d := t - ref
  let q := roundDivEven d 16384
  if d < 0 ∨ 0xFFFFFFFF ≤ q then 0xFFFFFFFF else q.toNat

/-- An LS stamp for the open frame of stream q. -/
def State.lineStart (s : State) (q line stamp : Nat) : State :=
  match (s.ingest q).frame with
  | none => s
  | some f =>
    let f := { f with lastAt := s.now, anyLs := true, openLine := some line,
                      lineStamp := some (offset46 (t128Time stamp) (t128Time f.time)) }
    s.setIngest q { s.ingest q with frame := some f }

/-- CSI_LINE_START (R80). -/
def execCsiLineStart (port : Fin 6) (vc : Fin 16) (headerErrors : Fin 3) (line : Nat) (fine : Fin 16) (s : State) : Res :=
  let stamp := s.csiStamp port.val fine.val
  .next (s.csiShort port.val vc.val headerErrors.val (fun s q => s.lineStart q line stamp))

/-- An LE for the open frame of stream q: the line it ends is no longer open. One that ends another line fails the order check, for
which R80 names no outcome: nothing is counted, and the open line stays open (DESIGN CHOICE, log 75). -/
def State.lineEnd (s : State) (q line : Nat) : State :=
  match (s.ingest q).frame with
  | none => s
  | some f =>
    let open_ := if f.openLine = some line then none else f.openLine
    s.setIngest q { s.ingest q with frame := some { f with lastAt := s.now, openLine := open_ } }

/-- CSI_LINE_END (R80). -/
def execCsiLineEnd (port : Fin 6) (vc : Fin 16) (headerErrors : Fin 3) (line : Nat) (s : State) : Res :=
  .next (s.csiShort port.val vc.val headerErrors.val (fun s q => s.lineEnd q line))

/-- CSI_FRAME_END (R78): the frame open on the virtual channel closes, whatever number the FE carries (log 22). -/
def execCsiFrameEnd (port : Fin 6) (vc : Fin 16) (headerErrors : Fin 3) (_frame : Nat) (fine : Fin 16) (s : State) : Res :=
  let stamp := s.csiStamp port.val fine.val
  .next (s.csiPacket port.val headerErrors.val (fun s =>
    match (s.cameras port.val vc.val).filter (fun q => (s.ingest q).frame.isSome) with
    | [] => s.csiUnmatched port.val
    | qs => qs.foldl (fun s q => s.closeFrame q (some stamp)) s))

/-- CSI_GENERIC_SHORT (R76). -/
def execCsiGenericShort (port : Fin 6) (headerErrors : Fin 3) (s : State) : Res :=
  .next (s.csiPacket port.val headerErrors.val (fun s => s.csiUnmatched port.val))

/-- CSI_FRAME_TIMEOUT (R78). -/
def execCsiFrameTimeout (q : Fin 24) (s : State) : Res :=
  match (s.ingest q.val).frame with
  | some f => if f.lastAt + 100000000 ≤ s.now then .next (s.closeFrame q.val none) else .next s
  | none => .next s

/-- DESKEW_CALIBRATION (R76): applied above 1.5 Gb/s. -/
def execDeskewCalibration (port : Fin 6) (s : State) : Res :=
  if s.pdOn 40 && decide (1500 < s.reg (Regs.csiRate port.val)) && !(decide (port.val ∈ s.lodge.deskewed)) then
    .next { s with lodge := { s.lodge with deskewed := s.lodge.deskewed ++ [port.val] } }
  else .next s

/-! ### Extraction of values -/

/-- The n-bit number x, signed or not. -/
def readSigned (n x : Nat) (signed : Bool) : Int := if signed then toSigned n x else (x % 2 ^ n : Nat)

/-- raw × scale, rounded once to FP32 (log 23). -/
def scaled (raw : Int) (scale : Nat) : Nat := toF32 ((intNum raw).mul (f32 scale))

/-- raw × scale + offset, rounded once to FP32. -/
def scaledPlus (raw : Int) (scale offset : Nat) : Nat := toF32 (((intNum raw).mul (f32 scale)).add (f32 offset))

/-- The number in some bytes, little- or big-endian. -/
def ofBytes (big : Bool) (bs : Bytes) : Nat := ofLe (if big then bs.reverse else bs)

/-! ### Inertial units (R90–R92) -/

/-- DRDY_EDGE (R91): on an edge of the direction of IMU_DRDY_POL the item starts (R67), and the port sends the bytes of IMU_CMD. -/
def execDrdyEdge (port : Fin 6) (rising : Bool) (fine : Fin 16) (s : State) : Res :=
  let p := port.val
  let q := 36 + p
  if !s.pdOn 40 || rising == s.flag (Regs.imuDrdyPol p) then .next s
  else if (kfind s.lodge.reading p).isSome then .next (s.bump (Regs.imuDrdyOverruns p))
  else if !s.ingestLive q then .next s
  else
    let stamp := s.stampAt (tapSpi p) fine.val (-(s.reg (Regs.spiDrdyLat p) : Int))
    let (s, k) := s.startItem q
    let s := s.setIngest q { s.ingest q with taken := k }
    .next ({ s with lodge := { s.lodge with reading := kset s.lodge.reading p stamp } }.emit
      (.spi p (s.blob (Blobs.imuCmd p) [])))

/-- Value k of an inertial item: its IMU_MAP entry over the bytes read. An entry of no width gives a free value. -/
def State.imuValue (s : State) (q : Nat) (read : Bytes) (k : Nat) : Nat :=
  let e := ofLe (slice (s.blob (Blobs.imuMap (q - 36)) (List.replicate 48 0)) (8 * k) 8)
  let off := bits e 7 0
  let w := bits e 15 8
  if w = 0 ∨ 4 < w then Config.freeNat (s.freeIx + k) % 2 ^ 32
  else if read.length < off + w then 0x7FC00000
  else scaled (readSigned (8 * w) (ofBytes (bit e 17) (slice read off w)) (bit e 16)) (bits e 63 32)

/-- IMU_READ_COMPLETE (R91, R92). SEQ counts the items read since reset from 0, across enables; one discarded while it was read
takes none (log 70). -/
def execImuReadComplete (port : Fin 6) (data : Bytes) (s : State) : Res :=
  let p := port.val
  let q := 36 + p
  match kfind s.lodge.reading p with
  | none => .next s
  | some stamp =>
    let s := { s with lodge := { s.lodge with reading := kdel s.lodge.reading p } }
    let v := s.ingest q
    match v.taken with
    | none => .next s
    | some k =>
      let read := padTo (s.reg (Regs.imuReadLen p)) data
      let vals := (List.range 6).flatMap (fun k => toLe 4 (s.imuValue q read k))
      let item := toLe 16 stamp ++ vals ++ toLe 4 v.seq ++ toLe 4 read.length ++ padTo 16 read
      let s := s.setIngest q { v with seq := (v.seq + 1) % 2 ^ 32, taken := none }
      .next ({ s with freeIx := s.freeIx + 6 }.fillItem q k stamp (padTo 64 item))

/-! ### Wheel and odometry (R93–R96) -/

/-- Data bytes of a DLC. -/
def dlcLength (fdf : Bool) (dlc : Nat) : Nat :=
  if fdf then [0, 1, 2, 3, 4, 5, 6, 7, 8, 12, 16, 20, 24, 32, 48, 64].getD dlc 64 else min dlc 8

/-- Whether one filter of a stream matches a frame (R94). -/
def filterMatches (x : Nat) (f : CanFrame) : Bool :=
  bit x 30 && decide (bit x 29 = f.ide) && decide ((bits x 28 0 ^^^ f.ident) &&& bits x 60 32 = 0)

/-- The stream a frame goes to. -/
def State.canStream (s : State) (f : CanFrame) : Option Nat :=
  (List.range 6).find? (fun j => s.ingestOn (42 + j)
    && (List.range 4).any (fun k => filterMatches (s.reg (Regs.canfFilter (256 * j + k))) f))

/-- The raw bits of a signal in Motorola order, from the bit that holds its most significant bit (PRESUMED, log 24). -/
def motorola (data : Bytes) : Nat → Nat → Nat → Nat
  | _, 0, acc => acc
  | b, n + 1, acc =>
    let v := if bit (data.getD (b / 8) 0).toNat (b % 8) then 1 else 0
    motorola data (if b % 8 = 0 then b + 15 else b - 1) n (2 * acc + v)

/-- The last bit position of a Motorola signal. -/
def motorolaLast : Nat → Nat → Nat
  | b, 0 => b
  | b, n + 1 => motorolaLast (if b % 8 = 0 then b + 15 else b - 1) n

/-- Signal k of a CAN item (R95). A length above 32 gives a free value. -/
def State.canSignal (s : State) (j : Nat) (data : Bytes) (k : Nat) : Nat :=
  let e := ofLe (slice (s.blob (Blobs.canfSignals j) (List.replicate 64 0)) (16 * k) 16)
  let start := bits e 15 0
  let n := bits e 23 16
  let past := if bit e 25 then decide (data.length ≤ motorolaLast start (n - 1) / 8) || decide (data.length ≤ start / 8)
    else decide (8 * data.length < start + n)
  if n = 0 || past then 0x7FC00000
  else if 32 < n then Config.freeNat (s.freeIx + k) % 2 ^ 32
  else
    let raw := if bit e 25 then motorola data start n 0 else bits (ofLe data) (start + n - 1) start
    scaledPlus (readSigned n raw (bit e 24)) (bits e 63 32) (bits e 95 64)

/-- CAN_FRAME_RECEIVED. -/
def execCanFrameReceived (f : CanFrame) (s : State) : Res :=
  if !(s.pdOn 40 && s.pins.io33) || s.lodge.busOff || f.remote then .next s
  else match s.canStream f with
    | none => .next (s.bump Regs.canUnmatched)
    | some j =>
      let q := 42 + j
      if !s.ingestLive q then .next s
      else
        let n := dlcLength f.fdf f.dlc.val
        let data := padTo n f.data
        let stamp := s.stampAt tapCan 0 (-(s.reg Regs.canSofLat : Int))
        let id := f.ident + (if f.ide then 2 ^ 29 else 0) + (if f.fdf then 2 ^ 30 else 0) + (if f.brs then 2 ^ 31 else 0)
        let sigs := (List.range 4).flatMap (fun k => toLe 4 (s.canSignal j data k))
        let item := toLe 16 stamp ++ toLe 4 id ++ toLe 4 (f.dlc.val + 256 * n) ++ sigs ++ padTo 64 data
        .next ({ s with freeIx := s.freeIx + 4 }.wholeItem q stamp (padTo 128 item))

/-- CAN_ERROR_FRAME (R101): the counter is that of controller 1. -/
def execCanErrorFrame (ctrl : Fin 2) (s : State) : Res :=
  .next (s.bumpIf (decide (ctrl.val = 1) && s.pdOn 40 && s.pins.io33) Regs.canErrorFrames)

/-- CAN_BUS_OFF_ENTRY. -/
def execCanBusOffEntry (ctrl : Fin 2) (s : State) : Res :=
  if ctrl.val = 1 then
    if s.pdOn 40 then .next ({ s with lodge := { s.lodge with busOff := true } }.bump Regs.canBusOff) else .next s
  else .next ({ s with paths := { s.paths with canBus0Off := true } }.bump Regs.dictCanBusOff)

/-- BUS_OFF_RECOVERY. -/
def execBusOffRecovery (ctrl : Fin 2) (s : State) : Res :=
  if ctrl.val = 1 then .next { s with lodge := { s.lodge with busOff := false } }
  else .next { s with paths := { s.paths with canBus0Off := false } }

/-! ### Transmit (R54, R98) -/

/-- ETH_LINK_CHANGE (R81): 10GBASE-R runs at 10 Gb/s only. Pdelay frames that still wait are dropped with the link (log 69). -/
def execEthLinkChange (port : Fin 4) (rate : Fin 5) (s : State) : Res :=
  let p := port.val
  if rate.val = 0 then
    let s := (s.setReg (Regs.ethRate p) 0).setReg (Regs.ethLinkUp p) 0
    .next { s with sundial := { s.sundial with gptpq := kset s.sundial.gptpq p [] } }
  else if !s.pdOn 40 || (decide (s.reg (Regs.ethMode p) = 1) && decide (rate.val ≠ 1)) then .next s
  else .next ((s.setReg (Regs.ethRate p) rate.val).setReg (Regs.ethLinkUp p) 1)

/-- The MAC of a port that is free takes its next non-launch frame: a Pdelay frame, else the oldest ordinary one. It waits while
that frame would still be on the wire at a pending launch time (R54). -/
def State.macStarts (s : State) (p : Nat) : State :=
  let start (f : LaunchFrame) (t : State) : State := if !s.macFree p || s.launchBefore p f.data.length then s else t.startFrame p f
  match kget s.sundial.gptpq p [], s.txFrames (52 + p) with
  | f :: rest, _ => start f { s with sundial := { s.sundial with gptpq := kset s.sundial.gptpq p rest } }
  | [], f :: rest => start f (s.setTxFrames (52 + p) rest)
  | [], [] => s

/-- The MACs of the four ports at a tick. -/
def State.macTick (s : State) : State := (List.range 4).foldl State.macStarts s

/-- ETH_FRAME_SENT (R98): the frame on the wire has left port p, and its stamp is recorded where it asks for that. -/
def execEthFrameSent (port : Fin 4) (s : State) : Res :=
  let p := port.val
  match kfind s.sundial.onWire p with
  | some w =>
    if w.endsAt ≤ s.now then
      let s := { s with sundial := { s.sundial with onWire := kdel s.sundial.onWire p } }
      .next ((if w.frame.stamped then s.setReg (Regs.ethTxLastStamp p) w.stamp else s).emit (.eth p w.frame.data))
    else .next s
  | none => .next s

end Sys2Proof.Machine
end

