-- ==== Sys2Proof/Machine/Crypto.lean ====
section
/-! DEFINITION. The engines of the root of trust (chapter 16): SHA-384 of FIPS 180-4 and ECDSA P-384 of FIPS 186-5, which the spec
names and does not repeat (PRESUMED, log 41). Octet strings are most significant byte first. -/

namespace Sys2Proof.Machine

/-! ### SHA-384 -/

/-- A 64-bit word. -/
def w64 (x : Nat) : Nat := x % 2 ^ 64

/-- The largest r with r^k at most x, found from bit n − 1 down; `r` holds the bits found so far. -/
def rootFloor (k x r : Nat) : Nat → Nat
  | 0 => r
  | n + 1 => rootFloor k x (if (r + 2 ^ n) ^ k ≤ x then r + 2 ^ n else r) n

/-- The first 64 bits of the fraction of the k-th root of x. -/
def rootFraction (k x : Nat) : Nat := w64 (rootFloor k (x * 2 ^ (64 * k)) 0 70)

/-- The primes below 410, of which there are 80. -/
def shaPrimes : List Nat :=
  (List.range 410).filter (fun n => decide (2 ≤ n) && (List.range 21).all (fun d => decide (d < 2) || decide (n ≤ d) || decide (n % d ≠ 0)))

/-- The eighty round constants: from the cube roots of the primes. -/
def shaK : List Nat := shaPrimes.map (rootFraction 3)

/-- The initial hash value of SHA-384: from the square roots of the ninth to the sixteenth prime. -/
def shaInit : List Nat := ((shaPrimes.drop 8).take 8).map (rootFraction 2)

/-- The exclusive or of a 64-bit word rotated right by each of the distances listed. -/
def rotations (x : Nat) (ks : List Nat) : Nat :=
  (ks.map (fun k => x / 2 ^ k + w64 (x * 2 ^ (64 - k)))).foldl Nat.xor 0

/-- The number a big-endian byte string spells. -/
def ofBe (bs : Bytes) : Nat := bs.foldl (fun a b => a * 256 + b.toNat) 0

/-- n bytes of a number, most significant first. -/
def beBytes (n x : Nat) : Bytes := (toLe n x).reverse

/-- What follows a message of n bytes: a 1 bit, zeros to 16 bytes short of a block, and the length in bits. -/
def shaTail (n : Nat) : Bytes :=
  padTo ((128 - (n + 17) % 128) % 128 + 1) [0x80] ++ beBytes 16 (8 * n)

/-- The last sixteen message words, newest first, moved on by one. -/
def shaNextWord (w : List Nat) : List Nat :=
  let old := w.getD 14 0
  let new := w.getD 1 0
  w64 (w.getD 15 0 + w.getD 6 0 + Nat.xor (rotations old [1, 8]) (old / 2 ^ 7) + Nat.xor (rotations new [19, 61]) (new / 2 ^ 6)) :: w.take 15

/-- The working variables as the last four values of a and the last four of e, newest first, and the sixteen message words. -/
structure ShaRun where
  as : List Nat
  es : List Nat
  words : List Nat

/-- One round with constant k: the oldest message word is used. -/
def ShaRun.round (r : ShaRun) (k : Nat) : ShaRun :=
  let e (i : Nat) : Nat := r.es.getD i 0
  let a (i : Nat) : Nat := r.as.getD i 0
  let chosen := Nat.xor (e 2) (Nat.land (e 0) (Nat.xor (e 1) (e 2)))
  let most := Nat.lor (Nat.land (a 0) (Nat.lor (a 1) (a 2))) (Nat.land (a 1) (a 2))
  let t := e 3 + rotations (e 0) [14, 18, 41] + chosen + k + r.words.getD 15 0
  { as := w64 (t + rotations (a 0) [28, 34, 39] + most) :: r.as.take 3
    es := w64 (a 3 + t) :: r.es.take 3
    words := shaNextWord r.words }

/-- One 128-byte block. -/
def shaBlock (h : List Nat) (blk : Bytes) : List Nat :=
  let start : ShaRun := ⟨h.take 4, h.drop 4, ((List.range 16).map (fun k => ofBe (slice blk (8 * k) 8))).reverse⟩
  let r := shaK.foldl ShaRun.round start
  ((r.as ++ r.es).zip h).map (fun p => w64 (p.1 + p.2))

/-- SHA-384: 48 bytes. -/
def sha384 (bs : Bytes) : Bytes :=
  let m := bs ++ shaTail bs.length
  let h := (List.range (m.length / 128)).foldl (fun h k => shaBlock h (slice m (128 * k) 128)) shaInit
  ((h.take 6).map (beBytes 8)).flatten

/-! ### P-384 -/

/-- The field's prime. -/
def fieldP : Nat := 2 ^ 384 - 2 ^ 128 - 2 ^ 96 + 2 ^ 32 - 1
/-- The order of the group. -/
def orderN : Nat := 0xffffffffffffffffffffffffffffffffffffffffffffffffc7634d81f4372ddf581a0db248b0a77aecec196accc52973
/-- The curve's constant b. -/
def curveB : Nat := 0xb3312fa7e23ee7e4988e056be3f82d19181d9c6efe8141120314088f5013875ac656398d8a2ed19d2a85c8edd3ec2aef
/-- The base point. -/
def baseG : Nat × Nat :=
  (0xaa87ca22be8b05378eb1c71ef320ad746e1d3b628ba79b9859f741e082542a385502f25dbf55296c3a545e3872760ab7,
   0x3617de4a96262c6f5d9e98bf9292dc29f8f41dbd289a147ce9da3113b5f0b8c00a60b1ce1d7e819d7a431d7c90ea0e5f)

/-- b^e mod m; `n` bounds the bits of e. -/
def powMod (m b : Nat) : Nat → Nat → Nat
  | _, 0 => 1 % m
  | e, n + 1 =>
    let h := powMod m b (e / 2) n
    if e % 2 = 1 then h * h % m * (b % m) % m else h * h % m

/-- The inverse modulo a prime of 384 bits. -/
def invMod (m x : Nat) : Nat := powMod m x (m - 2) 384

/-- x − y in the field. -/
def fsubP (x y : Nat) : Nat := (x + fieldP - y % fieldP) % fieldP

/-- The product in the field. -/
def fmulP (x y : Nat) : Nat := x * y % fieldP

/-- A point in Jacobian coordinates: (x / z², y / z³), and the point at infinity where z is 0. -/
structure JPoint where
  x : Nat
  y : Nat
  z : Nat

def infinity : JPoint := ⟨1, 1, 0⟩

/-- Twice a point of the curve, whose linear coefficient is −3. -/
def JPoint.double (p : JPoint) : JPoint :=
  let d := fmulP p.z p.z
  let g := fmulP p.y p.y
  let b := fmulP p.x g
  let a := fmulP 3 (fmulP (fsubP p.x d) (p.x + d))
  let x := fsubP (fmulP a a) (8 * b)
  ⟨x, fsubP (fmulP a (fsubP (4 * b) x)) (8 * fmulP g g), fmulP 2 (fmulP p.y p.z)⟩

/-- The sum of two points. -/
def JPoint.add (p q : JPoint) : JPoint :=
  if p.z = 0 then q
  else if q.z = 0 then p
  else
    let zp := fmulP p.z p.z
    let zq := fmulP q.z q.z
    let u := fmulP p.x zq
    let s := fmulP p.y (fmulP zq q.z)
    let h := fsubP (fmulP q.x zp) u
    let r := fsubP (fmulP q.y (fmulP zp p.z)) s
    if h = 0 then (if r = 0 then p.double else infinity)
    else
      let hh := fmulP h h
      let hhh := fmulP hh h
      let v := fmulP u hh
      let x := fsubP (fmulP r r) (hhh + 2 * v)
      ⟨x, fsubP (fmulP r (fsubP v x)) (fmulP s hhh), fmulP h (fmulP p.z q.z)⟩

/-- k × P; `n` bounds the bits of k. -/
def JPoint.times (p : JPoint) : Nat → Nat → JPoint
  | _, 0 => infinity
  | k, n + 1 =>
    let h := (p.times (k / 2) n).double
    if k % 2 = 1 then h.add p else h

/-- The coordinates of a point; none at infinity. -/
def JPoint.affine (p : JPoint) : Option (Nat × Nat) :=
  if p.z = 0 then none
  else
    let w := invMod fieldP p.z
    let w2 := fmulP w w
    some (fmulP p.x w2, fmulP p.y (fmulP w2 w))

/-- k × (q.1, q.2) for a k of 384 bits. -/
def pointTimes (q : Nat × Nat) (k : Nat) : JPoint := JPoint.times ⟨q.1, q.2, 1⟩ k 384

/-- Whether a pair is a point of the curve. -/
def onCurve (q : Nat × Nat) : Bool :=
  decide (q.1 < fieldP) && decide (q.2 < fieldP)
  && decide (q.2 * q.2 % fieldP = (fsubP (q.1 * q.1 % fieldP * q.1) (3 * q.1) + curveB) % fieldP)

/-- Verifies a signature (r, s) over a 48-byte digest. -/
def ecdsaOk (q : Nat × Nat) (digest : Bytes) (r s : Nat) : Bool :=
  if r = 0 ∨ orderN ≤ r ∨ s = 0 ∨ orderN ≤ s ∨ onCurve q = false then false
  else
    let w := invMod orderN s
    match ((pointTimes baseG (ofBe digest * w % orderN)).add (pointTimes q (r * w % orderN))).affine with
    | none => false
    | some (x, _) => decide (x % orderN = r)

/-- Signs a 48-byte digest with private key d and secret number k. -/
def ecdsaSign (d k : Nat) (digest : Bytes) : Nat × Nat :=
  let r := ((pointTimes baseG k).affine.getD (0, 0)).1 % orderN
  (r, invMod orderN k * ((ofBe digest + r * d) % orderN) % orderN)

end Sys2Proof.Machine
end

