-- ==== Sys2Proof/Machine/Pergola.lean ====
section
/-! DEFINITION. The Pergola's work orders (R103–R140): poses, bins, pillars, neighbours, bird's-eye maps and labels. -/

namespace Sys2Proof.Machine

/-! ### Objects (R113, R124, R140) -/

/-- Whether a Pergola item depends on an object (R140): a PG_BIN on the objects of its streams and of the enabled grids. -/
def State.dependsOn (s : State) (i : Item) (index sub : Nat) : Bool :=
  let g := index - 0x2401
  let grid := (decide (index = 0x2401) || decide (index = 0x2402)) && decide (sub ≤ 10)
  match i.opcode with
  | 0x41 => (decide (index = 0x2400) && decide (sub ≤ 4)) || (grid && (decide (sub = 1) || s.flag (Regs.gridEnable g)))
      || (decide (index = 0x2403) && decide (sub ≤ 7)) || (decide (0x2410 ≤ index) && decide (sub ≤ 3) && i.binStream (index - 0x2410))
  | 0x40 => decide (index = 0x2403) && decide (sub = 1)
  | _ => grid && decide (g = i.field 64 64)

/-- The lowest ring with a Pergola item in flight that depends on an object. -/
def State.pergolaUser (s : State) (index sub : Nat) : Option Nat :=
  let rs := (s.disp.items.filter (fun i => i.readable && s.dependsOn i index sub
      && (match i.lane with
          | some l => decide (l.target = .pergola)
          | none => false))).map (·.ring)
  match rs with
  | [] => none
  | r :: t => some (t.foldl min r)

/-- Guards an object of 0x2400–0x241B (R140); a write of a grid object makes EPOCH_SEQ unusable. -/
def hookPergola (index sub : Nat) (h : Hook) : Hook := fun s p data =>
  match s.pergolaUser index sub with
  | some r => .error (conflictKind 6 r)
  | none =>
    let grid := decide (index = 0x2401) || decide (index = 0x2402)
    h (if grid then { s with pergola := { s.pergola with seqUsable := false } } else s) p data

/-- P / dur at most 255 for every stream (R113). -/
def State.slicesFit (s : State) : Bool :=
  (List.range 12).all (fun k => decide (s.reg Regs.pgEpochPeriod * s.reg (Regs.pgsSlices k) ≤ 255 * s.reg (Regs.pgsSweepPeriod k)))

/-- PGS_SWEEP_PERIOD, PGS_SLICES and PG_EPOCH_PERIOD. -/
def hookSlicing (index sub : Nat) (r : Reg) : Hook :=
  rangeFirst (fun s data => (s.setReg r (ofLe data)).slicesFit) (hookPergola index sub (regHook r))

/-- POSE_SOURCE_WRITE. -/
def hookPoseSource : Hook := hookPergola 0x2403 1 (fun s _ data => .ok (s.emptyPoses.setReg Regs.poseSource (ofLe data)))

def execPoseSourceWrite (p : Path) (v : Nat) (s : State) : Res := .next (s.writeObject p 0x2403 1 (toLe 1 v) hookPoseSource)

/-- PG_SEED_WRITE. -/
def hookPgSeed : Hook := hookPergola 0x2400 4 (fun s _ data =>
  let s := s.setReg Regs.pgSeed (ofLe data)
  .ok { s with pergola := { s.pergola with gens := [(0, ofLe data), (1, ofLe data)] } })

def execPgSeedWrite (p : Path) (v : Nat) (s : State) : Res := .next (s.writeObject p 0x2400 4 (toLe 8 v) hookPgSeed)

/-! ### Poses (R104, R105) -/

/-- A finite number divided by n, rounded to FP32. -/
def meanF32 (v : Num) (n : Nat) : Nat :=
  match v with
  | .fin sg m e => if 0 ≤ e then ratioF32 sg (m <<< e.toNat) n else ratioF32 sg m (n <<< (-e).toNat)
  | w => toF32 w

/-- FP32 division, rounded once. -/
def fdiv (a b : Nat) : Nat :=
  match f32 a, f32 b with
  | .fin s1 m1 e1, .fin s2 m2 e2 =>
    if m2 = 0 then (if m1 = 0 then 0x7FC00000 else 0x7F800000 + signBit (s1 != s2) 8 23)
    else if e2 ≤ e1 then ratioF32 (s1 != s2) (m1 <<< (e1 - e2).toNat) m2
    else ratioF32 (s1 != s2) m1 (m2 <<< (e2 - e1).toNat)
  | .fin s1 _ _, .inf s2 => signBit (s1 != s2) 8 23
  | .inf s1, .fin s2 _ _ => 0x7F800000 + signBit (s1 != s2) 8 23
  | _, _ => 0x7FC00000

/-- The tick for which a sample is due. Ticks that passed while the Pergola did not work are made up one after another (DESIGN CHOICE,
log 76). -/
def State.tickDue (s : State) : Option Nat :=
  match s.pergola.lastTick with
  | none => some (s.outNs / 500000)
  | some k => if (k + 1) * 500000 ≤ s.outNs then some (k + 1) else none

/-- The 32-bit words of a byte string. -/
def words32 (bs : Bytes) (n : Nat) : List Nat := (List.range n).map (fun k => ofLe (slice bs (4 * k) 4))

/-- The angular rate at tick time t (2^-16 ns) in FP64 words, and whether it is stale. -/
def State.gyroAt (s : State) (t : Nat) : List Nat × Bool :=
  let items := kget s.lodge.gyro (s.reg Regs.poseImuStream) []
  let after (ns : Nat) : List (Nat × List Nat) := items.filter (fun it => decide (t < it.1 + ns * 65536) && decide (it.1 ≤ t))
  let here := after 500000
  if here = [] then (s.pergola.omega, decide (after 5000000 = []))
  else
    let mount := s.blob Blobs.poseImuMount (toLe 36 (0x3F800000 + 0x3F800000 <<< 128 + 0x3F800000 <<< 256))
    let bias := s.blob Blobs.poseGyroBias (List.replicate 12 0)
    (meanRate (here.map (·.2)) (words32 mount 9) (words32 bias 3), false)

/-- The speed at tick time t in an FP64 word, and whether it is stale. -/
def State.wheelAt (s : State) (t : Nat) : Nat × Bool :=
  let items := kget s.lodge.wheel (s.reg Regs.poseWheelStream) []
  match items.find? (fun it => decide (it.1 ≤ t)) with
  | none => (s.pergola.speed, true)
  | some it =>
    let vals := ((List.range 4).filter (fun k => bit (s.reg Regs.poseWheelSignals) k)).map (fun k => f32 (it.2.getD k 0))
    let vals := vals.filter (fun v => !v.isNan)
    if it.1 + 50000000 * 65536 < t ∨ vals = [] then (s.pergola.speed, true)
    else (word64 ((vals.foldl Num.add (.fin false 0 0)).over64 vals.length), false)

/-- A sample's number from its parts (R107). -/
def packSample (time : Nat) (words : List Nat) (speed flags : Nat) : Nat :=
  let w (k : Nat) : Nat := words.getD k 0
  time + (w 0 % 2 ^ 64) <<< 128 + (w 1 % 2 ^ 64) <<< 192 + (w 2 % 2 ^ 64) <<< 256 + (w 3 % 2 ^ 32) <<< 320
    + (w 4 % 2 ^ 32) <<< 352 + (w 5 % 2 ^ 32) <<< 384 + (w 6 % 2 ^ 32) <<< 416 + speed <<< 448 + flags <<< 480

/-- The words of one tick of the integrator: the identity pose where it starts. -/
def State.tickPose (s : State) (omega : List Nat) (v : Nat) : List Nat :=
  match s.pergola.lastTick, s.poseSample 0 with
  | some _, some x => tickWords ((sampleWords x).take 3) s.pergola.orient omega v
  | _, _ => [0, 0, 0, 0x3FF0000000000000, 0, 0, 0]

/-- One tick of the integrator (R104): its orientation stays in FP64, and the sample holds it in FP32. -/
def State.integrate (s : State) (k : Nat) : State :=
  let t := k * 500000 * 65536
  let (omega, imuStale) := s.gyroAt t
  let (v, wheelStale) := s.wheelAt t
  let words := s.tickPose omega v
  let orient := words.drop 3
  let flags := (if imuStale then 2 else 0) + (if wheelStale then 4 else 0)
  let s := s.pushPose (packSample (t128Of16 t (s.timeFlags s.sundial.active + 8192))
    (words.take 3 ++ orient.map (fun w => toF32 (num64 w))) (toF32 (num64 v)) flags)
  let s := { s with pergola := { s.pergola with lastTick := some k, omega := omega, speed := v, orient := orient } }
  (s.bumpIf imuStale Regs.poseImuStaleTicks).bumpIf wheelStale Regs.poseWheelStaleTicks
where
  /-- A T128 of a time in 2^-16 ns. -/
  t128Of16 (t flags : Nat) : Nat := packT128 (t <<< 24) flags

/-- POSE_TICK. -/
def execPoseTick (s : State) : Res :=
  if s.reg Regs.poseSource ≠ 0 || !s.pergolaWorks || !s.sundial.running then .next s
  else match s.tickDue with
    | some k => .next (s.integrate k)
    | none => .next s

/-- A structure's address: a multiple of 64 that the Pergola reaches, all its bytes in one range (R201 detail 5 and 7). -/
def State.checkStruct (s : State) (i : Item) (a n field : Nat) (write : Bool) : State × Option Finish :=
  if a % 64 ≠ 0 ∨ s.fixedAnswer .pergola a 1 write = .absent then (s, some (finBad 5 field))
  else s.checkSpans i .pergola [((a : Int), n)] write field

/-- The checks of PG_POSE_PUSH before it starts. -/
def checkPosePush (s : State) (i : Item) : Checked Unit :=
  let n := i.field 63 32
  if !s.pergolaWorks then (s, .error (finBad 3 (s.targetCode i)))
  else if n = 0 ∨ 4096 < n then (s, .error (finBad 6 0))
  else match s.checkStruct i (i.field 103 64) (64 * n) 1 false with
    | (s, some f) => (s, .error f)
    | (s, none) => if s.reg Regs.poseSource = 0 then (s, .error (finConflict 4 8)) else (s, .ok ())

/-- Whether samples may follow a time (R105, R107). -/
def samplesOk : Option Nat → List Nat → Bool
  | _, [] => true
  | last, x :: t =>
    decide (bits x 93 64 ≤ 999999999)
    && (match last with
        | some l => decide (l < sampleTime x)
        | none => true)
    && [bits x 351 320, bits x 383 352, bits x 415 384, bits x 447 416].any (fun w => decide (w % 2 ^ 31 ≠ 0))
    && samplesOk (some (sampleTime x)) t

/-- A pushed sample as the ring keeps it: flags of the time cleared, the quaternion normalised, INJECTED set (log 28). -/
def injected (x : Nat) : Nat :=
  packSample (x % 2 ^ 110) ((sampleWords x).take 3 ++ unitWords ((sampleWords x).drop 3)) (bits x 479 448) (bits x 482 480 ||| 1)

/-- PG_POSE_PUSH. -/
def execPgPosePush (s : State) : Res :=
  .next (s.runItem ⟨.pergola, .output⟩ 0x40 checkPosePush (fun s i _ =>
    let a := i.field 103 64
    let n := i.field 63 32
    let t := s.touch i .pergola [((a : Int), 64 * n)]
    match t.gone, t.entry with
    | some f, _ => t.s.setFinish i f
    | none, some e => t.s.setFinish i (finUncorrected e)
    | none, none =>
      let xs := (List.range n).map (fun k => ofLe (t.s.peek (a + 64 * k) 64))
      if samplesOk ((t.s.poseSample 0).map sampleTime) xs then
        (xs.foldl (fun s x => s.pushPose (injected x)) t.s).setFinish i (finDone 0)
      else t.s.setFinish i (finBad 6 0)))

/-! ### PG_BIN: start (R109–R112, R132, R134) -/

/-- The grids that are enabled. -/
def State.grids (s : State) : List Nat := (List.range 2).filter (fun g => s.flag (Regs.gridEnable g))

/-- The output tensors of a grid. -/
structure GridOut where
  grid : Nat
  points : Tensor
  headers : Tensor
  deriving DecidableEq, Repr

/-- Whether a descriptor is a UINT8 tensor of some sizes with innermost stride 1. -/
def Tensor.plainBytes (t : Tensor) (sizes : List Nat) : Bool :=
  decide (t.fmt = .uint8) && decide (t.layout = 0) && decide (t.stride0 = 1) && decide (t.sizes = sizes)

/-- The two descriptors of grid g. -/
def State.checkGrid (s : State) (i : Item) (g : Nat) : Checked GridOut :=
  let n := s.reg (Regs.gridPointsPerPillar g)
  let m := s.reg (Regs.gridMaxPillars g)
  match s.descriptors i .pergola [⟨2 + 2 * g, i.field (335 + 80 * g) (296 + 80 * g), true⟩,
      ⟨3 + 2 * g, i.field (375 + 80 * g) (336 + 80 * g), true⟩] with
  | (s, .ok [p, h]) =>
    if !p.plainBytes [32, n, m] then (s, .error (finBad 8 (2 + 2 * g)))
    else if !h.plainBytes [32, m] then (s, .error (finBad 8 (3 + 2 * g)))
    else (s, .ok ⟨g, p, h⟩)
  | (s, .error f) => (s, .error f)
  | (s, .ok _) => (s, .error (finBad 6 0))

/-- The descriptors of some grids. -/
def State.checkGrids (s : State) (i : Item) : List Nat → Checked (List GridOut)
  | [] => (s, .ok [])
  | g :: t =>
    match s.checkGrid i g with
    | (s, .error f) => (s, .error f)
    | (s, .ok o) =>
      match s.checkGrids i t with
      | (s, .error f) => (s, .error f)
      | (s, .ok os) => (s, .ok (o :: os))

/-- te of a PG_BIN in 2^-16 ns. -/
def Item.epochEnd (i : Item) : Nat := t128Time (i.field 191 64)

/-- The checks of PG_BIN. -/
def checkBin (s : State) (i : Item) : Checked (List GridOut) :=
  if !s.pergolaWorks then (s, .error (finBad 3 (s.targetCode i)))
  else if 20000 < i.field 207 192 ∨ 999999999 < bits (i.field 191 64) 93 64 ∨ s.grids = [] then (s, .error (finBad 6 0))
  else if (match s.pergola.lastTe with
      | some l => decide (i.epochEnd ≤ l)
      | none => false) then (s, .error (finBad 6 0))
  else match s.checkStruct i (i.field 295 256) 256 1 true with
    | (s, some f) => (s, .error f)
    | (s, none) => s.checkGrids i s.grids

/-- Whether the running bin is that of an item. -/
def State.binOf (s : State) (i : Item) : Bool :=
  match s.pergola.bin with
  | some b => decide (b.ring = i.ring ∧ b.seq = i.seq)
  | none => false

/-- A bin starts: the carry buffers of its streams come first, then every visible item (R109, R110). -/
def State.startBin (s : State) (i : Item) : State :=
  let ks := (List.range 12).filter i.binStream
  let carried := ks.flatMap (fun k => (s.pgStream k).carry)
  let stale := (List.range 12).foldl (fun n k => n + (s.pgStream k).staleDue) 0
  let s := (List.range 12).foldl (fun s k =>
    s.setPgStream k { s.pgStream k with carry := if i.binStream k then [] else (s.pgStream k).carry, staleDue := 0 }) s
  let b : PgBin := { ring := i.ring, seq := i.seq, te := i.epochEnd, points := carried, stale := stale }
  let s := { s with pergola := { s.pergola with bin := some b } }
  let s := (List.range 12).foldl (fun s k => s.popsRefused (24 + k)) s
  (List.range 12).foldl (fun s k => s.binPops k (s.ingest (24 + k)).items.length) s

/-- PG_BIN. -/
def execPgBin (s : State) : Res :=
  match s.ready ⟨.pergola, .table⟩ 0x41 with
  | some i => if s.binOf i then .next s else .next (s.runItem ⟨.pergola, .table⟩ 0x41 checkBin (fun s i _ => s.startBin i))
  | none => .next s

/-! ### The close (R109–R111, R116, R121) -/

/-- Whether the epoch of a bin may close (R110). -/
def State.mayClose (s : State) (b : PgBin) (i : Item) : Bool :=
  let heard (k : Nat) : Bool :=
    !i.binStream k || !s.ingestOn (24 + k) || (match (s.pgStream k).latest with
      | some t => decide ((b.te : Int) * (2 * s.sliceCount k : Nat) + s.sweepPeriod k ≤ t * (2 * s.sliceCount k : Nat))
      | none => false)
  let posed := match s.poseSample 0 with
    | some x => decide (b.te ≤ sampleTime x)
    | none => false
  ((List.range 12).all heard && posed) || decide (b.te + i.field 207 192 * 65536000 ≤ s.out16)

/-- Where R109 assigns a point. -/
inductive Assigned where
  | carry | untimed | stale | offered
  deriving DecidableEq, Repr

def assign (te period : Nat) (p : PgPoint) : Assigned :=
  match p.time with
  | none => .untimed
  | some _ =>
    if (te : Int) * p.den ≤ p.mid then .carry
    else if p.mid < ((te : Int) - period) * p.den then .stale
    else .offered

/-- Whether two points lie in one slice. -/
def PgPoint.sameSlice (a b : PgPoint) : Bool :=
  decide (a.stream = b.stream ∧ a.sweep = b.sweep ∧ a.slice = b.slice ∧ a.mid = b.mid ∧ a.den = b.den)

/-- Adds a point to its slice. -/
def addToSlice (p : PgPoint) : List (List PgPoint) → List (List PgPoint)
  | [] => [[p]]
  | g :: t => if g.any (fun q => q.sameSlice p) then (g ++ [p]) :: t else g :: addToSlice p t

/-- Points as slices, in the order of their first points. -/
def slicesOf (ps : List PgPoint) : List (List PgPoint) := ps.foldl (fun gs p => addToSlice p gs) []

/-- Points with their ORDER (R109): the index among the assigned points of their stream. -/
def ordered (te period : Nat) (ps : List PgPoint) : List PgPoint × List Nat :=
  let (out, n) := ps.foldl (fun ((out, n) : List PgPoint × KMap Nat) p =>
    if assign te period p = .carry then (p :: out, n)
    else
      let k := kget n p.stream 0
      ({ p with order := k } :: out, kset n p.stream (k + 1))) ([], [])
  (out.reverse, (List.range 12).map (fun k => kget n k 0))

/-- Whether slice a comes before slice b in R116's order. -/
def State.sliceBefore (s : State) (a b : List PgPoint) : Bool :=
  match a, b with
  | x :: _, y :: _ =>
    let px := s.reg (Regs.streamPriority (24 + x.stream))
    let py := s.reg (Regs.streamPriority (24 + y.stream))
    let l := x.mid * y.den
    let r := y.mid * x.den
    decide (px < py) || (decide (px = py) && (decide (l < r) || (decide (l = r) && decide (x.stream < y.stream))))
  | _, _ => false

/-- Inserts a slice in R116's order. -/
def State.insertSlice (s : State) (g : List PgPoint) : List (List PgPoint) → List (List PgPoint)
  | [] => [g]
  | h :: t => if s.sliceBefore g h then g :: h :: t else h :: s.insertSlice g t

/-- The budget while slices are taken in order (R116). -/
structure Budget where
  used : Nat := 0
  dropAbove : Option Nat := none
  admitted : List (List PgPoint) := []
  dropped : List (List PgPoint) := []
  deriving DecidableEq, Repr

/-- One slice of R116. -/
def State.admitSlice (s : State) (b : Budget) (g : List PgPoint) : Budget :=
  let prio := s.reg (Regs.streamPriority (24 + (g.head?.map (·.stream)).getD 0))
  let closed := match b.dropAbove with
    | some d => decide (d < prio)
    | none => false
  if closed then { b with dropped := b.dropped ++ [g] }
  else if b.used + g.length ≤ s.reg Regs.pgPointBudget then { b with used := b.used + g.length, admitted := b.admitted ++ [g] }
  else { b with dropped := b.dropped ++ [g], dropAbove := some (b.dropAbove.getD prio) }

/-- Points in some slices. -/
def pointsIn (gs : List (List PgPoint)) : Nat := gs.foldl (fun n g => n + g.length) 0

/-- The slices that fit into one stream's carry buffer (R111), and the points of those that do not. -/
def carrySlices (gs : List (List PgPoint)) : List (List PgPoint) × Nat :=
  gs.foldl (fun (kept, extra) g =>
    if pointsIn kept + g.length ≤ 20480 then (kept ++ [g], extra) else (kept, extra + g.length)) ([], 0)

/-- Fills one stream's carry buffer with whole slices (R111), its points in the order in which they were popped (R109). -/
def carryFill (ps : List PgPoint) : List PgPoint × Nat :=
  let (kept, extra) := carrySlices (slicesOf ps)
  (ps.filter (fun p => kept.any (fun g => g.head?.any (fun q => q.sameSlice p))), extra)

/-- The tag of a grid advances; a wrap writes zeros through its table (R121). -/
def State.advanceTag (s : State) (g : Nat) : State :=
  let t := (kget s.pergola.tags g 0 + 1) % 256
  let s := { s with pergola := { s.pergola with tags := kset s.pergola.tags g t } }
  if t = 0 then { s with mem := s.mem.zero (hashBase g) (hashBase g + 0x800000) } else s

/-- Closes the epoch of a bin. -/
def State.closeEpoch (s : State) (b : PgBin) (i : Item) : State :=
  let period := s.reg Regs.pgEpochPeriod * 65536000
  let (ps, perStream) := ordered b.te period b.points
  let of (a : Assigned) : List PgPoint := ps.filter (fun p => assign b.te period p = a)
  let later := of .carry
  let (s, extra) := ((List.range 12).filter i.binStream).foldl (fun ((s, extra) : State × Nat) k =>
    let (kept, o) := carryFill (later.filter (fun p => decide (p.stream = k)))
    (s.setPgStream k { s.pgStream k with carry := kept }, extra + o)) (s, 0)
  let gs := (slicesOf (of .offered)).foldl (fun l g => s.insertSlice g l) []
  let bud := gs.foldl s.admitSlice {}
  let c : PgClosed := { slices := bud.admitted, offered := (of .offered).length, admitted := bud.used,
                        budgetDropped := pointsIn bud.dropped, slicesDropped := bud.dropped.length,
                        untimed := (of .untimed).length, stale := b.stale + (of .stale).length, carryOverflow := extra,
                        perStream := perStream, clamped := (ps.filter (fun p => p.clamped && assign b.te period p != .carry)).length }
  let s := { s with pergola := { s.pergola with bin := some { b with closed := some c, points := [] } } }
  (s.advanceTag 0).advanceTag 1

/-- EPOCH_CLOSE. -/
def execEpochClose (s : State) : Res :=
  match s.openBin with
  | some (b, i) => if s.mayClose b i then .next (s.closeEpoch b i) else .next s
  | none => .next s

/-! ### Transforms (R114) -/

/-- A point in the vehicle frame at te. -/
structure Moved where
  x : Nat
  y : Nat
  z : Nat
  extrapolated : Bool
  p : PgPoint
  deriving DecidableEq, Repr

/-- One row of a transform applied in FP32, products and sums rounded from left to right. -/
def applyRow (m : Nat → Nat) (x y z : Nat) : Nat := fadd (fadd (fadd (fmul (m 0) x) (fmul (m 1) y)) (fmul (m 2) z)) (m 3)

/-- The extrinsic words of a stream, identity by default. -/
def State.extrinsic (s : State) (k : Nat) : List Nat :=
  words32 (s.blob (Blobs.pgsExtrinsic k) (toLe 48 (0x3F800000 + 0x3F800000 <<< 160 + 0x3F800000 <<< 320))) 12

/-- A slice moved to te: none without a pose; with the slots of the pose ring it used. It counts as extrapolated where either of its two
poses is (DESIGN CHOICE, log 76). -/
def State.moveSlice (s : State) (te : Nat) (g : List PgPoint) : Option (List Moved × Bool × List Nat) :=
  match g with
  | [] => none
  | p :: _ =>
    match s.poseAt te, s.poseAt (p.mid / p.den).toNat with
    | some a, some b =>
      let w := transformWords a.motion b.motion (s.extrinsic p.stream) (a.key ++ b.key)
      let m (j : Nat) : Nat := w.getD j 0
      let ex := a.extrapolated || b.extrapolated
      let move (q : PgPoint) : Moved :=
        ⟨applyRow m q.x q.y q.z, applyRow (fun j => m (4 + j)) q.x q.y q.z, applyRow (fun j => m (8 + j)) q.x q.y q.z, ex, q⟩
      some (g.map move, ex, (a.used ++ b.used).eraseDups)
    | _, _ => none

/-! ### Pillars (R117–R126) -/

/-- A bucket of R119. -/
structure Bucket where
  valid : Bool := false
  spill : Bool := false
  cx : Nat := 0
  cy : Nat := 0
  grid : Nat := 0
  stored : Nat := 0
  seen : Nat := 0
  pillar : Nat := 0
  tag : Nat := 0
  deriving DecidableEq, Repr

def Bucket.pack (b : Bucket) : Nat :=
  (if b.valid then 1 else 0) + (if b.spill then 2 else 0) + b.cx <<< 2 + b.cy <<< 13 + b.grid <<< 24 + b.stored <<< 25
  + (min b.seen (2 ^ 32 - 1)) <<< 32 + b.pillar <<< 64 + b.tag <<< 82

def Bucket.unpack (x : Nat) : Bucket :=
  ⟨bit x 0, bit x 1, bits x 12 2, bits x 23 13, bits x 24 24, bits x 31 25, bits x 63 32, bits x 81 64, bits x 89 82⟩

def bucketAt (g b : Nat) : Nat := hashBase g + 16 * b
def State.bucket (s : State) (g b : Nat) : Bucket := Bucket.unpack (ofLe (s.peek (bucketAt g b) 16))
def State.setBucket (s : State) (g b : Nat) (v : Bucket) : State := s.poke (bucketAt g b) (toLe 16 v.pack)

/-- The first bucket of a cell (R120). -/
def firstBucket (g cx cy : Nat) : Nat := ((g <<< 22 ||| cy <<< 11 ||| cx) * 0x9E3779B1 % 2 ^ 32) >>> 13

/-- Where a probe ends. -/
inductive Probe where
  | found (b : Nat) | empty (b : Nat) | spill
  deriving DecidableEq, Repr

/-- Sixteen probes from a bucket on: `n` probes are left. -/
def State.probe (s : State) (g cx cy b : Nat) : Nat → Probe
  | 0 => .spill
  | n + 1 =>
    let v := s.bucket g b
    if !v.valid || v.tag != kget s.pergola.tags g 0 then .empty b
    else if v.cx = cx ∧ v.cy = cy ∧ v.grid = g then .found b
    else s.probe g cx cy ((b + 1) % 524288) n

/-- The integer part of an FP32 pattern, none for a NaN or an infinity. -/
def floorF32 (x : Nat) : Option Int :=
  match f32 x with
  | .fin sg m e =>
    let v : Int := if sg then -(m : Int) else m
    some (if 0 ≤ e then v * 2 ^ e.toNat else v / 2 ^ (-e).toNat)
  | _ => none

/-- The cell of a point in grid g (R117). -/
def State.cellOf (s : State) (g x y z : Nat) : Option (Nat × Nat) :=
  let rc := fdiv 0x3F800000 (s.reg (Regs.gridCell g))
  let axis (v o n : Nat) : Option Nat := (floorF32 (fmul (fsub v o) rc)).bind (fun c =>
    if 0 ≤ c ∧ c < n then some c.toNat else none)
  if flt z (s.reg (Regs.gridZmin g)) || !flt z (s.reg (Regs.gridZmax g)) || (f32 z).isNan then none
  else match axis x (s.reg (Regs.gridX0 g)) (s.reg (Regs.gridNx g)), axis y (s.reg (Regs.gridY0 g)) (s.reg (Regs.gridNy g)) with
    | some a, some b => some (a, b)
    | _, _ => none

/-- AGE of a point (R123). -/
def ageOf (te : Nat) (time : Int) : Int := max (-(2 ^ 31 : Int)) (min (2 ^ 31 - 1) (roundDivEven ((te : Int) - time) 16384))

/-- ln 2 in units of 2^-100. -/
def ln2 : Nat := 878668955440796098012247119917

/-- The weight of R125, in FP32: a candidate that keeps its bound, else a value that does. -/
def ageWeight (age : Int) (halfLife : Nat) : Nat :=
  if halfLife = 0 ∨ age ≤ 0 then 0x3F800000
  else
    let d := 4000 * halfLife
    let q := age.toNat / d
    let r := age.toNat % d
    let (lo, hi) := expInterval true (r * ln2 / d) (-100)
    let c := Config.ageWeight age halfLife % 2 ^ 31
    let w := if r = 0 then 0x3F800000 else if inBound c 22 lo hi false then c else ratioF32 false lo.1 lo.2
    toF32 ((f32 w).scale (-(q : Int)))

/-- A pillar while a bin runs (R123–R126). -/
structure Pillar where
  cx : Nat
  cy : Nat
  seen : Nat := 0
  wsum : Nat := 0
  sx : Nat := 0
  sy : Nat := 0
  sz : Nat := 0
  si : Nat := 0
  slots : KMap Bytes := []
  deriving DecidableEq, Repr

/-- The work of one grid: pillars by index, and the counts of R135. -/
structure GridWork where
  s : State
  pillars : KMap Pillar := []
  used : Nat := 0
  outOfGrid : Nat := 0
  spilledCells : Nat := 0
  spillPoints : Nat := 0
  probeSpill : Nat := 0
  discarded : Nat := 0
  bad : Option Nat := none

/-- A stored point (R123). -/
def storedPoint (te : Nat) (w : Nat) (m : Moved) : Bytes :=
  let age := match m.p.time with
    | some t => ageOf te t
    | none => 0
  toLe 4 m.x ++ toLe 4 m.y ++ toLe 4 m.z ++ toLe 4 w ++ toLe 4 (ofSigned 32 age) ++ toLe 4 m.p.order ++ toLe 4 m.p.sweep
    ++ toLe 4 (m.p.intensity + 256 * m.p.ret + 65536 * (24 + m.p.stream)
        + 2 ^ 24 * (1 + (if m.extrapolated then 2 else 0) + (if m.p.clamped then 4 else 0)))

/-- A point offered to pillar k whose bucket is b (R124, R125): half g draws for grid g (DESIGN CHOICE, log 76). -/
def GridWork.offer (w : GridWork) (g te b k : Nat) (m : Moved) : GridWork :=
  let n := w.s.reg (Regs.gridPointsPerPillar g)
  let v := w.s.bucket g b
  let p := kget w.pillars k { cx := v.cx, cy := v.cy }
  let wt := ageWeight (match m.p.time with
    | some t => ageOf te t
    | none => 0) (w.s.reg Regs.pgDecayHalflife)
  let j := p.seen + 1
  let pt := storedPoint te wt m
  let gen := kget w.s.pergola.gens g 1
  let (s, slots) := if j ≤ n then (w.s, kset p.slots (j - 1) pt)
    else
      let u := (Config.reservoirDraw gen % 2 ^ 32) * j / 2 ^ 32
      ({ w.s with pergola := { w.s.pergola with gens := kset w.s.pergola.gens g (Config.reservoirNext gen % 2 ^ 64) } },
        if u < n then kset p.slots u pt else p.slots)
  let p := { p with seen := j, slots := slots, wsum := fadd p.wsum wt, sx := fadd p.sx (fmul wt m.x), sy := fadd p.sy (fmul wt m.y),
                    sz := fadd p.sz (fmul wt m.z), si := fadd p.si (fmul wt (cvtf m.p.intensity)) }
  let s := s.setBucket g b { v with stored := min j n, seen := j }
  { w with s := s, pillars := kset w.pillars k p, discarded := w.discarded + (if n < j then 1 else 0) }

/-- Reads, with their codes (R370), the buckets that a probe of a cell sees: `n` are left, and the last is the one where R120 stops. -/
def GridWork.meet (w : GridWork) (i : Item) (g cx cy b : Nat) : Nat → GridWork
  | 0 => w
  | n + 1 =>
    let t := w.s.touch i .pergola [((bucketAt g b : Int), 16)]
    let w := { w with s := t.s, bad := w.bad.orElse (fun _ => t.entry) }
    match w.s.probe g cx cy b 1 with
    | .spill => w.meet i g cx cy ((b + 1) % 524288) n
    | _ => w

/-- One admitted point in grid g (R117, R120, R122). -/
def GridWork.insert (w : GridWork) (i : Item) (g te : Nat) (m : Moved) : GridWork :=
  match w.s.cellOf g m.x m.y m.z with
  | none => { w with outOfGrid := w.outOfGrid + 1 }
  | some (cx, cy) =>
    let w := w.meet i g cx cy (firstBucket g cx cy) 16
    match w.s.probe g cx cy (firstBucket g cx cy) 16 with
    | .spill => { w with probeSpill := w.probeSpill + 1 }
    | .found b =>
      let v := w.s.bucket g b
      if v.spill then { w with s := w.s.setBucket g b { v with seen := v.seen + 1 }, spillPoints := w.spillPoints + 1 }
      else w.offer g te b v.pillar m
    | .empty b =>
      let tag := kget w.s.pergola.tags g 0
      if w.used < w.s.reg (Regs.gridMaxPillars g) then
        let v : Bucket := { valid := true, cx := cx, cy := cy, grid := g, pillar := w.used, tag := tag }
        { w with s := w.s.setBucket g b v, used := w.used + 1 }.offer g te b w.used m
      else
        let v : Bucket := { valid := true, spill := true, cx := cx, cy := cy, grid := g, seen := 1, tag := tag }
        { w with s := w.s.setBucket g b v, spilledCells := w.spilledCells + 1, spillPoints := w.spillPoints + 1 }

/-- The header of a pillar (R126). -/
def Pillar.header (p : Pillar) (g n : Nat) : Bytes :=
  let mean (v : Nat) : Nat := if (f32 p.wsum).isZero then 0 else fdiv v p.wsum
  toLe 2 p.cx ++ toLe 2 p.cy ++ toLe 4 (min p.seen n + 256 * g + (if n < p.seen then 512 else 0)) ++ toLe 4 (min p.seen (2 ^ 32 - 1))
    ++ toLe 4 p.wsum ++ toLe 4 (mean p.sx) ++ toLe 4 (mean p.sy) ++ toLe 4 (mean p.sz) ++ toLe 4 (mean p.si)

/-- Writes the pillars of a grid (R124, R126). -/
def GridWork.write (w : GridWork) (o : GridOut) : State :=
  let n := w.s.reg (Regs.gridPointsPerPillar o.grid)
  w.pillars.foldl (fun s (k, p) =>
    let s := (List.range n).foldl (fun s j =>
      s.put .pergola (o.points.place [0, j, k]).1.toNat (kget p.slots j (List.replicate 32 0))) s
    s.put .pergola (o.headers.place [0, k]).1.toNat (p.header o.grid n)) w.s

/-- Points stored in a grid. -/
def GridWork.stored (w : GridWork) (g : Nat) : Nat :=
  w.pillars.foldl (fun n p => n + min p.2.seen (w.s.reg (Regs.gridPointsPerPillar g))) 0

/-- The grid block of the report (R135). -/
def GridWork.report (w : GridWork) (g : Nat) : Bytes :=
  let c (x : Nat) : Bytes := toLe 4 (min x (2 ^ 32 - 1))
  c w.used ++ c w.outOfGrid ++ c w.spilledCells ++ c w.spillPoints ++ c w.probeSpill ++ c w.discarded ++ c (w.stored g) ++ [0, 0, 0, 0]

/-! ### PG_BIN: completion (R131, R135, R137) -/

/-- Every admitted slice moved to te, the points without a pose, the extrapolated slices, and the ring slots used. -/
def State.moveAll (s : State) (te : Nat) (gs : List (List PgPoint)) : List Moved × Nat × Nat × List Nat :=
  gs.foldl (fun ((ms, lost, ex, used) : List Moved × Nat × Nat × List Nat) g =>
    match s.moveSlice te g with
    | none => (ms, lost + g.length, ex, used)
    | some (m, e, u) => (ms ++ m, lost, ex + (if e then 1 else 0), (used ++ u).eraseDups)) ([], 0, 0, [])

/-- The report of a bin. -/
def binReport (b : PgBin) (c : PgClosed) (te seq noPose extrap carried : Nat) (g0 g1 : Bytes) : Bytes :=
  let n (x : Nat) : Bytes := toLe 4 (min x (2 ^ 32 - 1))
  toLe 16 te ++ toLe 4 seq ++ n c.offered ++ n c.admitted ++ n c.budgetDropped ++ n c.slices.length ++ n c.slicesDropped
    ++ n c.untimed ++ n noPose ++ n c.stale ++ n c.carryOverflow ++ n carried ++ n b.gaps ++ n extrap ++ padTo 28 (n c.clamped)
    ++ g0 ++ g1 ++ padTo 96 (c.perStream.flatMap n)

/-- Runs the insertion of one grid. -/
def State.gridWork (s : State) (i : Item) (g te : Nat) (ms : List Moved) : GridWork :=
  ms.foldl (fun w m => w.insert i g te m) { s := s }

/-- A bin whose work met no poison: its outputs are written (R131, R135), EPOCH_END with the flag bits that the record gave it (DESIGN
CHOICE, log 76). It counts as it completes. -/
def State.finishBin (s : State) (i : Item) (b : PgBin) (c : PgClosed) (noPose extrap : Nat) (ws : List (GridOut × GridWork)) : State :=
  let spans := ws.flatMap (fun w => w.1.points.spans ++ w.1.headers.spans)
  match s.landing i .pergola (((i.field 295 256 : Int), 256) :: spans) with
  | (s, some f) => (s.setFinish i f)
  | (s, none) =>
    let s := ws.foldl (fun s (o, w) => { w with s := s }.write o) s
    let seq := (s.reg Regs.pgEpochSeq + 1) % 2 ^ 32
    let block (g : Nat) : Bytes := match ws.find? (fun w => decide (w.1.grid = g)) with
      | some (_, w) => w.report g
      | none => List.replicate 32 0
    let carried := (List.range 12).foldl (fun n k => n + (s.pgStream k).carry.length) 0
    let s := s.put .pergola (i.field 295 256)
      (binReport b c (i.field 191 64) seq noPose extrap carried (block 0) (block 1))
    let loss := decide (c.budgetDropped + c.untimed + noPose + c.stale + c.carryOverflow + b.gaps ≠ 0)
      || ws.any (fun w => decide (w.2.spillPoints + w.2.probeSpill + w.2.discarded ≠ 0))
    let spilled := (ws.filter (fun w => decide (w.2.spillPoints + w.2.probeSpill ≠ 0))).map (fun w => w.1.grid)
    let pillars := ws.foldl (fun m w => kset m w.1.grid w.2.used) ([] : KMap Nat)
    let s := { s with pergola := { s.pergola with pillars := pillars, spilled := spilled } }
    s.forgetTables.setFinish i (if loss then ⟨1, 0, 0⟩ else finDone 0)

/-- PG_BIN_COMPLETE: transforms and insertion end; poison met on the way ends the bin with UNCORRECTED_ERROR (R370). -/
def execPgBinComplete (s : State) : Res :=
  match s.pergola.bin, s.ready ⟨.pergola, .table⟩ 0x41 with
  | some b, some i =>
    match (if s.binOf i then b.closed else none) with
    | none => .next s
    | some c =>
      match s.checkGrids i s.grids with
      | (s, .error f) => .next (s.setFinish i f)
      | (s, .ok outs) =>
        let (ms, noPose, extrap, used) := s.moveAll b.te c.slices
        let t := s.touch i .pergola (used.map (fun k => ((poseSlot (s.pergola.poseNext + 4096 - 1 - k) : Int), 64)))
        let (s, ws) := outs.foldl (fun ((s, ws) : State × List (GridOut × GridWork)) o =>
          let w := s.gridWork i o.grid b.te ms
          (w.s, ws ++ [(o, w)])) (t.s, [])
        let bad := ws.foldl (fun e w => e.orElse (fun _ => w.2.bad)) (b.bad.orElse (fun _ => t.entry))
        match bad with
        | some e => .next (s.setFinish i (finUncorrected e))
        | none => .next (s.finishBin i b c noPose extrap ws)
  | _, _ => .next s

/-! ### PG_NEIGHBOURS (R127) -/

/-- The pillar of a cell, −1 where there is none, −2 where it spilled. -/
def State.pillarOf (s : State) (g : Nat) (cx cy : Int) : Int :=
  if cx < 0 ∨ cy < 0 ∨ (s.reg (Regs.gridNx g) : Int) ≤ cx ∨ (s.reg (Regs.gridNy g) : Int) ≤ cy then -1
  else match s.probe g cx.toNat cy.toNat (firstBucket g cx.toNat cy.toNat) 16 with
    | .found b => let v := s.bucket g b; if v.spill then -2 else v.pillar
    | _ => -1

/-- The cells of the present epoch by pillar. -/
def State.pillarCells (s : State) (g : Nat) : List (Nat × Nat × Nat) :=
  (List.range 524288).filterMap (fun b =>
    let v := s.bucket g b
    if v.valid && !v.spill && v.tag == kget s.pergola.tags g 0 then some (v.pillar, v.cx, v.cy) else none)

/-- The checks of PG_NEIGHBOURS. -/
def checkNeighbours (s : State) (i : Item) : Checked Tensor :=
  if !s.pergolaWorks then (s, .error (finBad 3 (s.targetCode i)))
  else if !s.pergola.seqUsable || decide (i.field 63 32 ≠ s.reg Regs.pgEpochSeq) then (s, .error (finBad 6 0))
  else match s.descriptor i .pergola (i.field 135 96) 1 true with
    | (s, .error f) => (s, .error f)
    | (s, .ok t) =>
      if t.fmt = .int32 ∧ t.rank = 2 ∧ t.size 0 = 9 ∧ kget s.pergola.pillars (i.field 64 64) 0 ≤ t.size 1 then (s, .ok t)
      else (s, .error (finBad 8 1))

/-- PG_NEIGHBOURS. -/
def execPgNeighbours (s : State) : Res :=
  .next (s.runItem ⟨.pergola, .table⟩ 0x42 checkNeighbours (fun s i t =>
    let g := i.field 64 64
    let r := s.touch i .pergola [((hashBase g : Int), 0x800000)]
    match r.gone, r.entry with
    | some f, _ => r.s.setFinish i f
    | none, some e => r.s.setFinish i (finUncorrected e)
    | none, none =>
      match r.s.landing i .pergola t.spans with
      | (s, some f) => s.setFinish i f
      | (s, none) =>
        ((s.pillarCells g).foldl (fun s' (k, cx, cy) =>
          s'.setRun .pergola t [k] 0 ((List.range 9).map (fun j =>
            ofSigned 32 (s.pillarOf g ((cx : Int) + (j % 3 : Nat) - 1) ((cy : Int) + (j / 3 : Nat) - 1))))) s).setFinish i (finDone 0)))

/-! ### PG_BEV (R128) -/

/-- What PG_BEV works on: headers, features for SOURCE 0, and the map. -/
structure BevArgs where
  headers : Tensor
  features : Option Tensor
  out : Tensor

/-- The checks of PG_BEV. -/
def checkBev (s : State) (i : Item) : Checked BevArgs :=
  let g := i.field 64 64
  let n := i.field 63 32
  let src1 := bit i.rec0 65
  let wants := [⟨1, i.field 135 96, false⟩] ++ (if src1 then [] else [⟨2, i.field 175 136, false⟩]) ++ [⟨3, i.field 215 176, true⟩]
  if !s.pergolaWorks then (s, .error (finBad 3 (s.targetCode i)))
  else if 262144 < n then (s, .error (finBad 6 0))
  else match s.descriptors i .pergola wants with
    | (s, .error f) => (s, .error f)
    | (s, .ok (h :: rest)) =>
      let inp := if src1 then none else rest.head?
      let out := rest.getLast?.getD h
      let fmt := match inp with
        | some t => t.fmt
        | none => .fp32
      let c := match inp with
        | some t => t.size 0
        | none => 4
      let nx := s.reg (Regs.gridNx g)
      let ny := s.reg (Regs.gridNy g)
      let m := s.reg (Regs.gridMaxPillars g)
      if !h.plainBytes [32, m] || decide (m < n) then (s, .error (finBad 8 1))
      else if (match inp with
          | some t => !([Fmt.bf16, .fp16, .fp32, .int8].contains t.fmt) || decide (t.rank ≠ 2) || decide (512 < t.size 0)
              || decide (t.size 1 < n) || decide (t.layout ≠ 0)
          | none => false) then (s, .error (finBad 8 2))
      else if out.fmt ≠ fmt ∨ out.layout ≠ 0 ∨ out.sizes ≠ (if bit i.rec0 66 then [c, nx, ny] else [nx, ny, c]) then
        (s, .error (finBad 8 3))
      else (s, .ok ⟨h, inp, out⟩)
    | (s, .ok []) => (s, .error (finBad 6 0))

/-- The place of channel ch at cell (cx, cy). -/
def bevPlace (byCell : Bool) (ch cx cy : Nat) : List Nat := if byCell then [ch, cx, cy] else [cx, cy, ch]

/-- Writes pillar k's channels into a map. -/
def State.bevPillar (s : State) (i : Item) (a : BevArgs) (k : Nat) : State :=
  let h := ofLe (s.peek (a.headers.place [0, k]).1.toNat 32)
  let cx := bits h 15 0
  let cy := bits h 31 16
  let g := i.field 64 64
  if s.reg (Regs.gridNx g) ≤ cx ∨ s.reg (Regs.gridNy g) ≤ cy then s
  else
    let codes := match a.features with
      | some t => (List.range (t.size 0)).map (fun c => s.elem t [c, k])
      | none => [cvtf (bits h 39 32), bits h 127 96, bits h 223 192, bits h 255 224]
    codes.zipIdx.foldl (fun s (x, c) => s.setElem .pergola a.out (bevPlace (bit i.rec0 66) c cx cy) x) s

/-- PG_BEV. -/
def execPgBev (s : State) : Res :=
  .next (s.runItem ⟨.pergola, .output⟩ 0x43 checkBev (fun s i a =>
    let ins := a.headers.spans ++ (match a.features with
      | some t => t.spans
      | none => [])
    let r := s.touch i .pergola ins
    match r.gone, r.entry with
    | some f, _ => r.s.setFinish i f
    | none, some e => r.s.setFinish i (finUncorrected e)
    | none, none =>
      match r.s.landing i .pergola a.out.spans with
      | (s, some f) => s.setFinish i f
      | (s, none) =>
        let s := a.out.rows.foldl (fun s r => s.setRun .pergola a.out r 0 (List.replicate (a.out.size 0) a.out.fill)) s
        ((List.range (i.field 63 32)).foldl (fun s k => s.bevPillar i a k) s).setFinish i (finDone 0)))

/-! ### PG_LABELS (R129, R130) -/

/-- What PG_LABELS works on: stored points, labels, the output table. -/
structure LabelArgs where
  points : Tensor
  labels : Tensor
  table : Nat

/-- BASE and COUNT of stream 24 + k in an output table. -/
def labelBase (table k : Nat) : Nat := bits table (128 * k + 39) (128 * k)
def labelCount (table k : Nat) : Nat := bits table (128 * k + 95) (128 * k + 64)

/-- The label buffers of an output table: `e` bytes a point. -/
def labelSpans (table e : Nat) : List (Int × Nat) :=
  (List.range 12).filterMap (fun k =>
    if labelBase table k = 0 ∨ labelCount table k = 0 then none else some ((labelBase table k : Int), labelCount table k * e))

/-- The checks of PG_LABELS. -/
def checkLabels (s : State) (i : Item) : Checked LabelArgs :=
  let g := i.field 64 64
  let n := i.field 63 32
  let a := i.field 215 176
  if !s.pergolaWorks then (s, .error (finBad 3 (s.targetCode i)))
  else if 262144 < n then (s, .error (finBad 6 0))
  else match s.descriptors i .pergola [⟨1, i.field 135 96, false⟩, ⟨2, i.field 175 136, false⟩] with
    | (s, .ok [p, l]) =>
      let slots := s.reg (Regs.gridPointsPerPillar g)
      if !p.plainBytes [32, slots, s.reg (Regs.gridMaxPillars g)] || decide (s.reg (Regs.gridMaxPillars g) < n) then
        (s, .error (finBad 8 1))
      else if !([Fmt.uint8, .uint16].contains l.fmt) || decide (l.rank ≠ 3) || decide (8 < l.size 0) || decide (l.size 1 ≠ slots)
          || decide (l.size 2 < n) || decide (l.layout ≠ 0) then (s, .error (finBad 8 2))
      else if a % 64 ≠ 0 then (s, .error (finBad 5 3))
      else match s.fetchStruct i .pergola a 192 3 with
        | (s, .stop f) => (s, .error f)
        | (s, .ok x) =>
          let spans := labelSpans x (l.size 0 * (l.fmt.bits / 8))
          match (spans.filterMap (fun p => (s.checkSpans i .pergola [p] true 3).2)).head? with
          | some f => (s, .error f)
          | none => (s, .ok ⟨p, l, x⟩)
    | (s, .error f) => (s, .error f)
    | (s, .ok _) => (s, .error (finBad 6 0))

/-- Where the labels of the stored point in slot j of pillar k go (R129): none where they are not written. -/
def State.labelPlace (s : State) (i : Item) (a : LabelArgs) (j k : Nat) : Option Nat :=
  let r := ofLe (s.peek (a.points.place [0, j, k]).1.toNat 32)
  let st := bits r 247 240
  let e := a.labels.fmt.bits / 8
  let l := a.labels.size 0
  let base := labelBase a.table (st - 24)
  let at_ := base + bits r 191 160 * l * e
  let fills := (List.range l).all (fun c => decide (ofLe (s.peek (at_ + c * e) e) = a.labels.fill % 2 ^ (8 * e)))
  if !bit r 248 || decide (st < 24) || decide (35 < st) || decide (base = 0) || decide (labelCount a.table (st - 24) ≤ bits r 191 160)
      || (bit i.rec0 66 && !fills) then none
  else some at_

/-- A stored point whose ORDER lies past its buffer (R129); a stream without a buffer, BASE 0, counts none (DESIGN CHOICE, log 76). -/
def State.labelOver (s : State) (a : LabelArgs) (j k : Nat) : Bool :=
  let r := ofLe (s.peek (a.points.place [0, j, k]).1.toNat 32)
  let st := bits r 247 240
  bit r 248 && decide (24 ≤ st) && decide (st ≤ 35) && decide (labelBase a.table (st - 24) ≠ 0)
    && decide (labelCount a.table (st - 24) ≤ bits r 191 160)

/-- Writes one stored point's labels; poisoned label data leave poison where they go (R370). -/
def State.labelPoint (s : State) (i : Item) (a : LabelArgs) (bad : List (Nat × Nat)) (j k : Nat) : State :=
  let s := s.bumpIf (s.labelOver a j k) Regs.pgLabelOverflows
  match s.labelPlace i a j k with
  | none => s
  | some at_ =>
    let e := a.labels.fmt.bits / 8
    let l := a.labels.size 0
    let t := s.put .pergola at_ ((List.range l).flatMap (fun c => toLe e (s.elem a.labels [c, j, k])))
    if (List.range l).any (fun c => a.labels.badElem bad [c, j, k]) then t.pokePoison at_ (l * e) else t

/-- Whether some stored point's ORDER lies past its buffer (R129). -/
def State.labelsLate (s : State) (a : LabelArgs) (n : Nat) : Bool :=
  (List.range n).any (fun k => (List.range (a.labels.size 1)).any (fun j => s.labelOver a j k))

/-- PG_LABELS: poisoned points reach no label, and poisoned labels leave poison (R370). -/
def execPgLabels (s : State) : Res :=
  .next (s.runItem ⟨.pergola, .output⟩ 0x44 checkLabels (fun s i a =>
    let e := a.labels.fmt.bits / 8
    let n := i.field 63 32
    let spans := labelSpans a.table (a.labels.size 0 * e)
    let r := s.touch i .pergola (a.points.spans ++ a.labels.spans ++ (if bit i.rec0 66 then spans else []))
    match r.gone with
    | some f => r.s.setFinish i f
    | none =>
      match r.s.landing i .pergola spans with
      | (s, some f) => s.setFinish i f
      | (s, none) =>
        let s := if bit i.rec0 65 then spans.foldl (fun s p =>
            s.put .pergola p.1.toNat ((List.replicate (p.2 / e) (toLe e a.labels.fill)).flatten)) s else s
        let late := s.labelsLate a n
        let good (j k : Nat) : Bool := !isBad r.bad (a.points.place [0, j, k]).1.toNat 32
        let s := (List.range n).foldl (fun s k => (List.range (a.labels.size 1)).foldl (fun s j =>
          if good j k then s.labelPoint i a r.bad j k else s) s) s
        s.setFinish i (match r.entry with
          | some en => finUncorrected en
          | none => if late then ⟨1, 0, 0⟩ else finDone 0)))

end Sys2Proof.Machine
end

