-- ==== Sys2Proof/Machine/Resets.lean ====
section
/-! DEFINITION. What power domains lose and how they come back (R102, R404, R439–R441), and what the start events of R408 keep. -/

namespace Sys2Proof.Machine

/-! ### Which objects belong to what (R408, R439) -/

/-- Whether an object's key lies at an index in a range. -/
def indexIn (lo hi k : Nat) : Bool := decide (lo ≤ k / 256) && decide (k / 256 ≤ hi)

/-- Objects of power domain 0: power control (R462, R463) and the sleep counter (R65). -/
def ofDomain0 (k : Nat) : Bool := indexIn 0x2100 0x213E k || indexIn 0x2204 0x2204 k

/-- Objects of power domain 1: Sundial (R64, R66), Keeper and Lamplighter (R352, R353), CAN FD controller 0 (R437). -/
def ofDomain1 (k : Nat) : Bool := indexIn 0x2200 0x222F k || indexIn 0x2800 0x2820 k || indexIn 0x1110 0x1110 k

/-- Safety-owned objects (R6). -/
def safetyOwned (k : Nat) : Bool :=
  objects.any (fun o => decide (o.access = .so) && decide (o.sub = k % 256) && decide (o.index ≤ k / 256) && decide (k / 256 < o.index + o.count))

/-- Contents of the keep banks that are objects (R408): SO objects, the state of the rule tables, the newest SEQ of the error
log, the device marks, the learned sleep correction. -/
def ofKeepBank (k : Nat) : Bool :=
  safetyOwned k || indexIn 0x2810 0x2810 k || decide (k = 0x201001) || (indexIn 0x2A28 0x2A2F k && decide (k % 256 = 1))
  || decide (k = 0x220402) || decide (k = 0x220403)

/-- The brown-out and start records (R451, R470), the supply flag of R461, and the sleep
clock found at power-up (R499). -/
def ofRecords (k : Nat) : Bool :=
  [0x210301, 0x210302, 0x210303, 0x220401, 0x2B0005, 0x2B0006, 0x2B0007, 0x2B0008, 0x2B000D].contains k

/-- Objects of the units that a warm restart cycles: gaffer g's (R166, R187, R220, R379). -/
def ofGaffer (g k : Nat) : Bool := decide (k / 256 = 0x2520 + g) || decide (k / 256 = 0x2540 + g)
def ofMarver (m k : Nat) : Bool := decide (k / 256 = 0x2700 + m)
def ofPergola (k : Nat) : Bool := indexIn 0x2400 0x2403 k || indexIn 0x2410 0x241B k

/-- Objects for which a test holds take their defaults. -/
def State.dropObjects (s : State) (p : Nat → Bool) : State :=
  { s with regs := s.regs.filter (fun e => !p e.1), blobs := s.blobs.filter (fun e => !p e.1) }

/-! ### Configuration space (R381, R383) -/

def State.setHostLink (s : State) (v : HostLink) : State := { s with link := v }

/-- Configuration space is reset: every register has its reset value, every MSI-X vector is masked and BAR2 has its default size
(log 12). -/
def State.configReset (s : State) : State :=
  let size := Regs.hifBar2Size.dflt
  let s := if s.reg Regs.hifBar2Size = size then s else (s.setReg Regs.hifBar2Size size).setReg Regs.hifApertureBase 0
  s.setHostLink { s.link with config := {}, unmasked := [], pendingMsix := [], msixTable := [], heldMsix := [] }

/-! ### Turning off and on (R440, R441) -/

/-- The TAP is held in reset (R491, R505). -/
def State.tapReset (s : State) : State := { s with pins := { s.pins with jtag := .idcode, boundary := [] } }

/-- The Keeper when its power domain starts from reset: a Gardener that R343 has left off stays so until a cold start. -/
def Keeper.fresh (k : Keeper) : Keeper := { gardenerOff := k.gardenerOff }

/-- What power domain 1 loses besides the Keeper's state: the Sundial's, and the safety channel's (R440). A function of a TRIG pin that
waited for its pulse takes effect, since the pulse has ended (R503). -/
def State.losesTime (s : State) : State :=
  let s := { s with
    paths := { s.paths with canSafety := {}, expectCounter := none, canBus0Off := false }
    sundial := { s.sundial with
      domA := {}
      domB := {}
      running := false
      residual := 0
      steppedAt := none
      message := 0
      launchedAt := none
      forwarding := []
      window := none
      gptpq := []
      taps := s.sundial.taps.filter (fun (e : Nat × Tap) => decide (tapDomain e.1 ≠ 1))
      links := []
      delayLines := none
      trigPulse := []
      ppsPulse := []
      launch := []
      onWire := [] } }
  (List.range 4).foldl State.tpinTakes s

/-- What power domain d loses when it turns off: registers and SRAM. Its objects stay (R407, log 42). -/
def State.loses (s : State) (d : Nat) : State :=
  if 2 ≤ d ∧ d ≤ 33 then
    let g := d - 2
    let v := s.gaffer g
    let s := { s with mem := s.mem.zero (spadBase g) (spadBase g + 0x300000) }
    let s := s.endGolden g
    let s := s.setReg Regs.pwrCapHeld (setBit (s.reg Regs.pwrCapHeld) g false)
    s.setGaffer g { v with sems := [], waits := [], arrayFault := none, vectorFault := none, levelChanging := false, raiseTo := none }
  else if 34 ≤ d ∧ d ≤ 37 then { s with disp := { s.disp with marvers := kdel s.disp.marvers (d - 34) } }
  else if d = 38 ∨ d = 39 then s.pergolaLost
  else if d = 40 then
    let s := { s with mem := s.mem.zero 0xF200000000 0xF200800000 }
    (List.range 52).foldl (fun s q =>
      let v := s.ingest q
      if v.items = [] ∧ v.done = [] ∧ v.writing = false then s
      else s.setIngest q { v with items := [], done := [], frame := none, taken := none, dropping := true })
      { s with lodge := { s.lodge with txq := [], pushes := [], reading := [], fifo := [], deskewed := [], gyro := [], wheel := [] } }
  else if d = 41 then
    { s with
      mem := s.mem.zero 0xF300000000 0xF300600000
      kv := {}
      stops := []
      disp := { s.disp with rings := [], comps := [], rrLast := [], iqs := [], journal := [] } }
  else if d = 45 then { s with paths := { s.paths with serving := false, staged := none, latched := none, channels := [], smbus := {} } }
  else if d = 42 ∨ d = 43 then
    let mine (sc : Nat) : Bool := decide (sc / 4 = d - 42)
    { s with ddr := { s.ddr with candidates := s.ddr.candidates.filter (fun c => !mine c.sc), seconds := s.ddr.seconds.filter (fun e => !mine e.1) } }
  else if d = 44 then s.configReset
  else if d = 46 then s.tapReset
  else if d = 1 then { s with keeper := s.keeper.fresh }.losesTime
  else s

/-- Power domain d reports on: from off its scratchpad reads zero and its gaffer takes its level (R178, R440); PD_LOST clears. -/
def State.turnsOn (s : State) (d : Nat) (fromOff : Bool) : State :=
  let s := ((s.setPd d { state := .on }).setReg (Regs.pdLost d) 0).calibrates d
  let s := if fromOff && decide (2 ≤ d) && decide (d ≤ 33) then
      let s := s.wipeGaffer (d - 2)
      s.setReg (Regs.gafferLevelNow (d - 2)) (s.levelGoal (d - 2))
    else s
  let s := if d = 1 && fromOff then
      let k : Keeper := { s.keeper.fresh with startDue := s.boot.phase == .ready, gardenerAt := s.now, slotAt := s.now }
      { s.setReg Regs.kpLatchCause 7 with keeper := k }.attendKeeper
    else s
  let s := if fromOff then s.measureBranches d else s
  if 2 ≤ d ∧ d ≤ 33 then s.setVcore else s

/-- Every power domain in retention loses its contents (R441). -/
def State.retentionLost (s : State) : State :=
  (List.range 46).foldl (fun s i =>
    let d := i + 1
    if (s.pd d).state = .retention then (s.loses d).setReg (Regs.pdLost d) 1 else s) s

/-- Power domains whose units a warm restart cycles. -/
def cycledDomains : List Nat := (List.range 38).map (· + 2)

/-! ### Fuses (R473, R474) -/

/-- The bits of a digest that a fuse command blows: all, or for one interrupted the free choice k. -/
def blowBytes (old new : Bytes) (part : Option Nat) : Bytes :=
  let free : Bytes := match part with
    | some k => toLe new.length (Config.freeNat k)
    | none => new
  (new.zip free).zipIdx.map (fun (e : (Byte × Byte) × Nat) => old.getD e.2 0 ||| (e.1.1 &&& e.1.2))

/-- A key digest after a blow: fuses that stay 0 leave a slot unprogrammed. -/
def blowHash (old : Option Bytes) (new : Bytes) (part : Option Nat) : Option Bytes :=
  let r := blowBytes (old.getD []) new part
  if part.isSome ∧ old.isNone = true ∧ r.all (fun b => decide (b = 0)) = true then none else some r

/-- What a fuse command leaves: `part` none when it completes, else the free choice of which bits it has blown. -/
def Fuses.blow (f : Fuses) (j : FuseJob) (part : Option Nat) : Fuses :=
  let x := (part.map Config.freeNat).getD 0
  match j, part with
  | .svn v, none => { f with svn := max f.svn v }
  | .svn v, some _ => { f with svn := f.svn + x % (v - f.svn + 1) }
  | .lifecycle v, none => { f with lifecycle := v, secret := if v = 3 then some (2 ^ 384 - 1) else f.secret }
  | .lifecycle v, some _ =>
    let secret := if v = 3 then some (f.secret.getD 0 ||| (x / 2) % 2 ^ 384) else f.secret
    { f with lifecycle := if x % 2 = 0 then f.lifecycle else v, secret := secret }
  | .revoke m, none => { f with revoked := f.revoked ||| m }
  | .revoke m, some _ => { f with revoked := f.revoked ||| (m &&& x) }
  | .keyHash k d, p => match blowHash (kfind f.keyHash k) d p with
    | some r => { f with keyHash := kset f.keyHash k r }
    | none => f
  | .debugHash d, p => { f with debugHash := blowHash f.debugHash d p }
  | .certificate d, none => { f with cert := d }
  | .certificate d, some _ => { f with cert := toLe d.length x }

/-! ### What a Golzen report says (R482) -/

/-- An octet string, most significant byte first, at a bit place of a little-endian number. -/
def octetsAt (place : Nat) (bs : Bytes) : Nat := ofLe bs <<< place

/-- The fields of a report but REPORT_SEQ, TIME, SCRUBBED_MIB and the signature. -/
def State.reportFields (s : State) (closing : Bool) : Nat :=
  let versions := padTo 7 (s.blob Blobs.ifSelect (List.replicate 7 1))
  0x4B475A4E + (versions.getD 6 1).toNat <<< 32 + (if closing then 1 else 0) <<< 40
  + s.lifecycle <<< 48 + s.reg Regs.idStepping <<< 56 + s.reg Regs.leaseId <<< 96
  + octetsAt 128 (s.blob Blobs.leaseNonce (List.replicate 48 0)) + (s.boot.fuses.serial % 2 ^ 64) <<< 640
  + s.reg Regs.bootSlotRunning <<< 704 + s.reg Regs.bootSvn <<< 712 + s.boot.fuses.svn <<< 720
  + (if closing then s.shift.endReason % 256 else 255) <<< 728 + s.reg Regs.bootImageSeq <<< 736
  + octetsAt 768 (s.blob Blobs.bootImageDigest (List.replicate 48 0)) + octetsAt 1152 (padTo 48 s.boot.keeperDigest)
  + octetsAt 1536 (s.blob Blobs.drMeasurement (List.replicate 48 0)) + (s.reg Regs.drBase % 2 ^ 40) <<< 1920 + s.reg Regs.drSize <<< 1960
  + (s.ddr.capacity / 2 ^ 30 % 256) <<< 1968 + s.reg Regs.ddrInterleave <<< 1976 + s.reg Regs.kpRulesDriveCrc <<< 1984
  + s.reg Regs.kpRulesParkedCrc <<< 2016 + s.reg Regs.gafferFence <<< 2048 + s.reg Regs.chairFormed <<< 2080
  + ofLe versions <<< 2096
  + (if closing then s.reg Regs.arbExportDone % 256 else 0) <<< 2152 + (if closing then s.reg Regs.arbExportAbandoned % 256 else 255) <<< 2160
  + (if closing then s.shift.openTime else 0) <<< 2208
  + (if closing then s.reg Regs.arbExportWritten else 0) <<< 2336 + (if closing then s.reg Regs.arbExportStarted else 0) <<< 2400
  + (s.reg Regs.dwBase % 2 ^ 40) <<< 2464 + s.reg Regs.dwSize <<< 2504

/-- A lease is starting, running or ending (R24, R475, R477). -/
def State.inLease (s : State) : Bool :=
  match s.shift.phase with
  | .starting _ | .lease | .preempting _ | .closing _ => true
  | _ => false

/-! ### The start events (R408) -/

/-- Start events that reset power domains: a power-on, the other cold starts, a start over all but power domain 0, and the
cold restart of R337. -/
inductive StartEvent where
  | powerOn | cold | restart | coldRestart
  deriving DecidableEq, Repr

/-- What the levels in force alone make of PWR_VCORE_NOW and PWR_CAP_HELD: every gaffer is off after a reset, and the code of VDD_CORE
is that of reset (R447, R448, R491). -/
def ofLevels (k : Nat) : Bool := decide (k = Regs.pwrVcoreNow.key) || decide (k = Regs.pwrCapHeld.key)

/-- GAFFER_FENCE and the causes: a gaffer fenced before a cold restart stays fenced, and off (R337, DEDUCED, log 43). -/
def ofFences (k : Nat) : Bool :=
  decide (k = Regs.gafferFence.key) || (List.range 32).any (fun g => decide (k = (Regs.gafferFenceCause g).key))

/-- Whether an object survives a start event. -/
def StartEvent.keeps (e : StartEvent) (k : Nat) : Bool :=
  match e with
  | .powerOn => false
  | .cold => ofRecords k
  | .restart => ofRecords k || (ofDomain0 k && !ofLevels k) || ofKeepBank k
  | .coldRestart => ofRecords k || (ofDomain0 k && !ofLevels k) || ofDomain1 k || ofKeepBank k || ofFences k

/-- Whether the keep banks survive. -/
def StartEvent.banks : StartEvent → Bool
  | .powerOn | .cold => false
  | .restart | .coldRestart => true

/-- Memory after a start event: SRAM reads zero when its domain turns on, DDR5 is undefined (R337, R403). -/
def resetMemory (tag : Nat) : Memory := { undef := [⟨0, 0x2000000000, tag⟩] }

/-- The shift after a start event. A lease that it ends, or one whose scrub was under way, still owes its closing report, with the fields
it had, and the quarantine stays until the scrub (R30, R483, DEDUCED, log 48); a report held for the Gardener survives all but a
power-on (R481). -/
def State.shiftAfter (s : State) (e : StartEvent) : Shift :=
  match e with
  | .powerOn => {}
  | .cold => { held := s.shift.held }
  | .restart | .coldRestart =>
    let due := s.inLease || s.shift.reportDue
    { s.shift with
      phase := .notServing, closed := false, ran := false, reportDue := false
      owed := s.shift.owed ++ (if due then [s.reportFields true] else [])
      quarantine := s.shift.quarantine || s.inLease }

/-- A start event resets the device: everything but what R408 keeps. -/
def State.resetFor (s : State) (e : StartEvent) : State :=
  let cold := !e.banks
  let warmKeeper := decide (e = .coldRestart)
  let s1 := s.dropObjects (fun k => !e.keeps k)
  let power : PowerCtl := if cold then { dieTemp := s.power.dieTemp } else
    { s.power with domains := s.power.domains.filter (fun p => decide (p.1 = 0) || (warmKeeper && decide (p.1 = 1))), doorbellsShut := false,
                   gardenerDue := false, comparator := false }
  { s1 with
    freeIx := s.freeIx + 1
    uptime0 := s.now
    mem := resetMemory s.freeIx
    stops := []
    log := if cold then {} else { s.log with readSeq := [], holdoffSince := none, correctedDue := false }
    sundial := if warmKeeper then s.sundial else { sleepZero := if cold then s.now else s.sundial.sleepZero }
    disp := {}
    link := { perst := s.link.perst }
    ddr := if cold then {} else { retired := s.ddr.retired }
    paths := if warmKeeper then
        { canSafety := s.paths.canSafety, expectCounter := s.paths.expectCounter, deviceCounter := s.paths.deviceCounter,
          canBus0Off := s.paths.canBus0Off }
      else {}
    lodge := {}
    pergola := {}
    kv := {}
    keeper := if cold then {} else if warmKeeper then s.keeper else s.keeper.fresh
    shift := s.shiftAfter e
    drive := .unsealed
    power := power
    boot := { s.boot with
      phase := .held
      since := s.now
      fuses := (match s.boot.fuseJobs with
        | j :: _ => s.boot.fuses.blow j (some s.freeIx)
        | [] => s.boot.fuses)
      fuseJobs := []
      staging := none
      hostImage := false
      coldRestart := warmKeeper
      unlocked := s.boot.unlocked && !cold
      preferOther := s.boot.preferOther && decide (e ≠ .powerOn)
      lastSlot := if e = .powerOn then 255 else s.boot.lastSlot }
    pins := { s.pins with pmicSleep := false, vcoreSel := 25, tpinNext := [], tpinActive := [], jtag := .idcode, boundary := [] } }

end Sys2Proof.Machine
end

