-- ==== Sys2Proof/Machine/Domains.lean ====
section
/-! DEFINITION. How power domains change state (R10, R404, R442–R446): the order in which changes begin, what each step of one does, and
the changes that fences and restarts force. With it what of the host link and DDR5 such changes move (R397, R403). -/

namespace Sys2Proof.Machine

/-! ### The host link falls (R382, R397) -/

/-- The link is down: rate and width read 0. -/
def State.linkFalls (s : State) : State :=
  ((((s.setReg Regs.hifLinkUp 0).setReg Regs.hifLinkRate 0).setReg Regs.hifLinkWidth 0).setReg Regs.hifBelowFloor 0).attention 4

/-- Whether ring r has its records or its completion ring in the host window. -/
def State.ringOnHost (s : State) (r : Nat) : Bool :=
  regionOf (s.reg (Regs.ringBase r)) == .host || regionOf (s.reg (Regs.cqBase (s.reg (Regs.ringCq r)))) == .host

/-- DL_Down (R397). -/
def State.linkDown (s : State) : State :=
  if s.flag Regs.hifLinkUp then
    let s := s.linkFalls.bump Regs.hifLinkDowns
    (List.range 64).foldl (fun s r => if s.flag (Regs.ringEnable r) && s.ringOnHost r then s.stopRing r else s) s
  else s

/-! ### DDR5 pairs (R403, R404) -/

def State.setDdr (s : State) (v : Ddr) : State := { s with ddr := v }

/-- The phase of a pair; no restore and no full training of it is under way any more. -/
def State.setPair (s : State) (k : Nat) (v : DdrPhase) : State :=
  let d := { s.ddr with restoring := s.ddr.restoring.filter (· != k), retraining := s.ddr.retraining.filter (· != k) }
  s.setDdr (if k = 0 then { d with pair0 := v } else { d with pair1 := v })

/-- A pair's power domain leaves on: it has entered self-refresh (R404 steps 3 and 4). -/
def State.entersSelfRefresh (s : State) (k : Nat) : State :=
  let s := s.bump Regs.ddrSrEntries
  if s.ddrPair k == .untrained then s else s.setPair k .selfRefresh

/-! ### Requests (R442, R444) -/

/-- The leaving order of R442. -/
def leavingOrder : List Nat := (List.range 39).map (· + 2) ++ [44, 46, 42, 43, 45, 1, 41]

/-- Codes of R463. -/
def PdState.code : PdState → Nat
  | .on => 0 | .retention => 1 | .off => 2
def pdStateOf : Nat → PdState
  | 0 => .on | 1 => .retention | _ => .off

/-- PD_STATE: changing from the moment at which the change begins. -/
def State.pdCode (s : State) (d : Nat) : Nat :=
  if (s.pd d).target.isSome && (s.pd d).begun then 3 else (s.pd d).state.code

/-- The state a power domain will hold once its change is complete. -/
def State.pdFinal (s : State) (d : Nat) : PdState := (s.pd d).goal.getD ((s.pd d).target.getD (s.pd d).state)

/-- The first step of a change of an idle power domain to v: an off one reaches retention through on (R442). -/
def PowerDomain.toward (p : PowerDomain) (v : PdState) : PowerDomain :=
  if p.state = v then { state := v }
  else if p.state = .off ∧ v = .retention then { state := .off, target := some .on, goal := some .retention, forced := p.forced, batch := p.batch }
  else { state := p.state, target := some v, forced := p.forced, batch := p.batch }

/-- A request for a power domain: a change that has begun completes its present step and goes on to the new target (R444). -/
def State.requestPd (s : State) (d : Nat) (v : PdState) (batch : Nat) : State :=
  let p := s.pd d
  match p.target, p.begun with
  | some t, true => s.setPd d { p with goal := if t = v then none else some v, batch := batch }
  | _, _ => s.setPd d ({ p with forced := false, batch := batch }.toward v)

/-! ### The steps of a change (R10, R404, R440–R445) -/

/-- What happens as a power domain starts to leave on (R73, R444, R453); a golden set that runs on a gaffer ends. -/
def State.leaves (s : State) (d : Nat) : State :=
  if 2 ≤ d ∧ d ≤ 33 then s.endGolden (d - 2)
  else if d = 40 then s.lodgeLeavesOn
  else if d = 44 then s.linkDown
  else if d = 45 then { s with power := { s.power with comparator := true }, paths := { s.paths with serving := false } }
  else s

/-- Whether the change of power domain d to t may begin: in the order of R442 no earlier power domain of the same write is still to
leave (or to turn on), the Promenade turns on first and leaves last (R17). -/
def State.mayStart (s : State) (d : Nat) (t : PdState) : Bool :=
  let place (x : Nat) : Nat := leavingOrder.idxOf x
  let before (x : Nat) : Bool := if t = .on then decide (place d < place x) else decide (place x < place d)
  let same (x : Nat) : Bool := match (s.pd x).target with
    | some u => !(s.pd x).forced && decide ((s.pd x).batch = (s.pd d).batch) && decide ((u = .on) = (t = .on))
    | none => false
  !(leavingOrder.any (fun x => before x && same x))
  && (if t = .on then decide (d = 41) || decide ((s.pd 41).state = .on)
      else decide (d ≠ 41) || leavingOrder.all (fun x => decide (x = 41) || (decide ((s.pd x).state ≠ .on) && (s.pd x).target.isNone)))

/-- The present step of a change begins. -/
def State.pdStarts (s : State) (d : Nat) : State :=
  let s := if (s.pd d).state = .on then s.leaves d else s
  let s := s.setPd d { s.pd d with begun := true }
  if (s.pd d).target = some .on ∧ 2 ≤ d ∧ d ≤ 33 then s.gafferTurnsOn (d - 2) else s

/-- Every change that waited for its place in the order begins once it may. -/
def State.startsPds (s : State) : State :=
  leavingOrder.foldl (fun s d => match (s.pd d).target with
    | some t => if !(s.pd d).begun && s.mayStart d t then s.pdStarts d else s
    | none => s) s

/-- Whether the present step of power domain d may end: what leaves on has its boundary drained (R10), power domain 1 leaves only once
time is saved (R60), and a gaffer turns on only once VDD_CORE has settled (R448). -/
def State.stepMayEnd (s : State) (d : Nat) (t : PdState) : Bool :=
  if t = .on then !(decide (2 ≤ d) && decide (d ≤ 33)) || decide ((s.gaffer (d - 2)).levelAt ≤ s.now)
  else s.drained d && (decide (d ≠ 1) || !s.sundial.running)

/-- A step of a change ends (R440, R441, R404): the state, and what the power domain loses or finds. The TAP is in reset as its power
domain leaves on (R491). -/
def State.stepEnds (s : State) (d : Nat) (t : PdState) : State :=
  let p := s.pd d
  let level (s : State) : State := if 2 ≤ d ∧ d ≤ 33 then s.setVcore else s
  let s := if p.state = .on ∧ (d = 42 ∨ d = 43) then s.entersSelfRefresh (d - 42) else s
  match t with
  | .off => level ((s.loses d).settlePd d .off)
  | .retention => level ((if d = 46 then s.tapReset else s).settlePd d .retention)
  | .on =>
    let fresh := decide (p.state = .off) || s.flag (Regs.pdLost d)
    let s := s.turnsOn d fresh
    if d = 42 ∨ d = 43 then s.setDdr { s.ddr with restoring := s.ddr.restoring ++ [d - 42] }
    else if d = 45 ∧ fresh = true then { s with power := { s.power with gardenerDue := true } }
    else s

/-- The end of a step, then the next step towards the goal, or the count of a completed change (R445); a unit that a restart cycles
completes two, off and on again. -/
def State.pdStepDone (s : State) (d : Nat) : State :=
  let p := s.pd d
  match p.target with
  | none => s
  | some t =>
    let s := s.stepEnds d t
    match p.goal with
    | none => s.bump (Regs.pdTransitions d)
    | some g =>
      if g = t then s.bump (Regs.pdTransitions d)
      else
        let s := s.bumpIf (p.forced && decide (t = .off)) (Regs.pdTransitions d)
        (s.setPd d ({ p with state := t }.toward g)).pdStarts d

/-! ### Changes that a restart forces (R336, R337, R343, R444) -/

/-- Whether a change forced by anything but a fence is in progress: a fence's power-off is a step of its own (R184). -/
def State.forcedChange (s : State) (d : Nat) : Option PdState :=
  if (s.pd d).forced && !(decide (2 ≤ d) && decide (d ≤ 33) && (s.gaffer (d - 2)).drainDue) then (s.pd d).target else none

/-- A restart cycles power domain d (R336): off, then back in the state it had. A change that the host had asked for is dropped (R444). -/
def State.cyclesPd (s : State) (d : Nat) : State :=
  match (s.pd d).state with
  | .off => s
  | v => s.forces d .off (some v)

/-- The steps of a forced change of power domain d end, as far as they may: `n` are left. -/
def State.settlesForced (s : State) (d : Nat) : Nat → State
  | 0 => s
  | n + 1 => match s.forcedChange d with
    | some t => if s.stepMayEnd d t then (s.pdStepDone d).settlesForced d n else s
    | none => s

end Sys2Proof.Machine
end

