-- ==== Sys2Proof/Machine/Start.lean ====
section
/-! DEFINITION. Starts (R464–R471): the checks of an image, the order of the slots, the start record, the root of trust's draws,
a failed start, the Gatehouse start, and how a start becomes ready. -/

namespace Sys2Proof.Machine

/-! ### Images (R465–R468) -/

/-- An image as read: 512 header bytes and the body. -/
structure BootImage where
  header : Bytes
  body : Bytes
  deriving DecidableEq, Repr

/-- A field of the header. -/
def BootImage.field (m : BootImage) (hi lo : Nat) : Nat := bits (ofLe m.header) hi lo

/-- Section k: its body offset and length. -/
def BootImage.part (m : BootImage) (k : Nat) : Nat × Nat := (m.field (1567 + 64 * k) (1536 + 64 * k), m.field (1599 + 64 * k) (1568 + 64 * k))

/-- The length that R467 gives section k. -/
def partLength (k n : Nat) : Bool :=
  match k with
  | 0 => decide (4096 ≤ n) && decide (n ≤ 2 ^ 20)
  | 1 => decide (4096 ≤ n) && decide (n ≤ 2 ^ 18)
  | 2 => decide (n = 16)
  | 3 => decide (n = 8)
  | _ => decide (n = 0)

/-- The section table meets R466 and R467. -/
def BootImage.partsOk (m : BootImage) : Bool :=
  (List.range 8).all (fun k =>
    let p := m.part k
    partLength k p.2 && decide (p.1 % 64 = 0) && decide (p.1 + p.2 ≤ m.field 127 96)
    && (List.range k).all (fun j => !overlaps p.1 p.2 (m.part j).1 (m.part j).2))

/-- The bytes of section k. -/
def BootImage.section (m : BootImage) (k : Nat) : Bytes := slice m.body (m.part k).1 (m.part k).2

/-- The key digest: of PUBKEY_X followed by PUBKEY_Y (R466). -/
def BootImage.keyDigest (m : BootImage) : Bytes := sha384 (slice m.header 80 96)

/-- Capacity of a memory configuration of R467 in bytes, none outside the table of R399. -/
def memoryCapacity (cfg : Nat) : Option Nat :=
  if ¬(bits cfg 39 24 = 4800 ∨ bits cfg 39 24 = 5600 ∨ bits cfg 39 24 = 6400) then none
  else match bits cfg 7 0, bits cfg 15 8, bits cfg 23 16 with
    | 1, 8, 1 => some (32 * 2 ^ 30)
    | 1, 8, 2 => some (64 * 2 ^ 30)
    | 1, 16, 1 => some (64 * 2 ^ 30)
    | 1, 24, 1 => some (96 * 2 ^ 30)
    | 1, 16, 2 => some (128 * 2 ^ 30)
    | 0, 8, 1 => some (64 * 2 ^ 30)
    | 0, 8, 2 => some (128 * 2 ^ 30)
    | 0, 16, 1 => some (128 * 2 ^ 30)
    | _, _, _ => none

/-- KEY_INDEX names a key that the lifecycle state accepts (R468, R474). -/
def State.keyAccepted (s : State) (m : BootImage) : Bool :=
  let k := m.field 42 40
  if k ≤ 3 then !bit s.boot.fuses.revoked k && decide (kfind s.boot.fuses.keyHash k = some m.keyDigest)
  else decide (k = 4) && decide (s.lifecycle = 0) && decide (m.keyDigest = (List.range 48).map Config.romDigest)

/-- The signature over header bytes 0–255 verifies. -/
def BootImage.signed (m : BootImage) : Bool :=
  ecdsaOk (ofBe (slice m.header 80 48), ofBe (slice m.header 128 48)) (sha384 (m.header.take 256))
    (ofBe (slice m.header 256 48)) (ofBe (slice m.header 304 48))

/-- MAGIC and HDR_VERSION. -/
def BootImage.marked (m : BootImage) : Bool := decide (m.field 31 0 = 0x4B424F54) && decide (m.field 39 32 = 1)

/-- The reason code of R468 for an image that could be read: the first check that fails, 0 for none. -/
def State.imageReason (s : State) (m : BootImage) : Nat :=
  if !m.marked then 3
  else if !(decide (4096 ≤ m.field 127 96) && decide (m.field 127 96 ≤ 2097152) && decide (m.body.length = m.field 127 96) && m.partsOk) then 4
  else if !s.keyAccepted m then 5
  else if m.field 55 48 < s.boot.fuses.svn then 6
  else if !m.signed then 9
  else if sha384 m.body ≠ slice m.header 32 48 then 8
  else if (memoryCapacity (ofLe (m.section 2))).isNone then 7
  else 0

/-! ### Slots (R465, R470) -/

/-- Bytes of the boot flash, whose erased bytes read 0xFF: `flash` lists each byte's complement. -/
def State.flashBytes (s : State) (a n : Nat) : Bytes := (s.boot.flash.read a n).map (fun b => ~~~b)

/-- The image in slot A (0) or B (1). -/
def State.slotImage (s : State) (slot : Nat) : BootImage :=
  let h := s.flashBytes (slot * 0x1000000) 512
  ⟨h, s.flashBytes (slot * 0x1000000 + 0x1000) (min (bits (ofLe h) 127 96) 2097152)⟩

/-- The flash answers discovery and its reads end in time. -/
def State.flashReads (s : State) : Bool := s.boot.flashAnswers && !s.boot.flashStalls

/-- The reason code of a slot. -/
def State.slotReason (s : State) (slot : Nat) : Nat :=
  if !s.boot.flashAnswers then 1 else if s.boot.flashStalls then 2 else s.imageReason (s.slotImage slot)

/-- Whether a slot has a header that can be read; an interrupted program leaves none (R472). -/
def State.slotHeader (s : State) (slot : Nat) : Bool := s.flashReads && (s.slotImage slot).marked

/-- The slots in the order of R465. -/
def State.slotOrder (s : State) : List Nat :=
  match s.slotHeader 0, s.slotHeader 1 with
  | true, false => [0, 1]
  | false, true => [1, 0]
  | false, false => [0, 1]
  | true, true =>
    if s.boot.preferOther ∧ s.boot.lastSlot = 0 then [1, 0]
    else if s.boot.preferOther ∧ s.boot.lastSlot = 1 then [0, 1]
    else if (s.slotImage 0).field 95 64 < (s.slotImage 1).field 95 64 then [1, 0] else [0, 1]

/-- Tries slots in order: the accepted slot, if any, and the reason of the last one tried. -/
def State.trySlots (s : State) (last : Nat) : List Nat → State × Option Nat × Nat
  | [] => (s, none, last)
  | k :: rest =>
    let r := s.slotReason k
    let s := s.setReg (if k = 0 then Regs.bootReasonA else Regs.bootReasonB) r
    if r = 0 then (s, some k, 0) else s.trySlots r rest

/-! ### Identity (R475, R476) -/

/-- One draw of the root of trust. -/
def State.trustDraw (s : State) : Nat × State :=
  (Config.trustRandom s.boot.challengeIx, { s with boot := { s.boot with challengeIx := s.boot.challengeIx + 1 } })

/-- A new challenge of 32 bytes. -/
def State.newChallenge (s : State) : State :=
  let (k, s) := s.trustDraw
  s.setBlob Blobs.dbgChallenge (beBytes 32 k)

/-- The first start in the manufacturing state fuses the secret of 384 bits. -/
def State.drawSecret (s : State) : State :=
  if s.boot.fuses.lifecycle = 0 ∧ s.boot.fuses.secret.isNone then
    let (k, s) := s.trustDraw
    { s with boot := { s.boot with fuses := { s.boot.fuses with secret := some (k % 2 ^ 384) } } }
  else s

/-- The identity's private key; none once retired. -/
def State.identity (s : State) : Option Nat :=
  if s.boot.fuses.lifecycle = 3 then none else s.boot.fuses.secret.map (fun x => x % (orderN - 1) + 1)

/-- TRUST_ID_PUB. -/
def State.identityPublic (s : State) : Bytes :=
  match s.identity with
  | none => List.replicate 96 0
  | some d => match (pointTimes baseG d).affine with
    | some q => beBytes 48 q.1 ++ beBytes 48 q.2
    | none => List.replicate 96 0

/-! ### Powering and trying (R469) -/

/-- Step 1: power domains 1, 41, 44, 45 and 46 on, and the requests that every start sets. A Gardener that R343 has left off stays
off in every start that is no cold start. -/
def State.startPowers (s : State) : State :=
  let on : List Nat := if s.keeper.gardenerOff then [1, 41, 44, 46] else [1, 41, 44, 45, 46]
  let s := on.foldl (fun s d => if s.pdOn d then s else s.turnsOn d true) s
  let s := [0, 1, 41, 42, 43, 44, 45, 46].foldl (fun s d => s.setReg (Regs.pdRequest d) 0) s
  let s := (List.range 4).foldl (fun s p => s.setReg (Regs.ethMacAddr p) ((s.boot.fuses.macBase + p) % 2 ^ 48)) s
  if s.boot.coldRestart then s else (List.range 39).foldl (fun s i => s.setReg (Regs.pdRequest (i + 2)) 2) s

/-- Step 4: the accepted image runs; the Keeper starts unless it runs already. Slot 2 is a host image. -/
def State.acceptImage (s : State) (slot : Nat) (m : BootImage) : State :=
  let s := ((s.setReg Regs.bootSlotRunning slot).setReg Regs.bootImageSeq (m.field 95 64)).setReg Regs.bootSvn (m.field 55 48)
  let s := s.setBlob Blobs.bootImageDigest (sha384 (m.header.take 256))
  let identity := ofLe (m.section 3)
  let s := (s.setReg Regs.idSubsysVendor (bits identity 15 0)).setReg Regs.idSubsys (bits identity 31 16)
  { s with
    keeper := if s.boot.coldRestart then s.keeper else { s.keeper.fresh with startDue := true, gardenerAt := s.now, slotAt := s.now }
    boot := { s.boot with
      phase := .started
      header := m.header
      config := ofLe (m.section 2)
      keeperDigest := sha384 (m.section 1)
      keeperImage := m.section 1
      hostImage := decide (slot = 2)
      lastSlot := slot } }

/-- Steps 1 to 4: the state, and the reason of R470 (0: a slot was accepted). -/
def State.attempt (s : State) : State × Nat :=
  let s := s.startPowers.drawSecret.newChallenge
  let s := (s.setReg Regs.bootReasonA 0).setReg Regs.bootReasonB 0
  if !s.boot.fuses.good then (s, 11)
  else match s.trySlots 0 s.slotOrder with
    | (s, some k, _) => (s.acceptImage k (s.slotImage k), 0)
    | (s, none, r) => (s, r)

/-- A start fails (R470): the record, and every power domain but 0 is reset. -/
def State.startFails (s : State) (reason : Nat) : State :=
  let first := decide (s.reg Regs.bootFailCount = 0)
  let s := (s.bump Regs.bootFailedStarts).setReg Regs.bootFailCount (min 3 (s.reg Regs.bootFailCount + 1))
  let s := if first then s.setReg Regs.bootGatehouseReason reason else s
  let s := if reason = 10 then { s with boot := { s.boot with preferOther := true } } else s
  s.resetFor .restart

/-- A Gatehouse start (R471): no image, the Keeper's cores in reset, HEARTBEAT at its level. -/
def State.gatehouseStart (s : State) : State :=
  let level := s.keeper.heartbeat
  let s := s.startPowers.drawSecret.newChallenge
  let s := (s.setReg (Regs.pdRequest 42) 2).setReg (Regs.pdRequest 43) 2
  { s with keeper := { s.keeper.fresh with heartbeat := level }, boot := { s.boot with phase := .gatehouse } }

/-- A start from the release of reset: attempts until one is accepted or the count is 3; `n` bounds the attempts. -/
def State.begins (s : State) : Nat → State
  | 0 => s.gatehouseStart
  | n + 1 =>
    if s.reg Regs.bootFailCount = 3 then s.gatehouseStart
    else
      let (t, r) := s.attempt
      if r = 0 then t else (t.startFails r).begins n

def State.beginStart (s : State) : State := { s with uptime0 := s.now, boot := { s.boot with since := s.now } }.begins 4

/-! ### Ready (R469 steps 5 and 6, R471) -/

/-- Step 5: power domains 42 and 43 on, as PD_REQUEST then reports, and the memory configuration in force. -/
def State.applyMemory (s : State) : State :=
  let s := [42, 43].foldl (fun s d => (if s.pdOn d then s else s.turnsOn d true).setReg (Regs.pdRequest d) 0) s
  let c := s.boot.config
  let s := (s.setReg Regs.ddrRate (bits c 39 24)).setReg Regs.ddrWidth (bits c 7 0)
  let s := (s.setReg Regs.ddrRanks (bits c 23 16)).setReg Regs.ddrDensity (bits c 15 8)
  { s with ddr := { s.ddr with capacity := (memoryCapacity c).getD 0, pair0 := .untrained, pair1 := .untrained } }

/-- R337 step 4: power domains 2–40 return to what was requested before the trigger, as forced changes (R443); a fenced gaffer stays
off, and every unfenced one that comes on runs its start test. -/
def State.bringBack (s : State) : State :=
  let back (d : Nat) : Bool := decide (s.reg (Regs.pdRequest d) ≠ 2) && !(decide (d ≤ 33) && s.fenced (d - 2))
  let s := (((List.range 39).map (· + 2)).filter back).foldl (fun s d =>
    s.forces d .on (if s.reg (Regs.pdRequest d) = 1 then some .retention else none)) s
  let gs := (List.range 32).filter (fun g => back (gafferPd g) && decide (s.reg (Regs.pdRequest (gafferPd g)) = 0))
  { s with keeper := { s.keeper with testing := gs } }

/-- Step 6: the dictionary serves, unless R343 has left the Gardener off, and the drive shift begins. -/
def State.startReady (s : State) : State :=
  let s := s.applyMemory
  let s := (s.setReg Regs.bootFailCount 0).setReg Regs.bootTime (min (2 ^ 32 - 1) ((s.now - s.boot.since) / 1000))
  let s := { s with
    paths := { s.paths with serving := !s.keeper.gardenerOff }
    shift := { s.shift with phase := .drive }
    boot := { s.boot with phase := .ready, preferOther := false, coldRestart := false } }
  let s := s.attendKeeper
  if s.keeper.restart = .cold then s.bringBack else s

/-- Gatehouse mode (R471). -/
def State.gatehouseReady (s : State) : State :=
  { s with paths := { s.paths with serving := true }, shift := { s.shift with phase := .gatehouse } }.attention 7

/-- Bytes laid out as a slot, as an image (R472). -/
def imageOf (bs : Bytes) : BootImage :=
  let h := bs.take 512
  ⟨h, slice bs 4096 (bits (ofLe h) 127 96)⟩

/-- The staged bytes in host memory, read through the window; none if a read fails (R472), be it for want of a valid entry (R388). -/
def State.readStaged (s : State) : State × Option Bytes :=
  let src := s.reg Regs.stageSrc
  let len := s.reg Regs.stageLen
  match s.readMem .gardener none src len with
  | (s, .bytes bs [] _) => (s, some bs)
  | (s, .bytes _ _ _) => (s, none)
  | (s, .absent) => (s.notPresent none src (s.answer .gardener src len false), none)

/-- A Gardener restart verifies the running image again (R469). -/
def State.gardenerReady (s : State) : State :=
  if s.boot.hostImage then
    match s.readStaged with
    | (s, some bs) => if s.imageReason (imageOf bs) = 0 then { s with paths := { s.paths with serving := true } } else s
    | (s, none) => s
  else
    let k := s.reg Regs.bootSlotRunning
    if s.slotReason k = 0 then { s with paths := { s.paths with serving := true } } else s

end Sys2Proof.Machine
end

