-- ==== Sys2Proof/Machine/Owners.lean ====
section
/-! DEFINITION. Owners and claims (R57, R58, R414–R416) and the TRIG pin multiplexers (R503). -/

namespace Sys2Proof.Machine

/-- A pulse of trigger t is in progress that began in an earlier tick: one of the same tick comes after the write (R503). -/
def State.trigEarlier (s : State) (t : Nat) : Bool :=
  match kfind s.sundial.trigPulse t with
  | some (began, _) => decide (began < s.now)
  | none => false

/-- A pin function takes effect, or waits for the pulse in progress to end (R503). A pulse that began in the same tick is emitted under
the new function. -/
def State.tpinChange (s : State) (t f : Nat) : State :=
  let s := s.setReg (Regs.tpinFunc t) f
  if s.trigEarlier t then { s with pins := { s.pins with tpinNext := kset s.pins.tpinNext t f } }
  else
    let s := { s with pins := { s.pins with tpinActive := kset s.pins.tpinActive t f, tpinNext := kdel s.pins.tpinNext t } }
    if s.trigActive t then s.driveTrig t 0 else s

/-- Every time domain with source PPS_IN has it set to none (R58). -/
def State.leavePpsIn (s : State) : State :=
  [false, true].foldl (fun s b => if s.reg (Regs.tdSource (domIx b)) = 1 then s.setSource b 2 else s) s

/-- The state R58 and R503 leave a resource in, by the index of its OWNER. -/
def State.leaveResource (s : State) (index : Nat) : State :=
  if 0x2210 ≤ index ∧ index < 0x2218 then s.setReg (Regs.alarmArm (index - 0x2210)) 0
  else if 0x2218 ≤ index ∧ index < 0x221C then s.setReg (Regs.trigEnable (index - 0x2218)) 0
  else if 0x221C ≤ index ∧ index < 0x221E then s.setReg (Regs.ppsOutEnable (index - 0x221C)) 0
  else if index = 0x221E then s.leavePpsIn
  else if 0x2220 ≤ index ∧ index < 0x2230 then s.flushQueue (56 + (index - 0x2220))
  else if 0x2C10 ≤ index ∧ index < 0x2C14 then s.tpinChange (index - 0x2C10) 0
  else s

/-- The resources with an OWNER: alarms, triggers, PPS outputs, PPS_IN, launch queues, internal queues, multiplexers. -/
def ownedIndexes : List Nat :=
  (List.range 8).map (· + 0x2210) ++ (List.range 4).map (· + 0x2218) ++ [0x221C, 0x221D, 0x221E]
  ++ (List.range 16).map (· + 0x2220) ++ (List.range 32).map (· + 0x2980) ++ (List.range 4).map (· + 0x2C10) ++ [0x2C20, 0x2C21]

/-- OWNER of a resource. -/
def ownerReg (index : Nat) : Reg := ⟨index * 256 + 1, 0⟩

/-- The previous owner is notified of the Keeper's taking its claim (R58, R416). -/
def State.notifyTaken (s : State) (index o : Nat) : State :=
  let s := s.logs { severity := .contained, source := 9, kind := 34, detail := index, sub := 1 }
  if o = 3 ∨ o = 4 then s.sendEvent 5 (toLe 2 index ++ [1, BitVec.ofNat 8 o])
  else if o = 5 then s.attention 6
  else s

/-- The table of R415. -/
def hookOwner (index : Nat) : Hook := fun s p data =>
  let r := ownerReg index
  let o := s.reg r
  let w := s.writer p
  let x := ofLe data
  if x = w then
    if o = 0 ∨ o = w then .ok (s.setReg r w)
    else if w = 6 then .ok (((s.leaveResource index).setReg r 6).notifyTaken index o)
    else .error (conflictOwner o)
  else if x = 0 then
    if o = w ∨ w = 6 then .ok ((s.leaveResource index).setReg r 0) else .error (conflictOwner o)
  else .error outOfRange

/-- A lease has ended: the claims of code 2 are released, without notification (R416). -/
def State.releaseClaims (s : State) : State :=
  ownedIndexes.foldl (fun s i => if s.reg (ownerReg i) = 2 then (s.leaveResource i).setReg (ownerReg i) 0 else s) s

end Sys2Proof.Machine
end

