-- ==== Sys2Proof/Machine/Leases.lean ====
section
/-! DEFINITION. Shifts and leases (R28–R33, R478–R483): the start of a lease, pre-emption and close, the export, and Golzen reports. -/

namespace Sys2Proof.Machine

def State.setShift (s : State) (v : Shift) : State := { s with shift := v }

/-! ### The Golzen report (R482, R483) -/

/-- (C − D) in MiB: the DDR5 a scrub covers (R29). -/
def State.scrubMib (s : State) : Nat := (s.ddr.capacity - s.driveLen - s.workLen) / 2 ^ 20

/-- Signs and issues a report from its fields: REPORT_SEQ, TIME and SCRUBBED_MIB are those of the signing (R483); a retired device has no
identity and issues none (R474). -/
def State.issueReport (s : State) (fields : Nat) : State :=
  match s.identity with
  | none => s
  | some d =>
    let body := fields + (s.shift.nextReportSeq % 2 ^ 32) <<< 64 + s.timeNow <<< 512 + (s.scrubMib % 2 ^ 32) <<< 2176
    let head := (toLe 512 body).take 416
    let (r, v) := ecdsaSign d (Config.signatureNonce s.boot.signatureIx % (orderN - 1) + 1) (sha384 head)
    let s := { s with boot := { s.boot with signatureIx := s.boot.signatureIx + 1 } }
    let seq := s.shift.nextReportSeq % 2 ^ 32
    let s := (s.setBlob Blobs.leaseReport (head ++ beBytes 48 r ++ beBytes 48 v)).setReg Regs.leaseReportSeq seq
    let s := s.setShift { s.shift with nextReportSeq := s.shift.nextReportSeq + 1, nonceFresh := false }
    s.msix (s.reg Regs.leaseReportVector)

/-- The opening report (R29 step 4), whose TIME the closing report repeats. -/
def State.openingReport (s : State) : State :=
  let opened := s.timeNow
  let t := s.issueReport (s.reportFields false)
  t.setShift { t.shift with openTime := if s.identity.isSome then opened else t.shift.openTime }

/-- Whether the Gardener can sign a report. -/
def State.gardenerServes (s : State) : Bool := s.pdOn 45 && s.paths.serving

/-- The closing reports that a completed scrub owes, the oldest first: one for each lease since the last (R483). They are kept until the
Gardener's next start if R343 has left it off (R481). -/
def State.closingReports (s : State) : State :=
  let due := s.shift.owed ++ (if s.shift.reportDue then [s.reportFields true] else [])
  let t := s.setShift { s.shift with owed := [], reportDue := false }
  if s.gardenerServes then due.foldl State.issueReport t else t.setShift { t.shift with held := t.shift.held ++ due }

/-- Reports held while the Gardener was off are issued at its next start (R481). -/
def State.heldReports (s : State) : State :=
  if s.gardenerServes then s.shift.held.foldl State.issueReport (s.setShift { s.shift with held := [] }) else s

/-- The quarantine and the LL locks lift (R30 step 6); the locks stay while a later lease runs. -/
def State.liftQuarantine (s : State) : State :=
  let s := s.closingReports
  s.setShift { s.shift with quarantine := false, llLocked := s.shift.llLocked && s.leaseRunning, closeUnderRelease := false }

/-! ### The Keeper's side of a change of shift (R310, R341) -/

/-- The Keeper enters a state with SAFE_n low: the window empties and the reference is cleared (R312, R326); in the parked shift the
evaluations of R341 begin. -/
def State.keeperEnters (s : State) (ph : KpState) : State :=
  { s with keeper := { s.keeper with
      phase := ph, safeN := false, reference := none, lastEnd := none, epochs := [], window := [], good := 0, prev := []
      prevEnd := none, parkedAt := if ph = KpState.parked then s.now else s.keeper.parkedAt } }.attendKeeper

/-- WAITING if KP_ARMED is 1, otherwise DISARMED. -/
def State.keeperWaits (s : State) : State := s.keeperEnters (if s.flag Regs.kpArmed then .waiting else .disarmed)

/-- R29 step 2. -/
def State.keeperParks (s : State) : State :=
  match s.keeper.phase with
  | .disarmed | .waiting | .running => s.keeperEnters .parked
  | _ => s

/-- R30 step 4. -/
def State.keeperUnparks (s : State) : State := if s.keeper.phase = .parked then s.keeperWaits else s

/-! ### Scrubs -/

/-- Zeros over the DDR5 that a lease reaches: all but the drive region and the drive working area (R29, R30). -/
def State.scrubDdr (s : State) : State :=
  let spans := [(s.driveLo, s.driveLen), (s.workLo, s.workLen)].filter (fun e => decide (0 < e.2))
  let ends := (0 :: s.ddr.capacity :: spans.flatMap (fun e => [e.1, e.1 + e.2]))
  let cuts := sortBy id ends
  let parts := (cuts.zip (cuts.drop 1)).filter (fun p => decide (p.1 < p.2) && decide (p.2 ≤ s.ddr.capacity)
    && spans.all (fun e => !overlaps p.1 (p.2 - p.1) e.1 e.2))
  { s with mem := parts.foldl (fun m p => m.zero p.1 p.2) s.mem }

/-- Zeros over every scratchpad. -/
def State.scrubPads (s : State) : State := { s with mem := (List.range 32).foldl (fun m g => m.zero (spadBase g) (spadBase g + 0x300000)) s.mem }

/-- Every generator is set again from its SR_SEED (R156). -/
def State.reseed (s : State) : State := (List.range 32).foldl (fun s g => s.setReg (Regs.srState g) (s.reg (Regs.srSeed g))) s

/-! ### Starting a lease (R28, R29, R478) -/

/-- DEV_STATE (R436). -/
def State.devState (s : State) : Nat :=
  if !s.paths.serving then 0
  else match s.shift.phase with
    | .notServing => 0
    | .drive => if s.shift.closeUnderRelease then 5 else 1
    | .starting _ => 2
    | .lease => 3
    | .preempting _ => 4
    | .closing _ => 5
    | .gatehouse => 6

/-- The first power domain of check 7: a gaffer, Marver or DDR5 pair in retention, or a pair that is not on. -/
def State.leaseDomain (s : State) : Option Nat :=
  ((List.range 36).map (· + 2) ++ [42, 43]).find? (fun d => decide ((s.pd d).state = PdState.retention) || (decide (42 ≤ d) && !s.pdOn d))

/-- A class-0 work order is in flight (R28). -/
def State.classZero (s : State) : Bool := s.disp.items.any (fun i => i.readable && decide (i.cls = 0))

/-- The checks of R478 in their order. -/
def State.leaseRefused (s : State) : Option Reply :=
  if s.devState ≠ 1 then some (conflictCondition 12)
  else if s.lifecycle ≠ 1 then some (conflictObject Regs.lcState.key)
  else if s.drive ≠ .sealed then some (conflictCondition 1)
  else if s.classZero then some (conflictCondition 2)
  else if !bit (s.reg Regs.kpRulesValid) 1 then some (conflictObject Blobs.kpRulesParked)
  else if !s.shift.nonceFresh then some (conflictObject Blobs.leaseNonce)
  else match s.leaseDomain with
    | some d => some (conflictKind 10 d)
    | none => none

/-- Step 1 of R29. A lease whose scrub is still under way keeps its closing report as it stands now (R483). -/
def State.beginLease (s : State) : State :=
  let owed := s.shift.owed ++ (if s.shift.reportDue then [s.reportFields true] else [])
  (s.bump Regs.leases).setShift { s.shift with
    phase := .starting 1, endReason := 255, openTime := 0, budget := 0, ran := false, owed := owed, reportDue := false }

/-! ### Pre-emption (R30, R33, R479, R480) -/

/-- Every enabled ring is flushed with detail 3 (R201). -/
def State.flushLease (s : State) : State :=
  (List.range 64).foldl (fun s r => if s.flag (Regs.ringEnable r) then s.flushRing r 3 else s) s

/-- A pre-emption begins at step k of R30 with its END_REASON and B in ms; its times are measured from now. -/
def State.preemptAt (s : State) (k code b : Nat) : State :=
  (s.bump Regs.leasePreemptions).setShift { s.shift with phase := .preempting k, endReason := code, budget := b, since := s.now }

/-- A further trigger of a pre-emption: it is counted (R33), and of those detected in one cycle the lowest code is recorded, with the least
B (R480). -/
def State.extraTrigger (s : State) (code b : Nat) : State :=
  let s := s.bump Regs.leaseExtraTriggers
  if s.shift.since = s.now ∧ code < s.shift.endReason then
    s.setShift { s.shift with endReason := code, budget := min s.shift.budget b }
  else s

/-- A pre-emption trigger with its code and B: LEASE_EXPORT_BUDGET, or 0 where R310, R341 or R481 say so, which also holds in
steps 1 and 2 of a close (R479). None runs in the drive shift unless a sequence is still ending. -/
def State.trigger (s : State) (code b : Nat) : State :=
  match s.shift.phase with
  | .starting _ => s.preemptAt 2 code 0
  | .lease => (s.preemptAt 1 code b).flushLease
  | .closing k => if k ≤ 2 then (s.preemptAt 2 code b).flushLease else s.bump Regs.leaseExtraTriggers
  | .preempting _ => s.extraTrigger code b
  | .drive => if s.shift.quarantine then s.bump Regs.leaseExtraTriggers else s
  | .notServing | .gatehouse => s

/-- PREEMPTION_TRIGGER, code 0 being none of R480; the loss of the Gardener has B = 0 (R481). -/
def execPreemptionTrigger (code : Fin 7) (s : State) : Res :=
  if code.val = 0 then .next s else .next (s.trigger code.val (if code.val = 6 then 0 else s.reg Regs.leaseExportBudget))

/-- LEASE_CMD (R478–R480). A close during R29 steps 1–4 is a trigger whose END_REASON R480 does not list: a free value. -/
def hookLeaseCmd : Hook := fun s _ data =>
  let dev : Reply := conflictObject Regs.devState.key
  match ofLe data with
  | 1 => match s.leaseRefused with
    | some e => .error e
    | none => .ok s.beginLease
  | 2 => match s.shift.phase with
    | .lease => .ok (s.setShift { s.shift with phase := .closing 1, endReason := 0, since := s.now })
    | .starting _ =>
      let (k, t) := s.draw
      .ok (t.trigger (k % 256) 0)
    | _ => .error dev
  | _ => match s.devState with
    | 1 | 4 | 5 => .error dev
    | _ => .ok (s.trigger 1 (s.reg Regs.leaseExportBudget))

def execLeaseStart (p : Path) (s : State) : Res := .next (s.writeObject p 0x2B10 1 [1] hookLeaseCmd)
def execLeaseClose (p : Path) (s : State) : Res := .next (s.writeObject p 0x2B10 1 [2] hookLeaseCmd)

/-- LEASE_PREEMPT (R480). -/
def hookLeasePreempt : Hook := actHook (fun s _ =>
  match s.devState with
  | 1 | 4 | 5 => .error (conflictObject Regs.devState.key)
  | _ => .ok (s.trigger 4 (s.reg Regs.leaseExportBudget)))

/-- LEASE_PREEMPT_CMD: LEASE_CMD 3, or the safety-owned LEASE_PREEMPT. -/
def execLeasePreemptCmd (p : Path) (bySafetyObject : Bool) (s : State) : Res :=
  if bySafetyObject then .next (s.writeObject p 0x2B10 5 [1] hookLeasePreempt) else .next (s.writeObject p 0x2B10 1 [3] hookLeaseCmd)

/-- DRIVE_WORK_DRAINED (R29 step 2): the Keeper parks, and the Pergola tables, the Lodge buffers and the working area close. -/
def execDriveWorkDrained (s : State) : Res :=
  if s.shift.phase = .starting 1 ∧ s.disp.items = [] then
    let s := s.keeperParks.stopStreams
    .next (s.setShift { s.shift with phase := .starting 3, closed := true })
  else .next s

/-- LEASE_SCRUB_COMPLETE (R29 steps 3–5, R218): zeros, no queue contents, the opening report, the LL locks; the lease runs. The scrub ends
that of an older lease too. -/
def execLeaseScrubComplete (s : State) : Res :=
  if s.shift.phase = .starting 3 ∧ s.paths.serving = true then
    let s := (List.range 32).foldl (fun s k => s.emptyIq k) (s.scrubDdr.scrubPads.reseed.forgetKv kvScrubbed)
    let s := (if s.shift.quarantine then s.liftQuarantine else s).openingReport
    .next (s.setShift { s.shift with phase := .lease, llLocked := true, ran := true })
  else .next s

/-- The entries of ARB_EXPORT_LIST: SEQ and SLOT0 (R300). -/
def State.exportEntry (s : State) (n : Nat) : Option (Nat × Nat) :=
  let l := s.blob Blobs.arbExportList []
  if 8 * n + 8 ≤ l.length then
    let e := ofLe (slice l (8 * n) 8)
    some (bits e 11 0, bits e 63 32)
  else none

/-- LEASE_WORK_DRAINED (R30 step 2): the export phase, if B > 0 and there is an entry. -/
def execLeaseWorkDrained (s : State) : Res :=
  if (s.shift.phase = .preempting 1 ∨ s.shift.phase = .preempting 2) ∧ s.disp.items = [] then
    if 0 < s.shift.budget ∧ (s.exportEntry 0).isSome then
      let s := { s with kv := { s.kv with exportAt := 0 } }
      .next (s.setShift { s.shift with phase := .preempting 3 })
    else .next (s.setShift { s.shift with phase := .preempting 4 })
  else .next s

/-- Step 3 of R30 has run for 5 ms + B from the trigger. -/
def State.exportExpired (s : State) : Bool := decide (s.shift.since + 5000000 + s.shift.budget * 1000000 ≤ s.now)

/-- B has expired: the entry that runs is abandoned, and no further one starts (R30 step 3, R300). -/
def State.exportExpires (s : State) : State :=
  let s := if (s.exportEntry s.kv.exportAt).isSome then s.exportOutcome s.kv.exportAt false else s
  s.setShift { s.shift with phase := .preempting 4 }

/-- EXPORT_ENTRY_DONE (R300): the entry ends written or abandoned, and the KV manager takes the next. Step 3 of R30 runs from 5 ms
after the trigger; an entry that has not ended when B expires is abandoned. -/
def execExportEntryDone (s : State) : Res :=
  if s.shift.phase ≠ .preempting 3 ∨ s.now < s.shift.since + 5000000 then .next s
  else if s.exportExpired then .next s.exportExpires
  else match s.exportEntry s.kv.exportAt with
    | none => .next (s.setShift { s.shift with phase := .preempting 4 })
    | some (q, slot0) =>
      let (t, good) := s.exportSequence q slot0
      let t := t.exportOutcome s.kv.exportAt good
      let t := { t with kv := { t.kv with exportAt := s.kv.exportAt + 1 } }
      if (t.exportEntry t.kv.exportAt).isSome then .next t
      else .next (t.setShift { t.shift with phase := .preempting 4 })

/-- EXPORT_BUDGET_EXPIRY (R30 step 3, R300), 5 ms + B after the trigger. -/
def execExportBudgetExpiry (s : State) : Res :=
  if s.shift.phase = .preempting 3 ∧ s.exportExpired = true then .next s.exportExpires else .next s

/-- LEASE_CLOSE_DRAINED (R479 step 2): the accepted items have completed, or 100 ms have passed since the close and what
still runs is aborted with detail 3. -/
def execLeaseCloseDrained (s : State) : Res :=
  if s.shift.phase = .closing 1 ∧ (s.disp.items = [] ∨ s.shift.since + 100000000 ≤ s.now) then
    let s := s.flushLease
    .next (s.setShift { s.shift with phase := .closing 3 })
  else .next s

/-! ### Release and lift (R30 steps 4 and 6) -/

/-- R30 step 4 (R139, R247, R416): scratchpads and KV tables are scrubbed, DDR5 is quarantined, the working area opens,
the Keeper takes its drive rule set, and the drive rings take doorbells. -/
def State.release (s : State) : State :=
  let closing := match s.shift.phase with
    | .closing _ => true
    | _ => false
  let s := (s.scrubPads.reseed.forgetKv kvReleased).releaseClaims
  let s := (List.range 32).foldl (fun s k => s.emptyIq k) s
  let sh : Shift := { s.shift with phase := .drive, quarantine := true, closed := false, closeUnderRelease := closing, reportDue := true, ran := false }
  ((s.setShift sh).keeperUnparks.attendKeeper.pergolaRestart).restartStreams

/-- Whether R30 step 4 or R479 step 3 is due. -/
def State.releaseDue (s : State) : Bool :=
  match s.shift.phase with
  | .preempting 4 => true
  | .closing 3 => true
  | _ => false

/-- The controllers can scrub: every pair that has memory is up. -/
def State.ddrScrubbable (s : State) : Bool := (List.range 2).all (fun k => s.pdOn (42 + k) && s.ddrPair k != .untrained)

/-- QUARANTINE_LIFT (R30 step 6): the scrub is complete, the closing reports follow, and quarantine and locks lift. While the
Gardener restarts the step waits for it; where R343 leaves it off, the locks lift with the scrub alone (R481). -/
def execQuarantineLift (s : State) : Res :=
  if s.shift.quarantine && s.ddrScrubbable && (s.gardenerServes || s.keeper.gardenerOff) then .next s.scrubDdr.liftQuarantine
  else .next s

end Sys2Proof.Machine
end

