-- ==== Sys2Proof/Machine/Rules.lean ====
section
/-! DEFINITION. The Keeper's rule engine (R314, R316–R321): rule tables and their validity, FP64 arithmetic, the internal sources,
and the evaluation of one rule. -/

namespace Sys2Proof.Machine

/-! ### Tables (R316, R317, R321) -/

def ruleSlot (t : Bytes) (k : Nat) : Nat := ofLe (slice t (64 + 8 * k) 8)
def ruleCount (t : Bytes) : Nat := ofLe (slice t 6 2)
def ruleEntry (t : Bytes) (k : Nat) : Nat := ofLe (slice t (576 + 32 * k) 32)

/-- The formats a slot may have (R316). -/
def slotFormat (x : Nat) : Option Fmt :=
  if [0x01, 0x10, 0x11, 0x12, 0x20, 0x21, 0x22].contains (bits x 7 0) then fmtOf (bits x 7 0) else none

def slotDefined (t : Bytes) (k : Nat) : Bool := decide (k < 64) && (slotFormat (ruleSlot t k)).isSome
def slotRedundant (t : Bytes) (k : Nat) : Bool := bit (ruleSlot t k) 8
def slotRequired (t : Bytes) (k : Nat) : Bool := slotDefined t k && bit (ruleSlot t k) 9

/-- A slot or an internal source with, for a slot, a reduction that is not reserved. -/
def sourceOk (t : Bytes) (src red : Nat) : Bool :=
  if src < 64 then slotDefined t src && decide (red ≤ 5) else decide (128 ≤ src) && decide (src ≤ 133)

/-- R320 on one rule. -/
def ruleOk (t : Bytes) (r : Nat) : Bool :=
  let a := bits r 15 8
  let action := decide (bits r 5 4 ≠ 3)
  match bits r 3 0 with
  | 0 => true
  | 1 => action && slotDefined t a && slotRedundant t a
  | 2 => action && sourceOk t a 0
  | 3 => action && sourceOk t a (bits r 27 24)
  | 4 => action && slotDefined t a
  | 5 => action && sourceOk t a (bits r 27 24) && sourceOk t (bits r 23 16) (bits r 31 28)
  | 6 => action && slotDefined t a
  | _ => false

/-- Bytes that the runs of every defined slot hold. -/
def tableBytes (t : Bytes) : Nat :=
  (List.range 64).foldl (fun n k => match slotFormat (ruleSlot t k) with
    | some f => n + bits (ruleSlot t k) 63 32 * (f.bits / 8) * (if slotRedundant t k then 2 else 1)
    | none => n) 0

/-- Whether R321 accepts a table for the drive or the parked object. -/
def State.rulesOk (s : State) (parked : Bool) (t : Bytes) : Bool :=
  decide (ofLe (t.take 4) = 0x4B525554) && decide (ofLe (slice t 8 4) = crc32c (t.drop 64))
  && decide (ofLe (slice t 4 1) = ((s.blob Blobs.ifSelect (List.replicate 7 1)).getD 5 1).toNat)
  && decide (bit (ofLe (slice t 5 1)) 0 = parked) && decide (ruleCount t ≤ 4096) && decide (t.length = 576 + 32 * ruleCount t)
  && (List.range (ruleCount t)).all (fun k => ruleOk t (ruleEntry t k)) && decide (tableBytes t ≤ 2 ^ 23)

/-- A table as it is read: reserved fields of the header, the slots and the rules read 0 (R4, R316, R317). -/
def cleanRules (t : Bytes) : Bytes :=
  let h := ofLe (t.take 64)
  if t = [] then []
  else toLe 64 (bits h 40 0 + bits h 95 48 <<< 48)
    ++ (List.range 64).flatMap (fun k => toLe 8 (bits (ruleSlot t k) 9 0 + bits (ruleSlot t k) 63 32 <<< 32))
    ++ (List.range (ruleCount t)).flatMap (fun k => toLe 32 (bits (ruleEntry t k) 5 0 + bits (ruleEntry t k) 191 8 <<< 8))

/-- KP_RULES_DRIVE and KP_RULES_PARKED: the table is held as written, since its CRC covers the reserved bits too. -/
def hookRules (parked : Bool) : Hook := fun s _ data =>
  if s.rulesOk parked data then
    let s := s.setBlob (if parked then Blobs.kpRulesParked else Blobs.kpRulesDrive) data
    let s := s.setReg Regs.kpRulesValid (setBit (s.reg Regs.kpRulesValid) (if parked then 1 else 0) true)
    .ok (s.setReg (if parked then Regs.kpRulesParkedCrc else Regs.kpRulesDriveCrc) (ofLe (slice data 8 4)))
  else .error outOfRange

/-- RULES_WRITE. -/
def execRulesWrite (p : Path) (parked : Bool) (data : Bytes) (s : State) : Res :=
  .next (s.writeObject p 0x2810 (if parked then 2 else 1) data (hookRules parked))

/-! ### Pairing (R314) -/

/-- The unfenced gaffers in ascending order. -/
def State.unfenced (s : State) : List Nat := (List.range 32).filter (fun g => !s.fenced g)

/-- The partner of gaffer g. -/
def State.partner (s : State) (g : Nat) : Option Nat :=
  let u := s.unfenced
  let h := u.length / 2
  match u.findIdx? (fun x => decide (x = g)) with
  | some i => if i < h then u[i + h]? else if i - h < h then u[i - h]? else none
  | none => none

/-- KP_PAIRING. -/
def State.pairing (s : State) : Bytes := (List.range 32).map (fun g => BitVec.ofNat 8 ((s.partner g).getD 0xFF))

/-! ### Internal sources (R319) -/

/-- SPEED of a pose sample. -/
def sampleSpeed (x : Nat) : Nat := bits x 479 448

/-- The pose track's speed at a time in 2^-16 ns, interpolated as R106 interpolates the pose. -/
def State.poseSpeed (s : State) (t : Nat) : Num :=
  let blend (a b : Nat) : Num :=
    let num := (t : Int) - sampleTime a
    let den := (sampleTime b : Int) - sampleTime a
    let va := f32 (sampleSpeed a)
    let vb := f32 (sampleSpeed b)
    match fixOf va, fixOf vb with
    | some x, some y =>
      num64 (near64 (Config.poseWord 4 [sampleSpeed a, sampleSpeed b, num.toNat, den.toNat] 0) (ofFix (x + (y - x) * num / den))
        (slack64 (x.natAbs + y.natAbs)))
    | _, _ => va.add vb
  match s.poseBefore t 0 s.pergola.poseCount with
  | none => .nan
  | some k =>
    match s.poseSample k with
    | none => .nan
    | some a =>
      if sampleTime a = t then f32 (sampleSpeed a)
      else if k = 0 then
        match s.poseSample 1 with
        | some z => if t - sampleTime a ≤ s.reg Regs.poseExtrapLimit * 65536000 then blend z a else .nan
        | none => .nan
      else match s.poseSample (k - 1) with
        | some b => blend a b
        | none => .nan

/-- The newest item of a list of the integrator's that is no older than a limit in ms. -/
def State.freshWords (s : State) (l : List (Nat × List Nat)) (ms : Nat) : Option (List Nat) :=
  match l with
  | (t, ws) :: _ => if s.outTime >>> 24 ≤ t + ms * 65536000000 then some ws else none
  | [] => none

/-- The mean of the selected wheel signals; a NaN signal is left out, as in R104. -/
def State.wheelMean (s : State) : Num :=
  match s.freshWords (kget s.lodge.wheel (s.reg Regs.poseWheelStream) []) 50 with
  | none => .nan
  | some ws =>
    let vs := ((ws.zipIdx.filter (fun w => bit (s.reg Regs.poseWheelSignals) w.2)).map (fun w => f32 w.1)).filter (fun v => !v.isNan)
    match vs with
    | [] => .nan
    | v :: rest => (rest.foldl add64 v).over64 vs.length

/-- GZ of the newest inertial item. -/
def State.gyroZ (s : State) : Num :=
  match s.freshWords (kget s.lodge.gyro (s.reg Regs.poseImuStream) []) 5 with
  | some ws => f32 (ws.getD 2 0)
  | none => .nan

/-- DEV_TEMP_MAX in 0.125 °C: what the sensors last read (log 40). -/
def State.dieTemp (s : State) : Int := toSigned 16 (ofSigned 16 s.power.dieTemp)

/-- DEV_POWER: the last estimate in mW. -/
def State.powerNow (s : State) : Nat := s.power.samples.headD 0

/-- An internal source at EPOCH_END. -/
def State.internalSource (s : State) (code end_ : Nat) : Num :=
  match code with
  | 128 => s.poseSpeed end_
  | 129 => s.wheelMean
  | 130 => s.gyroZ
  | 131 => .fin (decide (s.dieTemp < 0)) s.dieTemp.natAbs (-3)
  | 132 => ratio64 false s.powerNow 1000 0
  | _ => .fin false 1 (uncCode (s.uncertainty s.sundial.active))

/-! ### Evaluation (R318, R319) -/

/-- A declared run as the engine has it: whether it can be used, its elements, its gaffer set and its completion time. -/
structure RunRead where
  good : Bool
  found : Bool := true
  elems : List Num := []
  gaffers : List Nat := []
  time : Nat := 0
  deriving DecidableEq, Repr

/-- What a rule sees of a slot: run A, and run B for a redundant slot. -/
structure SlotRead where
  slot : Nat
  a : RunRead
  b : Option RunRead
  deriving DecidableEq, Repr

/-- Whether no run of the slot is RUN_STATUS-failed. -/
def SlotRead.good (x : SlotRead) : Bool := x.a.good && (match x.b with
  | some r => r.good
  | none => true)

/-- One reduction (R319). -/
def reduce64 (red p3 : Nat) (vs : List Num) : Num :=
  match vs with
  | [] => .nan
  | v :: rest =>
    match red with
    | 0 => rest.foldl add64 v
    | 1 => (rest.foldl add64 v).over64 vs.length
    | 2 => if vs.any Num.isNan then .nan else rest.foldl (fun m x => if m.lt x then x else m) v
    | 3 => if vs.any Num.isNan then .nan else rest.foldl (fun m x => if x.lt m then x else m) v
    | 4 => .ofInt (vs.filter (fun x => x.same (f32 p3))).length
    | _ => .ofInt (vs.filter (fun x => !x.isNan && !(f32 p3).isNan && !x.lt (f32 p3))).length

/-- What a rule reads of a source: its reduced value, or the source itself. -/
def State.reduced (s : State) (reads : List SlotRead) (src red p3 end_ : Nat) : Num :=
  if src < 64 then
    match reads.find? (fun x => decide (x.slot = src)) with
    | some x => reduce64 red p3 x.a.elems
    | none => .nan
  else s.internalSource src end_

/-- Whether a source can be evaluated: an internal one always, a slot when it was declared and not failed. -/
def sourceUsable (reads : List SlotRead) (src : Nat) : Bool :=
  decide (64 ≤ src) || reads.any (fun x => decide (x.slot = src) && x.good)

/-- Whether one pair of elements fails COMPARE. -/
def compareFails (p0 p1 a b : Num) : Bool :=
  let larger := if a.abs.lt b.abs then b.abs else a.abs
  a.isNan || b.isNan || (add64 p0 (mul64 p1 larger)).lt (add64 a b.neg).abs

/-- Whether an element fails BOUND. -/
def boundFails (p0 p1 x : Num) : Bool := x.isNan || x.lt p0 || p1.lt x

/-- The key under which a RATE rule's r is kept: source, reduction and P3, as far as the rule uses them. -/
def rateKey (r : Nat) : Nat :=
  let src := bits r 15 8
  if src < 64 then src + 256 * bits r 27 24 + 4096 * bits r 191 160 else src

/-- What a rule gives: whether it fails (none: it is not evaluated or skipped), and the r of a RATE rule. -/
structure Outcome where
  fails : Option Bool
  rate : Option (Nat × Num) := none
  deriving DecidableEq, Repr

/-- Evaluates a rule over the slots read; `prev` and `prevEnd` are what the last verdict left for RATE. -/
def State.evalRule (s : State) (reads : List SlotRead) (end_ : Nat) (r : Nat) : Outcome :=
  let src := bits r 15 8
  let p (k : Nat) : Num := f32 (bits r (95 + 32 * k) (64 + 32 * k))
  let p3 := bits r 191 160
  let allow := bits r 63 32
  let slotA := reads.find? (fun x => decide (x.slot = src))
  match bits r 3 0 with
  | 1 => match slotA with
    | some ⟨_, a, some b⟩ =>
      if a.good && b.good then
        ⟨some (decide (allow < ((a.elems.zip b.elems).filter (fun e => compareFails (p 0) (p 1) e.1 e.2)).length)), none⟩
      else ⟨none, none⟩
    | _ => ⟨none, none⟩
  | 2 =>
    if !sourceUsable reads src then ⟨none, none⟩
    else
      let runs : List (List Num) := if src < 64 then (match slotA with
          | some x => x.a.elems :: (match x.b with
            | some b => [b.elems]
            | none => [])
          | none => []) else [[s.internalSource src end_]]
      ⟨some (runs.any (fun vs => decide (allow < (vs.filter (boundFails (p 0) (p 1))).length))), none⟩
  | 3 =>
    if !sourceUsable reads src then ⟨none, none⟩
    else
      let v := s.reduced reads src (bits r 27 24) p3 end_
      let keep := some (rateKey r, v)
      match kfind s.keeper.prev (rateKey r), s.keeper.prevEnd with
        | some old, some e0 =>
          if old.isNan then ⟨none, keep⟩
          else if v.isNan then ⟨some true, keep⟩
          else
            let dt := ratio64 (decide (end_ < e0)) (if end_ < e0 then e0 - end_ else end_ - e0) (65536 * 1000000000) 0
            ⟨some ((mul64 (p 0) dt).lt (add64 v old.neg).abs), keep⟩
        | _, _ => ⟨none, keep⟩
  | 4 => match slotA with
    | some x =>
      if x.good then
        let late := max x.a.time (match x.b with
          | some b => b.time
          | none => 0)
        let us := ratio64 (decide (late < end_)) (if late < end_ then end_ - late else late - end_) 65536000 0
        ⟨some ((p 0).lt us), none⟩
      else ⟨none, none⟩
    | none => ⟨none, none⟩
  | 5 =>
    let srcB := bits r 23 16
    if !(sourceUsable reads src && sourceUsable reads srcB) then ⟨none, none⟩
    else
      let v := s.reduced reads src (bits r 27 24) p3 end_
      let q := s.reduced reads srcB (bits r 31 28) p3 end_
      let d := add64 (add64 v (mul64 (p 0) q).neg) (p 1).neg
      ⟨some (v.isNan || q.isNan || (p 2).lt d.abs), none⟩
  | 6 => ⟨some slotA.isNone, none⟩
  | _ => ⟨none, none⟩

end Sys2Proof.Machine
end

