-- ==== Sys2Proof/Machine/Keeper.lean ====
section
/-! DEFINITION. The Keeper (R305–R327, R335–R344): the fault latch, the safe state and its restarts, declarations and verdicts,
the watch over the Gardener. -/

namespace Sys2Proof.Machine

def State.setKeeper (s : State) (k : Keeper) : State := { s with keeper := k }

/-! ### Publishing (R324–R326, R426) -/

/-- KP_STATE's code (R352). -/
def KpState.code : KpState → Nat
  | .starting => 0
  | .disarmed => 1
  | .waiting => 2
  | .running => 3
  | .safe => 4
  | .latched => 5
  | .parked => 6

/-- A verdict record (R324). -/
def State.verdictRecord (s : State) (epoch verdict first reasons window : Nat) : Bytes :=
  toLe 32 (epoch % 2 ^ 32 + verdict <<< 32 + first <<< 48 + reasons <<< 64 + (window % 256) <<< 96 + s.timeNow <<< 128)

/-- The host copy of a verdict (R325). -/
def State.hostVerdict (s : State) (epoch : Nat) (rec : Bytes) : State :=
  let base := s.reg Regs.kpVerdictBase
  if base = 0 then s
  else
    let a := base + 32 * (epoch % max 1 (s.reg Regs.kpVerdictSlots))
    match s.writeMem .keeper a rec with
    | (s, .ok) => s.msix (s.reg Regs.kpVerdictVector)
    | (s, ans) => (s.notPresent none a ans).msix (s.reg Regs.kpVerdictVector)

/-- Publishes a verdict: the frame, KP_LAST_VERDICT and the host copy (R325, R426). -/
def State.publish (s : State) (epoch : Nat) (rec : Bytes) : State :=
  let pins := (if s.keeper.safeN then 1 else 0) + (if s.keeper.faultN then 2 else 0)
  let s := (s.observes 64).sendSafety 4 (rec ++ toLe 2 (s.keeper.phase.code + 256 * pins))
  (s.setBlob Blobs.kpLastVerdict rec).hostVerdict epoch rec

/-! ### The fault latch and the safe state (R308, R335–R340) -/

/-- The latch sets: SAFE_n goes low, FAULT_n too for codes 1–5, and the code is recorded. -/
def State.latchSets (s : State) (code : Nat) : State :=
  let s := (s.setReg Regs.kpLatchCause code).bumpIf (decide (code = 1)) Regs.kpLockstepMismatches
  s.setKeeper { s.keeper with safeN := false, faultN := s.keeper.faultN && !decide (code ≤ 5) }

/-- Every ring is flushed with detail 1 and the dispatchers refuse doorbells (R335, R336 step 3). -/
def State.flushEvery (s : State) : State :=
  let s := (List.range 64).foldl (fun s r => if s.flag (Regs.ringEnable r) then s.flushRing r 1 else s) s
  { s with disp := { s.disp with shut := true } }

/-- Gaffer g is cycled, and its objects take their defaults. A fenced one stays as it is; one in a fence lift stays fenced with its
present cause, and goes off (R185, R336). -/
def State.cycleGaffer (s : State) (g : Nat) : State :=
  if s.fenced g then
    if (s.gaffer g).lift = .testing ∧ (s.gaffer g).drainDue = false then
      (s.setGaffer g { s.gaffer g with lift := .none }).forces (gafferPd g) .off none
    else s.setGaffer g { s.gaffer g with lift := .none }
  else if (s.pd (gafferPd g)).state = .off then s
  else
    let s := (s.dropObjects (ofGaffer g)).setGaffer g { s.gaffer g with levelChanging := false, raiseTo := none }
    (s.setReg (Regs.gafferLevelNow g) (s.levelGoal g)).cyclesPd (gafferPd g)

/-- R336 step 4: chairs split, and the gaffers, Marvers, Pergola halves and KV manager are cycled. -/
def State.cycleUnits (s : State) : State :=
  let s := { (s.setReg Regs.chairFormed 0) with disp := { s.disp with chairsChanging := [], vectors := [] } }
  let s := (List.range 32).foldl State.cycleGaffer s
  let s := (List.range 4).foldl (fun s m => if (s.pd (34 + m)).state = .off then s else (s.dropObjects (ofMarver m)).cyclesPd (34 + m)) s
  let s := if (s.pd 38).state = .off ∧ (s.pd 39).state = .off then s else ((s.dropObjects ofPergola).cyclesPd 38).cyclesPd 39
  let s := if s.pdOn 41 then s.forgetKv kvObject else s
  (s.setKeeper { s.keeper with golden := s.keeper.golden.map (fun e => (e.1, e.2.ended)) }).setVcore

/-- The gaffers whose start test a restart awaits (R336 step 5): unfenced, and on once they have been cycled. -/
def State.testDue (s : State) : List Nat :=
  (List.range 32).filter (fun g => !s.fenced g && decide ((s.pd (gafferPd g)).state = .on))

/-- A warm restart from step 4 on; a latch input with FAULT_n low restarts the Keeper first. -/
def State.warmRestart (s : State) : State :=
  let due := s.testDue
  let s := s.cycleUnits
  s.setKeeper { s.keeper with restart := .warm, testing := due, startDue := s.keeper.startDue || !s.keeper.faultN }

/-- A cold restart from step 2 on (R337, R408). -/
def State.coldRestart (s : State) : State :=
  let damaged := s.reg Regs.ddrDriveDamaged
  let s := (s.resetFor .coldRestart).beginStart
  if s.boot.coldRestart then
    let s := { (s.setReg Regs.ddrDriveDamaged damaged) with disp := { s.disp with shut := true } }
    s.setKeeper { s.keeper with restart := .cold, testing := [], damage := false, startDue := s.keeper.startDue || !s.keeper.faultN }
  else s

/-- The Keeper becomes LATCHED (R339, R344). After R339's limit the accelerator side is held in reset. -/
def State.keeperLatches (s : State) : State :=
  let s := s.keeperEnters .latched
  (s.setKeeper { s.keeper with restart := .none, testing := [], startDue := false }).sendEvent 4 (toLe 1 (s.reg Regs.kpLatchCause))

/-- An entry to the safe state (R335–R337, R339). -/
def State.safeEntry (s : State) (code : Nat) (cold : Bool) : State :=
  let s := (s.latchSets code).bump Regs.kpSafeEntries
  let recent := s.now :: s.keeper.entries.filter (fun t => decide (s.now ≤ t + s.reg Regs.kpRestartWindow * 1000000000))
  let s := (s.setKeeper { s.keeper with phase := .safe, entries := recent, window := [], good := 0 }).attendKeeper
  let epoch := s.keeper.reference.getD 0
  let s := s.publish epoch (s.verdictRecord epoch 2 0xFFFF (2 ^ 10) 0)
  let s := (s.sendEvent 3 (toLe 1 code)).flushEvery
  if s.reg Regs.kpRestartLimit < recent.length then
    let s := s.cycleUnits.keeperLatches
    s.setKeeper { s.keeper with heldReset := true }
  else if cold then s.coldRestart else s.warmRestart

/-- A trigger of R335 in each state of R310, and R340 and R341; the latch records the code of every setting (R308). -/
def State.safeTrigger (s : State) (code : Nat) (cold : Bool) : State :=
  let input := decide (code ≤ 5)
  match s.keeper.phase with
  | .waiting | .running => s.safeEntry code cold
  | .disarmed => if input then s.safeEntry code cold else s
  | .safe =>
    let s := (s.latchSets code).bump Regs.kpSafeTriggers
    let s := if input then s.setKeeper { s.keeper with startDue := true } else s
    if cold ∧ s.keeper.restart = .warm then s.coldRestart else s
  | .parked =>
    if input then
      let s := (s.latchSets code).trigger 5 0
      (s.keeperEnters .starting).setKeeper { (s.keeperEnters .starting).keeper with startDue := true }
    else s
  | .starting | .latched => if input then s.latchSets code else s

/-- LOCKSTEP_MISMATCH, KEEPER_CLOCK_LOSS and KEEPER_WATCHDOG (R308). -/
def execLockstepMismatch (s : State) : Res := if s.pdOn 1 then .next (s.safeTrigger 1 false) else .next s
def execKeeperClockLoss (s : State) : Res := if s.pdOn 1 then .next (s.safeTrigger 3 false) else .next s
def execKeeperWatchdog (s : State) : Res := if s.pdOn 1 then .next (s.safeTrigger 4 false) else .next s

/-- KP_FORCE_SAFE. -/
def hookForceSafe : Hook := actHook (fun s _ => .ok (s.safeTrigger 6 false))

def execKpForceSafe (p : Path) (v : Nat) (s : State) : Res := .next (s.writeObject p 0x2800 0x0A (toLe 1 v) hookForceSafe)

/-- The Keeper's memory has given an uncorrectable word (R308 code 2, R371). -/
def State.keeperDamaged (s : State) (bad : Option Nat) : State := if bad.isSome then s.safeTrigger 2 false else s

/-- The Keeper reads its memory, with its code (R307, R359). -/
def State.keeperReads (s : State) : State :=
  let (s, bad) := s.touchArray .keeperMem
  s.keeperDamaged bad

/-- The drive region was found damaged: the Keeper acts at once outside the parked shift (R335, R341, R366), and keeps the damage for
later while it is PARKED, starts or is LATCHED. -/
def State.takeDamage (s : State) : State :=
  let later := match s.keeper.phase with
    | .parked | .starting | .latched => true
    | _ => false
  if s.keeper.damage && s.pdOn 1 && !later then (s.setKeeper { s.keeper with damage := false }).safeTrigger 6 true else s

/-- KP_SAFE_CLEAR (R339): LATCHED ends, the accelerator side leaves reset and a warm restart begins. -/
def hookSafeClear : Hook := actHook (fun s _ =>
  if s.keeper.phase = .latched then
    let s := (s.setKeeper { s.keeper with phase := .safe, heldReset := false }).flushEvery
    .ok s.warmRestart.takeDamage
  else .ok s)

def execKpSafeClear (p : Path) (v : Nat) (s : State) : Res := .next (s.writeObject p 0x2800 0x0B (toLe 1 v) hookSafeClear)

/-- Whether a restart has reached its last step: the Keeper runs, the power domains are cycled or brought back, every start test has
ended, and after a cold restart the start is ready and DDR5 is trained (R336 steps 4 to 6, R337 steps 3 and 4). -/
def State.restartDone (s : State) : Bool :=
  let k := s.keeper
  decide (k.phase = .safe) && decide (k.restart ≠ .none) && !k.startDue && k.testing.all (fun g => s.fenced g || !s.pdOn (gafferPd g))
    && (List.range 39).all (fun i => (s.forcedChange (i + 2)).isNone)
    && (decide (k.restart ≠ .cold) || (decide (s.boot.phase = .ready) && decide (s.reg Regs.ddrTrainState ≠ 0)))

/-- RESTART_READY (R336 step 6, R337 step 4). -/
def execRestartReady (s : State) : Res :=
  let k := s.keeper
  if s.restartDone then
    let s := (if k.restart = .cold then s.setReg Regs.ddrDriveDamaged 0 else s).keeperWaits
    let s := { (s.setKeeper { s.keeper with restart := .none }) with disp := { s.disp with shut := false } }
    .next ((s.msix (s.reg Regs.kpVerdictVector)).sendEvent 2 (toLe 1 (s.reg Regs.kpLatchCause)))
  else .next s

/-- The reads of the keep banks in a Keeper start: the state after, and whether one met an uncorrectable word (R344, R371). -/
def State.readKeepBank (s : State) : State × Bool :=
  let keys := (s.mem.flaws.map (·.1)).filter (fun k => decide (keepBankKey ≤ k) && decide (k < 2 * keepBankKey))
  keys.foldl (fun (acc : State × Bool) k =>
    let (t, bad) := acc.1.meetArray .keepBank (k - keepBankKey)
    (t, acc.2 || bad.isSome)) (s, false)

/-- Whether a kept rule table, if there is one, has the CRC recorded for it. -/
def State.tableKept (s : State) (k blob : Nat) (crc : Reg) : Bool :=
  !bit (s.reg Regs.kpRulesValid) k || decide (crc32c ((s.blob blob []).drop 64) = s.reg crc)

/-- Step 1 of R344: the kept firmware has its digest and both kept rule tables their CRCs (R307). -/
def State.keptSound (s : State) : Bool :=
  decide (sha384 s.boot.keeperImage = s.boot.keeperDigest)
    && s.tableKept 0 Blobs.kpRulesDrive Regs.kpRulesDriveCrc && s.tableKept 1 Blobs.kpRulesParked Regs.kpRulesParkedCrc

/-- The Keeper's start has passed: FAULT_n goes high, and the state that R310 gives is entered. -/
def State.keeperStarts (s : State) : State :=
  let s := { (s.setKeeper { s.keeper with faultN := true, startDue := false, beatAt := s.now }) with
    paths := { s.paths with expectCounter := none } }
  if s.keeper.phase ≠ .starting then s
  else match s.shift.phase with
    | .starting _ | .lease | .preempting _ | .closing _ => s.keeperEnters .parked
    | _ => s.keeperWaits

/-- KEEPER_START_COMPLETE (R307, R310, R344): `passed` is what steps 2 and 3 of R344, the tests of the latch and the checkers, found.
A damaged drive region that was found meanwhile is acted on then. -/
def execKeeperStartComplete (passed : Bool) (s : State) : Res :=
  if !(s.keeper.startDue && s.pdOn 1) then .next s
  else
    let (s, lost) := s.readKeepBank
    if passed && !lost && s.keptSound then .next s.keeperStarts.takeDamage
    else .next (s.setKeeper { s.keeper with faultN := false }).keeperLatches

/-- HEARTBEAT_TOGGLE (R309): every KP_HEARTBEAT_HALF while the firmware runs and FAULT_n is high. -/
def execHeartbeatToggle (s : State) : Res :=
  if s.pdOn 1 && s.keeper.faultN && !s.keeper.startDue && decide (s.keeper.beatAt + s.reg Regs.kpHeartbeatHalf * 1000000 ≤ s.now) then
    .next (s.setKeeper { s.keeper with heartbeat := !s.keeper.heartbeat, beatAt := s.now })
  else .next s

/-- DRIVE_SHIFT_RELEASE (R30 step 4, R479 step 3): damage of the drive region met in the parked shift makes the Keeper start a cold restart
in place of the release, whatever KP_ARMED is (R366). -/
def execDriveShiftRelease (s : State) : Res :=
  if !s.releaseDue then .next s
  else if s.keeper.damage && s.pdOn 1 && s.keeper.phase == .parked then
    .next ((s.setKeeper { s.keeper with damage := false }).safeEntry 6 true)
  else .next s.release.takeDamage

/-! ### Arming (R310) -/

def hookKpArmed : Hook := fun s _ data =>
  if ofLe data = 0 then
    let s := s.setReg Regs.kpArmed 0
    match s.keeper.phase with
    | .waiting | .running => .ok (s.keeperEnters .disarmed)
    | _ => .ok s
  else if !bit (s.reg Regs.kpRulesValid) 0 then .error (conflictCondition 11)
  else if s.lifecycle = 2 then .error (conflictObject Regs.lcState.key)
  else
    let s := s.setReg Regs.kpArmed 1
    if s.keeper.phase = .disarmed then .ok (s.keeperEnters .waiting) else .ok s

def execKpArmedWrite (p : Path) (v : Nat) (s : State) : Res := .next (s.writeObject p 0x2800 1 (toLe 1 v) hookKpArmed)

/-! ### Declarations (R311–R313) -/

/-- A run's journal entry. -/
def State.journalOf (s : State) (ring seq : Nat) : Option JournalEntry :=
  s.disp.journal.reverse.find? (fun e => decide (e.ring = ring ∧ e.seq = seq))

/-- Whether a run tensor lies where R312 code 5 lets it. -/
def runPlace (t : Tensor) : Bool :=
  match regionOf t.base with
  | .ddr | .spad _ | .chair _ | .pergola => true
  | _ => false

/-- FORMAT and element count agree with the slot (code 4). -/
def runFits (entry : Nat) (t : Tensor) : Bool := decide (t.fmt.code = bits entry 7 0) && decide (t.count = bits entry 63 32)

/-- The table an epoch is judged by: its own once it is open, else the one in force. -/
def State.tableFor (s : State) (number : Nat) : Bytes :=
  match s.keeper.epochs.find? (fun e => decide (e.number = number)) with
  | some e => e.table
  | none => s.blob Blobs.kpRulesDrive []

/-- The codes of R312 in their order; none where the declaration may register. -/
def State.declareCode (s : State) (i : Item) (ts : List Tensor) : Option Nat :=
  let number := i.field 63 32
  let slot := i.field 69 64
  let table := s.tableFor number
  let entry := ruleSlot table slot
  let open_ := s.keeper.epochs.find? (fun e => decide (e.number = number))
  let declared := match open_ with
    | some e => e.slots.any (fun d => decide (d.slot = slot))
    | none => false
  let ahead := match s.keeper.reference with
    | some r => decide (1 < (number + 2 ^ 32 - r) % 2 ^ 32)
    | none => false
  if !((s.keeper.phase == .waiting || s.keeper.phase == .running) && bit (s.reg Regs.kpRulesValid) 0) then some 1
  else if !slotDefined table slot || declared then some 2
  else if ahead then some 3
  else if !ts.all (runFits entry) || slotRedundant table slot != decide (i.field 271 232 ≠ 0) then some 4
  else if !ts.all runPlace then some 5
  else if i.cls ≠ 0 then some 6
  else match open_ with
    | some e => if e.end_ ≠ t128Time (i.field 399 272) then some 7 else none
    | none => none

/-- Registers a declaration, opening its epoch if it is the first (R312). -/
def State.declareRun (s : State) (i : Item) : State :=
  let number := i.field 63 32
  let raw (a : Nat) : Nat := ofLe (s.peek a 64)
  let b := i.field 271 232
  let d : Declared := ⟨i.field 69 64, i.field 101 96, i.field 159 128, raw (i.field 231 192), i.field 107 102, i.field 191 160,
    if b = 0 then none else some (raw b)⟩
  let k := s.keeper
  let epochs := if k.epochs.any (fun e => decide (e.number = number)) then
      k.epochs.map (fun e => if e.number = number then { e with slots := e.slots ++ [d] } else e)
    else k.epochs ++ [⟨number, t128Time (i.field 399 272), s.tableFor number, [d]⟩]
  s.setKeeper { k with epochs := epochs, reference := some (k.reference.getD number) }

/-- What KP_DECLARE checks before it starts (R200, R203, R312): an EPOCH_END whose NS is no number of nanoseconds is refused (R45). -/
def State.checkDeclare (s : State) (i : Item) : Checked (List Tensor) :=
  let b := i.field 271 232
  if 999999999 < i.field 365 336 then (s, .error (finBad 6 0)) else
  let wants : List Want := ⟨1, i.field 231 192, false⟩ :: (if b = 0 then [] else [⟨2, b, false⟩])
  s.descriptors i .keeper wants

/-- KP_DECLARE: a lease refuses it ahead of every other cause (R312). -/
def execKpDeclare (s : State) : Res :=
  match s.ready ⟨.keeper, .keeper⟩ 0x50 with
  | none => .next s
  | some i =>
    if s.leaseRunning then .next (s.setFinish i (finConflict 3 0))
    else match s.checkDeclare i with
      | (s, .error f) => .next (s.setFinish i f)
      | (s, .ok ts) =>
        match s.declareCode i ts with
        | some c => .next (s.setFinish i (finBad 11 c))
        | none => .next ((s.declareRun i).setFinish i (finDone 0))

/-! ### Verdicts (R313, R315, R322–R327) -/

/-- The gaffer set of a target code (R313). -/
def gafferSet (code : Nat) : List Nat := if code < 32 then [code] else if code < 48 then [2 * (code - 32), 2 * (code - 32) + 1] else []

/-- A gaffer without a passing set in the last 3,600 ms (R332). -/
def State.untested (s : State) (g : Nat) : Bool :=
  match (kget s.keeper.golden g {}).lastPass with
  | none => true
  | some t => decide (t + 3600000000 < s.now)

/-- Reads a run's tensor (R313): a range that gives no answer or poison spoils it. -/
def State.readRun (s : State) (t : Tensor) : State × Bool :=
  t.spans.foldl (fun (acc : State × Bool) p =>
    match acc.1.answer .keeper p.1.toNat p.2 false with
    | .ok =>
      match acc.1.readMem .keeper none p.1.toNat p.2 with
      | (s, .bytes _ [] _) => (s, acc.2)
      | (s, _) => (s, false)
    | ans => (acc.1.notPresent none p.1.toNat ans, false)) (s, true)

/-- One run at evaluation; an entry of the journal that its code cannot give is as good as none (R359). -/
def State.runRead (s : State) (ring seq desc : Nat) : State × RunRead :=
  let (s, bad) := s.touchArray .journal
  match s.journalOf ring seq, bad with
  | none, _ => (s, { good := false, found := false })
  | some _, some _ => (s, { good := false, found := false })
  | some e, none =>
    if 1 < e.status then (s, { good := false, gaffers := gafferSet e.target, time := e.time })
    else match parseTensor desc with
      | none => (s, { good := false, gaffers := gafferSet e.target, time := e.time })
      | some t =>
        let (s, ok) := s.readRun t
        (s, { good := ok, elems := if ok then t.indices.map (fun x => decodeNum t.fmt (s.elem t x)) else [],
              gaffers := gafferSet e.target, time := e.time })

/-- Every declared run of an epoch, slots in ascending order. -/
def State.readSlots (s : State) (e : Epoch) : State × List SlotRead :=
  (sortBy Declared.slot e.slots).foldl (fun (acc : State × List SlotRead) d =>
    let (s, a) := acc.1.runRead d.ringA d.seqA d.runA
    match d.runB with
    | none => (s, acc.2 ++ [⟨d.slot, a, none⟩])
    | some x =>
      let (s, b) := s.runRead d.ringB d.seqB x
      (s, acc.2 ++ [⟨d.slot, a, some b⟩])) (s, [])

/-- Whether every declared run is in the journal, and every REQUIRED slot declared (R322). -/
def State.runsIn (s : State) (e : Epoch) : Bool :=
  e.slots.all (fun d => (s.journalOf d.ringA d.seqA).isSome && (d.runB.isNone || (s.journalOf d.ringB d.seqB).isSome))
def requiredIn (e : Epoch) : Bool :=
  (List.range 64).all (fun k => !slotRequired e.table k || e.slots.any (fun d => decide (d.slot = k)))

/-- Reasons DIVERSITY and UNTESTED of a redundant slot whose items are known (R315). -/
def State.diversity (s : State) (x : SlotRead) : Nat :=
  match x.b with
  | none => 0
  | some b =>
    if !(x.a.found && b.found) then 0
    else
      let paired := decide (x.a.gaffers ≠ []) && decide (x.a.gaffers.length = b.gaffers.length)
        && b.gaffers.all (fun g => x.a.gaffers.any (fun h => decide (s.partner h = some g)))
      (if paired then 0 else 2 ^ 7) + (if (x.a.gaffers ++ b.gaffers).any s.untested then 2 ^ 8 else 0)

/-- What evaluating an epoch gives: reasons, the first failing rule with ACTION 0 or 2, whether one with ACTION 2 failed,
the r of RATE rules, and the gaffers whose COMPARE failed. -/
structure Judged where
  s : State
  reasons : Nat := 0
  first : Nat := 0xFFFF
  safe : Bool := false
  rates : KMap Num := []
  suspects : List Nat := []

/-- One rule of the drive table. -/
def Judged.rule (j : Judged) (reads : List SlotRead) (end_ : Nat) (table : Bytes) (k : Nat) : Judged :=
  let r := ruleEntry table k
  let o := j.s.evalRule reads end_ r
  let j := match o.rate with
    | some (key, v) => { j with rates := kset j.rates key v }
    | none => j
  if o.fails ≠ some true then j
  else
    let kind := bits r 3 0
    let action := bits r 5 4
    let j := { j with reasons := j.reasons ||| 2 ^ (kind - 1) }
    let sus := if kind = 1 then (match reads.find? (fun x => decide (x.slot = bits r 15 8)) with
        | some x => x.a.gaffers ++ (match x.b with
          | some b => b.gaffers
          | none => [])
        | none => []) else []
    let j := { j with suspects := j.suspects ++ sus }
    if action = 1 then { j with s := (j.s.bump Regs.kpRuleLogs).logs { severity := .contained, source := 9, kind := 39, detail := k } }
    else { j with first := min j.first k, safe := j.safe || decide (action = 2) }

/-- Evaluates an epoch at completion or at its deadline. -/
def State.judgeEpoch (s : State) (e : Epoch) : Judged :=
  let (s, reads) := s.readSlots e
  let missing := if requiredIn e then 0 else 2 ^ 6
  let status := if reads.any (fun x => !x.good) then 2 ^ 9 else 0
  let div := reads.foldl (fun n x => n ||| s.diversity x) 0
  (List.range (ruleCount e.table)).foldl (fun j k => j.rule reads e.end_ e.table k) { s := s, reasons := missing + status + div }

/-- The items that execute on gaffer g or its chair: a forced set waits for them to stop or complete (R331). -/
def State.executingAt (s : State) (g : Nat) : List (Nat × Nat) :=
  (s.disp.items.filter (fun i => i.phase == .executing && (match i.lane with
    | some l => decide (targetCodeOf l.target = g ∨ targetCodeOf l.target = 32 + g / 2)
    | none => false))).map (fun i => (i.ring, i.seq))

/-- Forces the golden set of a gaffer (R327, R331). -/
def State.forceGolden (s : State) (g : Nat) : State :=
  if s.fenced g || !s.pdOn (gafferPd g) || s.keeper.heldReset then s
  else
    let v : Golden := { kget s.keeper.golden g {} with
      since := some s.now, forced := true, running := true, deferred := 0, behind := s.executingAt g }
    (s.setKeeper { s.keeper with golden := kset s.keeper.golden g v }).bump Regs.llForced

/-- The Keeper enters RUNNING (R338): the first epoch after it has no r′ (R318). -/
def State.keeperReleases (s : State) : State :=
  s.setKeeper { s.keeper with phase := .running, safeN := true, window := [], good := 0, prev := [], prevEnd := none }

/-- The INVALID verdicts among the last n of R326's window, which keeps as many as n can ever be. -/
def State.windowCount (s : State) (window : List Bool) : Nat := ((window.take (s.reg Regs.kpWindowN)).filter id).length

/-- Gives the verdict of an epoch (R322–R326): `j` what its evaluation found. A MISSING verdict leaves no r (R318). -/
def State.giveVerdict (s : State) (number end_ : Nat) (j : Judged) : State :=
  let k := s.keeper
  let s := j.s
  if k.phase = .safe then
    let s := s.publish number (s.verdictRecord number 2 0xFFFF (2 ^ 10) 0)
    s.setKeeper { s.keeper with reference := some ((number + 1) % 2 ^ 32), lastEnd := some end_,
                                epochs := s.keeper.epochs.filter (fun e => decide (e.number ≠ number)), prev := [], prevEnd := none }
  else
    let bad := decide (j.first ≠ 0xFFFF) || decide (j.reasons / 64 ≠ 0)
    let running := decide (k.phase = .running)
    let window := if running then (bad :: k.window).take 255 else []
    let count := s.windowCount window
    let s := s.publish number (s.verdictRecord number (if bad then 1 else 0) j.first j.reasons count)
    let s := s.bumpIf bad Regs.kpInvalidEpochs
    let good := if bad then 0 else k.good + 1
    let s := s.setKeeper { s.keeper with
      reference := some ((number + 1) % 2 ^ 32), lastEnd := some end_, window := window, good := good, prev := if bit j.reasons 6 then [] else j.rates, prevEnd := some end_,
      epochs := s.keeper.epochs.filter (fun e => decide (e.number ≠ number)) }
    let s := j.suspects.eraseDups.foldl State.forceGolden s
    if j.safe || (running && decide (s.reg Regs.kpWindowK ≤ count)) then s.safeTrigger 6 false
    else if !running && decide (s.reg Regs.kpReleaseEpochs ≤ good) then s.keeperReleases
    else s

/-- The lowest epoch without a verdict, if a declaration opened it. -/
def State.openEpoch (s : State) : Option Epoch :=
  match s.keeper.reference with
  | some r => s.keeper.epochs.find? (fun e => decide (e.number = r))
  | none => none

/-- Whether the Keeper gives verdicts in its state. -/
def State.judging (s : State) : Bool :=
  s.pdOn 1 && (match s.keeper.phase with
    | .waiting | .running | .safe => true
    | _ => false)

/-- The output time line has reached a time of 2^-16 ns. -/
def State.reached (s : State) (t : Nat) : Bool := decide (t ≤ s.outTime >>> 24)

/-- Evaluates unless the safe state holds, where no rule counts. -/
def State.judgeIf (s : State) (e : Epoch) : Judged := if s.keeper.phase = .safe then { s := s } else (s.observes 70).judgeEpoch e

/-- Gives a verdict of an epoch by its evaluation, with the Keeper's reads before it (R322): an uncorrectable word of its memory takes
effect first, and damage of the drive region that the evaluation met after it (R366). -/
def State.verdictOf (s : State) (e : Epoch) : State :=
  let s := s.keeperReads
  if s.judging then ((s.giveVerdict e.number e.end_ (s.judgeIf e)).takeDamage).canOrdered s else s

/-- VERDICT (R322): the lowest open epoch is complete. -/
def execVerdict (s : State) : Res :=
  match s.openEpoch with
  | some e => if s.judging && requiredIn e && s.runsIn e then .next (s.verdictOf e) else .next s
  | none => .next s

/-- VERDICT_DEADLINE (R322): the epoch is not complete at EPOCH_END + KP_DEADLINE. -/
def execVerdictDeadline (s : State) : Res :=
  match s.openEpoch with
  | some e =>
    if s.judging && !(requiredIn e && s.runsIn e) && s.reached (e.end_ + s.reg Regs.kpDeadline * 65536000) then
      .next (s.verdictOf e)
    else .next s
  | none => .next s

/-- EPOCH_MISSING (R322): no declaration of the next number within the period and the deadline. -/
def execEpochMissing (s : State) : Res :=
  match s.keeper.reference, s.keeper.lastEnd, s.openEpoch with
  | some r, some e, none =>
    if s.judging && s.reached (e + (s.reg Regs.kpEpochPeriod + s.reg Regs.kpDeadline) * 65536000) then
      .next ((s.giveVerdict r (e + s.reg Regs.kpEpochPeriod * 65536000) { s := s, reasons := 2 ^ 6 }).canOrdered s)
    else .next s
  | _, _, _ => .next s

/-! ### The parked shift (R341) -/

/-- One rule of the parked table over internal sources alone. -/
def State.parkedRule (s : State) (table : Bytes) (k : Nat) : State :=
  let r := ruleEntry table k
  let kind := bits r 3 0
  let inner := decide (64 ≤ bits r 15 8) && (decide (kind ≠ 5) || decide (64 ≤ bits r 23 16))
  if inner && decide (kind = 2 ∨ kind = 3 ∨ kind = 5) && decide ((s.evalRule [] (s.outTime >>> 24) r).fails = some true) then
    if bits r 5 4 = 2 then s.trigger 5 (s.reg Regs.leaseExportBudget)
    else
      (s.bumpIf (decide (bits r 5 4 = 1)) Regs.kpRuleLogs).logs { severity := .contained, source := 9, kind := 39, detail := k, sub := 1 }
  else s

/-- PARKED_RULE_EVAL, every 100 ms from the entry to PARKED on. -/
def execParkedRuleEval (s : State) : Res :=
  if s.pdOn 1 && s.keeper.phase == .parked && bit (s.reg Regs.kpRulesValid) 1 && decide (s.keeper.parkedAt ≤ s.now) then
    let s := ((s.setKeeper { s.keeper with parkedAt := s.keeper.parkedAt + 100000000 }).observes 70).keeperReads
    let table := s.blob Blobs.kpRulesParked []
    .next (if s.keeper.phase == .parked then (List.range (ruleCount table)).foldl (fun s k => s.parkedRule table k) s else s)
  else .next s

/-! ### The Gardener (R343, R481) -/

/-- GARDENER_HEARTBEAT. -/
def execGardenerHeartbeat (s : State) : Res :=
  if s.pdOn 1 && s.pdOn 45 && !s.keeper.gardenerOff then .next (s.setKeeper { s.keeper with gardenerAt := s.now }) else .next s

/-- The Gardener's power domain is cycled, or left off after three restarts in 60 s: it serves no more from now on, and its boundary
is drained before it goes off (R10). -/
def State.gardenerRestarts (s : State) : State :=
  let recent := s.keeper.gardener.filter (fun t => decide (s.now ≤ t + 60000000000))
  let left := decide (3 ≤ recent.length)
  let s := if (s.pd 45).state = .off then s else (s.leaves 45).forces 45 .off (if left then none else some .on)
  if left then
    let s := s.logs { severity := .fatal, source := 9, kind := 41, detail := recent.length }
    let s := s.setKeeper { s.keeper with gardenerOff := true }
    if s.leaseRunning then s.trigger 6 0 else s
  else
    let s := s.bump Regs.kpGardenerRestarts
    s.setKeeper { s.keeper with gardener := s.now :: recent, gardenerAt := s.now }

/-- GARDENER_WATCHDOG (R343). -/
def execGardenerWatchdog (s : State) : Res :=
  if s.pdOn 1 && !s.keeper.gardenerOff && s.boot.phase == .ready && !s.keeper.startDue
      && decide (s.keeper.gardenerAt + s.reg Regs.kpGardenerWd * 1000000 ≤ s.now) then .next s.gardenerRestarts
  else .next s

end Sys2Proof.Machine
end

