-- ==== Sys2Proof/Machine/Lamplighter.lean ====
section
/-! DEFINITION. The Lamplighter (R328–R334), the start tests (R185, R336), and yielding at a pre-emption point (R196, R331). -/

namespace Sys2Proof.Machine

def State.goldenOf (s : State) (g : Nat) : Golden := kget s.keeper.golden g {}

def State.setGolden (s : State) (g : Nat) (v : Golden) : State := s.setKeeper { s.keeper with golden := kset s.keeper.golden g v }

/-- The gaffers that a pass on gaffer g marks: both of a formed chair (R328). -/
def State.testedWith (s : State) (g : Nat) : List Nat := if s.formed (g / 2) then [2 * (g / 2), 2 * (g / 2) + 1] else [g]

/-- Whether gaffer g has a slot that is not idle (R328); R339 may hold it in reset. -/
def State.slotLive (s : State) (g : Nat) : Bool := !s.fenced g && s.pdOn (gafferPd g) && !s.keeper.heldReset

/-- A missed DDR5 injection is skipped while the subchannel cannot take it (R334). -/
def State.ddrSkips (s : State) (sc : Nat) : Bool :=
  decide (s.reg Regs.ddrTrainState = 0) || !s.pdOn (42 + sc / 4) || s.ddrPair (sc / 4) == .selfRefresh

/-- A checker that missed its injection in slot i (R334), by its row in the table of R333 from 0. -/
def State.checkerMissed (s : State) (i checker : Nat) : State :=
  if checker = 3 then if s.ddrSkips (i % 8) then s else (s.bump Regs.llCheckerFails).safeTrigger 6 true
  else if checker < 3 then (s.bump Regs.llCheckerFails).fence i 3
  else if checker = 4 ∨ (checker = 5 ∧ i = 0) then (s.bump Regs.llCheckerFails).safeTrigger 5 false
  else s

/-- The slot's injections into checkers (R333, R334); those into gaffer i's own checkers are left out of an idle slot
(DEDUCED). -/
def State.inject (s : State) (i : Nat) (missed : List Nat) : State :=
  let s := s.bumpIf (s.ddrSkips (i % 8)) Regs.llDdrSkips
  (missed.eraseDups.filter (fun c => decide (3 ≤ c) || s.slotLive i)).foldl (fun s c => s.checkerMissed i c) s

/-- A slot or its deferral comes due: the set starts, is deferred by 100 ms or, at the fourth attempt, is forced (R331). -/
def State.slotDue (s : State) (g : Nat) : State :=
  let v := s.goldenOf g
  if v.running || !s.slotLive g then s
  else if s.gafferIdle g then s.setGolden g { v with running := true, forced := false, deferred := 0, since := some s.now, behind := [] }
  else if v.deferred < 3 then
    (s.setGolden g { v with deferred := v.deferred + 1, dueAt := s.now + 100000000 }).bump Regs.llDeferrals
  else s.forceGolden g

/-- Slots last 100 ms (R328). -/
def slotNs : Nat := 100000000

/-- The rotation starts: slot 0 is next, at once (R328). -/
def State.rotationStarts (s : State) : State := s.setKeeper { s.keeper with slot := 0, slotAt := s.now }

/-- LL_ENABLE: the moment it becomes 1 starts a rotation (R328). -/
def hookLlEnable : Hook := fun s _ data =>
  let t := s.setReg Regs.llEnable (ofLe data)
  .ok (if s.reg Regs.llEnable = 0 ∧ ofLe data ≠ 0 then t.rotationStarts else t)

/-- Slot i starts: the rotation moves on without a gap, the slot's injections are made, and its set comes due (R328, R331, R333). -/
def State.slotStarts (s : State) (i : Nat) (missed : List Nat) : State :=
  let s := s.setKeeper { s.keeper with slot := (i + 1) % 32, slotAt := s.keeper.slotAt + slotNs }
  let s := if i = 0 then s.setReg Regs.llRotation ((s.reg Regs.llRotation + 1) % 2 ^ 32) else s
  ((s.inject i missed).setGolden i { s.goldenOf i with deferred := 0 }).slotDue i

/-- Whether slot i is the one that starts now, and whether a deferred attempt of gaffer i is due. -/
def State.slotNow (s : State) (i : Nat) : Bool := decide (s.keeper.slot = i) && decide (s.keeper.slotAt ≤ s.now)
def State.retryNow (s : State) (i : Nat) : Bool := decide (0 < (s.goldenOf i).deferred) && decide ((s.goldenOf i).dueAt ≤ s.now)

/-- LAMPLIGHTER_SLOT: slot i of the rotation starts, or a deferred attempt of gaffer i is due, which makes no injection. -/
def execLamplighterSlot (i : Fin 32) (missed : List Nat) (s : State) : Res :=
  if !(s.flag Regs.llEnable && s.pdOn 1) then .next s
  else if s.slotNow i.val then .next (s.slotStarts i.val missed)
  else if s.retryNow i.val then .next (s.slotDue i.val)
  else .next s

/-- A set has passed on gaffer g (R332). -/
def State.goldenPassed (s : State) (g : Nat) : State :=
  (s.testedWith g).foldl (fun s h => s.setGolden h { s.goldenOf h with
    lastPass := some s.now, running := false, forced := false, deferred := 0, since := none, behind := [] }) s

/-- What a set leaves in its area of the scratchpad (R329) is not stated. -/
def State.forgetArea (s : State) (g : Nat) : State :=
  if s.formed (g / 2) then s.forgetRange (chairBase (g / 2) + 0x5E0000) 0x20000 else s.forgetRange (spadBase g + 0x2F0000) 0x10000

/-- A strike changes a result of the golden set: one not 0. -/
def Gaffer.struck (f : Option Strike) : Bool :=
  match f with
  | some k => decide (k.error ≠ 0)
  | none => false

/-- The golden items in the order of R330 (log 52): 0–4 MATMULs, 5 and 6 the pair with accumulator records, 7 VECTOR, 8 REDUCE,
9 COPY, 10 FILL. The first item whose result's CRC-32C is not the signature in the ROM, if any: `results` are the CRCs that
the gaffers g ran to, and a fault of an array or a vector unit changes the first result that its unit gives. -/
def State.goldenFailure (s : State) (gs : List Nat) (results : List Nat) : Option Nat :=
  let wrong (k : Nat) : Bool :=
    decide (results[k]? ≠ some (Config.goldenSignature k))
    || (decide (k = 0) && gs.any (fun g => Gaffer.struck (s.gaffer g).arrayFault))
    || (decide (k = 7) && gs.any (fun g => Gaffer.struck (s.gaffer g).vectorFault))
  (List.range 11).find? wrong

/-- The golden items have met the faults of the gaffers they ran on. -/
def State.spendStrikes (s : State) (gs : List Nat) : State :=
  gs.foldl (fun s g => s.setGaffer g { s.gaffer g with arrayFault := none, vectorFault := none }) s

/-- Whether a forced set still waits for an item that executes on its unit (R331). -/
def State.goldenWaits (s : State) (g : Nat) : Bool := (s.goldenOf g).behind.any (fun k => (s.executingAt g).contains k)

/-- GOLDEN_SET_COMPLETE (R330, R332): `results` are the CRCs of the 11 results. -/
def execGoldenSetComplete (g : Fin 32) (results : List Nat) (s : State) : Res :=
  let n := g.val
  if !(s.goldenOf n).running || s.goldenWaits n then .next s
  else
    let gs := s.testedWith n
    let failure := s.goldenFailure gs results
    let s := (if s.slotLive n then s.forgetArea n else s).spendStrikes gs
    match failure with
    | none => .next (s.goldenPassed n)
    | some _ =>
      let s := (s.setGolden n { s.goldenOf n with running := false, forced := false, deferred := 0, since := none, behind := [] }).bump
        Regs.llGoldenFails
      .next (s.fence n 3)

/-- SET_MISSED (R332): counted and logged, and the set is forced again. -/
def execSetMissed (g : Fin 32) (s : State) : Res :=
  let v := s.goldenOf g.val
  match v.running, v.since with
  | true, some t =>
    if t + 100000000 ≤ s.now then
      .next (((s.bump Regs.llMissed).logs { severity := .contained, source := 14, kind := 40, sub := g.val }).forceGolden g.val)
    else .next s
  | _, _ => .next s

/-- START_TEST_COMPLETE: of a fence lift (R185), or of a restart (R336), on gaffer g alone; `results` are the CRCs of the golden
items. Its power domain is on by then: the turn-on of the lift, or the cycle of the restart, is complete. None runs while R339 holds
the accelerator side in reset. -/
def execStartTestComplete (g : Fin 32) (results : List Nat) (before : State) : Res :=
  let n := g.val
  let s := before.settlesForced (gafferPd n) 3
  let failedItem := s.goldenFailure [n] results
  if s.keeper.heldReset || !s.pdOn (gafferPd n) || (s.gaffer n).drainDue then .next before
  else if (s.gaffer n).lift = .testing then
    let s := (s.spendStrikes [n]).startTestEnds n failedItem
    .next (if failedItem.isNone then s.goldenPassed n else s)
  else if n ∈ s.keeper.testing then
    let s := (s.spendStrikes [n]).setKeeper { s.keeper with testing := s.keeper.testing.filter (· != n) }
    match failedItem with
    | none => .next (s.goldenPassed n)
    | some k =>
      let s := (s.bump Regs.llGoldenFails).logs { severity := .contained, source := 1, inst := n, kind := 37, detail := k, sub := n }
      .next (s.fence n 4)
  else .next before

/-- The gaffers behind a lane. -/
def laneGaffers (l : Lane) : List Nat :=
  match l.target with
  | .unit u => unitGaffers u
  | _ => []

/-- PREEMPTION_POINT: for a class-0 item, or for a golden set that was forced on the lane's unit. -/
def execPreemptionPoint (l : Lane) (s : State) : Res :=
  .next (s.preempt l ((laneGaffers l).any (fun g => (s.goldenOf g).running && (s.goldenOf g).forced)))

end Sys2Proof.Machine
end

