-- ==== Sys2Proof/Machine/Integrity.lean ====
section
/-! DEFINITION. Integrity (R358–R380): patrol scrubs, marking and retiring DDR5, the log's read position and its holdoff, and what
follows the completion of an item. -/

namespace Sys2Proof.Machine

/-- ITEM_COMPLETION (R198): the item completes with its own status; a fence or a safe state that its errors caused follows
(R366, R377). -/
def execItemCompletion (r : Fin 64) (seq : Nat) (s : State) : Res := .next (s.completeItem r.val seq).policyFences.takeDamage

/-! ### Patrol scrub (R360, R365) -/

/-- The power domain of an array. -/
def arrayDomain (array : SramArray) (a : Nat) : Option Nat :=
  match array with
  | .mapped =>
    match regionOf a with
    | .spad g => some (gafferPd g)
    | .pergola => some (38 + pergolaHalf a)
    | .lodge => some 40
    | .kvTables => some 41
    | _ => none
  | .keeperMem => some 1
  | .keepBank => some 0
  | .journal => some 41
  | .retry _ => some 41
  | .lineBuffer m => some (34 + m.val)
  | .portFifo _ => some 40
  | .translationCache => some 41

/-- SRAM_PATROL_SCRUB (R360). A word of the tables or of the translation cache that the code cannot correct stops the KV manager (R370),
and one of the Keeper's memory sets the latch (R308). -/
def execSramPatrolScrub (array : SramArray) (addr : Nat) (s : State) : Res :=
  let a := addr / 8 * 8
  match arrayDomain array a with
  | none => .next s
  | some d =>
    if !s.pdOn d then .next s
    else match array with
      | .mapped =>
        if a ∈ s.mem.suspects a 8 then
          let (s, bad) := s.meetSram none a
          .next (if regionOf a = .kvTables then (s.kvDamaged bad).policyFences else s.policyFences)
        else .next s
      | _ =>
        let (s, bad) := s.meetArray array a
        .next (if array = .keeperMem then s.keeperDamaged bad else s)

/-- Whether the scrub of R365 may read a burst now. -/
def State.ddrScrubs (s : State) (a : Nat) : Bool :=
  decide (s.reg Regs.ddrScrubPeriod ≠ 0) && decide (a < s.ddr.capacity) && s.ddrUp a && decide (s.shift.phase ≠ .starting 3) && !s.shift.quarantine

/-- One burst of a pass: the pass is counted with its last burst. -/
def State.scrubbed (s : State) : State :=
  let n := s.ddr.scrubCount + 1
  if s.ddr.capacity ≤ n * 64 then { (s.bump Regs.ddrScrubPasses) with ddr := { s.ddr with scrubCount := 0 } }
  else { s with ddr := { s.ddr with scrubCount := n } }

/-- DDR_PATROL_SCRUB (R365). -/
def execDdrPatrolScrub (addr : Nat) (s : State) : Res :=
  let a := addr / 64 * 64
  if s.ddrScrubs a then
    let s := s.scrubbed
    .next (if a ∈ s.mem.suspects a 64 then (s.meetDdr none a).1.takeDamage else s)
  else .next s

/-! ### Marks (R364) -/

/-- The mark of rank r in a value of SC_MARKED, and whether it may be written. -/
def markByte (v r : Nat) : Nat := bits v (8 * r + 7) (8 * r)
def markOk (v r : Nat) : Bool := decide (markByte v r = 0xFF) || (decide (10 * r ≤ markByte v r) && decide (markByte v r ≤ 10 * r + 9))

/-- The mark of one rank as written. -/
def State.writeMark (s : State) (sc v r : Nat) : State :=
  let old := s.reg (Regs.scMarked sc)
  let b := markByte v r
  if b = markByte old r then s
  else if b = 0xFF then s.setReg (Regs.scMarked sc) (old ||| 0xFF <<< (8 * r))
  else s.markDevice sc b 1

/-- SC_MARKED. -/
def hookScMarked (sc : Nat) : Hook := fun s _ data =>
  let v := ofLe data
  if !(markOk v 0 && markOk v 1) then .error outOfRange
  else if s.reg Regs.ddrWidth = 1 ∧ (markByte v 0 ≠ 0xFF ∨ markByte v 1 ≠ 0xFF) then .error conflictPlain
  else .ok ((s.writeMark sc v 0).writeMark sc v 1)

def execScMarkedWrite (p : Path) (sc : Fin 8) (v : Nat) (s : State) : Res :=
  .next (s.writeObject p (0x2A28 + sc.val) 1 (toLe 2 v) (hookScMarked sc.val))

/-! ### Retired pages (R378) -/

/-- A change of the list, with its entry. -/
def State.pageLogged (s : State) (a detail : Nat) (list : List Nat) : State :=
  { s with ddr := { s.ddr with retired := list } }.logs
    { severity := .corrected, source := 6, inst := s.subchannel a, kind := 17, addr := a, detail := detail }

/-- DDR_RETIRE. -/
def hookDdrRetire : Hook := fun s _ data =>
  let a := ofLe data
  if a ∈ s.ddr.retired then .ok s
  else if 256 ≤ s.ddr.retired.length ∨ a % 4096 ≠ 0 ∨ s.ddr.capacity ≤ a then .error outOfRange
  else if overlaps a 4096 s.driveLo s.driveLen then .error (conflictKind 13 0)
  else match clash s.bufferClaims 255 0 a 4096 with
    | some e => .error e
    | none => .ok (s.pageLogged a 0 (sortBy id (a :: s.ddr.retired)))

def execDdrRetire (p : Path) (v : Nat) (s : State) : Res := .next (s.writeObject p 0x2A20 6 (toLe 8 v) hookDdrRetire)

/-- DDR_UNRETIRE. -/
def hookDdrUnretire : Hook := fun s _ data =>
  let a := ofLe data
  if a ∈ s.ddr.retired then .ok (s.pageLogged a 1 (s.ddr.retired.filter (· != a))) else .ok s

def execDdrUnretire (p : Path) (v : Nat) (s : State) : Res := .next (s.writeObject p 0x2A20 7 (toLe 8 v) hookDdrUnretire)

/-! ### The log (R375, R376) -/

/-- The number under which a path keeps its own values. -/
def pathKey : Path → Nat
  | .bar0 => 1
  | .can => 3
  | .canSafety => 4
  | .smbus => 5
  | .keeper => 6
  | .gardener => 7

/-- ERR_LOG_READ_SEQ: each path keeps its own. -/
def hookReadSeq : Hook := fun s p data =>
  .ok { s with log := { s.log with readSeq := kset s.log.readSeq (pathKey p) (ofLe data) } }

def execErrLogReadSeq (p : Path) (v : Nat) (s : State) : Res := .next (s.writeObject p 0x2010 2 (toLe 4 v) hookReadSeq)

/-- ERR_LOG_ENTRY on a path: 32 bytes with SEVERITY 0 and SEQ = s where entry s is not held. -/
def State.logEntryFor (s : State) (p : Path) : Bytes :=
  let q := kget s.log.readSeq (pathKey p) 0
  match s.log.entries.find? (fun e => decide (e.seq = q)) with
  | some e => e.bytes
  | none => toLe 32 q

/-- ERR_CORRECTED_HOLDOFF (R376). -/
def execErrCorrectedHoldoff (s : State) : Res :=
  match s.log.holdoffSince with
  | some t =>
    if s.now < t + s.reg Regs.errCorrectedHoldoff * 1000 then .next s
    else if s.log.correctedDue then
      .next { (s.msix (s.reg Regs.errVectorCorrected)) with log := { s.log with holdoffSince := some s.now, correctedDue := false } }
    else .next { s with log := { s.log with holdoffSince := none } }
  | none => .next s

end Sys2Proof.Machine
end

