-- ==== Sys2Proof/Machine/HostLink.lean ====
section
/-! DEFINITION. The host link and DDR5 (R382–R389, R397, R401–R404): link events and resets, the aperture, the host window's table,
training and the interleave. -/

namespace Sys2Proof.Machine

/-! ### The link (R382, R397) -/

/-- The translation table reads as zeros. -/
def State.clearXlate (s : State) : State := s.setHostLink { s.link with xlate := [] }

/-! ### Configuration space (R381, R383) -/

/-- A dword of the function's type 0 header (R381, R383): the IDs are those the identity objects report (R435), the class code is
0x120000, BAR0 is a 64-bit memory BAR and BAR2 a prefetchable one, BAR4 and the 32-bit BARs are not implemented and the Interrupt
Pin register reads 0. Where PCI Express puts each field is log 12. -/
def State.configHeader (s : State) (dword : Nat) : Nat :=
  let c := s.link.config
  let base0 := c.bar0 / 0x4000000 * 0x4000000
  let base2 := c.bar2 / s.reg Regs.hifBar2Size * s.reg Regs.hifBar2Size
  match dword with
  | 0 => s.reg Regs.idVendor + s.reg Regs.idDevice <<< 16
  | 1 => (if c.memory then 2 else 0) + (if c.master then 4 else 0) + 0x100000
  | 2 => s.reg Regs.idStepping + 0x120000 <<< 8
  | 4 => base0 % 2 ^ 32 + 4
  | 5 => base0 / 2 ^ 32
  | 6 => base2 % 2 ^ 32 + 12
  | 7 => base2 / 2 ^ 32
  | 11 => s.reg Regs.idSubsysVendor + s.reg Regs.idSubsys <<< 16
  | _ => 0

/-- An error that the function records in its AER status word: bit 12 is a poisoned TLP received, bit 20 an Unsupported Request
(log 12). -/
def State.aer (s : State) (b : Nat) : State :=
  let c := s.link.config
  s.setHostLink { s.link with config := { c with uncorrectable := c.uncorrectable ||| 2 ^ b } }

/-- LINK_UP (R382): held messages are posted. The TYPE of the entry below the floor is not stated: a free value. -/
def execLinkUp (rate : Fin 6) (width : Nat) (s : State) : Res :=
  if rate.val = 0 ∨ width ∉ [1, 2, 4, 8] ∨ s.link.perst = true ∨ s.pdOn 44 = false then .next s
  else
    let low := decide (rate.val < 3)
    let s := ((s.setReg Regs.hifLinkUp 1).setReg Regs.hifLinkRate rate.val).setReg Regs.hifLinkWidth width
    let s := s.setReg Regs.hifBelowFloor (if low then 1 else 0)
    let held := s.link.heldMsix
    let s := held.foldl State.msix (s.setHostLink { s.link with heldMsix := [] })
    if low then
      let (k, s) := s.draw
      .next ((s.logs { severity := .contained, source := 8, kind := k % 256 }).attention 4)
    else .next s



/-- LINK_DOWN. -/
def execLinkDown (s : State) : Res := .next s.linkDown

/-- HOT_RESET: hot reset or link disable (R397). Ignored, as FLR is, while the PCIe power domain is not on (R446). -/
def execHotReset (s : State) : Res :=
  if s.pdOn 44 then .next s.linkFalls.stopAllRings.configReset else .next s

/-- FLR (R397). -/
def execFlr (s : State) : Res :=
  if s.pdOn 44 then .next s.stopAllRings.configReset.clearXlate else .next s

/-- What PERST_n does (R397). -/
def State.perstFalls (s : State) : State :=
  let s := s.linkFalls.stopAllRings.configReset.clearXlate
  s.setHostLink { s.link with perst := true }

/-- PERST_ASSERT and PERST_RELEASE. -/
def execPerstAssert (s : State) : Res := .next s.perstFalls
def execPerstRelease (s : State) : Res := .next (s.setHostLink { s.link with perst := false })

/-! ### The aperture (R385) -/

/-- BAR2_READ. Nothing while the PCIe power domain is not on (R446). A read of a sleeping pair is logged besides (R18, R404). -/
def execBar2Read (off len : Nat) (s : State) : Res :=
  let a := s.reg Regs.hifApertureBase + off
  if s.pdOn 44 = false then .next s
  else if s.reg Regs.hifBar2Size < off + len then .next ((s.aer 20).emit .bar2Unsupported)
  else match s.readMem .bar2 none a len with
    | (s, .bytes bs [] _) => .next (s.emit (.bar2 bs false)).takeDamage
    | (s, .bytes bs _ _) => .next ((s.bump Regs.hifPoisonedOut).emit (.bar2 bs true)).takeDamage
    | (s, .absent) =>
      let ans := s.answer .bar2 a len false
      let s := if ans = .off then s.notPresent none a ans else s
      .next ((s.aer 20).emit .bar2Unsupported)

/-- BAR2_WRITE. The data of a poisoned TLP (R381) is stored as poison (R370). -/
def execBar2Write (off : Nat) (data : Bytes) (poisoned : Bool) (s : State) : Res :=
  let a := s.reg Regs.hifApertureBase + off
  if s.pdOn 44 = false ∨ s.reg Regs.hifBar2Size < off + data.length then .next s
  else
    let s := if poisoned then s.aer 12 else s
    match s.writeMem .bar2 a data with
    | (s, .ok) => .next (if poisoned then s.pokePoison a data.length else s)
    | (s, ans) => .next (s.notPresent none a ans)

/-- BAR2_RESIZE: `sizeBits` is the logarithm of the new size. -/
def execBar2Resize (sizeBits : Fin 64) (s : State) : Res :=
  if s.pdOn 44 = true ∧ 28 ≤ sizeBits.val ∧ sizeBits.val ≤ 37 ∧ s.reg Regs.hifBar2Size ≠ 2 ^ sizeBits.val then
    .next ((s.setReg Regs.hifBar2Size (2 ^ sizeBits.val)).setReg Regs.hifApertureBase 0)
  else .next s

/-- HIF_APERTURE_BASE: a multiple of the size of BAR2. -/
def hookAperture : Hook := fun s _ data =>
  if ofLe data % s.reg Regs.hifBar2Size ≠ 0 ∨ 0x2000000000 ≤ ofLe data then .error outOfRange
  else .ok (s.setReg Regs.hifApertureBase (ofLe data))

/-! ### The host window (R387–R389) -/

/-- Writes entry i: reserved bits are ignored. -/
def State.setXlate (s : State) (i v : Nat) : State :=
  s.setHostLink { s.link with xlate := kset s.link.xlate i (bits v 63 24 <<< 24 + v % 8) }

/-- XLATE_ENTRY_WRITE. -/
def execXlateEntryWrite (i v : Nat) (s : State) : Res := if s.pdOn 44 then .next (s.setXlate i v) else .next s

/-- Whether the dispatcher may be reading records under this sequence number of ring r: those of the next item (R390, R510). -/
def State.readsRecords (s : State) (r seq : Nat) : Bool := decide ((s.ring r).seq = seq) && decide (0 < s.published r)

/-- Whether a staging action reads an address (R472). -/
def State.stagingReads (s : State) (addr : Nat) : Bool :=
  s.boot.staging.isSome && within addr 1 (s.reg Regs.stageSrc) (s.reg Regs.stageLen)

/-- HOST_READ_FAIL: a read for an item in flight, of the records of the next one (R510) or, where `seq` is neither, for the staging
action under way (R472) ends in error or with EP; an item's data arrives as poison. -/
def execHostReadFail (r : Fin 64) (seq addr : Nat) (s : State) : Res :=
  if regionOf addr != .host then .next s
  else if (s.item? r.val seq).isNone && !s.readsRecords r.val seq then
    match s.boot.staging with
    | some g =>
      if s.stagingReads addr then
        let s := (s.bump Regs.hifHostReadFails).logs
          { severity := .contained, source := 8, kind := 32, addr := addr, detail := 0xFFFF }
        .next { s with boot := { s.boot with staging := some { g with failed := true } } }
      else .next s
    | none => .next s
  else
    let (s, k) := (s.bump Regs.hifHostReadFails).logEvent
        { severity := .contained, source := 8, kind := 32, addr := addr, detail := 0xFFFF, ring := some r.val }
    .next (s.setHostLink { s.link with failedReads := ⟨r.val, seq, addr, k⟩ :: s.link.failedReads })

/-! ### DDR5 (R401–R404) -/

/-- Every DDR5 byte is undefined (R401, R404). -/
def State.forgetDdr (s : State) : State :=
  let m := s.mem.forget 0 0x2000000000 s.freeIx
  { s with mem := { m with poison := m.poison.filter (fun g => decide (0x2000000000 ≤ g)),
                           flaws := m.flaws.filter (fun e => decide (0x2000000000 ≤ e.1)) } }.skipFree



/-- DDR_RETRAIN (R403). -/
def execDdrRetrain (sc : Fin 8) (s : State) : Res :=
  let k := sc.val / 4
  if (s.ddrPair k == .trained || s.ddrPair k == .restored) && s.pdOn (42 + k) then .next (s.bump Regs.ddrRetrains) else .next s

/-- Whether only a full training of a pair can be under way: none yet, or its restore has failed its check (R403). -/
def State.trainsInFull (s : State) (k : Nat) : Bool := s.ddrPair k == .untrained || decide (k ∈ s.ddr.retraining)

/-- Whether a training or a restore of a pair is under way (R403). -/
def State.trainingDue (s : State) (k : Nat) : Bool :=
  s.pdOn (42 + k) && (s.trainsInFull k || decide (k ∈ s.ddr.restoring) || decide (s.keeper.restart = .warm))

/-- A restore fails its check: the pair, which takes no requests, is trained in full (R403). -/
def State.restoreFails (s : State) (k : Nat) : State :=
  let s := s.setPair k .selfRefresh
  s.setDdr { s.ddr with retraining := k :: s.ddr.retraining }

/-- DDR_TRAINING_COMPLETE (R403, R469). The time it took and the TYPE of a failed training's entry are not stated: free values. -/
def execDdrTrainingComplete (pair : Fin 2) (passed full : Bool) (s : State) : Res :=
  let k := pair.val
  if !s.trainingDue k || (s.trainsInFull k && !full) then .next s
  else if !passed && !full then .next (s.restoreFails k)
  else
    let (x, s) := s.draw
    if passed then
      let s := s.setPair k (if full then .trained else .restored)
      let both := s.ddr.pair0 != .untrained && s.ddr.pair1 != .untrained
      let s := s.setReg Regs.ddrTrainState (if both then (if full then 1 else 2) else 0)
      .next (s.setReg Regs.ddrTrainTime (x % 250001))
    else
      let s := (s.setPair k .untrained).setReg Regs.ddrTrainState 0
      .next (s.logs { severity := .fatal, source := 6, inst := 4 * k, kind := x % 256 })

/-- What stands against a change of the interleave (R401). -/
def State.interleaveHeld (s : State) : Option Reply :=
  if s.driveSealed then some (conflictKind 13 0)
  else if s.leaseRunning then some (conflictCondition 12)
  else match clash s.allClaims 255 0 0 0x2000000000 with
    | some e => some e
    | none => if s.ddr.retired = [] then none else some (conflictObject Blobs.ddrRetiredList)

/-- DDR_INTERLEAVE. -/
def hookInterleave : Hook := fun s _ data =>
  match s.interleaveHeld with
  | some e => .error e
  | none => .ok (s.setReg Regs.ddrInterleave (ofLe data)).forgetDdr

def execDdrInterleaveWrite (p : Path) (v : Nat) (s : State) : Res := .next (s.writeObject p 0x2A00 6 (toLe 1 v) hookInterleave)

/-- VDDQ_DDR_LOSS (R404): a sealed drive region is then damaged (R366). -/
def execVddqDdrLoss (s : State) : Res :=
  let held := s.driveSealed
  let s := (s.forgetDdr.setDdr { s.ddr with pair0 := .untrained, pair1 := .untrained, restoring := [], retraining := [] }).setReg Regs.ddrTrainState 0
  if held then
    let s := (s.setReg Regs.ddrDriveDamaged 1).attention 5
    .next (s.setKeeper { s.keeper with damage := true }).takeDamage
  else .next s

end Sys2Proof.Machine
end

