-- ==== Sys2Proof/Machine/Marver.lean ====
section
/-! DEFINITION. The Marvers (R222–R244): MV_TRANSFORM, MV_GATHER and MV_SCATTER. -/

namespace Sys2Proof.Machine

/-! ### Operands -/

/-- A source or destination with the scales of an MX format. -/
structure Scaled where
  t : Tensor
  scales : Option Tensor
  deriving DecidableEq, Repr

/-- Every byte range of an operand and its scales. -/
def Scaled.spans (x : Scaled) : List (Int × Nat) :=
  x.t.spans ++ (match x.scales with
    | some v => v.spans
    | none => [])

/-- Whether the extents of two operands intersect (R240). -/
def Scaled.meets (a b : Scaled) : Bool :=
  let ts (x : Scaled) : List Tensor := x.t :: x.scales.toList
  (ts a).any (fun u => (ts b).any (fun v => u.meets v))

/-- A descriptor and, for an MX format, the descriptor of its scales (R232): field numbers k and k + 1. -/
def State.scaledOperand (s : State) (i : Item) (ag : Agent) (lo field : Nat) (write : Bool) : Checked Scaled :=
  match s.descriptor i ag (i.field (lo + 39) lo) field write with
  | (s, .error f) => (s, .error f)
  | (s, .ok t) =>
    if !t.fmt.mx then (s, .ok ⟨t, none⟩)
    else match s.descriptor i ag (i.field (lo + 79) (lo + 40)) (field + 1) write with
      | (s, .error f) => (s, .error f)
      | (s, .ok v) => if v.scalesFor t then (s, .ok ⟨t, some v⟩) else (s, .error (finBad 8 (field + 1)))

/-- The index of the scale of an element. -/
def scaleIndex (idx : List Nat) : List Nat := idx.headD 0 / 32 :: idx.tail

/-- The scale code of an element of an operand; 2^0 without scales. -/
def State.scaleOf (s : State) (x : Scaled) (idx : List Nat) : Nat :=
  match x.scales with
  | some v => s.elem v (scaleIndex idx)
  | none => 0x7F

/-- Whether an element or its scale is poisoned. -/
def Scaled.bad (x : Scaled) (bad : List (Nat × Nat)) (idx : List Nat) : Bool :=
  x.t.badElem bad idx || (match x.scales with
    | some v => v.badElem bad (scaleIndex idx)
    | none => false)

/-- What one destination element receives: a code to convert and its scale, or nothing. -/
structure Fetch where
  code : Nat
  scale : Nat
  pad : Bool
  bad : Bool
  lines : List Nat
  deriving DecidableEq, Repr

/-- The source lines that hold an element: one, or two where it lies across them (R237, log 60). -/
def Tensor.linesOf (t : Tensor) (idx : List Nat) : List Nat :=
  let (a, n) := t.elemSpan idx
  [a.toNat / 64, (a.toNat + n - 1) / 64].eraseDups

/-- The source element at an index. -/
def State.fetchElem (s : State) (x : Scaled) (bad : List (Nat × Nat)) (idx : List Nat) : Fetch :=
  ⟨s.elem x.t idx, s.scaleOf x idx, false, x.bad bad idx, x.t.linesOf idx⟩

/-- The bytes that hold an element and its scale. -/
def Scaled.elemSpans (x : Scaled) (idx : List Nat) : List (Int × Nat) :=
  x.t.elemSpan idx :: (match x.scales with
    | some v => [v.elemSpan (scaleIndex idx)]
    | none => [])

/-- The fill of a source (R226, R236). -/
def fillFetch (x : Scaled) (pad bad : Bool) : Fetch := ⟨x.t.fill, 0x7F, pad, bad, []⟩

/-- The exact value of a fetched code in its format (R231). -/
def Fetch.value (f : Fetch) (fmt : Fmt) : Num := if fmt.mx then scaledElem fmt f.code f.scale else decodeNum fmt f.code

/-- A fetched element in a destination format without blocks: bits unchanged where the formats are equal, saturation at the limits
of an integer format (R231). -/
def Fetch.convert (f : Fetch) (src dst : Fmt) : Written :=
  if src = dst then ⟨f.code, false, false⟩
  else if dst.float.isNone then
    let e := saturate dst (f.value src)
    ⟨e.code, (f.value src).isNan, e.overflow⟩
  else writePlain dst none (f.value src) false

/-! ### Counting -/

/-- Counts n elements written, in units of 1,024 (R244). -/
def State.mvElements (s : State) (m n : Nat) : State :=
  let k := kget s.disp.marvers m 0 + n
  let s := { s with disp := { s.disp with marvers := kset s.disp.marvers m (k % 1024) } }
  s.bumpBy (Regs.mvElements m) (k / 1024)

/-- The line buffer (R237): lines newest first, hits and reads. -/
structure LineBuffer where
  lines : List Nat := []
  hits : Nat := 0
  reads : Nat := 0
  deriving DecidableEq, Repr

/-- One source line asked for. -/
def LineBuffer.use (b : LineBuffer) (l : Nat) : LineBuffer :=
  if b.lines.contains l then { b with lines := l :: b.lines.filter (· != l), hits := b.hits + 1 }
  else { b with lines := (l :: b.lines).take 64, reads := b.reads + 1 }

/-- Counts the lines of a work order's fetches in their order. -/
def State.mvLines (s : State) (m : Nat) (fs : List Fetch) : State :=
  let b := (fs.flatMap (·.lines)).foldl LineBuffer.use {}
  (s.bumpBy (Regs.mvLineHits m) b.hits).bumpBy (Regs.mvLineReads m) b.reads

/-- Counts NaN and overflowed results (R231). -/
def State.mvResults (s : State) (m : Nat) (ws : List Written) : State :=
  (s.bumpBy (Regs.mvNanOut m) (ws.filter (·.nan)).length).bumpBy (Regs.mvOverflowOut m) (ws.filter (·.overflow)).length

/-! ### Writing -/

/-- Marks a destination element as poison. -/
def State.poisonElem (s : State) (t : Tensor) (idx : List Nat) : State :=
  let (a, b) := t.place idx
  s.pokePoison a.toNat (t.width b)

/-- The element places of a port layout beyond the logical sizes receive zeros (R233). -/
def State.zeroBeyond (s : State) (ag : Agent) (t : Tensor) : State :=
  if t.layout = 0 then s
  else
    let (d, u) := t.fmt.chunk
    let s := (List.range t.alloc).foldl (fun s m => (List.range (t.chunks * d)).foldl (fun s k =>
      if k < t.size 0 ∧ m < t.size 1 then s else s.setElem ag t [k, m] 0) s) s
    if t.fmt.bits = 6 then
      (List.range (t.chunks * t.alloc * u)).foldl (fun s l => s.put ag (t.base + 64 * l + 48) (List.replicate 16 0)) s
    else s

/-- The places that `zeroBeyond` writes. -/
def Tensor.beyond (t : Tensor) : List (Int × Nat) :=
  if t.layout = 0 then []
  else
    let (d, u) := t.fmt.chunk
    (List.range t.alloc).flatMap (fun m => ((List.range (t.chunks * d)).filter (fun k => !decide (k < t.size 0 ∧ m < t.size 1))).map
      (fun k => t.elemSpan [k, m]))
    ++ (if t.fmt.bits = 6 then (List.range (t.chunks * t.alloc * u)).map (fun l => (((t.base + 64 * l + 48 : Nat) : Int), 16)) else [])

/-- The mask bit of a destination element (R228): its byte and its bit. An element narrower than a byte counts by its bit offset
(log 60). -/
def maskPlace (t : Tensor) (idx : List Nat) : Int × Nat :=
  let (a, b) := t.place idx
  let n := ((a - t.base) * 8 + b) / (t.fmt.bits : Int)
  ((t.mask : Int) + n / 8, (n % 8).toNat)

/-- The mask bytes of a destination. -/
def maskSpan (t : Tensor) : List (Int × Nat) :=
  let bs := t.indices.map (fun i => (maskPlace t i).1)
  match bs with
  | [] => []
  | b :: r =>
    let lo := r.foldl min b
    let hi := r.foldl max b
    [(lo, (hi - lo + 1).toNat)]

def State.maskSet (s : State) (t : Tensor) (idx : List Nat) : Bool :=
  let (a, b) := maskPlace t idx
  bit (ofLe (s.peek a.toNat 1)) b

def State.setMask (s : State) (ag : Agent) (t : Tensor) (idx : List Nat) : State :=
  let (a, b) := maskPlace t idx
  s.put ag a.toNat (toLe 1 (setBit (ofLe (s.peek a.toNat 1)) b true))

/-- Sets the mask bits of the valid elements of a row from the k-th on (R228). -/
def State.maskRow (s : State) (ag : Agent) (t : Tensor) (outer : List Nat) (k : Nat) (fs : List Fetch) : State :=
  (fs.zipIdx k).foldl (fun s (f, j) => if f.pad then s else s.setMask ag t (j :: outer)) s

/-- One row of an MX destination, cut into blocks (R149, R232): the elements, and one scale code for each block. -/
def State.writeMxRow (s : State) (ag : Agent) (m : Nat) (src : Fmt) (d : Scaled) (outer : List Nat) (fs : List Fetch)
    (masks keep : Bool) : State :=
  ((piecesOf 32 fs fs.length).zipIdx).foldl (fun s (piece, k) =>
    let (sc, ws) := if keep then ((piece.headD ⟨0, 0x7F, false, false, []⟩).scale, piece.map (fun f => (⟨f.code, false, false⟩ : Written)))
      else writeBlock d.t.fmt (piece.map (fun f => (f.value src, none))) false
    let s := s.setRun ag d.t outer (32 * k) (ws.map (·.code))
    let s := match d.scales with
      | some v => s.setElem ag v (k :: outer) sc
      | none => s
    let s := if piece.any (·.bad) then
        let s := (List.range piece.length).foldl (fun s j => s.poisonElem d.t ((32 * k + j) :: outer)) s
        (match d.scales with
          | some v => s.poisonElem v (k :: outer)
          | none => s)
      else s
    (if masks then s.maskRow ag d.t outer (32 * k) piece else s).mvResults m ws) s

/-- What MV_TRANSFORM has done so far: elements written and pad elements skipped. -/
structure MvDone where
  s : State
  written : Nat := 0
  skipped : Nat := 0

/-- One element of a destination without blocks (R227–R229). -/
def MvDone.write (x : MvDone) (ag : Agent) (m : Nat) (src : Fmt) (t : Tensor) (masks : Bool) (idx : List Nat) (f : Fetch) : MvDone :=
  let skip := f.pad && (decide (t.pad = 0) || (decide (t.pad = 2) && x.s.maskSet t idx))
  if skip then { x with skipped := x.skipped + 1 }
  else
    let w := f.convert src t.fmt
    let s := (x.s.setElem ag t idx w.code).mvResults m [w]
    let s := if f.bad then s.poisonElem t idx else s
    { x with s := if masks && !f.pad then s.setMask ag t idx else s, written := x.written + 1 }

/-- Writes every element of a destination in ascending dense order: `fetch` gives each one's source. -/
def State.mvWrite (s : State) (ag : Agent) (m : Nat) (src : Fmt) (d : Scaled) (masks keep : Bool) (fetch : List Nat → Fetch) : MvDone :=
  let s := s.zeroBeyond ag d.t
  if d.t.fmt.mx then
    let s := d.t.rows.foldl (fun s r =>
      s.writeMxRow ag m src d r ((List.range (d.t.size 0)).map (fun k => fetch (k :: r))) masks keep) s
    { s := s, written := d.t.count }
  else d.t.indices.foldl (fun x idx => x.write ag m src d.t masks idx (fetch idx)) { s := s }

/-! ### Running -/

/-- A Marver item that met no answer: what its destination covers is undefined (R242). -/
def State.mvGone (s : State) (i : Item) (f : Finish) : State := (s.forgetItem i).setFinish i f

/-- The elements read pass through the line buffer: a word of it that the code cannot correct gives the data of some element, which one
is a free value (log 15), as poison (R359, R371). -/
def Touched.buffered (t : Touched) (ag : Agent) (read : List (Int × Nat)) : Touched :=
  match ag, read with
  | .marver m, p :: r =>
    match t.s.touchArray (.lineBuffer (Fin.ofNat 4 m)) with
    | (s, none) => { t with s := s }
    | (s, some e) =>
      let (x, s) := s.draw
      let q := (p :: r).getD (x % (r.length + 1)) p
      { t with s := s, bad := t.bad ++ [(q.1.toNat, q.2)], entry := t.entry.orElse (fun _ => some e) }
  | _, _ => t

/-- Reads what comes first (index entries, masks), then the elements that this names: nothing else of a source is read (R233,
R242). -/
def State.mvReads (s : State) (i : Item) (ag : Agent) (first : List (Int × Nat)) (elems : State → List (Int × Nat)) : Touched :=
  let t := s.touch i ag first
  if t.gone.isSome then t
  else
    let read := elems t.s
    let u := (t.s.touch i ag (joinSpans read)).buffered ag read
    { u with bad := t.bad ++ u.bad, entry := t.entry.orElse (fun _ => u.entry) }

/-- Words and bursts every byte of which an item rewrites are healed (R359): poison stays exactly where its source has it (R370). -/
def State.heals (s : State) (written : List (Int × Nat)) : State :=
  let covered (g : Nat) : Bool := (List.range (granule g)).all (fun j => written.any (fun p =>
    let v := seenAs p.1.toNat g + j
    decide (p.1.toNat ≤ v) && decide (v < p.1.toNat + p.2)))
  { s with mem := ((s.mem.poison ++ s.mem.flaws.map (·.1)).filter covered).foldl Memory.heal s.mem }

/-- Reads the sources, finds what is written answering (`writes` the destination elements, `masks` the mask bytes), and runs; poison met
ends the item with UNCORRECTED_ERROR (R370). -/
def State.mvRun (s : State) (i : Item) (ag : Agent) (first : List (Int × Nat)) (elems : State → List (Int × Nat))
    (writes : State → List (Int × Nat)) (masks : List (Int × Nat)) (run : State → List (Nat × Nat) → State × Nat) : State :=
  let t := s.mvReads i ag first elems
  match t.gone with
  | some f => t.s.mvGone i f
  | none =>
    let written := writes t.s
    match t.s.landing i ag (written ++ masks) with
    | (s, some f) => s.mvGone i f
    | (s, none) =>
      let (s, aux) := run (s.heals written) t.bad
      s.setFinish i (match t.entry with
        | some e => finUncorrected e
        | none => finDone (min aux (2 ^ 32 - 1)))

/-- Whether an item is over its limit (R241). -/
def Item.overLimit (i : Item) (n : Nat) : Bool := decide (2 ^ 32 - 1 < n) || (decide (2 ≤ i.cls) && decide (2 ^ 24 < n))

/-- R231: E8M0 pairs only with E8M0. -/
def scalePair (a b : Fmt) : Bool := decide (a = .e8m0 ↔ b = .e8m0)

/-! ### MV_TRANSFORM (R224–R230) -/

def Item.perm (i : Item) (k : Nat) : Nat := i.field (226 + 3 * k) (224 + 3 * k)
def Item.off (i : Item) (k : Nat) : Int := toSigned 32 (i.field (287 + 32 * k) (256 + 32 * k))

/-- The source index of a destination index; none for a pad element (R224). -/
def Item.sourceIndex (i : Item) (src : Tensor) (idx : List Nat) : Option (List Nat) :=
  let v := idx.zipIdx.map (fun (j, k) => (i.perm k, (j : Int) + i.off k))
  let at_ (d : Nat) : Int := ((v.find? (fun e => decide (e.1 = d))).map (·.2)).getD 0
  if (List.range src.rank).all (fun d => decide (0 ≤ at_ d) && decide (at_ d < src.size d)) then
    some ((List.range src.rank).map (fun d => (at_ d).toNat))
  else none

/-- Whether some destination element is a pad element: the corners of the window decide. -/
def Item.hasPads (i : Item) (src dst : Tensor) : Bool :=
  (List.range dst.rank).any (fun k => decide (i.off k < 0) || decide ((src.size (i.perm k) : Int) < dst.size k + i.off k))

/-- Operands of MV_TRANSFORM. -/
structure TransformArgs where
  src : Scaled
  dst : Scaled

/-- Whether a mask is used. -/
def Item.usesMask (i : Item) (dst : Tensor) : Bool := bit i.rec0 32 || decide (dst.pad = 2)

/-- Checks on masks and the pad policy (R228, R230); a mask in the sealed region is logged as R25 says. -/
def State.checkPads (s : State) (i : Item) (ag : Agent) (src dst : Tensor) : State × Option Finish :=
  let pads := i.hasPads src dst
  let blocky := dst.fmt.narrow || dst.fmt.mx
  if pads && (decide (dst.pad = 0) || decide (dst.pad = 2)) && blocky then (s, some (finBad 11 3))
  else if dst.pad = 2 ∧ (dst.fmt.narrow = true ∨ dst.layout ≠ 0 ∨ dst.indices.any (fun x => decide ((dst.place x).1 < dst.base))) then
    (s, some (finBad 11 3))
  else if !i.usesMask dst then (s, none)
  else match s.checkSpans i ag (maskSpan dst) true 3 with
    | (s, some f) => (s, some (if dst.pad = 2 then finBad 11 3 else f))
    | (s, none) => (s, none)

/-- Whether some spans meet the extent of an operand. -/
def spansMeet (sp : List (Int × Nat)) (x : Scaled) : Bool :=
  sp.any (fun p => (x.t :: x.scales.toList).any (fun t => decide (p.1 < t.extent.2) && decide (t.extent.1 < p.1 + p.2)))

/-- The checks of MV_TRANSFORM. -/
def checkTransform (ag : Agent) (s : State) (i : Item) : Checked TransformArgs :=
  match s.scaledOperand i ag 64 1 false with
  | (s, .error f) => (s, .error f)
  | (s, .ok a) =>
    match s.scaledOperand i ag 144 3 true with
    | (s, .error f) => (s, .error f)
    | (s, .ok d) =>
      let r := d.t.rank
      let perms := (List.range r).map i.perm
      if a.t.rank ≠ r then (s, .error (finBad 11 2))
      else if !(List.range r).all (fun k => perms.contains k) then (s, .error (finBad 11 1))
      else if !scalePair a.t.fmt d.t.fmt then (s, .error (finBad 8 3))
      else match s.checkPads i ag a.t d.t with
        | (s, some f) => (s, .error f)
        | (s, none) =>
          if a.meets d || (i.usesMask d.t && spansMeet (maskSpan d.t) a) then (s, .error (finBad 8 3))
          else if i.overLimit d.t.count then (s, .error (finBad 10 3))
          else (s, .ok ⟨a, d⟩)

/-- Whether elements and scales move unchanged (R232). -/
def Item.keepsBlocks (i : Item) (src dst : Tensor) : Bool :=
  decide (src.fmt = dst.fmt) && src.fmt.mx && decide (i.perm 0 = 0) && decide (i.off 0 % 32 = 0) && decide (src.size 0 = dst.size 0)
  && !i.hasPads src dst

/-- The destination elements that MV_TRANSFORM writes: pad elements may be left as they are (R227, R228). -/
def Item.transformed (i : Item) (a : TransformArgs) (s : State) : List (Int × Nat) :=
  let pad (idx : List Nat) : Bool := (i.sourceIndex a.src.t idx).isNone
  let skipped (idx : List Nat) : Bool := pad idx && (decide (a.dst.t.pad = 0) || (decide (a.dst.t.pad = 2) && s.maskSet a.dst.t idx))
  if a.dst.t.indices.any skipped then (a.dst.t.indices.filter (fun x => !skipped x)).map a.dst.t.elemSpan else a.dst.spans

/-- The effect of MV_TRANSFORM. -/
def State.transform (s : State) (m : Nat) (ag : Agent) (i : Item) (a : TransformArgs) : State :=
  let maskOf (pads : Bool) : List (Int × Nat) :=
    (a.dst.t.indices.filter (fun x => (i.sourceIndex a.src.t x).isNone == pads)).map (fun x => ((maskPlace a.dst.t x).1, 1))
  let elems (_ : State) := (a.dst.t.indices.filterMap (i.sourceIndex a.src.t)).flatMap a.src.elemSpans
  s.mvRun i ag (if a.dst.t.pad = 2 then maskOf true else []) elems (i.transformed a) (if bit i.rec0 32 then maskOf false else []) (fun s bad =>
    let src := s
    let fetch (idx : List Nat) : Fetch := match i.sourceIndex a.src.t idx with
      | some j => src.fetchElem a.src bad j
      | none => fillFetch a.src true false
    let fs := a.dst.t.indices.map fetch
    let pads := (fs.filter (·.pad)).length
    let x := s.mvWrite ag m a.src.t.fmt a.dst (bit i.rec0 32) (i.keepsBlocks a.src.t a.dst.t) fetch
    (((((x.s.mvElements m x.written).mvLines m fs).bumpBy (Regs.mvPadElements m) pads).bumpBy (Regs.mvPadSkipped m) x.skipped), pads))

/-- MV_TRANSFORM. -/
def execMvTransform (m : Fin 4) (s : State) : Res :=
  .next (s.runItem ⟨.marver m, .marver⟩ 0x20 (checkTransform (.marver m.val)) (fun s i a => s.transform m.val (.marver m.val) i a))

/-! ### MV_GATHER (R234–R237) -/

/-- Operands of a gather or scatter. -/
structure IndexedArgs where
  src : Scaled
  dst : Scaled
  index : Tensor

def Item.dim (i : Item) : Nat := i.field 34 32

/-- The sizes of the wide side: the narrow side's with those of INDEX in place of dimension d. -/
def wideSizes (narrow index : List Nat) (d : Nat) : List Nat := narrow.take d ++ index ++ narrow.drop (d + 1)

/-- The INDEX position and the narrow side's other indices of a wide index. -/
def splitIndex (d ri : Nat) (idx : List Nat) : List Nat × (Nat → List Nat) :=
  ((idx.drop d).take ri, fun x => idx.take d ++ [x] ++ idx.drop (d + ri))

/-- Entry of INDEX, signed. -/
def State.entry (s : State) (t : Tensor) (idx : List Nat) : Int := toSigned 32 (s.elem t idx)

/-- The checks that both opcodes share; `narrow` is the side that DIM indexes. -/
def checkIndexed (ag : Agent) (scatter : Bool) (s : State) (i : Item) : Checked IndexedArgs :=
  match s.scaledOperand i ag 64 1 false with
  | (s, .error f) => (s, .error f)
  | (s, .ok a) =>
    match (if scatter then
        (match s.descriptor i ag (i.field 183 144) 3 true with
          | (s, .ok t) => ((s, .ok ⟨t, none⟩) : Checked Scaled)
          | (s, .error f) => (s, .error f))
      else s.scaledOperand i ag 144 3 true) with
    | (s, .error f) => (s, .error f)
    | (s, .ok d) =>
      match s.descriptor i ag (i.field 263 224) 5 false with
      | (s, .error f) => (s, .error f)
      | (s, .ok x) =>
        let narrow := if scatter then d.t else a.t
        let wide := if scatter then a.t else d.t
        let comb := i.field 36 35
        if x.fmt ≠ .int32 ∨ x.layout ≠ 0 ∨ 4 < x.rank then (s, .error (finBad 11 4))
        else if narrow.rank ≤ i.dim then (s, .error (finBad 11 6))
        else if wide.rank ≠ narrow.rank - 1 + x.rank ∨ 5 < narrow.rank - 1 + x.rank then (s, .error (finBad 11 2))
        else if scatter && (d.t.fmt.narrow || d.t.fmt.mx || (decide (2 ≤ comb) && decide (d.t.fmt ≠ .fp32) && decide (d.t.fmt ≠ .int32))) then
          (s, .error (finBad 11 5))
        else if wide.sizes ≠ wideSizes narrow.sizes x.sizes i.dim then (s, .error (finBad 8 (if scatter then 1 else 3)))
        else if !scalePair a.t.fmt d.t.fmt || a.meets d || d.meets ⟨x, none⟩ then (s, .error (finBad 8 3))
        else if i.overLimit wide.count then (s, .error (finBad 10 (if scatter then 1 else 3)))
        else (s, .ok ⟨a, d, x⟩)

/-- Entries of INDEX out of bounds (R236). -/
def State.oobEntries (s : State) (x : Tensor) (n : Nat) : Nat :=
  (x.indices.filter (fun k => decide (s.entry x k < 0) || decide ((n : Int) ≤ s.entry x k))).length

/-- The narrow-side index that the entry at a wide index names, if it is in bounds (R235, R236, R238). -/
def State.named (s : State) (i : Item) (x : Tensor) (n : Nat) (idx : List Nat) : Option (List Nat) :=
  let (pos, other) := splitIndex i.dim x.rank idx
  let e := s.entry x pos
  if e < 0 ∨ (n : Int) ≤ e then none else some (other e.toNat)

/-- The effect of MV_GATHER. -/
def State.gather (s : State) (m : Nat) (ag : Agent) (i : Item) (a : IndexedArgs) : State :=
  let elems (s : State) := (a.dst.t.indices.filterMap (s.named i a.index (a.src.t.size i.dim))).flatMap a.src.elemSpans
  s.mvRun i ag a.index.spans elems (fun _ => a.dst.spans) [] (fun s bad =>
    let src := s
    let n := a.src.t.size i.dim
    let fetch (idx : List Nat) : Fetch :=
      let badEntry := a.index.badElem bad (splitIndex i.dim a.index.rank idx).1
      match src.named i a.index n idx with
      | none => fillFetch a.src false badEntry
      | some k =>
        let f := src.fetchElem a.src bad k
        { f with bad := f.bad || badEntry }
    let oob := src.oobEntries a.index n
    let x := s.mvWrite ag m a.src.t.fmt a.dst false false fetch
    (((x.s.mvElements m x.written).mvLines m (a.dst.t.indices.map fetch)).bumpBy (Regs.mvOobEntries m) oob, oob))

/-- MV_GATHER. -/
def execMvGather (m : Fin 4) (s : State) : Res :=
  .next (s.runItem ⟨.marver m, .marver⟩ 0x21 (checkIndexed (.marver m.val) false) (fun s i a => s.gather m.val (.marver m.val) i a))

/-! ### MV_SCATTER (R238, R239) -/

/-- INT32 addition, saturating. -/
def addInt32 (a b : Nat) : Nat := ofSigned 32 (max (-(2 ^ 31 : Int)) (min (2 ^ 31 - 1) (toSigned 32 a + toSigned 32 b)))

/-- What COMBINE 2 and 3 write. -/
def combine (c : Nat) (f : Fmt) (old new : Nat) : Nat :=
  if c = 2 then (if f = .fp32 then fadd old new else addInt32 old new)
  else if c = 3 then (if f = .fp32 then fmax old new else if toSigned 32 old < toSigned 32 new then new else old)
  else new

/-- A scatter while its writes are applied: destination elements reached, writes made, collisions. -/
structure Scatter where
  s : State
  reached : List (List Nat) := []
  written : Nat := 0
  collisions : Nat := 0

/-- One write of a scatter. -/
def Scatter.apply (x : Scatter) (ag : Agent) (m comb : Nat) (src : Fmt) (t : Tensor) (idx : List Nat) (f : Fetch) : Scatter :=
  let again := x.reached.contains idx
  let x := { x with collisions := x.collisions + (if again then 1 else 0), reached := if again then x.reached else idx :: x.reached }
  if again && decide (comb = 1) then x
  else
    let w := f.convert src t.fmt
    let s := (x.s.setElem ag t idx (combine comb t.fmt (x.s.elem t idx) w.code)).mvResults m [w]
    { x with s := if f.bad then s.poisonElem t idx else s, written := x.written + 1 }

/-- The effect of MV_SCATTER; a write whose entry is poisoned is dropped with the entry. -/
def State.scatter (s : State) (m : Nat) (ag : Agent) (i : Item) (a : IndexedArgs) : State :=
  let comb := i.field 36 35
  let elems (s : State) := a.src.t.indices.flatMap a.src.elemSpans
    ++ (if 2 ≤ comb then (a.src.t.indices.filterMap (s.named i a.index (a.dst.t.size i.dim))).map a.dst.t.elemSpan else [])
  let reached (s : State) := (a.src.t.indices.filterMap (s.named i a.index (a.dst.t.size i.dim))).map a.dst.t.elemSpan ++ a.dst.t.beyond
  s.mvRun i ag a.index.spans elems reached [] (fun s bad =>
    let src := s
    let n := a.dst.t.size i.dim
    let s := s.zeroBeyond ag a.dst.t
    let x := a.src.t.indices.foldl (fun x idx =>
      match (if a.index.badElem bad (splitIndex i.dim a.index.rank idx).1 then none else src.named i a.index n idx) with
      | none => x
      | some dest =>
        let f := src.fetchElem a.src bad idx
        let old := decide (2 ≤ comb) && a.dst.t.badElem bad dest
        x.apply ag m comb a.src.t.fmt a.dst.t dest { f with bad := f.bad || old }) ({ s := s } : Scatter)
    let oob := src.oobEntries a.index n
    let s := (x.s.mvElements m x.written).mvLines m (a.src.t.indices.map (src.fetchElem a.src bad))
    ((s.bumpBy (Regs.mvOobEntries m) oob).bumpBy (Regs.mvScatterCollisions m) x.collisions, oob))

/-- MV_SCATTER. -/
def execMvScatter (m : Fin 4) (s : State) : Res :=
  .next (s.runItem ⟨.marver m, .marver⟩ 0x22 (checkIndexed (.marver m.val) true) (fun s i a => s.scatter m.val (.marver m.val) i a))

end Sys2Proof.Machine
end

