-- ==== Sys2Proof/Machine/Power.lean ====
section
/-! DEFINITION. The power controller (chapter 15, R7, R495–R499): power states and their changes, the cap, going to sleep, waking, and
the supplies, clocks and resets outside. -/

namespace Sys2Proof.Machine

def State.setPower (s : State) (v : PowerCtl) : State := { s with power := v }

/-! ### Requests (R442–R445) -/

/-- The target codes (R191) of the units in a power domain. -/
def unitCodes (d : Nat) : List Nat :=
  if 2 ≤ d ∧ d ≤ 33 then [d - 2, 32 + (d - 2) / 2]
  else if 34 ≤ d ∧ d ≤ 37 then [48 + (d - 34)]
  else if d = 38 ∨ d = 39 then [52]
  else if d = 41 then [53]
  else if d = 1 then [54]
  else []

/-- The lowest of the rings with an item for which a test holds. -/
def State.lowestRing (s : State) (p : Item → Bool) : Option Nat :=
  match (s.disp.items.filter p).map (·.ring) with
  | [] => none
  | r :: rs => some (rs.foldl min r)

/-- A ring with an item at a unit of power domain d. -/
def State.holder (s : State) (d : Nat) : Option Nat :=
  s.lowestRing (fun i => match i.lane with
    | some l => decide (targetCodeOf l.target ∈ unitCodes d)
    | none => false)

/-- The refusal of a request under R443: the first row that applies; `want d` is the state asked for. -/
def State.pdRefused (s : State) (want : Nat → Option PdState) : Option Reply :=
  let named := (List.range 47).filter (fun d => (want d).isSome)
  let final (d : Nat) : PdState := (want d).getD (s.pdFinal d)
  let first (p : Nat → Option Reply) : Option Reply := named.findSome? p
  let keeperArmed := s.flag Regs.kpArmed
  let rows : List (Option Reply) :=
    [ first (fun d => if (d = 0 ∧ final d ≠ .on) ∨ (d = 1 ∧ final d = .retention) then some outOfRange else none),
      first (fun d => if d = 1 ∧ final d = .off ∧ keeperArmed = true then some (conflictKind 13 0x400) else none),
      first (fun d => if d = 45 ∧ final d ≠ .on then some (conflictKind 10 45) else none),
      first (fun d => if 2 ≤ d ∧ d ≤ 33 ∧ s.formed ((d - 2) / 2) = true then some (conflictKind 9 ((d - 2) / 2)) else none),
      first (fun d => if 2 ≤ d ∧ d ≤ 33 ∧ s.fenced (d - 2) = true then some (conflictKind 8 (d - 2)) else none),
      first (fun d => if (s.pd d).forced = true ∧ (s.pd d).target.isSome = true then some (conflictKind 10 d) else none),
      first (fun d => if final d ≠ .on ∧ s.pdFinal d = .on then (s.holder d).map (conflictKind 6) else none),
      if final 41 = .on then none
      else ((List.range 46).map (· + 1)).findSome? (fun d => if d ≠ 41 ∧ final d = .on then some (conflictKind 10 d) else none),
      if s.reg Regs.ddrInterleave = 0 ∧ final 42 ≠ final 43 ∧ ((want 42).isSome = true ∨ (want 43).isSome = true) then
        some (conflictKind 10 (if (want 42).isSome then 43 else 42))
      else none ]
  rows.findSome? id

/-- Asks for the changes of one write; none begins before the response is sent (R442, R452). -/
def State.requestPds (s : State) (want : Nat → Option PdState) : State :=
  let b := s.power.batch + 1
  leavingOrder.foldl (fun s d => match want d with
    | some v => s.requestPd d v b
    | none => s) (s.setPower { s.power with batch := b })

/-- The effect of an accepted request: PD_REQUEST holds it. -/
def State.hostRequests (s : State) (want : Nat → Option PdState) : Except Reply State :=
  match s.pdRefused want with
  | some e => .error e
  | none =>
    let s := (List.range 47).foldl (fun s d => match want d with
      | some v => s.setReg (Regs.pdRequest d) v.code
      | none => s) s
    .ok (s.requestPds want)

/-- PD_REQUEST of one power domain. -/
def hookPdRequest (d : Nat) : Hook := fun s _ data =>
  s.hostRequests (fun k => if k = d then some (pdStateOf (ofLe data)) else none)

/-- PWR_DOMAIN_SET: bytes 0, 1, 2 or 0xFF. -/
def hookDomainSet : Hook := fun s _ data =>
  if data.any (fun b => !([0, 1, 2, 0xFF].contains b.toNat)) then .error outOfRange
  else s.hostRequests (fun d => match data[d]? with
    | some b => if b = 0xFF then none else some (pdStateOf b.toNat)
    | none => none)

def execPdRequest (p : Path) (one : Option (Fin 47)) (data : Bytes) (s : State) : Res :=
  match one with
  | some d => .next (s.writeObject p (0x2110 + d.val) 1 data (hookPdRequest d.val))
  | none => .next (s.writeObject p 0x2100 5 data hookDomainSet)

/-! ### Waking (R458–R460) -/

/-- A wake pin's level after polarity; none while its supply is low (R497). -/
def State.wakeLevel (s : State) (one : Bool) : Bool :=
  let cfg := s.reg (if one then Regs.wake1Cfg else Regs.wake0Cfg)
  s.pins.io33 && ((if one then s.pins.wake1 else s.pins.wake0) != bit cfg 1)

/-- A pin enabled as a level wake and asserted. -/
def State.levelWake (s : State) (one : Bool) : Bool :=
  let cfg := s.reg (if one then Regs.wake1Cfg else Regs.wake0Cfg)
  bit cfg 0 && !bit cfg 2 && s.wakeLevel one

/-- The lowest alarm whose sleep count is reached (R457). -/
def State.alarmDue (s : State) : Option Nat :=
  (List.range 8).find? (fun a => match kfind s.sundial.alarmWake a with
    | some n => decide (n ≤ s.sleepCount)
    | none => false)

/-- Changes a field of PWR_LAST_WAKE. -/
def State.wakeField (s : State) (hi lo v : Nat) : State :=
  s.setBlob Blobs.pwrLastWake (toLe 16 (setBits (ofLe (s.blob Blobs.pwrLastWake (toLe 16 0xFF00))) hi lo v))

/-- R458: the record of a wake event; `smb` the address matched, `edge` the pin whose edge it was. -/
def State.recordWake (s : State) (smb : Option Nat) (edge : Option Bool) : State :=
  let w0 := s.levelWake false || decide (edge = some false)
  let w1 := s.levelWake true || decide (edge = some true)
  let pend := (if smb.isSome then 1 else 0) + (if w0 then 2 else 0) + (if w1 then 4 else 0) + (if s.alarmDue.isSome then 8 else 0)
  let source := if smb.isSome then 1 else if w0 then 2 else if w1 then 3 else 4
  let alarm := if source = 4 then s.alarmDue.getD 255 else 255
  s.setBlob Blobs.pwrLastWake (toLe 16 (source + alarm <<< 8 + pend <<< 16 + (s.sleepCount % 2 ^ 48) <<< 32 + (smb.getD 0) <<< 80))

/-- PWR_WAKE_SET: under 8-way interleave both DDR5 pairs have one state (R404). -/
def hookWakeSet : Hook := rangeFirst (fun _ data => data.all (fun b => decide (b.toNat ≤ 2))) (fun s p data =>
  if s.reg Regs.ddrInterleave = 0 ∧ data.getD 42 0 ≠ data.getD 43 0 then .error (conflictKind 10 43) else storeHook 0x2101 2 s p data)

/-- The byte of the wake set that holds for power domain d: where the interleave has become 8-way since the set was written, that of the
DDR5 pair that is to be more on (DESIGN CHOICE, log 42). -/
def State.wakeByte (s : State) (d : Nat) : Nat :=
  let set_ := s.blob Blobs.pwrWakeSet (List.replicate 47 0)
  if s.reg Regs.ddrInterleave = 0 ∧ (d = 42 ∨ d = 43) then min (set_.getD 42 0).toNat (set_.getD 43 0).toNat else (set_.getD d 0).toNat

/-- Step 7 of R459: every power domain takes its state of PWR_WAKE_SET. One set to retention that is off stays off, and so do a
fenced gaffer and a Gardener that R343 has left off; power domain 1 has no retention. Where nothing is running, a start begins. -/
def State.wakeDomains (s : State) : State :=
  let want (d : Nat) : Option PdState :=
    let v := pdStateOf (s.wakeByte d)
    if d = 0 ∨ (v = .retention ∧ (s.pdFinal d = .off ∨ d = 1)) ∨ (2 ≤ d ∧ d ≤ 33 ∧ s.fenced (d - 2) = true)
      ∨ (d = 45 ∧ s.keeper.gardenerOff = true) then none else some v
  let s := s.setPower { s.power with phase := .waking 7, since := s.now, wakeDue := false, tries := 0, gatehouseTry := false }
  if s.boot.phase = .held then (s.setPower { s.power with phase := .awake, doorbellsShut := false }).beginStart
  else s.requestPds want

/-- A wake event during steps 1 and 2 of R453: a change in progress completes, and none that has not begun goes on. -/
def State.cutEntry (s : State) : State :=
  let changing := leavingOrder.filter (fun d => (s.pd d).target.isSome && !(s.pd d).forced)
  let s := (changing.filter (fun d => !(s.pd d).begun)).foldl (fun s d => s.settlePd d (s.pd d).state) s
  let s := s.setPower { s.power with wakeDue := true }
  if changing.any (fun d => (s.pd d).target.isSome && (s.pd d).begun) then s else s.wakeDomains

/-- A wake event (R453, R454, R458, R459). -/
def State.wakeEvent (s : State) (smb : Option Nat) (edge : Option Bool) : State :=
  match s.power.phase with
  | .entering 3 => if smb.isSome ∧ s.power.wakeDue = false then (s.recordWake smb edge).setPower { s.power with wakeDue := true } else s
  | .entering _ => if s.power.wakeDue then s else (s.recordWake smb edge).cutEntry
  | .asleep => (s.recordWake smb edge).setPower { s.power with phase := .waking 1, since := s.now, tries := 0, gatehouseTry := false }
  | _ => s

/-- A wake pin has become active: a trigger in the ignition or unlock role (R456, R480), and a wake where it is enabled. -/
def State.pinActive (s : State) (one : Bool) : State :=
  let cfg := s.reg (if one then Regs.wake1Cfg else Regs.wake0Cfg)
  let s := if bits cfg 4 3 = 1 ∨ bits cfg 4 3 = 2 then s.trigger (if one then 3 else 2) (s.reg Regs.leaseExportBudget) else s
  if bit cfg 0 then s.wakeEvent none (if bit cfg 2 then some one else none) else s

/-- PD_TRANSITION_COMPLETE (R445): the present step of a change ends; one that waited for its place in the order of R442 begins first. A
fence's power-off ends with FENCE_POWER_OFF. -/
def execPdTransitionComplete (d : Fin 47) (s : State) : Res :=
  let n := d.val
  match (s.pd n).target, (if (s.pd n).forced then s.forcedChange n else (s.pd n).target) with
  | some t, some _ =>
    let s := if !(s.pd n).begun && s.mayStart n t then s.pdStarts n else s
    if !(s.pd n).begun || !s.stepMayEnd n t then .next s
    else
      let s := s.pdStepDone n
      if s.power.phase = .entering 2 ∧ s.power.wakeDue = true ∧ leavingOrder.all (fun x => (s.pd x).target.isNone || (s.pd x).forced) then
        .next s.wakeDomains
      else .next s
  | _, _ => .next s

/-! ### The cap (R447) -/

/-- The mean of the last 1 ms in mW, from the estimates there are, as a sum and their number. -/
def State.overCap (s : State) : Bool :=
  decide (s.reg Regs.pwrCap * 1000 * s.power.samples.length < s.power.samples.foldl (· + ·) 0)
def State.underCap (s : State) : Bool :=
  decide (s.power.samples.foldl (· + ·) 0 + 2000 * s.power.samples.length < s.reg Regs.pwrCap * 1000 * s.power.samples.length)

/-- The plot groups that are on, by their gaffer; a chair's is that of its even gaffer. -/
def State.plotGroups (s : State) : List Nat :=
  (List.range 32).filter (fun g => s.pdOn (gafferPd g) && !(decide (g % 2 = 1) && s.formed (g / 2)))

/-- Whether a group executes a class-0 item. -/
def State.classZeroAt (s : State) (g : Nat) : Bool :=
  s.disp.items.any (fun i => i.readable && decide (i.cls = 0) && i.phase == .executing && (match i.lane with
    | some l => decide (targetCodeOf l.target = (if s.formed (g / 2) then 32 + g / 2 else g))
    | none => false))

/-- The place of a group in the order of R447: the group with the highest is lowered first and raised last. -/
def State.capRank (s : State) (g : Nat) : Nat :=
  (if s.classZeroAt g then 0 else 1000) + 32 * s.reg (Regs.gafferLevelNow g) + g

/-- The level in force of a group, both halves of a chair, and PWR_CAP_HELD, of both halves too. -/
def State.setLevelNow (s : State) (g v : Nat) : State :=
  let s := (s.setGaffer g { s.gaffer g with raiseTo := none }).setReg (Regs.gafferLevelNow g) v
  let s := if s.formed (g / 2) then s.setReg (Regs.gafferLevelNow (g + 1)) v else s
  (s.setCapHeld g (decide (v < s.reg (Regs.gafferLevel g)))).setVcore

/-- The group of a list for which a rank is highest. -/
def highestBy (rank : Nat → Nat) : List Nat → Option Nat
  | [] => none
  | g :: gs => some (gs.foldl (fun m x => if rank m < rank x then x else m) g)

/-- POWER_CAP_TICK, every 100 µs: `mW` is the estimate of the device's input power. -/
def execPowerCapTick (mW : Nat) (s : State) : Res :=
  let due := s.periodDue s.power.capAt 100000
  let s := if due then s.setPower { s.power with samples := (mW :: s.power.samples).take 10, capAt := some s.now } else s
  if !due then .next s
  else if s.overCap then
    match highestBy s.capRank (s.plotGroups.filter (fun g => decide (s.reg (Regs.gafferLevelNow g) ≠ 0))) with
    | some g => .next ((s.setLevelNow g (s.reg (Regs.gafferLevelNow g) - 1)).setPower { s.power with overrunTick := 0 })
    | none =>
      let n := s.power.overrunTick + 1
      .next ((s.setPower { s.power with overrunTick := n % 10 }).bumpIf (decide (n = 10)) Regs.pwrCapOverruns)
  else .next (s.setPower { s.power with overrunTick := 0 })

/-- A held group rises by one level; where that needs a higher code of VDD_CORE, the code rises first and the group follows with
LEVEL_CHANGE_COMPLETE (R448). -/
def State.raiseLevel (s : State) (g : Nat) : State :=
  let v := min (s.reg (Regs.gafferLevel g)) (s.reg (Regs.gafferLevelNow g) + 1)
  let t := (s.setGaffer g { s.gaffer g with raiseTo := some v }).beginLevel g
  if (t.gaffer g).levelAt ≤ s.now then s.setLevelNow g v else t

/-- POWER_RAISE_TICK, every 1 ms: one held group rises by one level, in the reverse order. -/
def execPowerRaiseTick (s : State) : Res :=
  if s.power.samples ≠ [] ∧ s.underCap = true ∧ s.periodDue s.power.raiseAt 1000000 = true then
    match highestBy (fun g => 2000 - s.capRank g) (s.plotGroups.filter (fun g => bit (s.reg Regs.pwrCapHeld) g)) with
    | some g => .next ((s.raiseLevel g).setPower { (s.raiseLevel g).power with raiseAt := some s.now })
    | none => .next s
  else .next s

/-- PWR_VCORE_MODE (R448). -/
def hookVcoreMode : Hook := fun s _ data => .ok (s.setReg Regs.pwrVcoreMode (ofLe data)).setVcore

/-! ### Going to sleep (R450–R453) -/

/-- The rows of R450 in µA at 25, 85 and 125 °C: the first three rows, then a power domain's in retention. -/
def aonRow (d : Nat) : Nat × Nat × Nat :=
  if 2 ≤ d ∧ d ≤ 33 then (15, 35, 75)
  else if 34 ≤ d ∧ d ≤ 37 then (4, 9, 20)
  else if d = 38 ∨ d = 39 then (10, 24, 50)
  else if d = 40 then (20, 45, 100)
  else if d = 41 then (30, 70, 150)
  else if d = 42 ∨ d = 43 then (8, 18, 40)
  else if d = 44 then (6, 14, 30)
  else if d = 45 then (10, 22, 50)
  else if d = 46 then (2, 5, 10)
  else (0, 0, 0)

/-- The draw of one row at t °C, 25 ≤ t ≤ 125, in 1/120 µA. -/
def aonAt (t : Nat) (r : Nat × Nat × Nat) : Nat :=
  if t ≤ 85 then 120 * r.1 + 2 * (t - 25) * (r.2.1 - r.1) else 120 * r.2.1 + 3 * (t - 85) * (r.2.2 - r.2.1)

/-- The estimate of R450 for a sleep set in 1/120 µA; above 125 °C, where the table ends, a free value. -/
def State.aonDraw (s : State) (set_ : Bytes) : Nat :=
  let t := ((s.dieTemp + 7) / 8).toNat
  if 125 < t then Config.freeNat s.freeIx
  else
    let t := max 25 t
    let kept := (List.range 47).filter (fun d => decide (set_.getD d 0 = 1) && decide (d ≠ 0))
    let base := aonAt t (350, 600, 1100) + aonAt t (400, 950, 2000) + (if s.flag Regs.sleepClockSrc then aonAt t (20, 20, 20) else 0)
    kept.foldl (fun n d => n + aonAt t (aonRow d)) base

/-- PWR_AON_ESTIMATE in whole µA: the rounding is not stated, so an inexact value may go either way. -/
def State.noteEstimate (s : State) (set_ : Bytes) : State :=
  let x := s.aonDraw set_
  let up := if x % 120 = 0 then 0 else Config.freeNat (s.freeIx + 1) % 2
  ((s.setReg Regs.pwrAonEstimate ((x / 120 + up) % 65536)).skipFree).skipFree

/-- A wake source is enabled (R452). -/
def State.anyWake (s : State) : Bool :=
  bit (s.reg Regs.pwrSmbWake) 15 || bit (s.reg Regs.wake0Cfg) 0 || bit (s.reg Regs.wake1Cfg) 0
  || (List.range 8).any (fun a => s.flag (Regs.alarmArm a) && bit (s.reg (Regs.alarmAction a)) 1)

/-- The refusals of R452 in their order. -/
def State.sleepRefused (s : State) (set_ : Bytes) : Option Reply :=
  if (List.range 46).any (fun i => let b := set_.getD (i + 1) 0; !(decide (b = 1) || decide (b = 2))) || decide (set_.getD 1 0 ≠ 2) then some outOfRange
  else if s.devState ∈ [2, 3, 4, 5] then some (conflictCondition 12)
  else if s.flag Regs.kpArmed then some (conflictKind 13 0x400)
  else match s.lowestRing (fun _ => true) with
    | some r => some (conflictKind 6 r)
    | none =>
      if s.reg Regs.ddrInterleave = 0 ∧ set_.getD 42 0 ≠ set_.getD 43 0 then some (conflictKind 10 43)
      else if 5400 * 120 < s.aonDraw set_ then some (conflictObject Regs.pwrAonEstimate.key)
      else if s.levelWake false then some (conflictObject Regs.wake0Cfg.key)
      else if s.levelWake true then some (conflictObject Regs.wake1Cfg.key)
      else if !s.anyWake then some (conflictObject Regs.pwrSmbWake.key)
      else none

/-- PWR_SLEEP_ENTER: steps 1 and 2 of R453; a fenced gaffer stays off. -/
def hookSleep : Hook := fun s _ data =>
  match s.sleepRefused data with
  | some e => .error e
  | none =>
    let s := s.noteEstimate data
    let s := s.setPower { s.power with phase := .entering 2, since := s.now, wakeDue := false, doorbellsShut := true }
    .ok (s.requestPds (fun d =>
      if d = 0 ∨ (2 ≤ d ∧ d ≤ 33 ∧ s.fenced (d - 2) = true) then none else some (pdStateOf (data.getD d 0).toNat)))

/-- A write of the sleep set: a refusal of R452 counts, and the estimate is that of the last set written. -/
def State.writeSleepSet (s : State) (p : Path) (data : Bytes) : State :=
  if s.served p 0x2101 = false ∨ data.length ≠ 47 then s.writeObject p 0x2101 1 data hookSleep
  else match s.dictAccess p 0x2101 1, s.sleepRefused data with
    | .ok _, some e =>
      let t := if e = outOfRange then s else s.noteEstimate data
      (t.bump Regs.pwrSleepRefusals).finishWrite p 0x2101 1 (.error e)
    | _, _ => s.writeObject p 0x2101 1 data hookSleep

def execPwrSleepEnter (p : Path) (data : Bytes) (s : State) : Res := .next (s.writeSleepSet p data)

/-- SLEEP_CLOCK_HANDOVER (R453 step 3): once every change of step 2 is complete. -/
def execSleepClockHandover (s : State) : Res :=
  if s.power.phase = .entering 2 ∧ s.power.wakeDue = false ∧ leavingOrder.all (fun d => (s.pd d).target.isNone) = true then
    .next (s.setPower { s.power with phase := .entering 3, since := s.now, lowPower := true })
  else .next s

/-- WAKE_DETECTOR_ARM (R453 steps 4 and 5): 4 sleep-clock cycles after step 3. -/
def execWakeDetectorArm (s : State) : Res :=
  if s.power.phase = .entering 3 ∧ s.power.since * 32768 + 4000000000 ≤ s.now * 32768 then
    let due := s.levelWake false || s.levelWake true || s.alarmDue.isSome
    if s.power.wakeDue then
      .next (s.setPower { s.power with phase := .waking 1, since := s.now, wakeDue := false, tries := 0, gatehouseTry := false })
    else if due then
      .next ((s.recordWake none none).setPower { s.power with phase := .waking 1, since := s.now, tries := 0, gatehouseTry := false })
    else
      let s := (s.setPower { s.power with phase := .asleep, since := s.now }).bump Regs.pwrSleepEntries
      .next { s with pins := { s.pins with pmicSleep := true } }
  else .next s

/-- SMB_ADDRESS_MATCH (R455): `byte` is the first byte after a START; the controller sees a NACK. -/
def execSmbAddressMatch (byte : Nat) (s : State) : Res :=
  let cfg := s.reg Regs.pwrSmbWake
  let a := bits byte 7 1
  if s.power.comparator && s.pins.io33 && bit cfg 15 && decide ((a ^^^ bits cfg 6 0) &&& bits cfg 14 8 = 0) then
    .next ((s.wakeEvent (some a) none).emit .nack)
  else .next s

/-- WAKE_PIN: the level on WAKE0 or WAKE1 from now on (R456). -/
def execWakePin (pin level : Bool) (s : State) : Res :=
  let was := s.wakeLevel pin
  let s := { s with pins := if pin then { s.pins with wake1 := level } else { s.pins with wake0 := level } }
  if !was && s.wakeLevel pin then .next (s.pinActive pin) else .next s

/-- SLEEP_ALARM (R457): an alarm whose count passes during entry wakes at step 4 of R453. -/
def execSleepAlarm (a : Fin 8) (s : State) : Res :=
  match kfind s.sundial.alarmWake a.val with
  | some n => if s.power.phase = .asleep ∧ n ≤ s.sleepCount then .next (s.wakeEvent none none) else .next s
  | none => .next s

/-- WAKE_TRY (R459 step 2, R460): the first try, or the next one 328 sleep-clock cycles after a failed one; the fourth is a
Gatehouse start. -/
def execWakeTry (s : State) : Res :=
  let waited := decide (s.power.since * 32768 + 328000000000 ≤ s.now * 32768)
  if s.power.phase = .waking 1 ∨ (s.power.phase = .failed ∧ waited = true) then
    let n := s.power.tries + 1
    let s := if n = 4 then s.resetFor .restart else s
    let s := s.wakeField 23 20 n
    let s := s.setPower { s.power with phase := .waking 2, since := s.now, tries := n, gatehouseTry := decide (n = 4), lowPower := false }
    .next { s with pins := { s.pins with pmicSleep := false } }
  else .next s

/-- REGULATOR_READY (R459 step 3); step 4 is over at once where both power-good inputs are high already. -/
def execRegulatorReady (s : State) : Res :=
  if s.power.phase = .waking 2 then
    .next (s.setPower { s.power with phase := .waking (if s.pins.pgCore && s.pins.pgSram then 4 else 3), since := s.now })
  else .next s

/-- Whether a reset from outside is in force (R496). -/
def State.heldInReset (s : State) : Bool := !s.pins.resetN || (!s.pins.pmicSleep && !(s.pins.pgCore && s.pins.pgSram))

/-- The end of a reset: the start of R469, once nothing holds it back (R451, R461, R496). -/
def State.released (s : State) : State :=
  if s.heldInReset = false ∧ s.boot.phase = .held ∧ s.power.phase = .awake ∧ s.flag Regs.pwrIo18Low = false then s.beginStart else s

/-- PG_HIGH (R459 step 4, R495, R496). -/
def execPgHigh (s : State) : Res :=
  let s := { s with pins := { s.pins with pgCore := true, pgSram := true } }
  if s.power.phase = .waking 3 then .next (s.setPower { s.power with phase := .waking 4, since := s.now }) else .next s.released

/-- REFCLK_SYS_PRESENT (R459 step 5). -/
def execRefclkSysPresent (s : State) : Res :=
  let s := { s with pins := { s.pins with refclk := true } }
  if s.power.phase = .waking 4 then .next (s.setPower { s.power with phase := .waking 5, since := s.now }) else .next s

/-- A plot's next calibration is due (R7): its power domain is on and REFCLK_SYS there, and 10 ms have passed since the last. -/
def State.calibrationDue (s : State) (plot : Nat) : Bool :=
  s.pins.refclk && s.pdOn (plotDomain plot) && (match kfind s.power.calibrated plot with
    | some t => decide (t + 10000000 ≤ s.now)
    | none => true)

/-- PLOT_CALIBRATION (R7) of one plot; in a wake it is step 6 of R459, and a fourth try then makes its Gatehouse start with
reason 12. -/
def execPlotCalibration (plot : Fin 242) (s : State) : Res :=
  if s.power.phase = .waking 5 then
    let s := s.calibrates 0
    if s.power.gatehouseTry then
      let s := s.setPower { s.power with phase := .awake, gatehouseTry := false, tries := 0, doorbellsShut := false }
      .next (s.setReg Regs.bootGatehouseReason 12).gatehouseStart
    else .next s.wakeDomains
  else if s.calibrationDue plot.val then
    .next (s.setPower { s.power with calibrated := kset s.power.calibrated plot.val s.now })
  else .next s

/-- Whether a try fails for a reason at the present time: the event of its step has not come in its time, doubled in a
Gatehouse try (R459, R460). -/
def State.tryFails (s : State) (reason : Nat) : Bool :=
  let k := if s.power.gatehouseTry then 2 else 1
  let past (ns : Nat) : Bool := decide (s.power.since + k * ns ≤ s.now)
  match s.power.phase, reason with
  | .waking 2, 1 => past 200000
  | .waking 3, 2 => !s.pins.pgCore && past (s.reg Regs.pwrPgTimeout * 1000000)
  | .waking 3, 3 => !s.pins.pgSram && past (s.reg Regs.pwrPgTimeout * 1000000)
  | .waking 4, 4 => past (s.reg Regs.pwrOscTimeout * 1000000)
  | .waking 5, 5 => past 1000000
  | _, _ => false

/-- WAKE_TRY_FAIL (R460). -/
def execWakeTryFail (reason : Fin 6) (s : State) : Res :=
  if s.tryFails reason.val then
    let s := ((s.wakeField 31 24 reason.val).setReg Regs.pwrWakeFailReason reason.val).bump Regs.pwrWakeFails
    let phase : SleepPhase := if s.power.gatehouseTry then .ignored else .failed
    let s := s.setPower { s.power with phase := phase, since := s.now, lowPower := true }
    .next { s with pins := { s.pins with pmicSleep := true } }
  else .next s

/-- WAKE_IGNORE_EXPIRY (R460): a level that is active then, or an alarm that has come, wakes at once (R454). -/
def execWakeIgnoreExpiry (s : State) : Res :=
  if s.power.phase = .ignored ∧ s.power.since + 1000000000 ≤ s.now then
    let s := s.setPower { s.power with phase := .asleep, since := s.now, tries := 0, gatehouseTry := false, comparator := true }
    .next (if s.levelWake false || s.levelWake true || s.alarmDue.isSome then s.wakeEvent none none else s)
  else .next s

/-- The dictionary serves: the comparator is inactive (R455), and held reports are issued (R481). -/
def State.servesNow (s : State) : State := (s.setPower { s.power with comparator := !s.paths.serving && s.power.comparator }).heldReports

/-- DICTIONARY_READY (R469 step 6, R471, R459 step 8, R343): of a start, a Gatehouse start, a wake or a Gardener restart, whose power
cycle is complete by then. A cold restart whose Gardener R343 has left off reaches its step 3 without it. -/
def execDictionaryReady (before : State) : Res :=
  let s := before.settlesForced 45 3
  let without := s.keeper.gardenerOff && s.boot.coldRestart && s.boot.phase == .started
  if s.paths.serving || !(s.pdOn 45 || without) then .next before
  else match s.boot.phase with
    | .started => .next s.startReady.servesNow
    | .gatehouse => .next s.gatehouseReady.servesNow
    | .ready =>
      let t := if s.power.phase ≠ .waking 7 || s.power.gardenerDue then s.gardenerReady
        else { s with paths := { s.paths with serving := true } }
      if !t.paths.serving then .next t
      else
        let woken := if t.power.phase = .waking 7 then { t.power with phase := .awake, doorbellsShut := false } else t.power
        .next (t.setPower { woken with gardenerDue := false }).servesNow
    | .held => .next before

/-! ### Supplies, clocks and resets (R451, R461, R495–R499) -/

/-- PG_CORE or PG_SRAM falls: a reset while PMIC_SLEEP is low (R496), else what R441 says of PG_SRAM. -/
def State.pgFalls (s : State) (sram : Bool) : State :=
  let was := if sram then s.pins.pgSram else s.pins.pgCore
  let s := { s with pins := if sram then { s.pins with pgSram := false } else { s.pins with pgCore := false } }
  if !was then s
  else if s.pins.pmicSleep = false then s.resetFor .cold
  else if sram then s.retentionLost
  else s

/-- PG_SRAM_LOSS. -/
def execPgSramLoss (s : State) : Res := .next (s.pgFalls true)

/-- PG_CORE_FALL: of PG_SRAM where `sram`. -/
def execPgCoreFall (sram : Bool) (s : State) : Res := .next (s.pgFalls sram)

/-- ALWAYS_ON_BROWN_OUT (R451): a cold start once the supplies are good; an overload must fit the regulator's mode. After cause 1 no pin
of the VDD_IO18 bank is driven until that supply is back (R491). -/
def execAlwaysOnBrownOut (cause : Fin 5) (s : State) : Res :=
  if cause.val = 0 ∨ (cause.val = 2 ∧ s.power.lowPower = false) ∨ (cause.val = 3 ∧ s.power.lowPower = true) then .next s
  else
    let s := s.resetFor .cold
    let s := (s.setReg Regs.pwrBrownoutCause cause.val).setReg Regs.pwrBrownouts (min 255 (s.reg Regs.pwrBrownouts + 1))
    .next (if cause.val = 1 then { s.setReg Regs.pwrIo18Low 1 with pins := { s.pins with io18 := false } } else s).released

/-- IO33_LOW (R497): `good` whether VDD_IO33 has risen; a pin held active then becomes active. -/
def execIo33Low (good : Bool) (s : State) : Res :=
  let was0 := s.wakeLevel false
  let was1 := s.wakeLevel true
  let s := { s with pins := { s.pins with io33 := good } }
  let s := if !was0 && s.wakeLevel false then s.pinActive false else s
  .next (if !was1 && s.wakeLevel true then s.pinActive true else s)

/-- CLK32K_LOSS (R499). R374 lists no code for the event: a free value. -/
def execClk32kLoss (s : State) : Res :=
  if s.flag Regs.sleepClockSrc then .next { s with pins := { s.pins with clk32k := false } }
  else
    let s := { s with pins := { s.pins with clk32k := false } }
    let s := ((s.setReg Regs.sleepClockSrc 1).setReg Regs.sleepCorrValid 0).bump Regs.pinClk32kLosses
    let (k, s) := s.draw
    .next (s.logs { severity := .contained, source := 13, kind := k % 256 })

/-- POWER_ON (R495): every record is lost, RESET_n is held and the rails have yet to rise, VDD_IO33 among them; whether CLK32K runs is
found out now. -/
def execPowerOn (s : State) : Res :=
  let (k, s) := (s.resetFor .powerOn).draw
  let s := s.setReg Regs.sleepClockSrc (k % 2)
  let s := (s.setPower {}).perstFalls
  .next { s with pins := { pgCore := false, pgSram := false, refclk := false, clk32k := decide (k % 2 = 0), io33 := false,
                           wake0 := s.pins.wake0, wake1 := s.pins.wake1 } }

/-- RESET_ASSERT: RESET_n held low (R408, R496). -/
def execResetAssert (s : State) : Res :=
  let s := s.resetFor .cold
  .next { s with pins := { s.pins with resetN := false } }

/-- RESET_RELEASE. -/
def execResetRelease (s : State) : Res :=
  if s.pins.resetN then .next s else .next ({ s with pins := { s.pins with resetN := true } }).released

/-- START_WATCHDOG (R468): 120 ms have passed since the release of reset. A start without the Gardener, which R343 has left off, is not
watched: nothing could reach the dictionary that it waits for. -/
def execStartWatchdog (s : State) : Res :=
  if s.boot.phase = .started ∧ s.boot.since + 120000000 ≤ s.now ∧ s.keeper.gardenerOff = false then .next (s.startFails 10).beginStart
  else .next s

/-- BOOT_RESTART (R408, R469): the count is cleared and the device starts again. -/
def hookBootRestart : Hook := actHook (fun s _ => .ok ((s.setReg Regs.bootFailCount 0).resetFor .restart).beginStart)

def execBootRestart (p : Path) (v : Nat) (s : State) : Res := .next (s.writeObject p 0x2B00 0x0B (toLe 1 v) hookBootRestart)

end Sys2Proof.Machine
end

