-- ==== Sys2Proof/Machine/Trust.lean ====
section
/-! DEFINITION. Staging images, fuses, lifecycle, debug tokens and the drive region (R24–R27, R461, R472–R478). -/

namespace Sys2Proof.Machine

def State.setBoot (s : State) (v : Boot) : State := { s with boot := v }

/-! ### Staging (R472) -/

/-- Flash and fuses may not be written while VDD_IO18 is low (R461). -/
def State.supplyRefused (s : State) : Option Reply := if s.flag Regs.pwrIo18Low then some (conflictObject Regs.pwrIo18Low.key) else none

/-- The refusals of a staging action. -/
def State.stageRefused (s : State) (a : Nat) : Option Reply :=
  let program := decide (a = 2 ∨ a = 3)
  if s.reg Regs.stageState = 1 then some (conflictObject Regs.stageAction.key)
  else if program && decide (s.reg Regs.bootSlotRunning = a - 2) then some (conflictObject Regs.bootSlotRunning.key)
  else if a = 4 ∧ s.shift.phase ≠ .gatehouse then some (conflictObject Regs.devState.key)
  else if program then s.supplyRefused
  else none

/-- A slot is erased, all 16 MiB of it (R464). -/
def State.erasesSlot (s : State) (slot : Nat) : State :=
  s.setBoot { s.boot with flash := s.boot.flash.dropRange (slot * 0x1000000) ((slot + 1) * 0x1000000) }

/-- A staging action begins: the image is read and checked, and the slot of a program is erased. -/
def State.beginStage (s : State) (a : Nat) : State :=
  let s := ((s.setReg Regs.stageState 1).setReg Regs.stageReason 0).setReg Regs.stageProgress 0
  let (s, read) := s.readStaged
  let image := read.getD []
  let reason := if read.isSome then s.imageReason (imageOf image) else 0
  let s := s.setBoot { s.boot with staging := some { action := a, image := image, reason := reason, failed := read.isNone } }
  if (a = 2 ∨ a = 3) ∧ read.isSome = true ∧ reason = 0 then s.erasesSlot (a - 2) else s

/-- Bytes are programmed into the erased flash. -/
def State.programs (s : State) (a : Nat) (bs : Bytes) : State :=
  s.setBoot { s.boot with flash := s.boot.flash.write a (bs.map (fun b => ~~~b)) }

/-- STAGE_ACTION. -/
def hookStage : Hook := fun s _ data =>
  match s.stageRefused (ofLe data) with
  | some e => .error e
  | none => .ok (s.beginStage (ofLe data))

def execStageVerify (p : Path) (s : State) : Res := .next (s.writeObject p 0x2B01 3 [1] hookStage)
def execStageProgram (p : Path) (slotB : Bool) (s : State) : Res := .next (s.writeObject p 0x2B01 3 [if slotB then 3 else 2] hookStage)
def execStageBoot (p : Path) (s : State) : Res := .next (s.writeObject p 0x2B01 3 [4] hookStage)

/-- A staging action ends with a STAGE_STATE; how far an unfinished one got is not stated: a free value. -/
def State.stageEnds (s : State) (g : Staging) (state : Nat) : State :=
  let n := g.image.length
  let s := (s.setBoot { s.boot with staging := none }).setReg Regs.stageState state
  if state = 2 then s.setReg Regs.stageProgress n
  else
    let (k, s) := s.draw
    s.setReg Regs.stageProgress (k % (n + 1))

/-- The image of action 4 starts (R469 steps 4 to 6): Gatehouse mode ends. -/
def State.stageBoots (s : State) (m : BootImage) : State :=
  let s := s.acceptImage 2 m
  { s with
    paths := { s.paths with serving := false }
    shift := { s.shift with phase := .notServing }
    boot := { s.boot with since := s.now } }

/-- STAGE_COMPLETE: `flashGood` whether the flash took every erase and program. -/
def execStageComplete (flashGood : Bool) (s : State) : Res :=
  match s.boot.staging with
  | none => .next s
  | some g =>
    if g.failed then .next (s.stageEnds g 6)
    else if g.reason ≠ 0 then .next ((s.stageEnds g 3).setReg Regs.stageReason g.reason)
    else if g.action = 4 then .next ((s.stageEnds g 2).stageBoots (imageOf g.image))
    else if g.action = 1 then .next (s.stageEnds g 2)
    else if !flashGood then .next (s.stageEnds g 5)
    else
      let s := s.programs ((g.action - 2) * 0x1000000) g.image
      .next (s.stageEnds g (if s.slotReason (g.action - 2) = 0 then 2 else 5))

/-! ### Fuses (R473, R474) -/

/-- A fuse command begins, after those before it. -/
def State.fuse (s : State) (j : FuseJob) : Except Reply State :=
  match s.supplyRefused with
  | some e => .error e
  | none => .ok (s.setBoot { s.boot with fuseJobs := s.boot.fuseJobs ++ [j] })

/-- BOOT_COMMIT_SVN. -/
def hookCommitSvn : Hook := actHook (fun s _ =>
  if s.flag Regs.pwrIo18Low = false ∧ s.reg Regs.bootSvn ≤ s.boot.fuses.svn then .ok s else s.fuse (.svn (s.reg Regs.bootSvn)))

def execBootCommitSvn (p : Path) (v : Nat) (s : State) : Res := .next (s.writeObject p 0x2B00 0x0C (toLe 1 v) hookCommitSvn)

/-- The fuses as they will stand once the commands that wait are done. -/
def State.fusesToBe (s : State) : Fuses := s.boot.fuseJobs.foldl (fun f j => f.blow j none) s.boot.fuses

/-- LC_ADVANCE: from the state that the commands before it lead to. -/
def hookLcAdvance : Hook := fun s _ data =>
  let f := s.fusesToBe
  match ofLe data, (if f.lifecycle = 1 ∧ s.boot.unlocked then 2 else f.lifecycle) with
  | 1, 0 => if s.boot.fuses.keyHash = [] then .error (conflictObject (Blobs.lcKeyHash 0)) else s.fuse (.lifecycle 1)
  | 3, 0 | 3, 1 => s.fuse (.lifecycle 3)
  | _, _ => .error outOfRange

def execLcAdvance (p : Path) (v : Nat) (s : State) : Res := .next (s.writeObject p 0x2B02 2 (toLe 1 v) hookLcAdvance)

/-- The fused key slot of the running image, if it is one. -/
def State.runningKey (s : State) : Option Nat :=
  let k := bits (ofLe s.boot.header) 42 40
  if s.reg Regs.bootSlotRunning = 0xFF ∨ 3 < k then none else some k

/-- LC_KEY_REVOKE: with the revocations of the commands before it. -/
def hookKeyRevoke : Hook := fun s _ data =>
  let m := ofLe data
  let after := s.fusesToBe.revoked ||| m
  let left := (List.range 4).any (fun k => (kfind s.boot.fuses.keyHash k).isSome && !bit after k)
  let own := match s.runningKey with
    | some k => bit after k && !bit s.boot.fuses.revoked k
    | none => false
  if !left || own then .error (conflictObject Regs.lcKeyRevoke.key) else s.fuse (.revoke m)

def execLcKeyRevoke (p : Path) (v : Nat) (s : State) : Res := .next (s.writeObject p 0x2B02 7 (toLe 1 v) hookKeyRevoke)

/-- LC_KEY_HASH, LC_DEBUG_KEY_HASH and TRUST_ID_CERT: in the manufacturing state only (R485). -/
def hookProvision (j : Bytes → FuseJob) : Hook := fun s _ data =>
  if s.lifecycle ≠ 0 then .error (conflictObject Regs.lcState.key) else s.fuse (j data)

/-- LC_KEY_HASH_WRITE: `what` 0–3 a key slot, 4 the debug key, 5 the certificate. -/
def execLcKeyHashWrite (p : Path) (what : Fin 6) (data : Bytes) (s : State) : Res :=
  if what.val ≤ 3 then .next (s.writeObject p 0x2B02 (3 + what.val) data (hookProvision (.keyHash what.val)))
  else if what.val = 4 then .next (s.writeObject p 0x2B02 8 data (hookProvision .debugHash))
  else .next (s.writeObject p 0x2B03 2 data (hookProvision .certificate))

/-- Whether the fuses read back as the command wanted: a digest over one fused before may not. -/
def Fuses.holds (f : Fuses) : FuseJob → Bool
  | .keyHash k d => decide (kfind f.keyHash k = some d)
  | .debugHash d => decide (f.debugHash = some d)
  | _ => true

/-- FUSE_COMMAND_COMPLETE: a read-back that differs leaves fuses whose bits are free. -/
def execFuseCommandComplete (readBackGood : Bool) (s : State) : Res :=
  match s.boot.fuseJobs with
  | [] => .next s
  | j :: rest =>
    let f := s.boot.fuses.blow j (if readBackGood then none else some s.freeIx)
    let good := readBackGood && f.holds j
    .next ((s.skipFree.setBoot { s.boot with fuses := f, fuseJobs := rest }).setReg Regs.lcFuseStatus (if good then 1 else 3))

/-! ### Supply sag (R461) -/

/-- IO18_LOW: a flash program and a fuse command in progress end with their failure statuses. -/
def execIo18Low (s : State) : Res :=
  let s := s.setReg Regs.pwrIo18Low 1
  let s := match s.boot.staging with
    | some g => if (g.action = 2 ∨ g.action = 3) ∧ g.failed = false ∧ g.reason = 0 then s.stageEnds g 4 else s
    | none => s
  match s.boot.fuseJobs with
  | [] => .next s
  | j :: _ =>
    let f := s.boot.fuses.blow j (some s.freeIx)
    .next ((s.skipFree.setBoot { s.boot with fuses := f, fuseJobs := [] }).setReg Regs.lcFuseStatus 2)

/-- IO18_RESTORED: the end of a brown-out starts the device (R451, R469). -/
def execIo18Restored (s : State) : Res :=
  .next ({ s.setReg Regs.pwrIo18Low 0 with pins := { s.pins with io18 := true } }).released

/-! ### Debug tokens (R475) -/

/-- The fields and the signature of a token. -/
def State.tokenGood (s : State) (d : Bytes) : Bool :=
  let x := ofLe d
  decide (bits x 31 0 = 0x4B444247) && decide (bits x 39 32 = 1) && decide (bits x 127 64 = s.boot.fuses.serial)
  && decide (slice d 16 32 = s.blob Blobs.dbgChallenge (List.replicate 32 0))
  && decide (s.boot.fuses.debugHash = some (sha384 (slice d 48 96)))
  && ecdsaOk (ofBe (slice d 48 48), ofBe (slice d 96 48)) (sha384 (d.take 144)) (ofBe (slice d 144 48)) (ofBe (slice d 192 48))



/-- DBG_TOKEN: a failed check is out of range, before any conflict (R410). -/
def hookToken : Hook := fun s _ data =>
  if !s.tokenGood data then .error outOfRange
  else if s.lifecycle ≠ 1 then .error (conflictObject Regs.lcState.key)
  else if s.flag Regs.kpArmed then .error (conflictKind 13 0x400)
  else if s.inLease then .error (conflictCondition 12)
  else .ok ((s.setBoot { s.boot with unlocked := true }).setReg Regs.dbgPerms (bits (ofLe data) 41 40))

/-- A token write: the challenge changes whether it is accepted or refused. -/
def State.writeToken (s : State) (p : Path) (data : Bytes) : State :=
  let t := s.writeObject p 0x2B03 4 data hookToken
  if s.served p 0x2B03 then
    match s.dictAccess p 0x2B03 4 with
    | .ok _ => t.newChallenge
    | .error _ => t
  else t

def execDbgToken (p : Path) (data : Bytes) (s : State) : Res := .next (s.writeToken p data)

/-! ### The drive region (R24–R27, R477) -/

/-- DR_STATE. -/
def DrState.code : DrState → Nat
  | .unsealed => 0 | .sealing => 1 | .sealed => 2

/-- A retired page in an extent: the CONFLICT names the object `DDR_RETIRED_LIST`, since a page has no KIND in R411 (DESIGN
CHOICE, log 68). -/
def State.retiredIn (s : State) (lo len : Nat) : Option Reply :=
  if s.ddr.retired.any (fun a => overlaps a 4096 lo len) then some (conflictObject Blobs.ddrRetiredList) else none

/-- DR_BASE and DR_SIZE, as the new extent. -/
def hookDrive (lo len : State → Nat → Nat) (r : Reg) : Hook := fun s _ data =>
  let v := ofLe data
  let a := lo s v
  let n := len s v
  if s.ddr.capacity < a + n then .error outOfRange
  else if s.driveSealed then .error (conflictKind 13 0)
  else if s.inLease then .error (conflictCondition 12)
  else match clash s.bufferClaims 255 0 a n with
    | some e => .error e
    | none => match s.retiredIn a n with
      | some e => .error e
      | none => if overlaps a n s.workLo s.workLen then .error (conflictKind 13 1) else .ok (s.setReg r v)

def hookDrBase : Hook := hookDrive (fun _ v => v) (fun s _ => s.driveLen) Regs.drBase
def hookDrSize : Hook := hookDrive (fun s _ => s.driveLo) (fun _ v => v * 2 ^ 28) Regs.drSize

/-- DW_BASE and DW_SIZE (R27). -/
def hookWork (lo len : State → Nat → Nat) (r : Reg) : Hook := fun s _ data =>
  let v := ofLe data
  let a := lo s v
  let n := len s v
  if s.ddr.capacity < a + n then .error outOfRange
  else if s.inLease || s.shift.quarantine || s.shift.closeUnderRelease then .error (conflictCondition 12)
  else if overlaps a n s.driveLo s.driveLen then .error (conflictKind 13 0)
  else match clash s.allClaims 255 0 s.workLo s.workLen with
    | some e => .error e
    | none => match s.retiredIn a n with
      | some e => .error e
      | none => .ok (s.setReg r v)

def hookDwBase : Hook := hookWork (fun _ v => v) (fun s _ => s.workLen) Regs.dwBase
def hookDwSize : Hook := hookWork (fun s _ => s.workLo) (fun _ v => v * 2 ^ 28) Regs.dwSize

/-- DR_SEAL: a write of 1 to a region that is sealed already changes nothing. -/
def hookSeal : Hook := actHook (fun s _ =>
  if s.reg Regs.drSize = 0 then .error (conflictObject Regs.drSize.key)
  else if s.reg Regs.ddrTrainState = 0 then .error (conflictObject Regs.ddrTrainState.key)
  else if s.inLease then .error (conflictCondition 12)
  else .ok (if s.driveSealed then s else { s with drive := .sealing }))

def execDrSeal (p : Path) (v : Nat) (s : State) : Res := .next (s.writeObject p 0x2B08 3 (toLe 1 v) hookSeal)

/-- DR_SEAL_COMPLETE: the digest of the region; a poisoned burst leaves it unsealed and falls under R366. -/
def execDrSealComplete (s : State) : Res :=
  if s.drive ≠ .sealing then .next s
  else match s.readMem .gardener none s.driveLo s.driveLen with
    | (s, .bytes bs [] _) =>
      let s := (s.setBlob Blobs.drMeasurement (sha384 bs)).setReg Regs.drSealTime s.timeNow
      .next { s with drive := .sealed }
    | (s, .bytes _ _ _) => .next ({ s with drive := .unsealed }).takeDamage
    | (s, .absent) => .next s

/-- DR_UNSEAL. -/
def hookUnseal : Hook := actHook (fun s _ =>
  if s.inLease then .error (conflictCondition 12)
  else .ok ({ s with drive := .unsealed }.setBlob Blobs.drMeasurement (List.replicate 48 0)))

def execDrUnseal (p : Path) (v : Nat) (s : State) : Res := .next (s.writeObject p 0x2B08 4 (toLe 1 v) hookUnseal)

/-- LEASE_NONCE (R478). -/
def hookNonce : Hook := fun s _ data => .ok ((s.setBlob Blobs.leaseNonce data).setShift { s.shift with nonceFresh := true })

end Sys2Proof.Machine
end

