-- ==== Sys2Proof/Machine/Pins.lean ====
section
/-! DEFINITION. Pin multiplexers, observation and JTAG (R503–R507). -/

namespace Sys2Proof.Machine

def State.setPins (s : State) (v : Pins) : State := { s with pins := v }

/-! ### Multiplexers (R503, R504) -/

/-- TPIN_FUNC. -/
def hookTpinFunc (t : Nat) : Hook := ownedHook (Regs.tpinOwner t) (fun s _ data => .ok (s.tpinChange t (ofLe data)))

def execTpinFuncWrite (p : Path) (t : Fin 4) (v : Nat) (s : State) : Res :=
  .next (s.writeObject p (0x2C10 + t.val) 2 (toLe 1 v) (hookTpinFunc t.val))

/-- A selection that R504 lists: its KIND, and an ARG in its range. -/
def obsListed (v : Nat) : Bool :=
  let a := bits v 11 0
  match bits v 15 12 with
  | 0 | 3 | 4 => true
  | 1 => decide (a ≤ 31)
  | 2 => decide (a ≤ 5)
  | 5 => decide (a ≤ 54) || decide (a = 255)
  | _ => false

/-- OBS_SELECT. -/
def hookObsSelect (m : Nat) : Hook := rangeFirst (fun _ data => obsListed (ofLe data)) (ownedHook (Regs.obsOwner m) (regHook (Regs.obsSelect m)))

def execObsSelectWrite (p : Path) (m : Fin 2) (v : Nat) (s : State) : Res :=
  .next (s.writeObject p (0x2C20 + m.val) 3 (toLe 2 v) (hookObsSelect m.val))

/-- The lanes of a target code (R191). -/
def lanesOf (code : Nat) : List LaneKind :=
  if code < 48 then [.array, .vector, .copy]
  else if code < 52 then [.marver]
  else if code = 52 then [.table, .output]
  else if code = 53 then [.kv]
  else if code = 54 then [.keeper]
  else []

/-- Whether a lane of a target code executes an item. -/
def State.laneBusy (s : State) (code : Nat) (k : LaneKind) : Bool :=
  s.disp.items.any (fun i => (i.phase == .executing || i.phase == .pendingWait) && (match i.lane with
    | some l => decide (targetCodeOf l.target = code) && decide (l.kind = k)
    | none => false))

/-- The lane k of gaffer g, its own or its chair's. -/
def State.gafferBusy (s : State) (g : Nat) (k : LaneKind) : Bool :=
  s.laneBusy (if s.formed (g / 2) then 32 + g / 2 else g) k

/-- Items that wait at a target code. -/
def State.waitingItems (s : State) (code : Nat) : Nat :=
  (s.disp.items.filter (fun i => (i.phase == .waiting || i.phase == .held) && (match i.lane with
    | some l => decide (targetCodeOf l.target = code)
    | none => false))).length

/-- Whether an event that began `since` ns ago still shows on its observation bit. How long it does is not stated: a free value
(log 48). -/
def obsShows (n since : Nat) : Bool := decide (since < Config.obsStretch n)

/-- The eight levels of a selection by its KIND and ARG (R504). An event's bit is high from the event on: the whole second of the
output time line, an alarm, a verdict, the rule engine's start; bit 7 of KIND 3 is high from the start of each sleep-clock cycle. -/
def State.obsLevels (s : State) (kind arg : Nat) : List Bool :=
  let event (b : Nat) : Bool := match kfind s.pins.events (16 * kind + b) with
    | some t => obsShows (16 * kind + b) (s.now - t)
    | none => false
  let second := s.sundial.running && obsShows 48 ((s.outTime >>> 40) % 1000000000)
  let sleepClock := obsShows 55 ((s.now - s.sundial.sleepZero) * 32768 % 1000000000 / 32768)
  match kind with
  | 1 => [s.gafferBusy arg .array, s.gafferBusy arg .vector, s.gafferBusy arg .copy, s.fenced arg]
      ++ (List.range 3).map (fun b => bit (s.reg (Regs.gafferLevelNow arg)) b) ++ [s.formed (arg / 2)]
  | 2 => (List.range 8).map (fun b => decide (8 * arg + b < 47) && s.pdOn (8 * arg + b))
  | 3 => [second, event 1, (s.dom false).servo == .locked, (s.dom true).servo == .locked, s.sundial.active,
          bit (s.timeFlags s.sundial.active) 5, bit (s.timeFlags s.sundial.active) 4, sleepClock]
  | 4 => [event 0, decide (bits (ofLe (s.blob Blobs.kpLastVerdict (List.replicate 32 0))) 33 32 = 0), s.keeper.safeN, s.keeper.faultN,
          !s.keeper.safeN && decide (s.reg Regs.kpLatchCause ≠ 0), s.keeper.golden.any (fun e => e.2.running), event 6, s.keeper.heartbeat]
  | _ => (List.range 3).map (fun b => match (lanesOf arg)[b]? with
        | some k => s.laneBusy arg k
        | none => false)
      ++ [s.disp.items.any (fun i => i.readable && decide (i.cls = 0) && i.phase == .executing && (match i.lane with
        | some l => decide (targetCodeOf l.target = arg)
        | none => false))]
      ++ (List.range 4).map (fun b => bit (min 15 (s.waitingItems arg)) b)

/-- Whether a power domain drives its pins: it is on and no reset from outside is in force (R446, R491, R493, R496), and VDD_IO18 is
there (R491). -/
def State.drivesPins (s : State) (d : Nat) : Bool := s.pdOn d && !s.heldInReset && s.pins.io18

/-- DBG_OBS(8m + i); none while it is high-Z (R504, R506). -/
def State.obsPin (s : State) (m i : Nat) : Option Bool :=
  let v := s.reg (Regs.obsSelect m)
  if s.drivesPins 46 && s.flag (Regs.obsEnable m) && decide (bits v 15 12 ≠ 0) && !s.lifeLocked (0x2C20 + m) 2 then
    some ((s.obsLevels (bits v 15 12) (bits v 11 0)).getD i false)
  else none

/-! ### JTAG (R505–R507) -/

/-- JTAG_ACCESS: 0 BYPASS, IDCODE and SAMPLE/PRELOAD only, 2 all. -/
def State.jtagAccess (s : State) : Nat :=
  let open_ := match s.lifecycle with
    | 1 => false
    | 2 => bit (s.reg Regs.dbgPerms) 1
    | _ => true
  if open_ && !s.flag Regs.kpArmed then 2 else 0

/-- The instruction that the TAP decodes; the TAP is held in reset while power domain 46 is not on. -/
def State.tapTakes (s : State) (j : Jtag) : State := if s.pdOn 46 then s.setPins { s.pins with jtag := j } else s

/-- The instruction in force: one that R506 or R507 does not allow at present decodes as BYPASS. -/
def State.tapNow (s : State) : Jtag :=
  match s.pins.jtag with
  | .extest | .clamp | .highz | .keryomos _ => if s.jtagAccess = 0 || !s.pdOn 46 then .bypass else s.pins.jtag
  | j => j

/-- An instruction that R506 or R507 may turn into BYPASS. -/
def State.tapLocked (s : State) (j : Jtag) : State := s.tapTakes (if s.jtagAccess = 0 then .bypass else j)

/-- The instruction of an 8-bit code (R505). -/
def jtagOf (code : Nat) : Jtag :=
  match code with
  | 0x01 => .idcode
  | 0x02 => .samplePreload
  | 0x03 => .extest
  | 0x04 => .clamp
  | 0x05 => .highz
  | c => if 0x80 ≤ c ∧ c ≤ 0xFE then .keryomos c else .bypass

/-- BYPASS, and every code that decodes as it (R505): a private instruction is selected where it is allowed, and no rule says what it
does. The other public codes are commands of their own. -/
def execBypass (code : Fin 256) (s : State) : Res :=
  match jtagOf code.val with
  | .bypass => .next (s.tapTakes .bypass)
  | .keryomos c => .next (s.tapLocked (.keryomos c))
  | _ => .next s

/-- IDCODE: the value is shifted out. -/
def execIdcode (s : State) : Res := .next (if s.pdOn 46 then (s.tapTakes .idcode).emit (.jtag (s.reg Regs.jtagIdcode)) else s)

def execExtest (s : State) : Res := .next (s.tapLocked .extest)
def execClamp (s : State) : Res := .next (s.tapLocked .clamp)
def execHighz (s : State) : Res := .next (s.tapLocked .highz)

/-! ### The pins (R309, R446, R491, R493, R495, R497, R507) -/

/-- The single-ended signal pins of R491 but TEST_EN: those of the boundary chain (R505). The lines of a group are numbered in R491's
order; `vcoreSel i` is VCORE_SELi. -/
inductive Pin where
  | safe | fault | heartbeat | pmicSleep | resetN | perst | pgCore | pgSram | ppsIn | clkreq | refclk | clk32k
  | wake (one : Bool)
  | trig (t : Nat)
  | ppsOut (k : Nat)
  | vcoreSel (i : Nat)
  | obs (i : Nat)
  | canTxd (ctrl : Nat)
  | canRxd (ctrl : Nat)
  | smb (line : Nat)
  | jtag (line : Nat)
  | xspi (line : Nat)
  | spi (port line : Nat)
  | ddrReset (channel : Nat)
  | ddr (sc line : Nat)
  deriving DecidableEq, Repr

/-- The 730 pins of the boundary chain, in an order of the model's own (log 48). -/
def chainPins : List Pin :=
  let groups : List (Nat × (Nat → Pin)) := [(4, Pin.trig), (2, Pin.ppsOut), (5, Pin.vcoreSel), (16, Pin.obs), (2, Pin.canTxd), (2, Pin.canRxd),
    (2, Pin.smb), (5, Pin.jtag), (12, Pin.xspi), (30, fun i => Pin.spi (i / 5) (i % 5)), (4, Pin.ddrReset), (632, fun i => Pin.ddr (i / 79) (i % 79))]
  let single : List Pin := [.safe, .fault, .heartbeat, .pmicSleep, .resetN, .perst, .pgCore, .pgSram, .ppsIn, .clkreq, .refclk, .clk32k,
    .wake false, .wake true]
  single ++ groups.flatMap (fun e => (List.range e.1).map e.2)

/-- A pin's number: its place in `chainPins`. -/
def Pin.number (p : Pin) : Nat := chainPins.idxOf p

/-- The preloaded cell of a pin of the boundary chain, whose order is not given (log 48). -/
def State.cell (s : State) (pin : Nat) : Bool := s.pins.boundary.getD (Config.boundaryCell pin) false

/-- A level that no rule states, of a pin that is driven: a free value (log 48). -/
def State.anyLevel (s : State) (p : Pin) : Bool := Config.pinLevel p.number s.now

/-- An open-drain output, which drives low or floats. -/
def State.openDrain (s : State) (p : Pin) (driven : Bool) : Option Bool := if driven && s.anyLevel p then some false else none

/-- The level of a pin of the fault latch, none while it floats: in a boundary-scan mode its cell can only drive it low, and the
latch's low output takes precedence. -/
def State.latchPin (s : State) (latch : Bool) (pin : Nat) : Option Bool :=
  if !s.drivesPins 1 then none
  else match s.tapNow with
    | .extest | .clamp => some (latch && s.cell pin)
    | .highz => if latch then none else some false
    | _ => some latch

/-- SAFE_n and FAULT_n. -/
def State.safePin (s : State) : Option Bool := s.latchPin s.keeper.safeN 0
def State.faultPin (s : State) : Option Bool := s.latchPin s.keeper.faultN 1

/-- HEARTBEAT, whose cell holds the pin's level. -/
def State.heartbeatPin (s : State) : Option Bool := if s.drivesPins 1 then some s.keeper.heartbeat else none

/-- Whether power domain d drives pins of the VDD_IO33 bank (R497). -/
def State.drives33 (s : State) (d : Nat) : Bool := s.pdOn d && !s.heldInReset && s.pins.io33

/-- TRIG_OUTt, in the bank of VDD_IO33 (R497, R503). -/
def State.trigPin (s : State) (t : Nat) : Option Bool := if s.drives33 1 then s.tpinOut t else none

/-- PPS_OUTk: active through its pulse (R52). -/
def State.ppsPin (s : State) (k : Nat) : Option Bool := if s.drivesPins 1 then some (s.ppsActive k) else none

/-- DDR_CHk_RESET_n: low in reset (R491); in self-refresh it stays high, as JESD79-5 requires (R404, log 48). -/
def State.ddrResetPin (s : State) (k : Nat) : Option Bool :=
  some (!s.heldInReset && (s.pdOn (42 + k / 2) || s.ddrPair (k / 2) != .untrained))

/-- The power domain and the bank that drive a pin, VDD_IO33 where true; none for an input, a pin of DDR5 and those of power domain 0
(R491). -/
def Pin.drivenBy : Pin → Option (Nat × Bool)
  | .safe | .fault | .heartbeat | .ppsOut _ => some (1, false)
  | .trig _ => some (1, true)
  | .canTxd c => some (if c = 0 then 1 else 40, true)
  | .clkreq => some (44, false)
  | .obs _ => some (46, false)
  | .jtag 3 => some (46, false)
  | .xspi _ => some (46, false)
  | .spi _ line => if line < 3 then some (40, false) else none
  | _ => none

/-- The level that the device drives onto a pin outside boundary scan: none while the pin is high-Z, or an input. What no rule states is
a free value: the lines of SPI, xSPI, CAN and DDR5, which their standards run, and CLKREQ_n and the SMBus, which are open drains. -/
def State.drivenLevel (s : State) (p : Pin) : Option Bool :=
  match p with
  | .safe => s.safePin
  | .fault => s.faultPin
  | .heartbeat => s.heartbeatPin
  | .trig t => s.trigPin t
  | .ppsOut k => s.ppsPin k
  | .obs i => s.obsPin (i / 8) (i % 8)
  | .pmicSleep => if s.pins.io18 then some s.pins.pmicSleep else none
  | .vcoreSel i => if s.pins.io18 then some (bit s.pins.vcoreSel i) else none
  | .ddrReset k => s.ddrResetPin k
  | .ddr _ _ => if s.heldInReset then none else if Config.pinLevel (1000 + p.number) s.now then some (s.anyLevel p) else none
  | .clkreq => s.openDrain p (s.drivesPins 44)
  | .smb _ => s.openDrain p (!s.heldInReset && s.pins.io33)
  | _ => match p.drivenBy with
    | some (d, io33) => if (if io33 then s.drives33 d else s.drivesPins d) then some (s.anyLevel p) else none
    | none => none

/-- Whether boundary scan reaches a pin: its supply is there, and its power domain is on and not in reset (R446, R491, R496). -/
def State.scanReaches (s : State) (p : Pin) : Bool :=
  match p with
  | .pmicSleep | .vcoreSel _ => s.pins.io18
  | .ddr sc _ => s.pdOn (42 + sc / 4) && !s.heldInReset
  | .ddrReset k => s.pdOn (42 + k / 2) && !s.heldInReset
  | .smb _ => !s.heldInReset && s.pins.io33
  | _ => match p.drivenBy with
    | some (d, io33) => if io33 then s.drives33 d else s.drivesPins d
    | none => false

/-- The level of a pin of the chain as the device drives it (R491, R493, R505, R507): in EXTEST and CLAMP its cell, in HIGHZ none; the
cells of the safety pins give way as R507 has it. -/
def State.pinOut (s : State) (p : Pin) : Option Bool :=
  match p with
  | .safe | .fault | .heartbeat => s.drivenLevel p
  | _ => if s.scanReaches p then
      match s.tapNow with
      | .extest | .clamp => some (s.cell p.number)
      | .highz => none
      | _ => s.drivenLevel p
    else s.drivenLevel p

/-- The level that SAMPLE/PRELOAD captures on a pin: of an output what the device drives, of an input what stands on it. Inputs that the
state does not hold are free values. -/
def State.captured (s : State) (p : Pin) : Option Bool :=
  match p with
  | .resetN => some s.pins.resetN
  | .perst => some (!s.link.perst)
  | .pgCore => some s.pins.pgCore
  | .pgSram => some s.pins.pgSram
  | .wake one => some (if one then s.pins.wake1 else s.pins.wake0)
  | .ppsIn | .refclk | .clk32k | .canRxd _ => some (s.anyLevel p)
  | .jtag line => if line = 3 then s.pinOut p else some (s.anyLevel p)
  | .spi _ line => if line < 3 then s.pinOut p else some (s.anyLevel p)
  | _ => s.pinOut p

/-- SAMPLE/PRELOAD: the pins' levels are captured, and `data` is preloaded into the boundary chain. -/
def execSamplePreload (data : List Bool) (s : State) : Res :=
  if s.pdOn 46 then
    let t := (s.tapTakes .samplePreload).emit (.sampled (chainPins.map s.captured))
    .next (t.setPins { t.pins with boundary := data })
  else .next s

/-- Whether the receivers of a link show their termination (R446, R491): PCIe, or a port of the Lodge. -/
def State.terminated (s : State) (pcie : Bool) : Bool :=
  if pcie then s.pdOn 44 && !s.heldInReset && !s.link.perst else s.pdOn 40 && !s.heldInReset

/-- TAP_RESET: IDCODE is selected. -/
def execTapReset (s : State) : Res := .next (s.setPins { s.pins with jtag := .idcode })

end Sys2Proof.Machine
end

