-- ==== Sys2Proof/Machine/Scanner.lean ====
section
/-! DEFINITION. Range scanners: templates (R83, R84), points (R85), sweeps (R86), packet time (R87), items (R88, R89), and the
classification of received Ethernet frames (R81, R82). -/

namespace Sys2Proof.Machine

/-! ### Templates -/

/-- A field descriptor of R83. -/
structure ScanField where
  off : Nat
  width : Nat
  signed : Bool
  blockScoped : Bool
  scale : Nat
  deriving DecidableEq, Repr

/-- A template as R83 lays it out: the numbers of its first 128 bytes, and the channel table. -/
structure Template where
  word : Nat
  fields : List ScanField
  deriving DecidableEq, Repr

def Template.f (t : Template) (hi lo : Nat) : Nat := bits t.word hi lo

/-- Field k of a template's number. -/
def scanField (x k : Nat) : ScanField :=
  let d := bits x (319 + 64 * k) (256 + 64 * k)
  ⟨bits d 15 0, bits d 23 16, bit d 24, bit d 25, bits d 63 32⟩

def parseTemplate (bs : Bytes) : Template := let x := ofLe bs; ⟨x, (List.range 7).map (scanField x)⟩

def Template.field (t : Template) (k : Nat) : ScanField := t.fields.getD k ⟨0, 0, false, false, 0⟩
def Template.version (t : Template) : Nat := t.f 15 0
def Template.spherical (t : Template) : Bool := decide (t.f 23 16 = 1)
def Template.bigEndian (t : Template) : Bool := bit t.word 24
def Template.dropsZero (t : Template) : Bool := bit t.word 25
def Template.minPayload (t : Template) : Nat := t.f 63 48
def Template.maxPayload (t : Template) : Nat := t.f 79 64
def Template.timeFmt (t : Template) : Nat := t.f 87 80
def Template.byPeriod (t : Template) : Bool := decide (t.f 95 88 = 1)
def Template.firstBlock (t : Template) : Nat := t.f 127 112
def Template.blocks (t : Template) : Nat := t.f 143 128
def Template.blockStride (t : Template) : Nat := t.f 159 144
def Template.points (t : Template) : Nat := t.f 175 160
def Template.pointStride (t : Template) : Nat := t.f 191 176
def Template.pointBase (t : Template) : Nat := t.f 207 192
def Template.timeBase (t : Template) : Int := toSigned 32 (t.f 735 704)
/-- Elevation and azimuth offset of a channel, in 0.001°. -/
def Template.channel (t : Template) (k : Nat) : Int × Int :=
  let e := t.f (1055 + 32 * k) (1024 + 32 * k)
  (toSigned 16 (bits e 15 0), toSigned 16 (bits e 31 16))

/-- Where a field of the last point ends in the payload. -/
def Template.fieldEnd (t : Template) (d : ScanField) : Nat :=
  t.firstBlock + (t.blocks - 1) * t.blockStride
  + (if d.blockScoped then 0 else t.pointBase + (t.points - 1) * t.pointStride) + d.off + d.width

/-- R84. -/
def Template.valid (t : Template) : Bool :=
  decide (t.version = 1) && decide (t.f 23 16 ≤ 1) && decide (t.timeFmt ≤ 2) && decide (t.f 95 88 ≤ 1)
  && decide (1 ≤ t.blocks) && decide (t.blocks ≤ 64) && decide (1 ≤ t.points) && decide (t.points ≤ 128)
  && decide (t.blocks * t.points ≤ 512) && decide (t.f 223 208 ≤ 35999)
  && (!t.byPeriod || (decide (1000 ≤ t.f 255 224) && decide (t.f 255 224 ≤ 1000000)))
  && t.fields.all (fun d => decide (d.width ≤ 4))
  && decide ((t.field 0).width ≠ 0) && decide ((t.field 1).width ≠ 0) && (decide ((t.field 2).width ≠ 0) || t.spherical)
  && t.fields.all (fun d => decide (d.width = 0) || decide (t.fieldEnd d ≤ t.minPayload))
  && decide ((if t.timeFmt = 1 then t.f 111 96 + 10 else if t.timeFmt = 2 then t.f 111 96 + 8 else 0) ≤ t.minPayload)
  && decide (t.firstBlock + t.blocks * t.blockStride ≤ t.minPayload)

/-- A template of the machine. -/
def State.template (s : State) (t : Nat) : Template := parseTemplate (s.blob (Blobs.tplData t) (List.replicate 640 0))

/-- TPL_DATA (R84): refused, naming the template, while an enabled stream uses it. -/
def hookTemplate (t : Nat) : Hook := fun s _ data =>
  if (List.range 12).any (fun k => s.flag (Regs.streamEnable (24 + k)) && decide (s.reg (Regs.scnTemplate k) = t)) then
    .error (conflictKind 5 t)
  else .ok ((s.setBlob (Blobs.tplData t) data).setReg (Regs.tplValid t) (if (parseTemplate data).valid then 1 else 0))

/-- TEMPLATE_WRITE. -/
def execTemplateWrite (p : Path) (t : Fin 8) (data : Bytes) (s : State) : Res :=
  .next (s.writeObject p (0x2340 + t.val) 1 data (hookTemplate t.val))

/-! ### Points (R85) -/

/-- π / 180 in units of 2^-96. -/
def piOver180 : Int := 1382792296179061584614010803

/-- Cosine and sine of an angle in 2^-64 degrees, both in 2^-64, by their series. -/
def trigFix (a : Int) : Int × Int :=
  let turn : Int := 360 * 2 ^ 64
  let r := a % turn
  let r := if turn < 2 * r then r - turn else r
  let x := r * piOver180 / 2 ^ 96
  let (c, sn, _, _) := (List.range 25).foldl (fun ((c, sn, tc, ts) : Int × Int × Int × Int) n =>
    (c + tc, sn + ts, -(tc * x / 2 ^ 64 * x / 2 ^ 64) / ((2 * n + 1) * (2 * n + 2)),
      -(ts * x / 2 ^ 64 * x / 2 ^ 64) / ((2 * n + 2) * (2 * n + 3)))) (0, 0, 2 ^ 64, x)
  (c, sn)

/-- A value in 2^-64 degrees of an exact number of degrees. -/
def degFix : Num → Int
  | .fin sg m e =>
    let v : Int := if 0 ≤ e + 64 then (m : Int) * 2 ^ (e + 64).toNat else (m : Int) / 2 ^ (-(e + 64)).toNat
    if sg then -v else v
  | _ => 0

/-- A candidate that lies within 2^-20 r of the true value, else the true value rounded. `r2` is r². -/
def nearPoint (cand : Nat) (t r2 : Num) : Nat :=
  let c := cand % 2 ^ 32
  let d := (f32 c).add t.neg
  match d, r2 with
  | .fin _ m e, .fin _ m2 e2 => if magLe (m * m) (2 * e) m2 (e2 - 40) then c else toF32 t
  | _, _ => toF32 t

/-- One point: x, y, z in FP32 bits, r of a spherical point, and r² exactly. -/
structure Placed where
  x : Nat
  y : Nat
  z : Nat
  r : Option Num
  r2 : Num
  deriving DecidableEq, Repr

/-- A Cartesian point from its raw values and scales. -/
def cartesianAt (raw : Nat → Int) (scale : Nat → Nat) : Placed :=
  let v (k : Nat) : Num := (intNum (raw k)).mul (f32 (scale k))
  let r2 := ((v 0).mul (v 0)).add (((v 1).mul (v 1)).add ((v 2).mul (v 2)))
  let c (k : Nat) : Nat := nearPoint (Config.cartesianPoint (raw k) (scale k)) (v k) r2
  ⟨c 0, c 1, c 2, none, r2⟩

/-- A spherical point: its range in FP32 and its azimuth and elevation in 2^-64 degrees. -/
def spherePoint (r : Nat) (az el : Int) : Placed :=
  let (ca, sa) := trigFix az
  let (ce, se) := trigFix el
  let rn := f32 r
  let r2 := rn.mul rn
  let c (k : Nat) (t : Num) : Nat := nearPoint (Config.sphericalPoint r az el k) (rn.mul t) r2
  ⟨c 0 (fixNum (ce * ca) 128), c 1 (fixNum (ce * sa) 128), c 2 (fixNum se 64), some rn, r2⟩

/-- Whether r lies below or above the limits of a template, compared exactly (log 25): a spherical r, which may be negative, by
itself, a Cartesian one by its square. -/
def Template.outside (t : Template) (p : Placed) : Bool :=
  let low := f32 (t.f 831 800)
  let high := f32 (t.f 863 832)
  match p.r with
  | some r => r.lt low || high.lt r
  | none =>
    let sq (v : Num) : Num := let w := v.mul v; if v.sign then w.neg else w
    p.r2.lt (sq low) || (sq high).lt p.r2

/-- One computed point: its block and channel, its time after the packet's reference, whether it is dropped, its
coordinates, intensity and return. -/
structure ScanPoint where
  block : Nat
  chan : Nat
  offset : Nat
  dropped : Bool
  data : Bytes
  deriving DecidableEq, Repr

/-- The raw value of a field at a point, signed as its descriptor says, and as bits. -/
def Template.raw (t : Template) (payload : Bytes) (b k : Nat) (d : ScanField) : Int × Nat :=
  let block := t.firstBlock + b * t.blockStride
  let at_ := (if d.blockScoped then block else block + t.pointBase + k * t.pointStride) + d.off
  let x := ofBytes t.bigEndian (slice payload at_ d.width)
  (readSigned (8 * d.width) x d.signed, x)

/-- The point at block position b and point position k of a payload (R85, R89); `free` fills what the template leaves
absent. An F5 of more than 16 bits stands in BLOCK by its low 16 (log 70). -/
def Template.point (t : Template) (payload : Bytes) (free b k : Nat) : ScanPoint :=
  let raw (i : Nat) : Int := (t.raw payload b k (t.field i)).1
  let rawBits (i : Nat) : Nat := (t.raw payload b k (t.field i)).2
  let has (i : Nat) : Bool := decide ((t.field i).width ≠ 0)
  let sc (i : Nat) : Nat := (t.field i).scale
  let bi := if has 5 then rawBits 5 else b
  let ki := if has 6 then rawBits 6 else k
  let offset := bi * t.f 767 736 + ki * t.f 799 768
  if 128 ≤ ki then ⟨bi, ki, offset, true, []⟩
  else
    let (elev, azOff) := t.channel ki
    let p := if t.spherical then
        spherePoint (scaled (raw 0) (sc 0)) (degFix ((intNum (raw 1)).mul (f32 (sc 1))) + azOff * 2 ^ 64 / 1000)
          (if has 2 then degFix ((intNum (raw 2)).mul (f32 (sc 2))) else elev * 2 ^ 64 / 1000)
      else cartesianAt raw sc
    let drop := t.outside p || (t.dropsZero && decide (raw 0 = 0))
    let intensity := if has 3 then (encodeNum .uint8 none ((intNum (raw 3)).mul (f32 (sc 3)))).code else free % 256
    let ret := if has 4 then rawBits 4 % 4 else (free / 256) % 4
    let off := min offset 0xFFFFFFFF
    let data := toLe 4 off ++ toLe 4 p.x ++ toLe 4 p.y ++ toLe 4 p.z
      ++ toLe 4 (intensity + 256 * ret + (if off = 0xFFFFFFFF then 65536 else 0)) ++ toLe 2 ki ++ toLe 2 (bi % 65536)
    ⟨bi, ki, offset, drop, data⟩

/-! ### Sweeps (R86) -/

/-- The points of one sweep in a packet. -/
structure Segment where
  sweep : Nat
  dropped : Nat
  data : List Bytes
  deriving DecidableEq, Repr

/-- The sweep detector while a packet is cut: segments newest first. -/
structure Cutter where
  sweep : Nat
  prev : Option Nat
  armed : Bool
  segs : List Segment := []
  deriving DecidableEq, Repr

/-- (azimuth − sweep_az) mod 360° in units of 0.01° × 2^-149. The azimuth is F1 scaled, in degrees, of a Cartesian template as
well, whose F1 is y: R86 names no other (log 70). -/
def Template.turn (t : Template) (raw : Int) (scale : Nat) : Nat :=
  match (intNum raw).mul (f32 scale) with
  | .fin sg m e =>
    let v : Int := (m : Int) * 100 * 2 ^ (e + 149).toNat
    (((if sg then -v else v) - (t.f 223 208 : Int) * 2 ^ 149) % (36000 * 2 ^ 149)).toNat
  | _ => 0

/-- Whether a new sweep starts at a point, and the detector after it: `key` is d, or the point's time in ns / period. -/
def Cutter.boundary (c : Cutter) (byPeriod : Bool) (key : Nat) : Bool × Cutter :=
  if byPeriod then
    let new := match c.prev with
      | some k => decide (k < key)
      | none => false
    (new, { c with prev := some key })
  else
    let half := 18000 * 2 ^ 149
    match c.prev with
    | none => (false, { c with prev := some key, armed := decide (half ≤ key) })
    | some d =>
      let new := c.armed && decide (key < d)
      let armed := if half ≤ key then true else if new then false else c.armed
      (new, { c with prev := some key, armed := armed })

/-- Adds a point to its segment. -/
def Cutter.add (c : Cutter) (p : ScanPoint) : Cutter :=
  let (old, rest) := match c.segs with
    | g :: t => if g.sweep = c.sweep then (g, t) else (({ sweep := c.sweep, dropped := 0, data := [] } : Segment), c.segs)
    | [] => ({ sweep := c.sweep, dropped := 0, data := [] }, [])
  let g : Segment := if p.dropped then { old with dropped := old.dropped + 1 } else { old with data := p.data :: old.data }
  { c with segs := g :: rest }

/-- One point of a packet whose reference is `ref` in 2^-16 ns. A point that R85 drops takes part in the search for sweep boundaries
like any other (DESIGN CHOICE: R86 does not say, log 75). -/
def Cutter.take (c : Cutter) (t : Template) (payload : Bytes) (ref : Int) (free : Nat → Nat) (i : Nat) : Cutter :=
  let b := i / t.points
  let k := i % t.points
  let p := t.point payload (free i) b k
  let key := if t.byPeriod then ((ref + p.offset * 16384) / 65536).toNat / (t.f 255 224 * 1000)
    else t.turn (t.raw payload b k (t.field 1)).1 (t.field 1).scale
  let (new, c) := c.boundary t.byPeriod key
  (if new then { c with sweep := (c.sweep + 1) % 2 ^ 32 } else c).add p

/-! ### Packets (R87, R88) -/

/-- The packet time in 2^-16 ns, from the payload or the arrival stamp. -/
def Template.packetTime (t : Template) (payload : Bytes) (arrival : Nat) : Int :=
  let o := t.f 111 96
  let n (a k : Nat) : Nat := ofBytes t.bigEndian (slice payload (o + a) k)
  if t.timeFmt = 1 then ((n 0 6 * 1000000000 + n 6 4) * 65536 : Nat)
  else if t.timeFmt = 2 then (n 0 8 * 65536 : Nat)
  else (t128Time arrival : Nat)

/-- A time in 2^-16 ns with flag bits, as a T128. -/
def t128Of (t flags : Nat) : Nat := packT128 (t <<< 24) flags

/-- One item of a scanner packet (R88): `place` is bit 0 SPLIT_HEAD, bit 1 SPLIT_TAIL. The start of the packet is the one item-start
marker of its items (R67, R75). -/
def State.scanItem (s : State) (q tplNo : Nat) (ref arrival seq : Nat) (payloadTime : Bool) (place : Nat) (g : Segment) : State :=
  let h := ref + arrival <<< 128 + g.sweep <<< 256 + seq <<< 288 + g.data.length <<< 320 + g.dropped <<< 336
    + tplNo <<< 352 + (place + (if payloadTime then 4 else 0)) <<< 360
  State.fillAny (if bit place 1 then s.followItem q else s.startItem q) q ref (toLe 64 h ++ g.data.reverse.flatten)

/-- The flags of the places of n segments. -/
def placeOf (n i : Nat) : Nat := if n ≤ 1 then 0 else (if i + 1 < n then 1 else 0) + (if 0 < i then 2 else 0)

/-- A packet of stream q is taken (R85–R88), or is implausible (R87). PKT_SEQ advances with every packet taken, also where congestion
discards its items (DESIGN CHOICE: R88 does not say, log 75). -/
def State.scanPacket (s : State) (q : Nat) (arrival : Nat) (payload : Bytes) : State :=
  let tplNo := s.streamTemplate q
  let t := s.template tplNo
  let time := t.packetTime payload arrival
  if s.reg (Regs.scnTimePlaus (q - 24)) * 65536 < (time - (t128Time arrival : Nat)).natAbs then s.bump (Regs.streamBadItems q)
  else
    let v := s.ingest q
    let ref := time + t.timeBase * 16384
    let captured := decide (t.timeFmt = 0) && decide (t.timeBase = 0)
    let flags := bits arrival 127 110
    let flags := if captured then flags else flags - 4096 * bits flags 12 12 + 8192
    let n := t.blocks * t.points
    let c := (List.range n).foldl (fun c i => c.take t payload ref (fun k => Config.freeNat (s.freeIx + k)) i)
      ({ sweep := v.sweep, prev := v.prev, armed := v.armed } : Cutter)
    let s := s.setIngest q { v with sweep := c.sweep, prev := c.prev, armed := c.armed, seq := (v.seq + 1) % 2 ^ 32 }
    let segs := c.segs.reverse
    (segs.zipIdx).foldl (fun s (g, i) =>
      s.scanItem q tplNo (t128Of ref.toNat flags) arrival v.seq (t.timeFmt != 0) (placeOf segs.length i) g)
      { s with freeIx := s.freeIx + n }

/-! ### Frames (R81, R82) -/

/-- The big-endian number in n bytes at an offset. -/
def beAt (bs : Bytes) (o n : Nat) : Nat := ofLe (slice bs o n).reverse

/-- A frame's EtherType after any tag, its VLAN ID, and where its payload begins. -/
def etherOf (f : Bytes) : Nat × Option Nat × Nat :=
  if beAt f 12 2 = 0x8100 then (beAt f 16 2, some (beAt f 14 2 % 4096), 18) else (beAt f 12 2, none, 14)

/-- The one's complement sum of a byte string in 16-bit big-endian words. -/
def onesSum : Bytes → Nat
  | a :: b :: t => a.toNat * 256 + b.toNat + onesSum t
  | [a] => a.toNat * 256
  | [] => 0

def foldOnes (x : Nat) : Nat := let y := x % 65536 + x / 65536; y % 65536 + y / 65536

/-- A UDP datagram in a frame: destination port, payload, whether its checksum holds. -/
structure Udp where
  port : Nat
  payload : Bytes
  good : Bool
  deriving DecidableEq, Repr

/-- A datagram of `room` bytes at most at an offset, with its pseudo-header's addresses. -/
def udpAt (f : Bytes) (o room : Nat) (addresses : Bytes) : Option Udp :=
  let n := beAt f (o + 4) 2
  if room < 8 ∨ n < 8 ∨ room < n ∨ f.length < o + n then none
  else
    let sum := foldOnes (foldOnes (onesSum addresses + 17 + n + onesSum (slice f o n)))
    some ⟨beAt f (o + 2) 2, slice f (o + 8) (n - 8), beAt f (o + 6) 2 = 0 || sum = 0xFFFF⟩

/-- What a frame carries above Ethernet. -/
inductive Carried where
  | fragment | udp (u : Udp) | other
  deriving DecidableEq, Repr

/-- The header that follows the IPv6 extension headers of a packet (log 70): its number, where it begins, and the bytes left. -/
def ipv6Past (f : Bytes) : Nat → Nat → Nat → Nat → Nat × Nat × Nat
  | 0, next, o, room => (next, o, room)
  | n + 1, next, o, room =>
    let words := (f.getD (o + 1) 0).toNat
    let size := if next = 51 then 4 * (words + 2) else 8 * (words + 1)
    if (next = 0 ∨ next = 43 ∨ next = 51 ∨ next = 60) ∧ size ≤ room then ipv6Past f n (f.getD o 0).toNat (o + size) (room - size)
    else (next, o, room)

/-- What the header of a number at an offset makes of a packet. -/
def carriedAt (f : Bytes) (next o room : Nat) (addresses : Bytes) : Carried :=
  if next = 17 then
    (match udpAt f o room addresses with
      | some u => .udp u
      | none => .other)
  else .other

/-- IPv4 or IPv6 in a frame (R81, R82). -/
def carried (f : Bytes) : Carried :=
  let (kind, _, o) := etherOf f
  let first := (f.getD o 0).toNat
  if kind = 0x0800 ∧ first / 16 = 4 then
    let head := 4 * (first % 16)
    if beAt f (o + 6) 2 % 0x4000 ≠ 0 then .fragment
    else if head < 20 then .other
    else carriedAt f (f.getD (o + 9) 0).toNat (o + head) (beAt f (o + 2) 2 - head) (slice f (o + 12) 8)
  else if kind = 0x86DD ∧ first / 16 = 6 then
    let (next, at_, room) := ipv6Past f f.length (f.getD (o + 6) 0).toNat (o + 40) (beAt f (o + 4) 2)
    if next = 44 then .fragment else carriedAt f next at_ room (slice f (o + 8) 32)
  else .other

/-- Whether a frame with a datagram matches scanner stream q (R82). -/
def State.scanMatches (s : State) (q : Nat) (f : Bytes) (u : Udp) : Bool :=
  let k := q - 24
  let t := s.template (s.streamTemplate q)
  let (_, vlan, _) := etherOf f
  let mac := s.reg (Regs.scnSrcMac k) % 2 ^ 48
  let want := s.reg (Regs.scnVlan k)
  s.flag (Regs.streamEnable q) && (decide (mac = 0) || decide (beAt f 6 6 = mac))
  && (decide (want = 0xFFFF) || vlan == some want)
  && (decide (t.f 47 32 = 0) || decide (t.f 47 32 = u.port))
  && decide (t.minPayload ≤ u.payload.length) && decide (u.payload.length ≤ t.maxPayload)

/-- The scanner stream of a port that a frame goes to. -/
def State.scanStream (s : State) (p : Nat) (f : Bytes) : Option (Nat × Udp) :=
  match carried f with
  | .udp u => (((List.range 3).map (24 + 3 * p + ·)).find? (fun q => s.scanMatches q f u)).map (fun q => (q, u))
  | _ => none

/-- A frame for the host receive queue, or one that nothing matches (R82 rules 5 and 6, R98). -/
def State.hostReceive (s : State) (p arrival : Nat) (f : Bytes) : State :=
  if !s.flag (Regs.ethHostRx p) then s.bump (Regs.ethUnmatched p)
  else if !s.ingestLive (48 + p) then s
  else
    let tagged := if (etherOf f).2.1.isSome then 2 ^ 144 else 0
    s.wholeItem (48 + p) arrival (toLe 32 (arrival + f.length <<< 128 + tagged) ++ f)

/-- ETH_FRAME_RECEIVED (R82): `frame` is the frame without its FCS. -/
def execEthFrameReceived (port : Fin 4) (fcsGood : Bool) (fine : Fin 16) (frame : Bytes) (s : State) : Res :=
  let p := port.val
  if !s.pdOn 40 || !s.flag (Regs.ethLinkUp p) || decide (frame.length < 60) || decide (9212 < frame.length) then .next s
  else if !fcsGood then .next (s.bump (Regs.ethFcsErrors p))
  else
    let arrival := s.stampAt (tapEth p) fine.val (-(s.reg (Regs.ethRxLat p) : Int))
    let kind := (etherOf frame).1
    if kind = 0x88F7 then .next s
    else if kind = 0x8808 then .next (s.bump (Regs.ethPauseDiscarded p))
    else if carried frame = .fragment then .next (s.bump (Regs.ethFragments p))
    else match s.scanStream p frame with
      | some (q, u) =>
        if !u.good then .next (s.bump (Regs.streamBadItems q))
        else if !s.ingestLive q then .next s
        else .next (s.scanPacket q arrival u.payload)
      | none => .next (s.hostReceive p arrival frame)

end Sys2Proof.Machine
end

