-- ==== Sys2Proof/Machine/Objects.lean ====
section
/-! DEFINITION. Every object of the dictionary (R407): which owning chapter's rule a write of it follows, what a read of it
returns, and the writes that have no command of their own (R410, R415, R434, R436). -/

namespace Sys2Proof.Machine

/-! ### Writes: ranges that need more than the table (R142, R326, R437) -/

/-- A finite FP32 pattern as a number that orders as its value does. -/
def f32Order (x : Nat) : Int := if x < 2 ^ 31 then x else -((x - 2 ^ 31 : Nat) : Int)

/-- An FP32 between two patterns (R409). -/
def f32In (lo hi x : Nat) : Bool := decide (f32Order lo ≤ f32Order x) && decide (f32Order x ≤ f32Order hi)

/-- An object of the Pergola with a range of its own. -/
def pergolaIn (index sub : Nat) (ok : State → Nat → Bool) : Hook :=
  rangeFirst (fun s data => ok s (ofLe data)) (hookPergola index sub (storeHook index sub))

/-- IF_SELECT: a byte outside its range, then a change of an interface in use (R433, R434). -/
def hookIfSelect : Hook := fun s _ data =>
  let old := s.blob Blobs.ifSelect (List.replicate 7 1)
  let used : List Bool := [
    (List.range 64).any (fun r => s.flag (Regs.ringEnable r)),
    false,
    s.paths.canOrdinary.transfer.isSome || s.paths.canSafety.transfer.isSome
      || s.paths.canOrdinary.latch.isSome || s.paths.canSafety.latch.isSome,
    (List.range 4).any (fun p => s.flag (Regs.kvpEnable p)),
    (List.range 12).any (fun k => s.flag (Regs.streamEnable (24 + k))),
    s.reg Regs.kpRulesValid != 0,
    s.leaseRunning]
  match (List.range 7).find? (fun i => decide (data.getD i 0 ≠ 1)) with
  | some i => .error ⟨7, detailOf 0 i⟩
  | none =>
    if (List.range 7).any (fun i => used.getD i false && decide (data.getD i 0 ≠ old.getD i 0)) then .error (conflictObject Blobs.ifSelect)
    else .ok (s.setBlob Blobs.ifSelect data)

/-- DEV_ATTENTION: each 1 written clears its bit. -/
def hookAttention : Hook := fun s _ data =>
  .ok (s.setReg Regs.devAttention (s.reg Regs.devAttention - (s.reg Regs.devAttention &&& ofLe data)))

/-- DICT_CAN_BASE: base + 5 within the identifier space of its IDE (R437). -/
def hookCanBase : Hook := rangeFirst
  (fun _ data => decide (ofLe data % 2 ^ 29 + 5 < (if bit (ofLe data) 29 then 2 ^ 29 else 2 ^ 11)))
  (regHook Regs.dictCanBase)

/-- ARB_EXPORT_LIST: SEQ and SLOT0 of each entry; the other bits are reserved (R300). -/
def hookExportList : Hook := fun s _ data =>
  .ok (s.setBlob Blobs.arbExportList ((List.range (data.length / 8)).flatMap (fun i =>
    let e := ofLe (slice data (8 * i) 8)
    toLe 8 (bits e 11 0 + bits e 63 32 <<< 32))))

/-! ### Writes: which rule -/

/-- Objects whose writes have rules of their own, by the key of the row's first object; the argument is the row's instance. -/
def hookRows : List (Nat × (Nat → Hook)) := [
  (0x220002, fun _ => hookActiveDomain),
  (0x220006, fun _ => hookForceSwitch),
  (0x220101, fun k => hookTdSource (decide (k = 1))),
  (0x220102, fun k => hookGptpDomain (decide (k = 1))),
  (0x22010B, fun _ => hookPdelayInterval),
  (0x221002, fun a => hookAlarmSeries a (Regs.alarmTarget a)),
  (0x221003, fun a => hookAlarmSeries a (Regs.alarmPeriod a)),
  (0x221006, hookAlarmArm),
  (0x221802, fun t => hookTrigSeries t (Regs.trigStart t)),
  (0x221803, fun t => rangeFirst (fun s data => decide (s.reg (Regs.trigWidth t) + 8 ≤ ofLe data)) (hookTrigSeries t (Regs.trigPeriod t))),
  (0x221804, hookTrigWidth),
  (0x221805, fun t => hookTrigSeries t (Regs.trigCount t)),
  (0x221807, hookTrigEnable),
  (0x221C04, hookPpsEnable),
  (0x222007, hookLqFlush),
  (0x230001, hookIngestEnable),
  (0x230003, fun q => hookIngestGeometry q (Regs.streamQbase q)),
  (0x230004, fun q => hookIngestGeometry q (Regs.streamSlotSize q)),
  (0x230005, fun q => hookIngestGeometry q (Regs.streamSlotCount q)),
  (0x230006, hookStreamFlush),
  (0x230011, hookCamDt),
  (0x233804, fun p => hookIngestEnable (48 + p)),
  (0x23380B, fun p => hookIngestGeometry (48 + p) (Regs.ethHrxQbase p)),
  (0x23380C, fun p => hookIngestGeometry (48 + p) (Regs.ethHrxSlotCount p)),
  (0x23380D, hookEthTxFlush),
  (0x234001, hookTemplate),
  (0x240001, fun _ => hookSlicing 0x2400 1 Regs.pgEpochPeriod),
  (0x240004, fun _ => hookPgSeed),
  (0x240104, fun g => pergolaIn (0x2401 + g) 4 (fun _ v => f32In 0x3D4CCCCD 0x40000000 v)),
  (0x240105, fun g => pergolaIn (0x2401 + g) 5 (fun _ v => f32In 0xC47A0000 0x447A0000 v)),
  (0x240106, fun g => pergolaIn (0x2401 + g) 6 (fun _ v => f32In 0xC47A0000 0x447A0000 v)),
  (0x240107, fun g => pergolaIn (0x2401 + g) 7 (fun s v => f32In 0xC2C80000 0x42C80000 v
    && decide (f32Order v < f32Order (s.reg (Regs.gridZmax g))))),
  (0x240108, fun g => pergolaIn (0x2401 + g) 8 (fun s v => f32In 0xC2C80000 0x42C80000 v
    && decide (f32Order (s.reg (Regs.gridZmin g)) < f32Order v))),
  (0x240301, fun _ => hookPoseSource),
  (0x241001, fun k => hookSlicing (0x2410 + k) 1 (Regs.pgsSlices k)),
  (0x241002, fun k => hookSlicing (0x2410 + k) 2 (Regs.pgsSweepPeriod k)),
  (0x250002, fun _ => hookGafferFence none),
  (0x250003, fun _ => hookChairFormed),
  (0x252001, hookGafferLevel),
  (0x254001, hookSrSeed),
  (0x260001, fun _ => hookL2 Regs.kvL2Base),
  (0x260002, fun _ => hookL2 Regs.kvL2Count),
  (0x26200A, fun _ => hookExportList),
  (0x280001, fun _ => hookKpArmed),
  (0x282001, fun _ => hookLlEnable),
  (0x280003, fun _ => rangeFirst (fun s data => decide (ofLe data ≤ s.reg Regs.kpWindowN)) (regHook Regs.kpWindowK)),
  (0x280004, fun _ => rangeFirst (fun s data => decide (s.reg Regs.kpWindowK ≤ ofLe data)) (regHook Regs.kpWindowN)),
  (0x28000A, fun _ => hookForceSafe),
  (0x28000B, fun _ => hookSafeClear),
  (0x281001, fun _ => hookRules false),
  (0x281002, fun _ => hookRules true),
  (0x201002, fun _ => hookReadSeq),
  (0x2A2006, fun _ => hookDdrRetire),
  (0x2A2007, fun _ => hookDdrUnretire),
  (0x2A2801, hookScMarked),
  (0x290005, fun _ => hookAperture),
  (0x294001, hookRingTarget),
  (0x294002, hookRingFlush),
  (0x29400A, hookRingEnable),
  (0x29400B, fun r => heldHook (Regs.ringEnable r) (regHook (Regs.ringBase r))),
  (0x29400C, fun r => powerHook (Regs.ringEnable r) (Regs.ringSize r)),
  (0x29400D, fun r => heldHook (Regs.ringEnable r) (regHook (Regs.ringCq r))),
  (0x298002, hookIqEnable),
  (0x298003, fun k => hookIqConfig k (Regs.iqBase k)),
  (0x298004, fun k => hookIqConfig k (Regs.iqSlotSize k)),
  (0x298005, fun k => hookIqConfig k (Regs.iqSlotCount k)),
  (0x298006, hookIqFlush),
  (0x29C001, hookCqEnable),
  (0x29C002, fun c => heldHook (Regs.cqEnable c) (regHook (Regs.cqBase c))),
  (0x29C003, fun c => powerHook (Regs.cqEnable c) (Regs.cqSize c)),
  (0x2A0006, fun _ => hookInterleave),
  (0x110101, fun _ => hookIfSelect),
  (0x200005, fun _ => hookAttention),
  (0x111001, fun _ => hookCanBase),
  (0x210004, fun _ => hookVcoreMode),
  (0x210005, fun _ => hookDomainSet),
  (0x210101, fun _ => hookSleep),
  (0x210102, fun _ => hookWakeSet),
  (0x211101, fun k => hookPdRequest (k + 1)),
  (0x2B000B, fun _ => hookBootRestart),
  (0x2B000C, fun _ => hookCommitSvn),
  (0x2B0103, fun _ => hookStage),
  (0x2B0202, fun _ => hookLcAdvance),
  (0x2B0203, fun _ => hookProvision (.keyHash 0)),
  (0x2B0204, fun _ => hookProvision (.keyHash 1)),
  (0x2B0205, fun _ => hookProvision (.keyHash 2)),
  (0x2B0206, fun _ => hookProvision (.keyHash 3)),
  (0x2B0207, fun _ => hookKeyRevoke),
  (0x2B0208, fun _ => hookProvision .debugHash),
  (0x2B0302, fun _ => hookProvision .certificate),
  (0x2B0304, fun _ => hookToken),
  (0x2B0801, fun _ => hookDrBase),
  (0x2B0802, fun _ => hookDrSize),
  (0x2B0803, fun _ => hookSeal),
  (0x2B0804, fun _ => hookUnseal),
  (0x2B0808, fun _ => hookDwBase),
  (0x2B0809, fun _ => hookDwSize),
  (0x2B1001, fun _ => hookLeaseCmd),
  (0x2B1003, fun _ => hookNonce),
  (0x2B1005, fun _ => hookLeasePreempt),
  (0x2C1002, hookTpinFunc),
  (0x2C2003, hookObsSelect)]

/-- A counter: only 0 is in range, and 0 clears it (R5). -/
def Obj.counter (o : Obj) : Bool := decide (o.ok = [(0, 0)])

/-- The rule of an object without a row of its own in hookRows: a KV pool's objects (R247), the Pergola's (R140), a stream's
type-specific objects (R73), an owned resource's configuration (R57); else the value is stored. -/
def familyHook (o : Obj) (index sub : Nat) : Hook :=
  let store := storeHook index sub
  if 0x2610 ≤ index ∧ index < 0x2614 then (hookPoolObject (index - 0x2610) sub).getD store
  else if 0x2400 ≤ index ∧ index ≤ 0x241B then hookPergola index sub store
  else if o.counter then store
  else if 0x2300 ≤ index ∧ index < 0x2330 ∧ 0x10 ≤ sub then hookStreamConfig (index - 0x2300) store
  else if ownedIndexes.contains index then (if sub = 1 then hookOwner index else ownedHook (ownerReg index) store)
  else store

/-- The rule that a write of an object follows. -/
def writeHook (index sub : Nat) : Hook :=
  match findObj index sub with
  | none => storeHook index sub
  | some (o, k) => match hookRows.find? (fun e => decide (e.1 = o.index * 256 + o.sub)) with
    | some e => e.2 k
    | none => familyHook o index sub

/-- A write of any object on any path, with its answer. -/
def State.writeAny (s : State) (p : Path) (index sub : Nat) (data : Bytes) : State :=
  if index = 0x2101 ∧ sub = 1 then s.writeSleepSet p data
  else if index = 0x2B03 ∧ sub = 4 then s.writeToken p data
  else s.writeObject p index sub data (writeHook index sub)

/-- A write whose path carries its own answer (R420, R424, R431): the status and DETAIL, and the state without the answer. -/
def State.commitWrite (s : State) (p : Path) (index sub : Nat) (data : Bytes) : State × Reply :=
  let t := s.writeAny p index sub data
  match t.out with
  | .answer _ st d :: rest => ({ t with out := rest }, ⟨st, d⟩)
  | .nack :: rest => ({ t with out := rest }, ⟨10, 0⟩)
  | _ => (t, ⟨10, 0⟩)

/-- DICT_WRITE. -/
def execDictWrite (p : Path) (index sub : Nat) (data : Bytes) (s : State) : Res := .next (s.writeAny p index sub data)

/-- OWNER_WRITE. -/
def execOwnerWrite (p : Path) (index v : Nat) (s : State) : Res := .next (s.writeAny p index 1 (toLe 1 v))

/-- IF_SELECT_WRITE. -/
def execIfSelectWrite (p : Path) (data : Bytes) (s : State) : Res := .next (s.writeObject p 0x1101 1 data hookIfSelect)

/-- DEV_ATTENTION_CLEAR. -/
def execDevAttentionClear (p : Path) (v : Nat) (s : State) : Res := .next (s.writeObject p 0x2000 5 (toLe 4 v) hookAttention)

/-! ### Reads (R407, R409) -/

/-- The default of a DOMAIN object, by key; a DOMAIN without one here is empty by default. -/
def blobDefault (key : Nat) : Bytes :=
  let zeros : List (Nat × Nat × Nat) := [(0x232415, 6, 48), (0x232A14, 6, 64), (0x234001, 8, 640), (0x240306, 1, 12), (0x28000F, 1, 32),
    (0x210102, 1, 47), (0x2B000A, 1, 48), (0x2B0303, 1, 32), (0x2B0806, 1, 48), (0x2B1003, 1, 48), (0x2B1006, 1, 512)]
  if key = Blobs.idPart then [0x4B, 0x50, 0x34, 0x38, 0x33, 0x36]
  else if key = Blobs.ifVersions then List.replicate 14 1
  else if key = Blobs.ifSelect then List.replicate 7 1
  else if key = Blobs.pwrLastWake then toLe 16 0xFF00
  else if key = Blobs.poseImuMount then toLe 36 (0x3F800000 + 0x3F800000 <<< 128 + 0x3F800000 <<< 256)
  else if (List.range 12).any (fun k => decide (key = Blobs.pgsExtrinsic k)) then
    toLe 48 (0x3F800000 + 0x3F800000 <<< 160 + 0x3F800000 <<< 320)
  else match zeros.find? (fun z => (List.range z.2.1).any (fun k => decide (key = z.1 + 256 * k))) with
    | some z => List.replicate z.2.2 0
    | none => []

/-- TD_RATE in ppb from the rate word: an inexact value may be rounded either way. -/
def State.ratePpb (s : State) (b : Bool) : Int :=
  let n : Int := (s.dom b).rate * 1000000000
  n / 2 ^ 41 + (if n % 2 ^ 41 = 0 then 0 else (Config.roundRate (s.dom b).rate % 2 : Nat))

/-- ms since a gaffer's last pass (R353): saturating; all ones for never. -/
def State.lastPassMs (s : State) (g : Nat) : Nat :=
  match (s.goldenOf g).lastPass with
  | some t => min 0xFFFFFFFE ((s.now - t) / 1000000)
  | none => 0xFFFFFFFF

/-- A flag as a byte. -/
def flagByte (b : Bool) : Bytes := [if b then 1 else 0]

/-- Bits 0 to n − 1 of a mask. -/
def maskOf (n : Nat) (p : Nat → Bool) : Nat := (List.range n).foldl (fun m i => if p i then m + 2 ^ i else m) 0

/-- Objects whose value the device computes when they are read, by the key of the row's first object. -/
def readRows : List (Nat × (State → Path → Nat → Bytes)) := [
  (0x220001, fun s _ _ => toLe 16 s.timeNow),
  (0x220104, fun s _ k => [BitVec.ofNat 8 (s.dom (decide (k = 1))).servo.code]),
  (0x220106, fun s _ k => toLe 4 (ofSigned 32 (s.ratePpb (decide (k = 1))))),
  (0x220107, fun s _ k => toLe 8 (s.uncertainty (decide (k = 1)))),
  (0x220108, fun s _ k => toLe 16 (packT128 (s.dom (decide (k = 1))).counter (s.timeFlags (decide (k = 1))))),
  (0x220408, fun s _ _ => toLe 8 s.sleepCount),
  (0x222006, fun s _ k => toLe 1 (s.txFrames (56 + k)).length),
  (0x230007, fun s _ q => toLe 2 (s.ingestDepth q)),
  (0x231814, fun s _ k => toLe 4 (s.ingest (24 + k)).sweep),
  (0x240308, fun s _ _ => match s.poseSample 0 with
    | some x => toLe 64 x
    | none => List.replicate 64 0),
  (0x241004, fun s _ k => toLe 4 (kget s.pergola.streams k {}).carry.length),
  (0x250004, fun s _ _ => toLe 4 (maskOf 32 s.gafferIdle)),
  (0x294008, fun s _ r => toLe 2 (s.inflight r)),
  (0x252008, fun s _ g => (List.range 32).flatMap (fun k => toLe 4 (s.sem g k))),
  (0x25200A, fun s _ g => toLe 1 (s.gaffer g).waits.length),
  (0x298007, fun s _ k => toLe 2 (s.iq k).items.length),
  (0x260003, fun s _ _ => toLe 4 s.kv.l2Free.length),
  (0x260004, fun s _ _ => toLe 2 (s.activeIn none)),
  (0x261008, fun s _ p => toLe 4 (s.frameBytes p)),
  (0x261009, fun s _ p => toLe 4 (kget s.kv.pools p {}).free),
  (0x26100F, fun s _ p => toLe 4 (s.swapSlotBytes p)),
  (0x261010, fun s _ p => toLe 4 (kget s.kv.pools p {}).deferred),
  (0x262001, fun s _ _ => toLe 2 s.validNodes.length),
  (0x262002, fun s _ _ => toLe 4 s.kv.ge),
  (0x262003, fun s _ _ => toLe 4 s.kv.readers0 ++ toLe 4 s.kv.readers1),
  (0x280002, fun s _ _ => toLe 1 s.keeper.phase.code),
  (0x281001, fun s _ _ => cleanRules (s.blob Blobs.kpRulesDrive [])),
  (0x281002, fun s _ _ => cleanRules (s.blob Blobs.kpRulesParked [])),
  (0x28000E, fun s _ _ => s.pairing),
  (0x280010, fun s _ _ => toLe 1 (s.windowCount s.keeper.window)),
  (0x282008, fun s _ _ => (List.range 32).flatMap (fun g => toLe 4 (s.lastPassMs g))),
  (0x201001, fun s _ _ => toLe 4 s.log.newest),
  (0x201002, fun s p _ => toLe 4 (kget s.log.readSeq (pathKey p) 0)),
  (0x201003, fun s p _ => s.logEntryFor p),
  (0x2A2008, fun s _ _ => s.ddr.retired.flatMap (toLe 8)),
  (0x2A2807, fun s _ sc => (List.range 20).map (fun i => BitVec.ofNat 8 (min 255 (s.candidateCount sc i)))),
  (0x2A0001, fun s _ _ => toLe 8 s.ddr.capacity),
  (0x2A0009, fun s _ _ => toLe 1 (ofSigned 8 (Config.ddrTemperature s.now))),
  (0x100005, fun s _ _ => toLe 8 s.boot.fuses.serial),
  (0x100006, fun s _ _ => toLe 8 (s.boot.fuses.macBase % 2 ^ 48)),
  (0x200001, fun s _ _ => toLe 1 s.devState),
  (0x200002, fun s _ _ => toLe 8 ((s.now - s.uptime0) / 1000000)),
  (0x200003, fun s _ _ => toLe 2 (ofSigned 16 s.dieTemp)),
  (0x200004, fun s _ _ => toLe 4 s.powerNow),
  (0x210205, fun s _ _ => toLe 1 (maskOf 2 (fun i => s.wakeLevel (decide (i = 1))))),
  (0x211101, fun s _ k => toLe 1 (s.reg (Regs.pdRequest (k + 1)))),
  (0x211002, fun s _ d => toLe 1 (s.pdCode d)),
  (0x2B0004, fun s _ _ => toLe 1 s.boot.fuses.svn),
  (0x2B0201, fun s _ _ => toLe 1 s.lifecycle),
  (0x2B0203, fun s _ _ => kget s.boot.fuses.keyHash 0 (List.replicate 48 0)),
  (0x2B0204, fun s _ _ => kget s.boot.fuses.keyHash 1 (List.replicate 48 0)),
  (0x2B0205, fun s _ _ => kget s.boot.fuses.keyHash 2 (List.replicate 48 0)),
  (0x2B0206, fun s _ _ => kget s.boot.fuses.keyHash 3 (List.replicate 48 0)),
  (0x2B0207, fun s _ _ => toLe 1 s.boot.fuses.revoked),
  (0x2B0208, fun s _ _ => s.boot.fuses.debugHash.getD (List.replicate 48 0)),
  (0x2B0301, fun s _ _ => s.identityPublic),
  (0x2B0302, fun s _ _ => s.boot.fuses.cert),
  (0x2B0805, fun s _ _ => toLe 1 s.drive.code),
  (0x2C0001, fun s _ _ => flagByte s.pins.io33),
  (0x2C3001, fun s _ _ => toLe 1 s.jtagAccess)]

/-- The value that a path reads at an address that names an object; a WO object reads zeros (R6, R410). -/
def State.readValue (s : State) (p : Path) (index sub : Nat) : Bytes :=
  match findObj index sub with
  | none => [BitVec.ofNat 8 (highestSub index)]
  | some (o, k) =>
    let key := index * 256 + sub
    match o.access with
    | .wo => List.replicate (o.ty.size.getD ((o.ok.head?.map (fun r => r.1.toNat)).getD 0)) 0
    | _ => match readRows.find? (fun e => decide (e.1 = o.index * 256 + o.sub)) with
      | some e => e.2 s p k
      | none => match o.ty.size with
        | some n => toLe n (kget s.regs key (o.dflt + k * o.step).toNat)
        | none => s.blob key (blobDefault key)

/-- A read in the order of R410, on a path whose service answers. -/
def State.dictRead (s : State) (p : Path) (index sub : Nat) : Except Reply Bytes :=
  match s.dictReach p index sub with
  | .error e => .error e
  | .ok _ => .ok (s.readValue p index sub)

end Sys2Proof.Machine
end

