-- ==== Sys2Proof/Machine/Promenade.lean ====
section
/-! DEFINITION. The Promenade (R9–R18, R368, R369): links and their protection, routing, arbitration and delivery. A packet
arrives at a stop transfer by transfer, each by a command; each tick (log 3) then moves at most one transfer over each output. -/

namespace Sys2Proof.Machine

/-! ### Stops and ports (R11, R13) -/

/-- Port numbers of R374. -/
def portNumber : Port → Nat
  | .xPlus => 0 | .xMinus => 1 | .yPlus => 2 | .yMinus => 3 | .loc => 4

/-- The stop that output o of a stop leads to; none at the edge of the mesh and for the port to its own block. -/
def nextStop (k o : Nat) : Option Nat :=
  match o with
  | 0 => if k % 6 < 5 then some (k + 1) else none
  | 1 => if 0 < k % 6 then some (k - 1) else none
  | 2 => if k / 6 < 7 then some (k + 6) else none
  | 3 => if 0 < k / 6 then some (k - 6) else none
  | _ => none

/-- The opposite side. -/
def opposite (o : Nat) : Nat := [1, 0, 3, 2, 4].getD o 4

/-- Dimension-ordered routing: along x, then along y, then to the stop's own block (R13). -/
def routePort (k dst : Nat) : Nat :=
  if k % 6 < dst % 6 then 0
  else if dst % 6 < k % 6 then 1
  else if k / 6 < dst / 6 then 2
  else if dst / 6 < k / 6 then 3
  else 4

/-- The requester of a packet (R19): the block at its stop or, from the host stop, the block behind the crossbar; the others make
no access to the address space. -/
def packetAgent (p : Packet) : Option Agent :=
  let k := p.src.val
  if k = lodgeStop then some .lodge
  else if k = pergolaStop 0 ∨ k = pergolaStop 1 then some .pergola
  else if k = hostStop then
    match p.behind with
    | .pcie => some .bar2
    | .dispatcher => some .dispatcher
    | .kvManager => some .kvm
    | .keeper => some .keeper
    | .lamplighter => some .lamplighter
    | .gardener => some .gardener
    | .sundial | .bootFlash | .debug | .powerController => none
  else match (List.range 4).find? (fun m => decide (marverStop m = k)), stopGaffer k with
    | some m, _ => some (.marver m)
    | none, some g => if h : g < 32 then some (.servitor (.gaffer ⟨g, h⟩)) else none
    | none, none => none

/-- Whether a packet is one that a block sends (R12, R14): each class carries its kinds, a read asks for 1 to 256 bytes, only a
write and read data have a payload, of 1 to 256 bytes. -/
def packetLawful (p : Packet) : Bool :=
  let n := p.payload.length
  match p.traffic, p.kind with
  | .req, .read => decide (n = 0) && decide (1 ≤ p.len) && decide (p.len ≤ 256)
  | .req, .write => decide (1 ≤ n) && decide (n ≤ 256)
  | .req, .sem _ _ _ => decide (n = 0)
  | .rsp, .data => decide (1 ≤ n) && decide (n ≤ 256)
  | .rsp, .ack => decide (n = 0)
  | .rsp, .notPresent => decide (n = 0)
  | .sys, .message => decide (n ≤ 256)
  | _, _ => false

/-! ### Links (R368, R369) -/

/-- The link that brings a transfer in by a side of stop k: the stop it belongs to and its port number there. -/
def linkInto (k inp : Nat) : Option (Nat × Nat) := if inp = 4 then some (k, 4) else (nextStop k inp).map (fun n => (n, opposite inp))

/-- Events of a list within the last second. -/
def State.lastSecond (s : State) (ts : List Nat) : List Nat := ts.filter (fun t => decide (s.now < t + 1000000000))

/-- The polynomial of the links' CRC (R368), with its leading term. -/
def linkPoly : Nat := 2 ^ 24 + 0x5D6DCB

/-- The remainder of the lowest n bits of a codeword, the highest first, after `r`. -/
def linkRemainder (x r : Nat) : Nat → Nat
  | 0 => r
  | n + 1 =>
    let v := 2 * r + (if bit x n then 1 else 0)
    linkRemainder x (if 2 ^ 24 ≤ v then v ^^^ linkPoly else v) n

/-- Whether the receiver accepts a copy (R368): `e` is the pattern of its wrong bits, the CRC in bits 0–23, the 64 bytes in bits 24–535
and the header sideband above. The code is linear, so the CRC is good where it divides the pattern. -/
def copyGood (e : Nat) : Bool := decide (linkRemainder e 0 640 = 0)

/-- The wrong data bits of a copy that its CRC does not catch, in the payload of transfer n; a header that such a copy spoils is read as
it was sent (DESIGN CHOICE, log 67). -/
def spoilPayload (e n : Nat) (payload : Bytes) : Bytes :=
  let x := bits e 535 24
  payload.zipIdx.map (fun (b : Byte × Nat) => if 64 * n ≤ b.2 ∧ b.2 < 64 * n + 64 then
    b.1 ^^^ BitVec.ofNat 8 (bits x (8 * (b.2 - 64 * n) + 7) (8 * (b.2 - 64 * n))) else b.1)

/-- A refused copy number n of a transfer on output o of stop k: counted and logged; the first makes the transfer a retried one. -/
def State.copyRefused (s : State) (k o n : Nat) : State :=
  let s := (s.bump Regs.linkRetries).logs { severity := .corrected, source := 7, inst := k, kind := 13, detail := n, sub := o }
  if n ≠ 1 then s
  else s.setStop k { s.stop k with retries := kset (s.stop k).retries o (s.now :: s.lastSecond (kget (s.stop k).retries o [])) }

/-- A fourth bad copy is accepted, marked as poison. -/
def State.copyPoisoned (s : State) (k o : Nat) : State :=
  let v := s.stop k
  let s := s.setStop k { v with poisons := kset v.poisons o (s.now :: s.lastSecond (kget v.poisons o [])) }
  let s := (s.bump Regs.linkPoisoned).logs { severity := .contained, source := 7, inst := k, kind := 14, sub := o }
  match stopGaffer k with
  | some g => s.setGaffer g { s.gaffer g with linkTimes := s.now :: (s.gaffer g).linkTimes }
  | none => s

/-- What the copies of a transfer come to: how many the receiver has refused, and whether it has accepted the transfer, with the
pattern of its wrong bits, or as poison. -/
inductive Copies where
  | refused (n : Nat) | accepted (n e : Nat) | poisoned (n : Nat)
  deriving DecidableEq, Repr

/-- Copies arrive after `n` refused ones (R368). -/
def takeCopies (n : Nat) : List Nat → Copies
  | [] => .refused n
  | e :: t => if copyGood e then .accepted n e else if 3 ≤ n then .poisoned n else takeCopies (n + 1) t

def Copies.count : Copies → Nat
  | .refused n | .accepted n _ | .poisoned n => n

/-- The copies of a transfer after `before` refused ones, as the link sees them: refusals, poison, and the sender's reads of its retry
buffer, whose word may be uncorrectable (R359). The state, and whether the transfer arrives as poison. -/
def State.linkCopies (s : State) (k o before : Nat) (c : Copies) : State × Bool :=
  let s := (List.range (c.count - before)).foldl (fun s i => s.copyRefused k o (before + i + 1)) s
  let (s, bad) := if 0 < c.count then (if h : k < 48 then s.touchArray (.retry ⟨k, h⟩) else (s, none)) else (s, none)
  match c with
  | .poisoned _ => (s.copyPoisoned k o, true)
  | _ => (s, bad.isSome)

/-- A persistently failing link: counted for a gaffer's stop, else logged; its counts begin anew. -/
def State.linkPersistent (s : State) (k o : Nat) : State :=
  let v := s.stop k
  if 2 ≤ (s.lastSecond (kget v.poisons o [])).length ∨ 1000 < (s.lastSecond (kget v.retries o [])).length then
    let s := s.setStop k { v with poisons := kdel v.poisons o, retries := kdel v.retries o }
    match stopGaffer k with
    | some g => s.setGaffer g { s.gaffer g with fenceDue := some s.now }
    | none => s.logs { severity := .fatal, source := 7, inst := k, kind := 15, sub := o }
  else s

/-! ### FIFOs and credits (R9, R10, R12, R14) -/

/-- Class codes of R14. -/
def trafficCode : Traffic → Nat
  | .req => 0 | .rsp => 1 | .sys => 2

/-- The FIFO slots of a class that hold transfers at an input. -/
def Stop.filled (v : Stop) (inp : Nat) (c : Traffic) : Nat :=
  ((v.held.filter (fun h => decide (h.inp = inp) && decide (h.pkt.traffic = c))).map (fun h => h.got - h.sent)).foldl (· + ·) 0

/-- The sender at an input of stop k holds a credit for a class: one for each free slot of the receiver's FIFO. -/
def Stop.hasCredit (v : Stop) (k inp : Nat) (c : Traffic) : Bool :=
  decide (v.filled inp c < Config.fifoDepth (5 * k + inp) (trafficCode c) + 1)

/-- The packet of a class that has come in at an input in part. -/
def Stop.partial_ (v : Stop) (inp : Nat) (c : Traffic) : Option Held :=
  v.held.find? (fun h => decide (h.inp = inp) && decide (h.pkt.traffic = c) && decide (h.got < packetTransfers h.pkt))

/-- One transfer of a packet enters a FIFO of stop k: the first opens it, the others follow in order. -/
def State.arrive (s : State) (k inp : Nat) (p : Packet) : State :=
  let v := s.stop k
  match v.partial_ inp p.traffic with
  | some h => s.setStop k { v with held := replaceFirst (· == h) (fun _ => { h with got := h.got + 1, pkt := p }) v.held }
  | none => s.setStop k { v with held := v.held ++ [⟨inp, routePort k p.dst.val, p, 1, 0⟩] }

/-- Whether transfer number n of packet p may come next at an input (R12). -/
def Stop.follows (v : Stop) (inp : Nat) (p : Packet) (n : Nat) : Bool :=
  match v.partial_ inp p.traffic with
  | some h => decide (h.got = n) && decide (h.pkt.payload.length = p.payload.length)
      && decide ({ h.pkt with poisoned := [], payload := [] } = { p with poisoned := [], payload := [] })
  | none => decide (n = 0)

/-- Whether an input of stop k may take transfer n of a packet: the link exists, the Promenade is on, the packet is lawful, the
sender has a credit, and a packet of the stop's own block comes from that block while it is on (R9, R10). -/
def State.mayEnter (s : State) (k inp : Nat) (p : Packet) (n : Nat) : Bool :=
  let v := s.stop k
  s.pdOn 41 && packetLawful p && v.hasCredit k inp p.traffic && v.follows inp p n
  && (decide (inp ≠ 4) || (decide (p.src.val = k) && (s.stopUp k p.behind || decide (0 < n)) && (v.outbox.all (fun q => q.traffic != p.traffic))))

/-- How many copies of a transfer the receiver at an input has refused; none where its sender still holds another transfer, which
comes first. -/
def Stop.refusedOf (v : Stop) (inp : Nat) (p : Packet) (n : Nat) : Option Nat :=
  match kfind v.retry inp with
  | some r => if r.pkt = p ∧ r.transfer = n then some r.refused else none
  | none => some 0

/-- PROMENADE_PACKET: copies of one transfer of a packet come in by a side of a stop, each with the pattern of its wrong bits, until one
is accepted; a transfer of which none is stays in its sender's retry buffer (R368). -/
def execPromenadePacket (stop : Fin 48) (port : Port) (copies : List Nat) (pkt : Packet) (transfer : Fin 4) (s : State) : Res :=
  let inp := portNumber port
  match linkInto stop.val inp, (s.stop stop.val).refusedOf inp pkt transfer.val with
  | some (k, o), some before =>
    if !s.mayEnter stop.val inp pkt transfer.val then .next s
    else
      let c := takeCopies before copies
      let (s, poison) := s.linkCopies k o before c
      let s := s.linkPersistent k o
      let hold (v : Stop) : Stop := match c with
        | .refused n => if n = 0 then v else { v with retry := kset v.retry inp ⟨pkt, transfer.val, n⟩ }
        | _ => { v with retry := kdel v.retry inp }
      let s := s.setStop stop.val (hold (s.stop stop.val))
      let enter (e : Nat) : State :=
        let old := (s.stop stop.val).partial_ inp pkt.traffic
        let marks := old.elim [] (·.pkt.poisoned) ++ pkt.poisoned.filter (fun x => decide (x = transfer)) ++ (if poison then [transfer] else [])
        let payload := (old.elim pkt (·.pkt)).payload
        s.arrive stop.val inp { pkt with payload := spoilPayload e transfer.val payload, poisoned := marks.eraseDups }
      let s := match c with
        | .refused _ => s
        | .accepted _ e => enter e
        | .poisoned _ => enter 0
      .next (if pkt.item.isNone then s.policyFences else s)
  | _, _ => .next s

/-! ### Arbitration (R15) -/

/-- The packets that may leave by output o: the heads of their FIFOs (R16), and of a class that has a packet on its way over
this output only that one. -/
def Stop.heads (v : Stop) (o : Nat) : List Held :=
  (v.held.zipIdx.filter (fun (e : Held × Nat) => decide (e.1.outp = o) && decide (e.1.sent < e.1.got)
    && !((v.held.take e.2).any (fun x => decide (x.inp = e.1.inp) && decide (x.pkt.traffic = e.1.pkt.traffic)))
    && !(v.held.any (fun x => decide (x.outp = o) && decide (0 < x.sent) && decide (x.pkt.traffic = e.1.pkt.traffic) && decide (x ≠ e.1))))).map (·.1)

/-- The packets among which R15 leaves the choice: one whose transfers are on their way goes on (log 67); then SYS; then class 0,
unless it has had 15 grants in a row and another waits; then the next of classes 1–3 in turn. -/
def Stop.eligible (v : Stop) (o : Nat) (c : List Held) : List Held :=
  let going := c.filter (fun h => decide (0 < h.sent))
  let sys := c.filter (fun h => h.pkt.traffic == .sys)
  let zero := c.filter (fun h => h.pkt.traffic != .sys && decide (h.pkt.cls.val = 0))
  let rest := c.filter (fun h => h.pkt.traffic != .sys && decide (h.pkt.cls.val ≠ 0))
  let last := kget v.rr o 3
  let turn := [last % 3 + 1, (last + 1) % 3 + 1, (last + 2) % 3 + 1]
  if going ≠ [] then going
  else if sys ≠ [] then sys
  else if zero ≠ [] ∧ (rest = [] ∨ kget v.runs0 o 0 < 15) then zero
  else (turn.findSome? (fun n =>
    let l := rest.filter (fun h => decide (h.pkt.cls.val = n))
    if l = [] then none else some l)).getD []

/-- Whether two packets lie in the same FIFO of their stop. -/
def Held.together (h x : Held) : Bool := decide (x.inp = h.inp) && decide (x.pkt.traffic = h.pkt.traffic)

/-- The account of one transfer that output o passes on from the head of a FIFO: its slot is free, and a packet's first transfer
counts as its grant. -/
def Stop.granted (v : Stop) (o : Nat) (h : Held) : Stop :=
  let v := { v with held := if packetTransfers h.pkt ≤ h.sent + 1 then v.held.eraseP h.together
                            else replaceFirst h.together (fun x => { x with sent := h.sent + 1 }) v.held }
  if h.pkt.traffic = .sys ∨ 0 < h.sent then v
  else if h.pkt.cls.val = 0 then { v with runs0 := kset v.runs0 o (kget v.runs0 o 0 + 1) }
  else { v with runs0 := kset v.runs0 o 0, rr := kset v.rr o h.pkt.cls.val }

/-! ### Delivery (R14, R16, R18, R21, R25) -/

/-- A block, or its router, has a packet to issue. -/
def State.post (s : State) (k : Nat) (p : Packet) : State :=
  s.setStop k { s.stop k with outbox := (s.stop k).outbox ++ [p] }

/-- The response to a request, without payload. -/
def responseTo (p : Packet) (kind : PacketKind) : Packet :=
  { p with src := p.dst, dst := p.src, traffic := .rsp, kind := kind, payload := [], poisoned := [] }

/-- The transfers of n bytes from address a that bad granules touch. -/
def badTransfers (a : Nat) (bad : List (Nat × Nat)) : List (Fin 4) :=
  [0, 1, 2, 3].filter (fun (i : Fin 4) => bad.any (fun g => overlaps g.1 g.2 (a + 64 * i.val) 64))

/-- The work order that caused a packet completes with BAD_DESCRIPTOR (R18, R21, R25). -/
def State.failCause (s : State) (p : Packet) : State :=
  match p.item with
  | some (r, q) => match s.item? r.val q with
    | some i => if i.finish.isNone then s.setFinish i (finBad 3 (s.targetCode i)) else s
    | none => s
  | none => s

/-- The newest entry of the log for data given as poison: by SRAM, DDR5, a link or the host (R359, R363, R367, R368, R389). -/
def State.poisonEntry (s : State) : Nat :=
  ((s.log.entries.filter (fun e => [2, 3, 7, 8, 14, 32].contains e.kind)).getLast?.map (·.seq)).getD 0

/-- The work order whose data came as poison completes with UNCORRECTED_ERROR (R369). -/
def State.poisonCause (s : State) (p : Packet) : State :=
  match p.item with
  | some (r, q) => match s.item? r.val q with
    | some i => if i.finish.isNone then s.setFinish i (finUncorrected s.poisonEntry) else s
    | none => s
  | none => s

/-- A response reaches the block that asked: a not-present response fails the work order, and so does one whose data is poisoned. -/
def State.deliverRsp (s : State) (k : Nat) (p : Packet) : State :=
  (if p.kind = .notPresent then s.failCause p else if p.poisoned = [] then s else s.poisonCause p).emit (.packet k p)

/-- The router stop answers in RSP for a block that is not present (R18). -/
def State.answerAbsent (s : State) (k : Nat) (p : Packet) : State := s.post k (responseTo p .notPresent)

/-- The block at a stop takes a read or a write for the agent that made it (R16, R19–R31). A part of the address space that another
stop holds is no part of this one; a packet whose first byte lies here is served whole, though its last ones lie in another subchannel's
interleave block, the other Pergola half or the other gaffer of a chair (DESIGN CHOICE, log 67). -/
def State.takeAccess (s : State) (k : Nat) (p : Packet) : State :=
  let ring := p.item.map (·.1.val)
  let who := p.item.map (fun e => (e.1.val, e.2))
  let refused (ans : Answer) : State := (s.notPresent ring p.addr ans).answerAbsent k p
  match packetAgent p with
  | none => refused .absent
  | some ag =>
    if (s.blockAt p.addr).map (·.1) ≠ some k then refused .absent
    else if p.kind = .read then
      match s.answer ag p.addr p.len false with
      | .ok => match s.readMem ag who p.addr p.len with
        | (t, .bytes bs bad _) => (t.post k { responseTo p .data with payload := bs, poisoned := badTransfers p.addr bad }).emit (.packet k p)
        | (t, .absent) => t.answerAbsent k p
      | ans => refused ans
    else
      match s.answer ag p.addr p.payload.length true with
      | .ok =>
        let s := (s.writeMem ag p.addr p.payload).1
        let s := p.poisoned.foldl (fun s i => s.pokePoison (p.addr + 64 * i.val) (min 64 (p.payload.length - 64 * i.val))) s
        (s.post k (responseTo p .ack)).emit (.packet k p)
      | ans => refused ans

/-- A packet has come to its own stop whole: the block takes it, or the stop answers for a block that is not present (R18). -/
def State.deliver (s : State) (k : Nat) (p : Packet) : State :=
  if p.traffic = .rsp then s.deliverRsp k p
  else
    let code := match stopGaffer k with
      | some g => g
      | none => 0xFFFF
    if !s.stopUp k p.behind then
      (s.logAbsent (p.item.map (·.1.val)) p.addr k ((s.blockAt p.addr).elim code (·.2))).answerAbsent k p
    else match p.kind with
      | .sem n sets value => match stopGaffer k with
        | some g => ((s.signalSem g n.val (value % 2 ^ 32) sets).post k (responseTo p .ack)).emit (.packet k p)
        | none => (s.notPresent (p.item.map (·.1.val)) p.addr .absent).answerAbsent k p
      | .message => s.emit (.packet k p)
      | _ => s.takeAccess k p

/-- One grant: output o of stop k passes one transfer of packet h on; the block takes a packet with its last transfer. -/
def State.moves (s : State) (k o : Nat) (h : Held) : State :=
  let s := s.setStop k ((s.stop k).granted o h)
  match nextStop k o with
  | some n => s.arrive n (opposite o) h.pkt
  | none => if packetTransfers h.pkt ≤ h.sent + 1 then s.deliver k h.pkt else s

/-- The packet of which output o of stop k passes a transfer on in this tick, if any: where R15 leaves a choice, it is free. -/
def State.grant (s : State) (k o : Nat) : Option Held :=
  let v := s.stop k
  let free (h : Held) : Bool := match nextStop k o with
    | some n => (s.stop n).hasCredit n (opposite o) h.pkt.traffic
    | none => true
  let l := v.eligible o ((v.heads o).filter free)
  l[Config.freeNat (s.freeIx + 5 * k + o) % max 1 l.length]?

/-- The first packet waiting in a stop's outbox issues its next transfer while it has a credit (R9). -/
def State.issues (s : State) (k : Nat) : State :=
  let v := s.stop k
  match v.outbox with
  | [] => s
  | p :: rest =>
    if v.hasCredit k 4 p.traffic && v.follows 4 p v.issued then
      let s := s.setStop k (if packetTransfers p ≤ v.issued + 1 then { v with outbox := rest, issued := 0 } else { v with issued := v.issued + 1 })
      s.arrive k 4 p
    else s

/-- A tick of the Promenade: the grants are those of the state before it, then the outboxes issue. -/
def State.promenadeTick (s : State) : State :=
  if !s.pdOn 41 || s.stops.all (fun (e : Nat × Stop) => e.2.held.isEmpty && e.2.outbox.isEmpty) then s
  else
    let grants := s.stops.flatMap (fun (e : Nat × Stop) => (List.range 5).filterMap (fun o => (s.grant e.1 o).map (fun h => (e.1, o, h))))
    let s := grants.foldl (fun s (g : Nat × Nat × Held) => s.moves g.1 g.2.1 g.2.2) { s with freeIx := s.freeIx + 240 }
    (s.stops.map (·.1)).foldl State.issues s

end Sys2Proof.Machine
end

