-- ==== Sys2Proof/Machine/Access.lean ====
section
/-! DEFINITION. The access paths: BAR0 (R384, R417–R421), CAN FD controller 0 (R422–R425), SMBus (R430, R431); and what
passes when no command waits. -/

namespace Sys2Proof.Machine

def State.setPaths (s : State) (v : Paths) : State := { s with paths := v }

/-! ### The direct map (R417, R418) -/

/-- The bytes an address shows in its slot: none for a DOMAIN, 0 where no object is. -/
def slotSize (index sub : Nat) : Option Nat :=
  match findObj index sub with
  | some (o, _) => o.ty.size
  | none => some (if sub = 0 ∧ definedIndex index then 1 else 0)

/-- The staged bytes that still count for a slot: those of that slot no older than 1 ms. -/
def State.stagedFor (s : State) (slot : Nat) : KMap (Nat × Byte) :=
  match s.paths.staged with
  | some g => if g.slot = slot then g.data.filter (fun (e : Nat × Nat × Byte) => decide (s.now ≤ e.2.1 + 1000000)) else []
  | none => []

/-- A write in the direct map: a part is staged, and the access that covers the object's highest byte commits. Bytes never
staged are free values. -/
def State.directWrite (s : State) (off : Nat) (data : Bytes) : State :=
  let index := 0x1000 + off / 4096
  let sub := off % 4096 / 16
  let o := off % 16
  match slotSize index sub with
  | none => s
  | some 0 => s.writeAny .bar0 index sub data
  | some n =>
    if n ≤ o then s
    else
      let got := (List.range data.length).foldl (fun (m : KMap (Nat × Byte)) i =>
        if o + i < n then kset m (o + i) (s.now, data.getD i 0) else m) (s.stagedFor (off - o))
      if o + data.length < n then s.setPaths { s.paths with staged := some { slot := off - o, data := got } }
      else
        let whole := (List.range n).map (fun i => match kfind got i with
          | some (_, b) => b
          | none => BitVec.ofNat 8 (Config.freeNat s.freeIx >>> (8 * i)))
        let s := if (List.range n).all (fun i => (kfind got i).isSome) then s else s.skipFree
        (s.setPaths { s.paths with staged := none }).writeAny .bar0 index sub whole

/-- A read in the direct map: offset 0 of an object longer than the access latches the whole value for 1 ms. -/
def State.directRead (s : State) (off size : Nat) : State × Nat :=
  let index := 0x1000 + off / 4096
  let sub := off % 4096 / 16
  let o := off % 16
  let value := match slotSize index sub, s.dictRead .bar0 index sub with
    | some _, .ok v => v
    | _, _ => []
  if o = 0 then
    let s := if size < value.length then
        s.setPaths { s.paths with latched := some { slot := off, since := s.now, data := value } }
      else s
    (s, ofLe (value.take size))
  else
    let from_ := match s.paths.latched with
      | some g => if g.slot = off - o ∧ s.now ≤ g.since + 1000000 then g.data else value
      | none => value
    (s, ofLe (slice from_ o size))

/-- Whether the dictionary serves BAR0: its power domain is on (R446) and the service runs. -/
def State.barServed (s : State) : Bool := s.pdOn 44 && s.paths.serving

/-! ### Channels (R420) -/

def State.channel (s : State) (k : Nat) : Channel := kget s.paths.channels k {}

def State.setChannel (s : State) (k : Nat) (c : Channel) : State :=
  s.setPaths { s.paths with channels := kset s.paths.channels k c }

/-- Bytes written over a data area. -/
def overlay (d : Bytes) (o : Nat) (bs : Bytes) : Bytes := padTo o (d.take o) ++ bs ++ d.drop (o + bs.length)

/-- An operation ends: STATUS, then BUSY clears, then the message. -/
def State.channelEnds (s : State) (k : Nat) (c : Channel) (st detail : Nat) : State :=
  (s.setChannel k { c with status := st, detail := detail, busy := false, copy := none }).msix (s.reg Regs.dictChanVector)

/-- A write of a control block. A read latches its value at its start (R413); an operation 3 ends the one that runs; the
reserved operation 0 leaves STATUS and DETAIL free. -/
def State.channelControl (s : State) (k index sub op length : Nat) : State :=
  let c := s.channel k
  if c.busy then
    if op = 3 then s.channelEnds k { c with index := index, sub := sub, op := op, length := length } 9 0
    else s.bump Regs.dictBar0Refusals
  else
    let c := { c with index := index, sub := sub, op := op, length := length }
    if op = 1 then
      let copy := match s.dictRead .bar0 index sub with
        | .ok v => (0, 0, v)
        | .error e => (e.status, e.detail, [])
      s.setChannel k { c with busy := true, copy := some copy }
    else if op = 2 then s.setChannel k { c with busy := true }
    else if op = 3 then s.setChannel k c
    else
      s.skipFree.skipFree.setChannel k { c with status := Config.freeNat s.freeIx % 256, detail := Config.freeNat (s.freeIx + 1) % 2 ^ 32 }

/-- CHANNEL_READ. -/
def execChannelRead (k : Fin 4) (index sub : Nat) (s : State) : Res :=
  .next (if s.barServed then s.channelControl k.val index sub 1 (s.channel k.val).length else s)

/-- CHANNEL_WRITE: `data` is what stands in the data area. -/
def execChannelWrite (k : Fin 4) (index sub : Nat) (data : Bytes) (s : State) : Res :=
  if !s.barServed then .next s
  else
    let c := s.channel k.val
    let s := if c.busy then s else s.setChannel k.val { c with data := overlay c.data 0 data }
    .next (s.channelControl k.val index sub 2 data.length)

/-- CHANNEL_ABORT. -/
def execChannelAbort (k : Fin 4) (s : State) : Res :=
  let c := s.channel k.val
  .next (if s.barServed then s.channelControl k.val c.index c.sub 3 c.length else s)

/-- CHANNEL_COMPLETE. -/
def execChannelComplete (k : Fin 4) (s : State) : Res :=
  let c := s.channel k.val
  if !c.busy then .next s
  else match c.copy with
    | some (st, d, v) => .next (s.channelEnds k.val { c with data := overlay c.data 0 v, resultLength := v.length } st d)
    | none =>
      let (t, r) := s.commitWrite .bar0 c.index c.sub (padTo c.length (c.data.take c.length))
      .next (t.channelEnds k.val c r.status r.detail)

/-- The 24 bytes of a control block. -/
def Channel.block (c : Channel) : Bytes :=
  toLe 2 c.index ++ toLe 1 c.sub ++ toLe 1 c.op ++ toLe 4 c.length
  ++ toLe 1 c.status ++ [if c.busy then 1 else 0, 0, 0] ++ toLe 4 c.detail ++ toLe 4 c.resultLength ++ toLe 4 0

/-- A hole of BAR0, or an access of another size or alignment (R384). -/
def State.barHole (s : State) : State := s.bump Regs.hifBarHoleAccesses

/-- A write in channel space: k's offset o. One to the read-only fields at 0x08–0x17 of a channel that is not busy is dropped and
counts no refusal, which R420 does not say (log 71). -/
def State.channelWritten (s : State) (k o : Nat) (data : Bytes) : State :=
  let c := s.channel k
  let x := ofLe data
  if o < 8 then
    if data.length = 8 then s.channelControl k (bits x 15 0) (bits x 23 16) (bits x 25 24) (bits x 63 32)
    else s.bump Regs.dictBar0Refusals
  else if c.busy then s.bump Regs.dictBar0Refusals
  else if 0x1000 ≤ o ∧ o < 0x22000 then s.setChannel k { c with data := overlay c.data (o - 0x1000) data }
  else if o < 0x18 then s
  else s.barHole

/-- A read in channel space. -/
def State.channelRead (s : State) (k o size : Nat) : State × Nat :=
  let c := s.channel k
  if 0x1000 ≤ o ∧ o < 0x22000 then (s, ofLe (slice c.data (o - 0x1000) size))
  else if o < 0x18 then (s, ofLe (slice c.block o size))
  else (s.barHole, 0)

/-! ### BAR0 (R384, R392) -/

/-- A word of the MSI-X table: address, upper address, data, and the mask bit (log 12). -/
def State.msixWord (s : State) (w : Nat) : Nat :=
  if w % 4 = 3 then (if s.link.unmasked.contains (w / 4) then 0 else 1) else kget s.link.msixTable w 0

def State.setMsixWord (s : State) (w v : Nat) : State :=
  if w % 4 ≠ 3 then s.setHostLink { s.link with msixTable := kset s.link.msixTable w v }
  else if v % 2 = 0 then s.unmask (w / 4)
  else s.setHostLink { s.link with unmasked := s.link.unmasked.filter (· != w / 4) }

/-- A word of doorbell block w / 4. -/
def State.doorbellWord (s : State) (w : Nat) : Nat :=
  if w % 4 = 2 then s.reg (Regs.ringHead (w / 4)) else if w % 4 = 3 then s.reg (Regs.cqTail (w / 4)) else 0

def State.setDoorbellWord (s : State) (w v : Nat) : State :=
  if w % 4 = 0 then s.sqTail (w / 4) v else if w % 4 = 1 then s.cqHeadTo (w / 4) v else s

/-- An aligned access splits into its 4-byte words, lowest first. -/
def State.eachWord (s : State) (off : Nat) (data : Bytes) (f : State → Nat → Nat → State) : State :=
  (List.range (data.length / 4)).foldl (fun s i => f s (off / 4 + i) (ofLe (slice data (4 * i) 4))) s

/-- A write of BAR0. -/
def State.barWrite (s : State) (off : Nat) (data : Bytes) : State :=
  if (data.length ≠ 4 ∧ data.length ≠ 8) ∨ off % data.length ≠ 0 then s.barHole
  else if off < 0x1D00000 then (if s.paths.serving then s.directWrite off data else s)
  else if off < 0x1E00000 then
    (if s.paths.serving then s.channelWritten ((off - 0x1D00000) / 0x40000) ((off - 0x1D00000) % 0x40000) data else s)
  else if 0x2000000 ≤ off ∧ off < 0x2000400 then s.eachWord (off - 0x2000000) data State.setDoorbellWord
  else if 0x2010000 ≤ off ∧ off < 0x2010400 then s.eachWord (off - 0x2010000) data State.setMsixWord
  else if 0x2011000 ≤ off ∧ off < 0x2011008 then s
  else if 0x2020000 ≤ off ∧ off < 0x2040000 then
    let i := (off - 0x2020000) / 8
    s.setXlate i (ofLe (overlay (toLe 8 (kget s.link.xlate i 0)) (off % 8) data))
  else s.barHole

/-- A read of BAR0. -/
def State.barRead (s : State) (off size : Nat) : State × Nat :=
  let words (base : Nat) (f : Nat → Nat) : Nat :=
    (List.range (size / 4)).foldl (fun x i => x + f ((off - base) / 4 + i) <<< (32 * i)) 0
  if (size ≠ 4 ∧ size ≠ 8) ∨ off % size ≠ 0 then (s.barHole, 0)
  else if off < 0x1D00000 then (if s.paths.serving then s.directRead off size else (s, 0))
  else if off < 0x1E00000 then
    (if s.paths.serving then s.channelRead ((off - 0x1D00000) / 0x40000) ((off - 0x1D00000) % 0x40000) size else (s, 0))
  else if 0x2000000 ≤ off ∧ off < 0x2000400 then (s, words 0x2000000 s.doorbellWord)
  else if 0x2010000 ≤ off ∧ off < 0x2010400 then (s, words 0x2010000 s.msixWord)
  else if 0x2011000 ≤ off ∧ off < 0x2011008 then
    (s, (maskOf 64 (fun v => s.link.pendingMsix.contains v) >>> (8 * (off % 8))) % 2 ^ (8 * size))
  else if 0x2020000 ≤ off ∧ off < 0x2040000 then
    (s, ofLe (slice (toLe 8 (kget s.link.xlate ((off - 0x2020000) / 8) 0)) (off % 8) size))
  else (s.barHole, 0)

/-- DIRECT_MAP_WRITE, at any offset of BAR0; nothing while the PCIe power domain is not on (R446). -/
def execDirectMapWrite (off : Nat) (data : Bytes) (s : State) : Res := if s.pdOn 44 then .next (s.barWrite off data) else .next s

/-- DIRECT_MAP_READ, as DIRECT_MAP_WRITE. -/
def execDirectMapRead (off size : Nat) (s : State) : Res :=
  if s.pdOn 44 then
    let (t, v) := s.barRead off size
    .next (t.emit (.bar0 v))
  else .next s

/-! ### CAN FD controller 0 (R422–R425) -/

/-- A request as R423 lays it out. -/
structure CanRequest where
  op : Nat
  tag : Nat
  index : Nat
  sub : Nat
  seg : Nat
  total : Nat
  data : Bytes
  deriving DecidableEq, Repr

def canRequestOf (f : Bytes) : CanRequest :=
  let x := ofLe f
  { op := bits x 7 0, tag := bits x 15 8, index := bits x 31 16, sub := bits x 39 32, seg := bits x 63 48,
    total := bits x 95 64, data := slice f 12 44 }

def canPath (safety : Bool) : Path := if safety then .canSafety else .can

def State.canChannel (s : State) (safety : Bool) : CanChannel := if safety then s.paths.canSafety else s.paths.canOrdinary

def State.setCan (s : State) (safety : Bool) (c : CanChannel) : State :=
  s.setPaths (if safety then { s.paths with canSafety := c } else { s.paths with canOrdinary := c })

/-- Sends a response under the identifiers of `base`: `total` is the object's length, or DETAIL (R423). -/
def State.canAnswer (s : State) (safety : Bool) (base : Nat) (q : CanRequest) (status total : Nat) (data : Bytes) : State :=
  let body := [BitVec.ofNat 8 q.op, BitVec.ofNat 8 q.tag] ++ toLe 2 q.index ++ [BitVec.ofNat 8 q.sub, BitVec.ofNat 8 status]
    ++ toLe 2 q.seg ++ toLe 4 total ++ padTo 44 (data.take 44)
  if safety then
    let now := s.reg Regs.dictCanBase
    ((s.setReg Regs.dictCanBase base).sendSafety 3 body).setReg Regs.dictCanBase now
  else if s.canSends then s.emit (.can (base + 1) (canFrame 0 0 body))
  else s

/-- A transfer or latch that is not yet 1 s old (R424). -/
def State.canLive (s : State) (c : CanChannel) : Bool :=
  (match c.transfer with
    | some t => decide (s.now ≤ t.at_ + 1000000000)
    | none => false)
  || (match c.latch with
    | some l => decide (s.now ≤ l.at_ + 1000000000)
    | none => false)

/-- Commits a transfer's bytes. -/
def State.canCommit (s : State) (safety : Bool) (q : CanRequest) (data : Bytes) : State :=
  let base := s.reg Regs.dictCanBase
  let (t, r) := (s.setCan safety {}).commitWrite (canPath safety) q.index q.sub data
  t.canAnswer safety base q r.status (if r.status = 0 then data.length else r.detail) []

/-- A READ request. -/
def State.canReads (s : State) (safety : Bool) (q : CanRequest) : State :=
  let base := s.reg Regs.dictCanBase
  let c := s.canChannel safety
  if q.seg = 0 then
    match s.dictRead (canPath safety) q.index q.sub with
    | .error e => (s.setCan safety {}).canAnswer safety base q e.status e.detail []
    | .ok v =>
      let l : CanLatch := { tag := q.tag, index := q.index, sub := q.sub, data := v, at_ := s.now }
      (s.setCan safety { latch := some l }).canAnswer safety base q 0 v.length v
  else match s.dictReach (canPath safety) q.index q.sub, c.latch with
    | .error e, _ => s.canAnswer safety base q e.status e.detail []
    | .ok _, some l =>
      if l.tag = q.tag ∧ l.index = q.index ∧ l.sub = q.sub ∧ s.now ≤ l.at_ + 1000000000 then
        (s.setCan safety { latch := some { l with at_ := s.now } }).canAnswer safety base q 0 l.data.length (l.data.drop (44 * q.seg))
      else (s.setCan safety {}).canAnswer safety base q 9 0 []
    | .ok _, none => (s.setCan safety {}).canAnswer safety base q 9 0 []

/-- A WRITE request. -/
def State.canWrites (s : State) (safety : Bool) (q : CanRequest) : State :=
  let base := s.reg Regs.dictCanBase
  let c := s.canChannel safety
  if q.seg = 0 then
    match s.dictAccess (canPath safety) q.index q.sub with
    | .error e => (s.setCan safety {}).canAnswer safety base q e.status e.detail []
    | .ok (o, _) =>
      if o.badLength q.total then (s.setCan safety {}).canAnswer safety base q 8 0 []
      else if q.total ≤ 44 then s.canCommit safety q (q.data.take q.total)
      else
        let t : CanTransfer := { tag := q.tag, index := q.index, sub := q.sub, total := q.total, next := 1, data := q.data, at_ := s.now }
        (s.setCan safety { transfer := some t }).canAnswer safety base q 0 q.total []
  else match c.transfer with
    | some t =>
      if t.tag = q.tag ∧ t.index = q.index ∧ t.sub = q.sub ∧ t.total = q.total ∧ t.next = q.seg ∧ s.now ≤ t.at_ + 1000000000 then
        let data := t.data ++ q.data
        if q.total ≤ data.length then s.canCommit safety q (data.take q.total)
        else (s.setCan safety { transfer := some { t with next := t.next + 1, data := data, at_ := s.now } }).canAnswer safety base q 0 q.total []
      else (s.setCan safety {}).canAnswer safety base q 9 0 []
    | none => (s.setCan safety {}).canAnswer safety base q 9 0 []

/-- An ABORT request: SEQUENCE for a transfer that it ends. -/
def State.canAborts (s : State) (safety : Bool) (q : CanRequest) : State :=
  (s.setCan safety {}).canAnswer safety (s.reg Regs.dictCanBase) q (if s.canLive (s.canChannel safety) then 9 else 0) 0 []

/-- The checks of R425 on a safety request: CRC, then COUNTER. None where it is accepted. -/
def State.canIntegrity (s : State) (f : Bytes) : Option Reg :=
  let id := s.reg Regs.dictCanDataId
  if ofLe (slice f 60 4) ≠ crc32c (toLe 4 id ++ f.take 60) then some Regs.dictCanFramesBad
  else match s.paths.expectCounter with
    | some n => if ofLe (slice f 56 2) = n then none else some Regs.dictCanCounterErrors
    | none => none

/-- The place of a frame among the device's identifiers (R422): its distance from b, with b's bit 29 as its IDE. -/
def State.canPlace (s : State) (frame : CanFrame) : Option Nat :=
  let b := s.reg Regs.dictCanBase
  if frame.ide = bit b 29 ∧ b % 2 ^ 29 ≤ frame.ident ∧ frame.ident ≤ b % 2 ^ 29 + 5 then some (frame.ident - b % 2 ^ 29) else none

/-- Whether a frame is of the one kind that controller 0 takes: CAN FD with BRS and 64 bytes (R422). -/
def canTaken (frame : CanFrame) : Bool :=
  frame.fdf && frame.brs && !frame.remote && decide (frame.dlc.val = 15) && decide (frame.data.length = 64)

/-- A request frame arrives: on a controller that runs, on the channel's identifier, of the one kind that is taken, intact, on a path
whose service answers. A frame on another identifier is ignored. One whose OP is reserved gets a response of a free status; one of
another command's OP is not this command's. -/
def State.canRequest (s : State) (safety : Bool) (frame : CanFrame) (op : Nat) (effect : State → Bool → CanRequest → State) : State :=
  let f := frame.data
  let q := canRequestOf f
  if !s.canSends || (s.canPlace frame).isNone then s
  else if !canTaken frame then s.bump Regs.dictCanFramesBad
  else if s.canPlace frame ≠ some (if safety then 2 else 0) ∨ (q.op ≠ op ∧ 1 ≤ q.op ∧ q.op ≤ 3) then s
  else
    let base := s.reg Regs.dictCanBase
    match (if safety then s.canIntegrity f else none) with
    | some r => (s.bump r).canAnswer safety base q 11 0 []
    | none =>
      let s := if safety then s.setPaths { s.paths with expectCounter := some ((ofLe (slice f 56 2) + 1) % 65536) } else s
      if !s.served (canPath safety) q.index then s.canAnswer safety base q 10 0 []
      else if q.op ≠ op then s.skipFree.canAnswer safety base q (Config.freeNat s.freeIx % 256) 0 []
      else (effect s safety q).canOrdered s

/-- CAN_READ, CAN_WRITE and CAN_ABORT. -/
def execCanRead (safety : Bool) (frame : CanFrame) (s : State) : Res := .next (s.canRequest safety frame 1 State.canReads)
def execCanWrite (safety : Bool) (frame : CanFrame) (s : State) : Res := .next (s.canRequest safety frame 2 State.canWrites)
def execCanAbort (safety : Bool) (frame : CanFrame) (s : State) : Res := .next (s.canRequest safety frame 3 State.canAborts)

/-- CAN_TRANSFER_TIMEOUT. -/
def execCanTransferTimeout (safety : Bool) (s : State) : Res :=
  if s.canLive (s.canChannel safety) then .next s else .next (s.setCan safety {})

/-! ### SMBus (R430, R431) -/

def State.setSmbus (s : State) (v : Smbus) : State := s.setPaths { s.paths with smbus := v }

/-- One bit and one byte of the PEC, x^8 + x^2 + x + 1. -/
def pecBit (c : Nat) : Nat := if 128 ≤ c then (2 * c % 256) ^^^ 7 else 2 * c
def pecByte (c : Nat) (b : Byte) : Nat := pecBit (pecBit (pecBit (pecBit (pecBit (pecBit (pecBit (pecBit (c ^^^ b.toNat))))))))

/-- A block read's answer: its length, its bytes and the PEC over the whole transaction. -/
def State.smbAnswer (s : State) (code : Nat) (bs : Bytes) : State :=
  let a := s.reg Regs.dictSmbAddr
  let body := BitVec.ofNat 8 bs.length :: bs
  let pec := ([BitVec.ofNat 8 (2 * a), BitVec.ofNat 8 code, BitVec.ofNat 8 (2 * a + 1)] ++ body).foldl pecByte 0
  s.emit (.smb (body ++ [BitVec.ofNat 8 pec]))

/-- A transaction reaches the target: nothing while VDD_IO33 is low, no acknowledgement while the service does not run, and a
write whose PEC is wrong is discarded and counted. -/
def State.smbus (s : State) (pecGood : Bool) (effect : State → State) : State :=
  if !s.pins.io33 then s
  else if !s.paths.serving then s.emit .nack
  else if !pecGood then s.bump Regs.dictSmbPecErrors
  else effect s

/-- A transaction whose command code is `code`, for the command of code `mine`: a code that R431 does not list is not acknowledged,
one of another command is not this one's. -/
def State.smbCode (s : State) (code mine : Nat) (pecGood : Bool) (effect : State → State) : State :=
  if code = mine then s.smbus pecGood effect
  else if 0x10 ≤ code ∧ code ≤ 0x15 then s
  else s.smbus true (fun s => s.emit .nack)

/-- SMB_SELECT. -/
def execSmbSelect (code : Fin 256) (pecGood : Bool) (data : Bytes) (s : State) : Res := .next (s.smbCode code.val 0x10 pecGood (fun s =>
  if data.length ≠ 7 then s.emit .nack
  else
    let x := ofLe data
    let r : Reply := match s.dictReach .smbus (bits x 15 0) (bits x 23 16) with
      | .ok _ => ⟨0, 0⟩
      | .error e => e
    s.setSmbus { selected := some (bits x 15 0, bits x 23 16), offset := bits x 55 24, status := r.status, detail := r.detail }))

/-- SMB_READ: at OFFSET 0 the object is latched; a later part without a latch breaks the order. -/
def execSmbRead (code : Fin 256) (s : State) : Res := .next (s.smbCode code.val 0x11 true (fun s =>
  let b := s.paths.smbus
  match b.selected with
  | none => s.smbAnswer 0x11 ([9] ++ toLe 8 0)
  | some (index, sub) =>
    match s.dictReach .smbus index sub with
    | .error e => s.smbAnswer 0x11 ([BitVec.ofNat 8 e.status] ++ toLe 4 e.detail ++ toLe 4 0)
    | .ok _ =>
      match (if b.offset = 0 then some (s.readValue .smbus index sub) else b.latch) with
      | none => s.smbAnswer 0x11 ([9] ++ toLe 8 0)
      | some v =>
        let part := slice v b.offset (min 240 (v.length - b.offset))
        (s.setSmbus { b with latch := some v, offset := b.offset + part.length }).smbAnswer 0x11
          ([0] ++ toLe 4 0 ++ toLe 4 v.length ++ part)))

/-- SMB_WRITE: OFFSET must equal the bytes staged, else SEQUENCE, which the COMMIT that follows answers. -/
def execSmbWrite (pecGood : Bool) (data : Bytes) (s : State) : Res := .next (s.smbus pecGood (fun s =>
  let b := s.paths.smbus
  if data.length = 0 ∨ 240 < data.length then s.emit .nack
  else if b.offset ≠ b.staged.length then s.setSmbus { b with broken := true }
  else s.setSmbus { b with staged := b.staged ++ data, offset := b.offset + data.length }))

/-- SMB_COMMIT. -/
def execSmbCommit (pecGood : Bool) (s : State) : Res := .next (s.smbus pecGood (fun s =>
  let b := s.paths.smbus
  match (if b.broken then none else b.selected) with
  | none => s.setSmbus { b with status := 9, detail := 0 }
  | some (index, sub) =>
    let (t, r) := s.commitWrite .smbus index sub b.staged
    t.setSmbus { t.paths.smbus with status := r.status, detail := r.detail }))

/-- SMB_RESULT. -/
def execSmbResult (s : State) : Res := .next (s.smbus true (fun s =>
  s.smbAnswer 0x14 ([BitVec.ofNat 8 s.paths.smbus.status] ++ toLe 4 s.paths.smbus.detail)))

/-- SMB_ABORT. -/
def execSmbAbort (pecGood : Bool) (s : State) : Res := .next (s.smbus pecGood (fun s =>
  s.setSmbus { s.paths.smbus with staged := [], latch := none, broken := false }))

/-- SMB_TIMEOUT. -/
def execSmbTimeout (s : State) : Res := .next (s.smbus true (fun s => s.bump Regs.dictSmbTimeouts))

/-! ### What passes when no command waits (log 3) -/

/-- One tick of 2 ns: the Promenade moves packets, the time domains count, the MACs start frames, changes of power domains begin in
their order (R442), and a damaged burst of the drive region that the
Keeper has not acted on yet is acted on (R366). -/
def State.idle (s : State) : State := s.promenadeTick.tick.macTick.startsPds.takeDamage

end Sys2Proof.Machine
end

