-- ==== Sys2Proof/Machine/Dispatch.lean ====
section
/-! DEFINITION. What each command does: one arm per constructor, each a direct call of the command's meaning. -/

namespace Sys2Proof.Machine

def exec (i : Instr) (s : State) : Host.Outcome State Fault Refusal :=
  match i with
  | .dictWrite p index sub data => Sys2Proof.Machine.execDictWrite p index sub data s
  | .plotCalibration plot => Sys2Proof.Machine.execPlotCalibration plot s
  | .promenadePacket stop port copies pkt transfer => Sys2Proof.Machine.execPromenadePacket stop port copies pkt transfer s
  | .leaseStart p => Sys2Proof.Machine.execLeaseStart p s
  | .driveWorkDrained => Sys2Proof.Machine.execDriveWorkDrained s
  | .leaseScrubComplete => Sys2Proof.Machine.execLeaseScrubComplete s
  | .preemptionTrigger code => Sys2Proof.Machine.execPreemptionTrigger code s
  | .leaseWorkDrained => Sys2Proof.Machine.execLeaseWorkDrained s
  | .exportEntryDone => Sys2Proof.Machine.execExportEntryDone s
  | .exportBudgetExpiry => Sys2Proof.Machine.execExportBudgetExpiry s
  | .driveShiftRelease => Sys2Proof.Machine.execDriveShiftRelease s
  | .quarantineLift => Sys2Proof.Machine.execQuarantineLift s
  | .leaseClose p => Sys2Proof.Machine.execLeaseClose p s
  | .leaseCloseDrained => Sys2Proof.Machine.execLeaseCloseDrained s
  | .leasePreemptCmd p bySafetyObject => Sys2Proof.Machine.execLeasePreemptCmd p bySafetyObject s
  | .timeMessage => Sys2Proof.Machine.execTimeMessage s
  | .tapMessage tap errors => Sys2Proof.Machine.execTapMessage tap errors s
  | .tapSilence tap => Sys2Proof.Machine.execTapSilence tap s
  | .delayLineRecalibration => Sys2Proof.Machine.execDelayLineRecalibration s
  | .syncReceived domainNumber port seq twoStep origin fine => Sys2Proof.Machine.execSyncReceived domainNumber port seq twoStep origin fine s
  | .followUpReceived domainNumber port seq origin => Sys2Proof.Machine.execFollowUpReceived domainNumber port seq origin s
  | .announceReceived port msg => Sys2Proof.Machine.execAnnounceReceived port msg s
  | .signalingReceived port => Sys2Proof.Machine.execSignalingReceived port s
  | .pdelayReqTimer port => Sys2Proof.Machine.execPdelayReqTimer port s
  | .pdelayReqReceived port seq requester fine => Sys2Proof.Machine.execPdelayReqReceived port seq requester fine s
  | .pdelayRespReceived port seq followUp time fine => Sys2Proof.Machine.execPdelayRespReceived port seq followUp time fine s
  | .syncReceiptTimeout dom => Sys2Proof.Machine.execSyncReceiptTimeout dom s
  | .tdSourceWrite p dom v => Sys2Proof.Machine.execTdSourceWrite p dom v s
  | .timeActiveDomainWrite p v => Sys2Proof.Machine.execTimeActiveDomainWrite p v s
  | .timeForceSwitch p v => Sys2Proof.Machine.execTimeForceSwitch p v s
  | .slewComplete => Sys2Proof.Machine.execSlewComplete s
  | .steppedExpiry => Sys2Proof.Machine.execSteppedExpiry s
  | .alarmFire a => Sys2Proof.Machine.execAlarmFire a s
  | .alarmArm p a v => Sys2Proof.Machine.execAlarmArm p a v s
  | .triggerPulse t => Sys2Proof.Machine.execTriggerPulse t s
  | .triggerPulseEnd t => Sys2Proof.Machine.execTriggerPulseEnd t s
  | .ppsOutPulse k => Sys2Proof.Machine.execPpsOutPulse k s
  | .ppsOutPulseEnd k => Sys2Proof.Machine.execPpsOutPulseEnd k s
  | .ppsInEdge rising fine => Sys2Proof.Machine.execPpsInEdge rising fine s
  | .launchRelease q => Sys2Proof.Machine.execLaunchRelease q s
  | .lqFlush p q v => Sys2Proof.Machine.execLqFlush p q v s
  | .sleepCorrWindow => Sys2Proof.Machine.execSleepCorrWindow s
  | .timeSave => Sys2Proof.Machine.execTimeSave s
  | .timeReconstruct => Sys2Proof.Machine.execTimeReconstruct s
  | .ownerWrite p index v => Sys2Proof.Machine.execOwnerWrite p index v s
  | .csiFrameStart port vc headerErrors frame fine => Sys2Proof.Machine.execCsiFrameStart port vc headerErrors frame fine s
  | .csiLine port vc dt headerErrors crcGood data => Sys2Proof.Machine.execCsiLine port vc dt headerErrors crcGood data s
  | .csiLineStart port vc headerErrors line fine => Sys2Proof.Machine.execCsiLineStart port vc headerErrors line fine s
  | .csiLineEnd port vc headerErrors line => Sys2Proof.Machine.execCsiLineEnd port vc headerErrors line s
  | .csiFrameEnd port vc headerErrors frame fine => Sys2Proof.Machine.execCsiFrameEnd port vc headerErrors frame fine s
  | .csiGenericShort port headerErrors => Sys2Proof.Machine.execCsiGenericShort port headerErrors s
  | .csiFrameTimeout q => Sys2Proof.Machine.execCsiFrameTimeout q s
  | .itemVisible q => Sys2Proof.Machine.execItemVisible q s
  | .ethFrameReceived port fcsGood fine frame => Sys2Proof.Machine.execEthFrameReceived port fcsGood fine frame s
  | .ethLinkChange port rate => Sys2Proof.Machine.execEthLinkChange port rate s
  | .ethFrameSent port => Sys2Proof.Machine.execEthFrameSent port s
  | .ethTxFlush p port v => Sys2Proof.Machine.execEthTxFlush p port v s
  | .drdyEdge port rising fine => Sys2Proof.Machine.execDrdyEdge port rising fine s
  | .imuReadComplete port data => Sys2Proof.Machine.execImuReadComplete port data s
  | .canFrameReceived f => Sys2Proof.Machine.execCanFrameReceived f s
  | .streamEnable p q v => Sys2Proof.Machine.execStreamEnable p q v s
  | .streamFlush p q v => Sys2Proof.Machine.execStreamFlush p q v s
  | .templateWrite p t data => Sys2Proof.Machine.execTemplateWrite p t data s
  | .poseTick => Sys2Proof.Machine.execPoseTick s
  | .poseSourceWrite p v => Sys2Proof.Machine.execPoseSourceWrite p v s
  | .pgPosePush => Sys2Proof.Machine.execPgPosePush s
  | .pgBin => Sys2Proof.Machine.execPgBin s
  | .epochClose => Sys2Proof.Machine.execEpochClose s
  | .pgBinComplete => Sys2Proof.Machine.execPgBinComplete s
  | .pgNeighbours => Sys2Proof.Machine.execPgNeighbours s
  | .pgBev => Sys2Proof.Machine.execPgBev s
  | .pgLabels => Sys2Proof.Machine.execPgLabels s
  | .pgSeedWrite p v => Sys2Proof.Machine.execPgSeedWrite p v s
  | .sqTailWrite r v => Sys2Proof.Machine.execSqTailWrite r v s
  | .cqHeadWrite c v => Sys2Proof.Machine.execCqHeadWrite c v s
  | .itemDispatch r => Sys2Proof.Machine.execItemDispatch r s
  | .laneSelect l => Sys2Proof.Machine.execLaneSelect l s
  | .preemptionPoint l => Sys2Proof.Machine.execPreemptionPoint l s
  | .itemCompletion r seq => Sys2Proof.Machine.execItemCompletion r seq s
  | .cqCoalesceTimeout c => Sys2Proof.Machine.execCqCoalesceTimeout c s
  | .msixUnmask v => Sys2Proof.Machine.execMsixUnmask v s
  | .nop r => Sys2Proof.Machine.execNop r s
  | .barrier r => Sys2Proof.Machine.execBarrier r s
  | .semSignal r => Sys2Proof.Machine.execSemSignal r s
  | .semWait r => Sys2Proof.Machine.execSemWait r s
  | .semWaitReoffer r => Sys2Proof.Machine.execSemWaitReoffer r s
  | .waitTimeout r => Sys2Proof.Machine.execWaitTimeout r s
  | .copy u => Sys2Proof.Machine.execCopy u s
  | .fill u => Sys2Proof.Machine.execFill u s
  | .queuePush l => Sys2Proof.Machine.execQueuePush l s
  | .queuePop l => Sys2Proof.Machine.execQueuePop l s
  | .matmul u => Sys2Proof.Machine.execMatmul u s
  | .vector u => Sys2Proof.Machine.execVector u s
  | .vectorTimeout u => Sys2Proof.Machine.execVectorTimeout u s
  | .vEnd u => Sys2Proof.Machine.execVEnd u s
  | .vLd u => Sys2Proof.Machine.execVLd u s
  | .vSt u => Sys2Proof.Machine.execVSt u s
  | .vLdb u => Sys2Proof.Machine.execVLdb u s
  | .vPadd u => Sys2Proof.Machine.execVPadd u s
  | .vMovi u => Sys2Proof.Machine.execVMovi u s
  | .vAdd u => Sys2Proof.Machine.execVAdd u s
  | .vSub u => Sys2Proof.Machine.execVSub u s
  | .vMul u => Sys2Proof.Machine.execVMul u s
  | .vFma u => Sys2Proof.Machine.execVFma u s
  | .vMin u => Sys2Proof.Machine.execVMin u s
  | .vMax u => Sys2Proof.Machine.execVMax u s
  | .vClt u => Sys2Proof.Machine.execVClt u s
  | .vSel u => Sys2Proof.Machine.execVSel u s
  | .vCvti u => Sys2Proof.Machine.execVCvti u s
  | .vCvtf u => Sys2Proof.Machine.execVCvtf u s
  | .vExp u => Sys2Proof.Machine.execVExp u s
  | .vRcp u => Sys2Proof.Machine.execVRcp u s
  | .vRsq u => Sys2Proof.Machine.execVRsq u s
  | .vRsum u => Sys2Proof.Machine.execVRsum u s
  | .vRmax u => Sys2Proof.Machine.execVRmax u s
  | .vLoop u => Sys2Proof.Machine.execVLoop u s
  | .reduce u => Sys2Proof.Machine.execReduce u s
  | .ringFlush p r v => Sys2Proof.Machine.execRingFlush p r v s
  | .ringFlushDiscard r => Sys2Proof.Machine.execRingFlushDiscard r s
  | .ringEnable p r v => Sys2Proof.Machine.execRingEnable p r v s
  | .cqEnable p c v => Sys2Proof.Machine.execCqEnable p c v s
  | .iqFlush p q v => Sys2Proof.Machine.execIqFlush p q v s
  | .iqEnable p q v => Sys2Proof.Machine.execIqEnable p q v s
  | .chairFormedWrite p v => Sys2Proof.Machine.execChairFormedWrite p v s
  | .chairChangeComplete c => Sys2Proof.Machine.execChairChangeComplete c s
  | .gafferLevelWrite p g v => Sys2Proof.Machine.execGafferLevelWrite p g v s
  | .levelChangeComplete g => Sys2Proof.Machine.execLevelChangeComplete g s
  | .srSeedWrite p g v => Sys2Proof.Machine.execSrSeedWrite p g v s
  | .gafferFenceSet by_ g => Sys2Proof.Machine.execGafferFenceSet by_ g s
  | .fencePowerOff g => Sys2Proof.Machine.execFencePowerOff g s
  | .gafferFenceClear p g => Sys2Proof.Machine.execGafferFenceClear p g s
  | .startTestComplete g results => Sys2Proof.Machine.execStartTestComplete g results s
  | .mvTransform m => Sys2Proof.Machine.execMvTransform m s
  | .mvGather m => Sys2Proof.Machine.execMvGather m s
  | .mvScatter m => Sys2Proof.Machine.execMvScatter m s
  | .kvAppend u => Sys2Proof.Machine.execKvAppend u s
  | .kvOpen => Sys2Proof.Machine.execKvOpen s
  | .kvAlloc => Sys2Proof.Machine.execKvAlloc s
  | .kvTruncate => Sys2Proof.Machine.execKvTruncate s
  | .kvClose => Sys2Proof.Machine.execKvClose s
  | .kvRead => Sys2Proof.Machine.execKvRead s
  | .kvpEnable p pool v => Sys2Proof.Machine.execKvpEnable p pool v s
  | .attPrefill u => Sys2Proof.Machine.execAttPrefill u s
  | .attDecode u => Sys2Proof.Machine.execAttDecode u s
  | .attMerge u => Sys2Proof.Machine.execAttMerge u s
  | .arbLookup => Sys2Proof.Machine.execArbLookup s
  | .arbInsert => Sys2Proof.Machine.execArbInsert s
  | .unpin => Sys2Proof.Machine.execUnpin s
  | .reopen => Sys2Proof.Machine.execReopen s
  | .kvSwapOut => Sys2Proof.Machine.execKvSwapOut s
  | .kvSwapIn => Sys2Proof.Machine.execKvSwapIn s
  | .kpDeclare => Sys2Proof.Machine.execKpDeclare s
  | .verdict => Sys2Proof.Machine.execVerdict s
  | .verdictDeadline => Sys2Proof.Machine.execVerdictDeadline s
  | .epochMissing => Sys2Proof.Machine.execEpochMissing s
  | .kpArmedWrite p v => Sys2Proof.Machine.execKpArmedWrite p v s
  | .kpForceSafe p v => Sys2Proof.Machine.execKpForceSafe p v s
  | .kpSafeClear p v => Sys2Proof.Machine.execKpSafeClear p v s
  | .rulesWrite p parked data => Sys2Proof.Machine.execRulesWrite p parked data s
  | .lockstepMismatch => Sys2Proof.Machine.execLockstepMismatch s
  | .keeperClockLoss => Sys2Proof.Machine.execKeeperClockLoss s
  | .keeperWatchdog => Sys2Proof.Machine.execKeeperWatchdog s
  | .keeperStartComplete passed => Sys2Proof.Machine.execKeeperStartComplete passed s
  | .restartReady => Sys2Proof.Machine.execRestartReady s
  | .heartbeatToggle => Sys2Proof.Machine.execHeartbeatToggle s
  | .parkedRuleEval => Sys2Proof.Machine.execParkedRuleEval s
  | .gardenerHeartbeat => Sys2Proof.Machine.execGardenerHeartbeat s
  | .gardenerWatchdog => Sys2Proof.Machine.execGardenerWatchdog s
  | .lamplighterSlot n missed => Sys2Proof.Machine.execLamplighterSlot n missed s
  | .goldenSetComplete g results => Sys2Proof.Machine.execGoldenSetComplete g results s
  | .setMissed g => Sys2Proof.Machine.execSetMissed g s
  | .sramPatrolScrub array addr => Sys2Proof.Machine.execSramPatrolScrub array addr s
  | .ddrPatrolScrub addr => Sys2Proof.Machine.execDdrPatrolScrub addr s
  | .scMarkedWrite p sc v => Sys2Proof.Machine.execScMarkedWrite p sc v s
  | .ddrRetire p v => Sys2Proof.Machine.execDdrRetire p v s
  | .ddrUnretire p v => Sys2Proof.Machine.execDdrUnretire p v s
  | .errLogReadSeq p v => Sys2Proof.Machine.execErrLogReadSeq p v s
  | .errCorrectedHoldoff => Sys2Proof.Machine.execErrCorrectedHoldoff s
  | .bar2Read off len => Sys2Proof.Machine.execBar2Read off len s
  | .bar2Write off data poisoned => Sys2Proof.Machine.execBar2Write off data poisoned s
  | .bar2Resize sizeBits => Sys2Proof.Machine.execBar2Resize sizeBits s
  | .xlateEntryWrite n v => Sys2Proof.Machine.execXlateEntryWrite n v s
  | .hostReadFail r seq addr => Sys2Proof.Machine.execHostReadFail r seq addr s
  | .linkUp rate width => Sys2Proof.Machine.execLinkUp rate width s
  | .linkDown => Sys2Proof.Machine.execLinkDown s
  | .hotReset => Sys2Proof.Machine.execHotReset s
  | .flr => Sys2Proof.Machine.execFlr s
  | .perstAssert => Sys2Proof.Machine.execPerstAssert s
  | .ddrRetrain sc => Sys2Proof.Machine.execDdrRetrain sc s
  | .ddrTrainingComplete pair passed full => Sys2Proof.Machine.execDdrTrainingComplete pair passed full s
  | .ddrInterleaveWrite p v => Sys2Proof.Machine.execDdrInterleaveWrite p v s
  | .directMapWrite off data => Sys2Proof.Machine.execDirectMapWrite off data s
  | .directMapRead off size => Sys2Proof.Machine.execDirectMapRead off size s
  | .channelRead k index sub => Sys2Proof.Machine.execChannelRead k index sub s
  | .channelWrite k index sub data => Sys2Proof.Machine.execChannelWrite k index sub data s
  | .channelAbort k => Sys2Proof.Machine.execChannelAbort k s
  | .channelComplete k => Sys2Proof.Machine.execChannelComplete k s
  | .canRead safety frame => Sys2Proof.Machine.execCanRead safety frame s
  | .canWrite safety frame => Sys2Proof.Machine.execCanWrite safety frame s
  | .canAbort safety frame => Sys2Proof.Machine.execCanAbort safety frame s
  | .canTransferTimeout safety => Sys2Proof.Machine.execCanTransferTimeout safety s
  | .smbSelect code pecGood data => Sys2Proof.Machine.execSmbSelect code pecGood data s
  | .smbRead code => Sys2Proof.Machine.execSmbRead code s
  | .smbWrite pecGood data => Sys2Proof.Machine.execSmbWrite pecGood data s
  | .smbCommit pecGood => Sys2Proof.Machine.execSmbCommit pecGood s
  | .smbResult => Sys2Proof.Machine.execSmbResult s
  | .smbAbort pecGood => Sys2Proof.Machine.execSmbAbort pecGood s
  | .smbTimeout => Sys2Proof.Machine.execSmbTimeout s
  | .ifSelectWrite p data => Sys2Proof.Machine.execIfSelectWrite p data s
  | .devAttentionClear p v => Sys2Proof.Machine.execDevAttentionClear p v s
  | .pdRequest p one data => Sys2Proof.Machine.execPdRequest p one data s
  | .pdTransitionComplete d => Sys2Proof.Machine.execPdTransitionComplete d s
  | .powerCapTick mW => Sys2Proof.Machine.execPowerCapTick mW s
  | .powerRaiseTick => Sys2Proof.Machine.execPowerRaiseTick s
  | .pwrSleepEnter p data => Sys2Proof.Machine.execPwrSleepEnter p data s
  | .sleepClockHandover => Sys2Proof.Machine.execSleepClockHandover s
  | .wakeDetectorArm => Sys2Proof.Machine.execWakeDetectorArm s
  | .smbAddressMatch byte => Sys2Proof.Machine.execSmbAddressMatch byte s
  | .wakePin pin level => Sys2Proof.Machine.execWakePin pin level s
  | .sleepAlarm a => Sys2Proof.Machine.execSleepAlarm a s
  | .wakeTry => Sys2Proof.Machine.execWakeTry s
  | .wakeTryFail reason => Sys2Proof.Machine.execWakeTryFail reason s
  | .dictionaryReady => Sys2Proof.Machine.execDictionaryReady s
  | .alwaysOnBrownOut cause => Sys2Proof.Machine.execAlwaysOnBrownOut cause s
  | .io18Low => Sys2Proof.Machine.execIo18Low s
  | .io18Restored => Sys2Proof.Machine.execIo18Restored s
  | .io33Low good => Sys2Proof.Machine.execIo33Low good s
  | .pgSramLoss => Sys2Proof.Machine.execPgSramLoss s
  | .pgCoreFall sram => Sys2Proof.Machine.execPgCoreFall sram s
  | .clk32kLoss => Sys2Proof.Machine.execClk32kLoss s
  | .powerOn => Sys2Proof.Machine.execPowerOn s
  | .resetAssert => Sys2Proof.Machine.execResetAssert s
  | .resetRelease => Sys2Proof.Machine.execResetRelease s
  | .startWatchdog => Sys2Proof.Machine.execStartWatchdog s
  | .bootRestart p v => Sys2Proof.Machine.execBootRestart p v s
  | .stageVerify p => Sys2Proof.Machine.execStageVerify p s
  | .stageProgram p slotB => Sys2Proof.Machine.execStageProgram p slotB s
  | .stageBoot p => Sys2Proof.Machine.execStageBoot p s
  | .stageComplete flashGood => Sys2Proof.Machine.execStageComplete flashGood s
  | .bootCommitSvn p v => Sys2Proof.Machine.execBootCommitSvn p v s
  | .lcAdvance p v => Sys2Proof.Machine.execLcAdvance p v s
  | .lcKeyRevoke p v => Sys2Proof.Machine.execLcKeyRevoke p v s
  | .lcKeyHashWrite p what data => Sys2Proof.Machine.execLcKeyHashWrite p what data s
  | .fuseCommandComplete readBackGood => Sys2Proof.Machine.execFuseCommandComplete readBackGood s
  | .dbgToken p data => Sys2Proof.Machine.execDbgToken p data s
  | .drSeal p v => Sys2Proof.Machine.execDrSeal p v s
  | .drSealComplete => Sys2Proof.Machine.execDrSealComplete s
  | .drUnseal p v => Sys2Proof.Machine.execDrUnseal p v s
  | .tpinFuncWrite p t v => Sys2Proof.Machine.execTpinFuncWrite p t v s
  | .obsSelectWrite p m v => Sys2Proof.Machine.execObsSelectWrite p m v s
  | .bypass code => Sys2Proof.Machine.execBypass code s
  | .idcode => Sys2Proof.Machine.execIdcode s
  | .samplePreload data => Sys2Proof.Machine.execSamplePreload data s
  | .extest => Sys2Proof.Machine.execExtest s
  | .clamp => Sys2Proof.Machine.execClamp s
  | .highz => Sys2Proof.Machine.execHighz s
  | .canErrorFrame ctrl => Sys2Proof.Machine.execCanErrorFrame ctrl s
  | .canBusOffEntry ctrl => Sys2Proof.Machine.execCanBusOffEntry ctrl s
  | .busOffRecovery ctrl => Sys2Proof.Machine.execBusOffRecovery ctrl s
  | .deskewCalibration port => Sys2Proof.Machine.execDeskewCalibration port s
  | .vddqDdrLoss => Sys2Proof.Machine.execVddqDdrLoss s
  | .perstRelease => Sys2Proof.Machine.execPerstRelease s
  | .regulatorReady => Sys2Proof.Machine.execRegulatorReady s
  | .pgHigh => Sys2Proof.Machine.execPgHigh s
  | .refclkSysPresent => Sys2Proof.Machine.execRefclkSysPresent s
  | .wakeIgnoreExpiry => Sys2Proof.Machine.execWakeIgnoreExpiry s
  | .tapReset => Sys2Proof.Machine.execTapReset s

end Sys2Proof.Machine
end

