-- ==== Sys2Proof/Safety.lean ====
section
/-! DEFINITION. The words that the statements use: what a write hands to its owning chapter, what an item is ready for, and what
every step keeps. -/

namespace Sys2Proof.Machine

/-- The value that a write hands to the owning chapter's own checks once R410 has let it through from UNAVAILABLE down to the
table's range (reserved bits cleared, R4); none where the write is refused or dropped before that. -/
def State.offered (s : State) (p : Path) (index sub : Nat) (data : Bytes) : Option Bytes :=
  if s.served p index then
    match s.dictAccess p index sub with
    | .error _ => none
    | .ok (o, _) =>
      if o.badLength data.length || !o.inRange (o.given data) then none
      else some (o.given data)
  else none

/-- The state after an accepted write: answered OK on its path, and nothing else (R410, R419). -/
def State.accepted (s : State) (p : Path) : State := s.emit (.answer p 0 0)

/-- Item i of an opcode executes in its lane, its checks leave s1 and what they found, and no lease refuses it (R192, R197, R200). -/
def State.mayRun {α : Type} (s : State) (l : Lane) (op : Nat) (check : State → Item → Checked α) (i : Item) (s1 : State) (a : α) : Prop :=
  s.ready l op = some i ∧ check s i = (s1, .ok a) ∧ s1.leaseRefuses i = false

/-- The vector unit of u is at instruction x of a program, x has the opcode, and the item's cycles last (R170, R200). -/
def State.vecAt (s : State) (u : CUnit) (op : Nat) (v : VectorUnit) (i : Item) (x : Nat) : Prop :=
  s.vecNext u = some (v, i, x) ∧ vOp x = op ∧ vecOver u v x = false

/-- No fault of u's vector unit waits for a check (R355, R357). -/
def State.vecWhole (s : State) (u : CUnit) : Prop := ∀ g ∈ unitGaffers u, (s.gaffer g).vectorFault = none

/-- What every step keeps: both memories in their canonical form, and at most 512 entries in the error log (R372). -/
def State.sound (s : State) : Bool := s.mem.wf && s.hostMem.wf && decide (s.log.entries.length ≤ 512)

end Sys2Proof.Machine
end

