-- ==== Sys2Proof/Certificates/Slice0/Obligations.lean ====
section
/-! DEFINITION. The statements for the provers. Each one names the rules of the spec that it formalises. A statement about a command says
that the command is answered with a next state, and which: what is not named as changed is the state before. -/

open Sys2Proof Sys2Proof.Machine

/-! ### The machine as a whole -/

/-- A step takes the command at the front of the queue and runs it on the state with the queue's rest; with no command waiting, the
block idles for a tick of 2 ns, which is the model's choice (log 3). -/
def Obligations.StepTakesTheFrontCommand : Prop :=
  (∀ (c : Instr) (rest : List Instr) (s : State), s.pending = c :: rest → step s = exec c { s with pending := rest }) ∧
  (∀ s : State, s.pending = [] → step s = .next s.idle)

/-- R407, R451, R468, R491: after reset nothing waits, nothing is listed in memory, every object reads its default, only power domain 0
is on, no start has begun, no access path is served, and no item, lease or seal exists. That memory lists nothing (log 4), what an object
reads whose table gives no default (log 6) and that no message has been sent (log 2) are the model's choices. -/
def Obligations.ResetLeavesTheStatedState : Prop :=
  State.reset.pending = [] ∧ State.reset.mem.cells = [] ∧ State.reset.hostMem.cells = [] ∧ (∀ r : Reg, State.reset.reg r = r.dflt) ∧
  (∀ (k : Nat) (d : Bytes), State.reset.blob k d = d) ∧ State.reset.pdOn 0 = true ∧ (∀ d, d ≠ 0 → State.reset.pdOn d = false) ∧
  State.reset.boot.phase = .held ∧ (∀ (p : Path) (index : Nat), State.reset.served p index = false) ∧
  State.reset.disp.items = [] ∧ State.reset.inLease = false ∧ State.reset.drive = .unsealed ∧ State.reset.log.entries = [] ∧
  State.reset.out = []

/-- After reset, both memories are in their canonical form and the error log holds at most 512 entries. -/
def Obligations.ResetIsSound : Prop := State.reset.sound = true

/-- R372: whatever step is taken from a sound state, both memories keep their canonical form, and the error log never holds more than
512 entries. -/
def Obligations.StepsKeepSoundness : Prop :=
  ∀ s t : State, s.sound = true → step s = .next t → t.sound = true

/-- Every command is taken: no command of the table ends in a fault or a refusal, whatever the state and its operands, due or not and well
formed or not, which is the model's reading (logs 10 and 13). -/
def Obligations.EveryCommandIsTaken : Prop := ∀ (c : Instr) (s : State), ∃ t, exec c s = .next t

/-- Commands are taken first in, first out, and take no time: a step from a waiting command leaves exactly the queue's rest and the
local time as it was; a step with nothing waiting takes 2 ns (the model's choice, log 3). -/
def Obligations.StepsKeepTheQueueAndTheTime : Prop :=
  (∀ (c : Instr) (rest : List Instr) (s t : State), s.pending = c :: rest → step s = .next t → t.pending = rest ∧ t.now = s.now) ∧
  (∀ s t : State, s.pending = [] → step s = .next t → t.pending = [] ∧ t.now = s.now + 2)

/-! ### What the chapters share (chapters 0, 1, 5, 12 and 13) -/

/-- R13: a packet's output leads along x, nearer to the destination's column, while the columns differ, then along y, nearer to the
destination's row, and at the destination to its block; a packet enters its FIFO with that output and leaves by no other. -/
def Obligations.PacketsTravelAlongXThenY : Prop :=
  (∀ k d : Nat, k < 48 → d < 48 → k % 6 ≠ d % 6 →
    ∃ n, nextStop k (routePort k d) = some n ∧ n < 48 ∧ n / 6 = k / 6 ∧
      ((n % 6 : Nat) - (d % 6 : Nat) : Int).natAbs + 1 = ((k % 6 : Nat) - (d % 6 : Nat) : Int).natAbs) ∧
  (∀ k d : Nat, k < 48 → d < 48 → k % 6 = d % 6 → k ≠ d →
    ∃ n, nextStop k (routePort k d) = some n ∧ n < 48 ∧ n % 6 = k % 6 ∧
      ((n / 6 : Nat) - (d / 6 : Nat) : Int).natAbs + 1 = ((k / 6 : Nat) - (d / 6 : Nat) : Int).natAbs) ∧
  (∀ d : Nat, d < 48 → routePort d d = 4 ∧ nextStop d 4 = none) ∧
  (∀ (s : State) (k inp : Nat) (p : Packet),
    (s.stop k).partial_ inp p.traffic = none →
    ((s.arrive k inp p).stop k).held = (s.stop k).held ++ [⟨inp, routePort k p.dst.val, p, 1, 0⟩]) ∧
  (∀ (v : Stop) (o : Nat) (h : Held), h ∈ v.heads o → h.outp = o) ∧
  (∀ (s : State) (k o n : Nat) (h : Held), nextStop k o = some n →
    s.moves k o h = (s.setStop k ((s.stop k).granted o h)).arrive n (opposite o) h.pkt)

/-- R5: a counter that counts an event rises by one and stays at its maximum, and nothing else changes. -/
def Obligations.CountersSaturate : Prop :=
  (∀ (s : State) (r : Reg), (s.bump r).reg r = min (2 ^ 32 - 1) (s.reg r + 1)) ∧
  (∀ (s : State) (r q : Reg), q.key ≠ r.key → (s.bump r).reg q = s.reg q) ∧
  (∀ (s : State) (r : Reg), { s.bump r with regs := s.regs } = s)

/-- R160: the special values of the three approximations. -/
def Obligations.ApproximationsGiveTheirSpecialValues : Prop :=
  (∀ x : Nat, f32 x = .nan → f32 (fexp x) = .nan ∧ f32 (frcp x) = .nan ∧ f32 (frsq x) = .nan) ∧
  (fexp 0xFF800000 = 0 ∧ fexp 0x7F800000 = 0x7F800000) ∧
  (frcp 0 = 0x7F800000 ∧ frcp 0x80000000 = 0xFF800000 ∧ frcp 0x7F800000 = 0 ∧ frcp 0xFF800000 = 0x80000000) ∧
  (frsq 0 = 0x7F800000 ∧ frsq 0x80000000 = 0xFF800000 ∧ frsq 0x7F800000 = 0) ∧
  (∀ (x m : Nat) (e : Int), (f32 x = .fin true m e ∧ m ≠ 0) ∨ f32 x = .inf true → f32 (frsq x) = .nan)

/-- R25: while the drive region is sealed, whoever writes and wherever the write begins, a write that reaches into the region is not
carried out and changes nothing. -/
def Obligations.SealedDriveRegionIsNotWritten : Prop :=
  ∀ (s : State) (ag : Agent) (a : Nat) (bs : Bytes), s.driveSealed = true → s.driveLo % 2 ^ 28 = 0 →
    s.driveLo + s.driveLen ≤ 2 ^ 37 → overlaps a bs.length s.driveLo s.driveLen = true →
    (s.writeMem ag a bs).1 = s ∧ (s.writeMem ag a bs).2 ≠ .ok

/-- A byte reads back as it was last written, a write leaves every other byte alone and keeps the canonical form, and the bytes of a
range that is cleared read as memory that nothing has written. -/
def Obligations.MemoryReadsBackWhatWasWritten : Prop :=
  (∀ (m : Memory) (a : Nat) (b : Byte), (m.set a b).get a = b) ∧
  (∀ (m : Memory) (a c : Nat) (b : Byte), c ≠ a → (m.set a b).get c = m.get c) ∧
  (∀ (m : Memory) (a i : Nat) (bs : Bytes) (b : Byte), bs[i]? = some b → (m.write a bs).get (a + i) = b) ∧
  (∀ (m : Memory) (a c : Nat) (bs : Bytes), c < a ∨ a + bs.length ≤ c → (m.write a bs).get c = m.get c) ∧
  (∀ (m : Memory) (a : Nat) (bs : Bytes), m.wf = true → (m.write a bs).wf = true) ∧
  (∀ (m : Memory) (lo hi a : Nat), m.wf = true → lo ≤ a → a < hi → (m.zero lo hi).get a = blankByte a) ∧
  (∀ (m : Memory) (lo hi : Nat), m.wf = true → (m.zero lo hi).wf = true)

/-- R400: under either interleave every address lies on one of the eight subchannels, and no two addresses share a subchannel and an
offset in it. -/
def Obligations.InterleaveIsOneToOne : Prop :=
  (∀ (s : State) (a : Nat), s.subchannel a < 8) ∧
  (∀ (s : State) (a b : Nat), s.subchannel a = s.subchannel b → s.subOffset a = s.subOffset b → a = b)

/-! ### The dictionary (chapter 14) -/

/-- R407, R410: a write to an object of no chapter's own rule stores its value, is answered OK and changes nothing else; a write that a
chapter's rule accepts leaves that rule's state. -/
def Obligations.DictionaryWriteStores : Prop :=
  (∀ (p : Path) (index sub : Nat) (data x : Bytes) (s : State) (o : Obj) (k : Nat),
    s.offered p index sub data = some x → ¬ (index = 0x2101 ∧ sub = 1) → ¬ (index = 0x2B03 ∧ sub = 4) →
    findObj index sub = some (o, k) → o.ty ≠ .domain → hookRows.find? (fun e => decide (e.1 = o.index * 256 + o.sub)) = none →
    familyHook o index sub = storeHook index sub →
    exec (.dictWrite p index sub data) s = .next ({ s with regs := kset s.regs (index * 256 + sub) (ofLe x) }.accepted p)) ∧
  (∀ (p : Path) (index sub : Nat) (data x : Bytes) (s t : State),
    s.offered p index sub data = some x → ¬ (index = 0x2101 ∧ sub = 1) → ¬ (index = 0x2B03 ∧ sub = 4) →
    writeHook index sub s p x = .ok t →
    exec (.dictWrite p index sub data) s = .next (t.accepted p))

/-- R415, R434, R436: a writer claims an unclaimed resource or keeps its own, and gives its own up; the Keeper takes any. IF_SELECT
takes version 1 of every interface, and a write to DEV_ATTENTION clears exactly the bits written as 1. -/
def Obligations.OwnersVersionsAndAttention : Prop :=
  (∀ (p : Path) (index v : Nat) (x : Bytes) (s : State),
    ownedIndexes.contains index = true → s.offered p index 1 (toLe 1 v) = some x → ofLe x = s.writer p →
    s.reg (ownerReg index) = 0 ∨ s.reg (ownerReg index) = s.writer p →
    exec (.ownerWrite p index v) s = .next ((s.setReg (ownerReg index) (s.writer p)).accepted p)) ∧
  (∀ (p : Path) (index v : Nat) (x : Bytes) (s : State),
    ownedIndexes.contains index = true → s.offered p index 1 (toLe 1 v) = some x → ofLe x = 0 → s.writer p ≠ 0 →
    s.reg (ownerReg index) = s.writer p →
    exec (.ownerWrite p index v) s = .next (((s.leaveResource index).setReg (ownerReg index) 0).accepted p)) ∧
  (∀ (index v : Nat) (x : Bytes) (s : State),
    ownedIndexes.contains index = true → s.offered .keeper index 1 (toLe 1 v) = some x → ofLe x = 6 →
    s.reg (ownerReg index) ≠ 0 → s.reg (ownerReg index) ≠ 6 →
    exec (.ownerWrite .keeper index v) s =
      .next ((((s.leaveResource index).setReg (ownerReg index) 6).notifyTaken index (s.reg (ownerReg index))).accepted .keeper)) ∧
  (∀ (p : Path) (s : State) (x : Bytes), s.offered p 0x1101 1 (List.replicate 7 1) = some x →
    s.blob Blobs.ifSelect (List.replicate 7 1) = List.replicate 7 1 →
    exec (.ifSelectWrite p (List.replicate 7 1)) s = .next ((s.setBlob Blobs.ifSelect (List.replicate 7 1)).accepted p)) ∧
  (∀ (p : Path) (v : Nat) (x : Bytes) (s : State), s.offered p 0x2000 5 (toLe 4 v) = some x →
    ∃ t, exec (.devAttentionClear p v) s = .next t ∧
      t = (s.setReg Regs.devAttention (t.reg Regs.devAttention)).accepted p ∧
      ∀ i, bit (t.reg Regs.devAttention) i = (bit (s.reg Regs.devAttention) i && !bit (ofLe x) i))

/-- R6, R410, R419: whatever object, path and value, a refused write changes nothing but the records that R419 and R187 name and its
answer. -/
def Obligations.RefusedWriteChangesNothing : Prop :=
  ∀ (s : State) (p : Path) (index sub : Nat) (data : Bytes) (h : Hook) (e : Reply),
    s.served p index = true → s.dictTry p index sub data h = .error e →
    (s.writeObject p index sub data h).out = .answer p e.status e.detail :: s.out ∧
    (∃ regs out, s.writeObject p index sub data h = { s with regs := regs, out := out }) ∧
    (∀ r : Reg, r.key ≠ Regs.dictBar0Last.key → r.key ≠ Regs.dictBar0Refusals.key → r.key ≠ Regs.chairRefusals.key →
      (s.writeObject p index sub data h).reg r = s.reg r) ∧
    (p ≠ .bar0 → ¬ (index = 0x2500 ∧ sub = 3) → (s.writeObject p index sub data h).regs = s.regs)

/-- R410, R414: only the safety channel and the Keeper write a safety-owned object, and nothing writes a read-only one. -/
def Obligations.AccessCodesGuardObjects : Prop :=
  (∀ (s : State) (p : Path) (index sub : Nat) (data : Bytes) (h : Hook) (o : Obj) (k : Nat),
    findObj index sub = some (o, k) → o.access = .so → p ≠ .canSafety → p ≠ .keeper →
    ∃ e, s.dictTry p index sub data h = .error e ∧ e.status ∈ [5, 12, 13]) ∧
  (∀ (s : State) (p : Path) (index sub : Nat) (data : Bytes) (h : Hook) (o : Obj) (k : Nat),
    findObj index sub = some (o, k) → o.access = .ro →
    ∃ e, s.dictTry p index sub data h = .error e ∧ e.status ∈ [2, 12, 13]) ∧
  (∀ (s : State) (p : Path) (index sub : Nat) (data : Bytes) (h : Hook) (o : Obj) (k : Nat),
    findObj index sub = some (o, k) → o.leaseLocked = true → s.shift.llLocked = true →
    ∃ e, s.dictTry p index sub data h = .error e ∧ e.status ∈ [2, 5, 6, 12, 13])

/-- R384, R413, R417, R418, R420: a write of the direct map that covers a whole object commits it, a read returns its bytes, and an
access of another size, or not aligned to its size, is a hole. A channel runs one operation, a read with the value it had at its
start; a control block written while BUSY is 1 is refused and counted, unless it aborts; the end copies out what was read, or
commits what was written. That a read holds the value of its start and that an abort posts its message with DETAIL 0 is the model's
reading (log 37). While the PCIe power domain is not on, BAR0 takes nothing (R446). -/
def Obligations.DirectMapAndChannels : Prop :=
  (∀ (off n : Nat) (data : Bytes) (s : State), data.length = 4 ∨ data.length = 8 → off % 16 = 0 → off < 0x1D00000 →
    s.barServed = true → slotSize (0x1000 + off / 4096) (off % 4096 / 16) = some n → 0 < n → n ≤ data.length →
    exec (.directMapWrite off data) s = .next ((s.setPaths { s.paths with staged := none }).writeAny .bar0 (0x1000 + off / 4096)
      (off % 4096 / 16) (data.take n))) ∧
  (∀ (off n size : Nat) (v : Bytes) (s : State), size = 4 ∨ size = 8 → off % 16 = 0 → off < 0x1D00000 → s.barServed = true →
    slotSize (0x1000 + off / 4096) (off % 4096 / 16) = some n →
    s.dictRead .bar0 (0x1000 + off / 4096) (off % 4096 / 16) = .ok v → v.length ≤ size →
    exec (.directMapRead off size) s = .next (s.emit (.bar0 (ofLe v)))) ∧
  (∀ (off : Nat) (data : Bytes) (s : State), s.pdOn 44 = true → (data.length ≠ 4 ∧ data.length ≠ 8) ∨ off % data.length ≠ 0 →
    exec (.directMapWrite off data) s = .next (s.bump Regs.hifBarHoleAccesses)) ∧
  (∀ (off size : Nat) (s : State), s.pdOn 44 = true → (size ≠ 4 ∧ size ≠ 8) ∨ off % size ≠ 0 →
    exec (.directMapRead off size) s = .next ((s.bump Regs.hifBarHoleAccesses).emit (.bar0 0))) ∧
  (∀ (off size : Nat) (data : Bytes) (s : State), s.pdOn 44 = false →
    exec (.directMapWrite off data) s = .next s ∧ exec (.directMapRead off size) s = .next s) ∧
  (∀ (k : Fin 4) (index sub : Nat) (v : Bytes) (s : State), s.barServed = true → (s.channel k.val).busy = false →
    s.dictRead .bar0 index sub = .ok v →
    ∃ t, exec (.channelRead k index sub) s = .next t ∧ (t.channel k.val).busy = true ∧ (t.channel k.val).copy = some (0, 0, v) ∧
      (t.channel k.val).data = (s.channel k.val).data ∧ (∀ j, j ≠ k.val → t.channel j = s.channel j) ∧ t.regs = s.regs ∧
      t.blobs = s.blobs ∧ t.mem = s.mem ∧ t.out = s.out) ∧
  (∀ (k : Fin 4) (index sub : Nat) (data : Bytes) (s : State), s.barServed = true → (s.channel k.val).busy = false →
    ∃ t, exec (.channelWrite k index sub data) s = .next t ∧ (t.channel k.val).busy = true ∧
      (t.channel k.val).data = overlay (s.channel k.val).data 0 data ∧ (t.channel k.val).index = index ∧ (t.channel k.val).sub = sub ∧
      (t.channel k.val).length = data.length ∧ (∀ j, j ≠ k.val → t.channel j = s.channel j) ∧ t.regs = s.regs ∧ t.blobs = s.blobs ∧
      t.mem = s.mem ∧ t.out = s.out) ∧
  (∀ (k : Fin 4) (index sub : Nat) (data : Bytes) (s : State), s.barServed = true → (s.channel k.val).busy = true →
    exec (.channelRead k index sub) s = .next (s.bump Regs.dictBar0Refusals) ∧
    exec (.channelWrite k index sub data) s = .next (s.bump Regs.dictBar0Refusals)) ∧
  (∀ (k : Fin 4) (s : State), s.barServed = true → (s.channel k.val).busy = true →
    exec (.channelAbort k) s = .next ((s.setChannel k.val { s.channel k.val with
      op := 3, status := 9, detail := 0, busy := false, copy := none }).msix (s.reg Regs.dictChanVector))) ∧
  (∀ (k : Fin 4) (st d : Nat) (v : Bytes) (s : State), (s.channel k.val).busy = true → (s.channel k.val).copy = some (st, d, v) →
    exec (.channelComplete k) s = .next ((s.setChannel k.val { s.channel k.val with
      data := overlay (s.channel k.val).data 0 v, resultLength := v.length, status := st, detail := d, busy := false,
      copy := none }).msix (s.reg Regs.dictChanVector))) ∧
  (∀ (k : Fin 4) (t : State) (r : Reply) (s : State), (s.channel k.val).busy = true → (s.channel k.val).copy = none →
    s.commitWrite .bar0 (s.channel k.val).index (s.channel k.val).sub
      (padTo (s.channel k.val).length ((s.channel k.val).data.take (s.channel k.val).length)) = (t, r) →
    exec (.channelComplete k) s = .next ((t.setChannel k.val { s.channel k.val with
      status := r.status, detail := r.detail, busy := false, copy := none }).msix (t.reg Regs.dictChanVector)))

/-- R422, R423, R424, R425, R430, R431: a request on CAN FD controller 0 reads, writes or aborts; a frame of another kind on one of the
device's identifiers is dropped and counted, one on another identifier ignored; a safety request whose CRC is wrong is
answered INTEGRITY and not executed; and a transfer of which nothing arrives for 1 s is dropped. The SMBus target selects an object,
reads it from a latch, stages and commits a write, tells its result and drops what it staged; a write with a wrong PEC is discarded
and counted, a code that R431 does not list is not acknowledged, and a WRITE out of order makes the COMMIT answer SEQUENCE. That an ABORT
answers SEQUENCE only where it ended something (log 38), the SMBus framing, and that COMMIT keeps the staged bytes (log 39) are the
model's reading. -/
def Obligations.CanAndSmbusTransactions : Prop :=
  (∀ (f : CanFrame) (v : Bytes) (q : CanRequest) (s : State), q = canRequestOf f.data → s.canSends = true → s.canPlace f = some 0 →
    canTaken f = true → q.op = 1 → s.paths.serving = true → q.seg = 0 →
    s.dictRead .can q.index q.sub = .ok v →
    exec (.canRead false f) s = .next ((s.setCan false { latch := some ⟨q.tag, q.index, q.sub, v, s.now⟩ }).emit
      (.can (s.reg Regs.dictCanBase + 1) (canFrame 0 0 ([BitVec.ofNat 8 q.op, BitVec.ofNat 8 q.tag] ++ toLe 2 q.index
        ++ [BitVec.ofNat 8 q.sub, BitVec.ofNat 8 0] ++ toLe 2 q.seg ++ toLe 4 v.length ++ padTo 44 (v.take 44)))))) ∧
  (∀ (f : CanFrame) (q : CanRequest) (o : Obj) (k : Nat) (s : State), q = canRequestOf f.data → s.canSends = true →
    s.canPlace f = some 0 → canTaken f = true → q.op = 2 → s.paths.serving = true → q.seg = 0 →
    s.dictAccess .can q.index q.sub = .ok (o, k) → o.badLength q.total = false → q.total ≤ 44 →
    exec (.canWrite false f) s = .next ((s.canCommit false q (q.data.take q.total)).canOrdered s)) ∧
  (∀ (f : CanFrame) (q : CanRequest) (s : State), q = canRequestOf f.data → s.canSends = true → s.canPlace f = some 0 →
    canTaken f = true → q.op = 3 → s.paths.serving = true →
    exec (.canAbort false f) s = .next ((s.setCan false {}).canAnswer false (s.reg Regs.dictCanBase) q
      (if s.canLive s.paths.canOrdinary then 9 else 0) 0 [])) ∧
  (∀ (b : Bool) (f : CanFrame) (s : State), s.canSends = true → (s.canPlace f).isSome = true → canTaken f = false →
    exec (.canRead b f) s = .next (s.bump Regs.dictCanFramesBad) ∧ exec (.canWrite b f) s = .next (s.bump Regs.dictCanFramesBad) ∧
    exec (.canAbort b f) s = .next (s.bump Regs.dictCanFramesBad)) ∧
  (∀ (b : Bool) (f : CanFrame) (s : State), s.canPlace f = none →
    exec (.canRead b f) s = .next s ∧ exec (.canWrite b f) s = .next s ∧ exec (.canAbort b f) s = .next s) ∧
  (∀ (f : CanFrame) (q : CanRequest) (s : State), q = canRequestOf f.data → s.canSends = true → s.canPlace f = some 2 →
    canTaken f = true → ofLe (slice f.data 60 4) ≠ crc32c (toLe 4 (s.reg Regs.dictCanDataId) ++ f.data.take 60) →
    (q.op = 1 → exec (.canRead true f) s = .next ((s.bump Regs.dictCanFramesBad).canAnswer true (s.reg Regs.dictCanBase) q 11 0 [])) ∧
    (q.op = 2 → exec (.canWrite true f) s = .next ((s.bump Regs.dictCanFramesBad).canAnswer true (s.reg Regs.dictCanBase) q 11 0 [])) ∧
    (q.op = 3 → exec (.canAbort true f) s = .next ((s.bump Regs.dictCanFramesBad).canAnswer true (s.reg Regs.dictCanBase) q 11 0 []))) ∧
  (∀ (b : Bool) (s : State), s.canLive (s.canChannel b) = false →
    exec (.canTransferTimeout b) s = .next (s.setCan b {})) ∧
  (∀ (b : Bool) (s : State), s.canLive (s.canChannel b) = true → exec (.canTransferTimeout b) s = .next s) ∧
  (∀ (data : Bytes) (s : State), s.pins.io33 = true → s.paths.serving = true → data.length = 7 →
    s.dictReach .smbus (bits (ofLe data) 15 0) (bits (ofLe data) 23 16) = .ok () →
    exec (.smbSelect 0x10 true data) s = .next (s.setSmbus
      ⟨some (bits (ofLe data) 15 0, bits (ofLe data) 23 16), bits (ofLe data) 55 24, [], none, 0, 0, false⟩)) ∧
  (∀ (index sub : Nat) (v : Bytes) (s : State), s.pins.io33 = true → s.paths.serving = true →
    s.paths.smbus.selected = some (index, sub) → s.dictReach .smbus index sub = .ok () → s.paths.smbus.offset = 0 →
    v = s.readValue .smbus index sub → v.length ≤ 240 →
    exec (.smbRead 0x11) s = .next ((s.setSmbus { s.paths.smbus with latch := some v, offset := v.length }).smbAnswer 0x11
      ([0] ++ toLe 4 0 ++ toLe 4 v.length ++ v))) ∧
  (∀ (data : Bytes) (s : State), s.pins.io33 = true → s.paths.serving = true → 0 < data.length → data.length ≤ 240 →
    s.paths.smbus.offset = s.paths.smbus.staged.length →
    exec (.smbWrite true data) s = .next (s.setSmbus { s.paths.smbus with
      staged := s.paths.smbus.staged ++ data, offset := s.paths.smbus.offset + data.length })) ∧
  (∀ (data : Bytes) (s : State), s.pins.io33 = true → s.paths.serving = true → 0 < data.length → data.length ≤ 240 →
    s.paths.smbus.offset ≠ s.paths.smbus.staged.length →
    exec (.smbWrite true data) s = .next (s.setSmbus { s.paths.smbus with broken := true })) ∧
  (∀ s : State, s.pins.io33 = true → s.paths.serving = true → s.paths.smbus.broken = true ∨ s.paths.smbus.selected = none →
    exec (.smbCommit true) s = .next (s.setSmbus { s.paths.smbus with status := 9, detail := 0 })) ∧
  (∀ (code : Fin 256) (b : Bool) (data : Bytes) (s : State), s.pins.io33 = true → code.val < 0x10 ∨ 0x15 < code.val →
    exec (.smbSelect code b data) s = .next (s.emit .nack) ∧ exec (.smbRead code) s = .next (s.emit .nack)) ∧
  (∀ (index sub : Nat) (t : State) (r : Reply) (s : State), s.pins.io33 = true → s.paths.serving = true →
    s.paths.smbus.broken = false → s.paths.smbus.selected = some (index, sub) → s.commitWrite .smbus index sub s.paths.smbus.staged = (t, r) →
    exec (.smbCommit true) s = .next (t.setSmbus { t.paths.smbus with status := r.status, detail := r.detail })) ∧
  (∀ s : State, s.pins.io33 = true → s.paths.serving = true →
    exec .smbResult s = .next (s.smbAnswer 0x14 ([BitVec.ofNat 8 s.paths.smbus.status] ++ toLe 4 s.paths.smbus.detail)) ∧
    exec (.smbAbort true) s = .next (s.setSmbus { s.paths.smbus with staged := [], latch := none, broken := false }) ∧
    exec .smbTimeout s = .next (s.bump Regs.dictSmbTimeouts)) ∧
  (∀ (data : Bytes) (s : State), s.pins.io33 = true → s.paths.serving = true →
    exec (.smbSelect 0x10 false data) s = .next (s.bump Regs.dictSmbPecErrors) ∧
    exec (.smbWrite false data) s = .next (s.bump Regs.dictSmbPecErrors) ∧
    exec (.smbCommit false) s = .next (s.bump Regs.dictSmbPecErrors) ∧
    exec (.smbAbort false) s = .next (s.bump Regs.dictSmbPecErrors))

/-! ### The Sundial (chapter 2) -/

/-- R44, R49, R50, R53, R56, R57, R64: the source of a time domain and the active time domain. Arming an alarm by its owner, at a target
that is still ahead or already past; emptying a launch queue and a transmit queue. -/
def Obligations.SundialWrites : Prop :=
  (∀ (p : Path) (b : Bool) (v : Nat) (x : Bytes) (s : State), s.offered p (0x2201 + domIx b) 1 (toLe 1 v) = some x →
    (ofLe x = 1 → s.reg Regs.ppsInOwner = s.writer p) →
    exec (.tdSourceWrite p b v) s = .next ((s.setSource b (ofLe x)).accepted p) ∧
    (s.setSource b (ofLe x)).reg (Regs.tdSource (domIx b)) = ofLe x) ∧
  (∀ (p : Path) (v : Nat) (x : Bytes) (s : State), s.offered p 0x2200 2 (toLe 1 v) = some x →
    (s.dom (decide (ofLe x = 1))).servo = .locked → s.sundial.residual = 0 → s.sundial.active ≠ decide (ofLe x = 1) →
    s.switchNear (decide (ofLe x = 1)) = true →
    exec (.timeActiveDomainWrite p v) s =
      .next ((s.activate (decide (ofLe x = 1)) (s.switchDiff (decide (ofLe x = 1)))).accepted p) ∧
    (s.activate (decide (ofLe x = 1)) (s.switchDiff (decide (ofLe x = 1)))).outTime = s.outTime) ∧
  (∀ (p : Path) (v : Nat) (x : Bytes) (s : State), s.offered p 0x2200 6 (toLe 1 v) = some x →
    (s.dom (decide (ofLe x = 1))).servo ≠ .freeRun →
    exec (.timeForceSwitch p v) s = .next (((s.activate (decide (ofLe x = 1)) 0).stepped s.outTime).accepted p)) ∧
  (∀ (p : Path) (a : Fin 8) (v : Nat) (x : Bytes) (s t : State), s.offered p (0x2210 + a.val) 6 (toLe 1 v) = some x → ofLe x = 1 →
    s.reg (Regs.alarmOwner a.val) = s.writer p → s.reg (Regs.alarmOwner a.val) ≠ 0 → s.reg (Regs.alarmArm a.val) = 0 →
    t = { s.setReg (Regs.alarmArm a.val) 1 with sundial := { s.sundial with alarmNext := kset s.sundial.alarmNext a.val 0 } } →
    exec (.alarmArm p a v) s = .next ((if t.alarmTime a.val < t.outTime >>> 24 then t.alarmFires a.val true true else t).accepted p)) ∧
  (∀ (p : Path) (q : Fin 16) (v : Nat) (x : Bytes) (s : State), s.offered p (0x2220 + q.val) 7 (toLe 1 v) = some x → ofLe x = 1 →
    s.reg (Regs.lqOwner q.val) = s.writer p → s.reg (Regs.lqOwner q.val) ≠ 0 →
    exec (.lqFlush p q v) s = .next ((s.flushQueue (56 + q.val)).accepted p)) ∧
  (∀ (p : Path) (port : Fin 4) (v : Nat) (x : Bytes) (s : State), s.offered p (0x2338 + port.val) 0x0D (toLe 1 v) = some x → ofLe x = 1 →
    exec (.ethTxFlush p port v) s = .next ((s.flushQueue (52 + port.val)).accepted p))

/-- R36, R37, R38, R40, R43, R45: the broadcast of the time line at each launch tick, what a time tap takes from it, its branch delay
removed, a tap's silence and the delay lines. A time domain without Sync goes to HOLDOVER, the residual of a switch ends at 0, and
STEPPED ends after 1 s. The numbering of the taps and the TYPE of a silent tap's entry (log 17) and the time of the first launch tick
(log 69) are the model's choices. -/
def Obligations.BroadcastHoldoverAndSlew : Prop :=
  (∀ s : State, s.pdOn 1 = true → s.sundial.running = true → (∀ l, s.sundial.launchedAt = some l → l + 128 ≤ s.now) →
    exec .timeMessage s = .next { s with
      sundial := { s.sundial with message := s.timeMsg, messageSeq := (s.sundial.messageSeq + 1) % 256, launchedAt := some s.now } }) ∧
  (∀ (tap : Fin 24) (errors launch msg : Nat) (s : State), s.sundial.launchedAt = some launch → s.tapHears tap.val launch = true →
    msg = s.sundial.message ^^^ errors → crc16 (toLe 22 msg) = bits msg 191 176 →
    (∀ q, (s.tap tap.val).seq = some q → msg % 256 = (q + 1) % 256) →
    ∃ t, exec (.tapMessage tap errors) s = .next t ∧ (t.tap tap.val).seq = some (msg % 256) ∧
      (t.tap tap.val).base = (bits msg 71 8 * 1000000000 + bits msg 101 72) <<< 40 + bits msg 117 102 <<< 24 + (s.tap tap.val).delay * 2 ^ 37 ∧
      (t.tap tap.val).edge = launch * 8 + (s.tap tap.val).delay ∧ (t.tap tap.val).rate = toSigned 32 (bits msg 167 136) ∧
      (t.tap tap.val).flags = bits msg 135 118 ∧ (t.tap tap.val).takenAt = some s.now ∧ (t.tap tap.val).silent = false ∧
      (∀ k, k ≠ tap.val → t.tap k = s.tap k) ∧ t.regs = s.regs ∧ t.mem = s.mem) ∧
  (∀ (tap : Fin 24) (errors launch : Nat) (s : State), s.sundial.launchedAt = some launch → s.tapHears tap.val launch = true →
    crc16 (toLe 22 (s.sundial.message ^^^ errors)) ≠ bits (s.sundial.message ^^^ errors) 191 176 →
    ∃ t, exec (.tapMessage tap errors) s = .next t ∧
      t = (s.bump Regs.timeTapErrors).setTap tap.val { s.tap tap.val with seq := none, heard := some launch } ∧
      ∀ fine, t.tapTime tap.val fine = s.tapTime tap.val fine) ∧
  (∀ (tap : Fin 24) (s : State), s.pdOn (tapDomain tap.val) = true → s.tapQuiet tap.val = true → (s.tap tap.val).silent = false →
    exec (.tapSilence tap) s = .next (((s.draw).2.setTap tap.val { s.tap tap.val with silent := true }).logs
      { severity := .contained, source := 12, kind := (s.draw).1 % 256 })) ∧
  (∀ s : State, s.pdOn 1 = true → (∀ l, s.sundial.delayLines = some l → l + 1000000 ≤ s.now) →
    exec .delayLineRecalibration s = .next { s with sundial := { s.sundial with delayLines := some s.now } }) ∧
  (∀ (b : Bool) (s : State), (∀ t, (s.dom b).lastSync = some t → t + s.receiptTimeout b ≤ s.now) →
    (s.dom b).servo = .locked ∨ (s.dom b).servo = .acquiring →
    exec (.syncReceiptTimeout b) s = .next ((s.bump (Regs.tdSyncTimeouts (domIx b))).enterHoldover b) ∧
    (((s.bump (Regs.tdSyncTimeouts (domIx b))).enterHoldover b).dom b).servo = .holdover ∧
    (((s.bump (Regs.tdSyncTimeouts (domIx b))).enterHoldover b).dom b).counter = (s.dom b).counter) ∧
  (∀ s : State, s.sundial.residual.natAbs ≤ s.slewStep →
    exec .slewComplete s = .next { s with sundial := { s.sundial with residual := 0 } }) ∧
  (∀ (t : Nat) (s : State), s.sundial.steppedAt = some t → t + 1000000000 ≤ s.now →
    exec .steppedExpiry s = .next { s with sundial := { s.sundial with steppedAt := none } })

/-- R39, R40, R41: a two-step Sync waits for its Follow_Up, which feeds the servo the offset of the Sync's stamp; a one-step Sync feeds
it at once; and Announce and Signaling messages do not touch the servo. The path delay is asked for, answered to others, and taken
from the four times of one exchange as half of what the two directions took. The layout of the Pdelay frames and a neighbour rate ratio
of 1 are the model's (log 19). -/
def Obligations.SyncAndPathDelay : Prop :=
  (∀ (n : Fin 256) (b : Bool) (port : Fin 4) (seq : Nat) (origin : Int) (fine : Fin 16) (s : State), s.domainOf n.val = some b →
    s.hearsSync b port.val = true →
    ∃ t, exec (.syncReceived n port seq true origin fine) s = .next t ∧ (t.dom b).counter = (s.dom b).counter ∧
      (t.dom b).servo = (s.dom b).servo ∧
      (t.dom b).pendingSync = some { port := port.val, seq := seq, stamp := s.rxStamp b port.val fine.val } ∧
      t.dom (!b) = s.dom (!b) ∧ t.regs = s.regs ∧ t.mem = s.mem) ∧
  (∀ (n : Fin 256) (b : Bool) (port : Fin 4) (seq : Nat) (origin dl : Int) (fine : Fin 16) (s : State), s.domainOf n.val = some b →
    s.hearsSync b port.val = true → (s.gptpLink port.val).delay = some dl →
    exec (.syncReceived n port seq false origin fine) s = .next (s.feed b (origin + dl - s.rxStamp b port.val fine.val))) ∧
  (∀ (n : Fin 256) (port : Fin 4) (seq : Nat) (two : Bool) (origin : Int) (fine : Fin 16) (s : State),
    (∀ b, s.reg (Regs.tdGptpDomain (domIx b)) ≠ n.val) →
    exec (.syncReceived n port seq two origin fine) s = .next s) ∧
  (∀ (n : Fin 256) (b : Bool) (port : Fin 4) (seq : Nat) (origin dl stamp : Int) (s : State), s.domainOf n.val = some b →
    s.hearsSync b port.val = true →
    (s.dom b).pendingSync = some { port := port.val, seq := seq, stamp := stamp } → (s.gptpLink port.val).delay = some dl →
    exec (.followUpReceived n port seq origin) s = .next (s.feed b (origin + dl - stamp))) ∧
  (∀ (port : Fin 4) (msg : Bytes) (s : State), s.portEnabled port.val = true →
    exec (.announceReceived port msg) s = .next (s.setLink port.val { s.gptpLink port.val with announce := msg })) ∧
  (∀ (port : Fin 4) (s : State), exec (.signalingReceived port) s = .next s) ∧
  (∀ (port : Fin 4) (s : State), s.portEnabled port.val = true →
    (∀ l, (s.gptpLink port.val).askedAt = some l → l + s.pdelayInterval ≤ s.now) →
    ∃ t, exec (.pdelayReqTimer port) s = .next t ∧
      (t.gptpLink port.val).reqSeq = ((s.gptpLink port.val).reqSeq + 1) % 65536 ∧ (t.gptpLink port.val).askedAt = some s.now ∧
      kget t.sundial.gptpq port.val [] = kget s.sundial.gptpq port.val [] ++ [{
        time := 0, stamped := false, kind := .pdelayReq,
        data := s.gptpFrame port.val 2 (((s.gptpLink port.val).reqSeq + 1) % 65536) 0 0 (List.replicate 20 0) }] ∧
      t.regs = s.regs ∧ t.mem = s.mem ∧ t.out = s.out) ∧
  (∀ (p : Nat) (f : LaunchFrame) (s : State), f.kind = .pdelayReq →
    ∃ fine, fine < 16 ∧ ((s.startFrame p f).gptpLink p).sentAt = some ((s.local16 fine : Int) + s.reg (Regs.ethTxLat p) * 8192)) ∧
  (∀ (port : Fin 4) (seq : Nat) (who : Bytes) (fine : Fin 16) (t2 : Nat) (s : State), s.portEnabled port.val = true →
    t2 = t128Time (s.stampAt (tapEth port.val) fine.val (-(s.reg (Regs.ethRxLat port.val) : Int))) →
    exec (.pdelayReqReceived port seq who fine) s = .next (s.queueGptp port.val {
      time := 0, stamped := false, kind := .pdelayResp seq (padTo 10 who),
      data := s.gptpFrame port.val 3 seq 0x0200 (t2 % 65536) (ptpStamp t2 ++ padTo 10 who) })) ∧
  (∀ (port : Fin 4) (t1 t2 : Int) (fine : Fin 16) (s : State), s.portEnabled port.val = true →
    (s.gptpLink port.val).sentAt = some t1 →
    exec (.pdelayRespReceived port (s.gptpLink port.val).reqSeq false t2 fine) s =
      .next (s.setLink port.val { s.gptpLink port.val with
        t2 := some t2, t4 := some ((s.local16 fine.val : Int) - s.reg (Regs.ethRxLat port.val) * 8192) })) ∧
  (∀ (port : Fin 4) (t1 t2 t3 t4 : Int) (fine : Fin 16) (s : State), s.portEnabled port.val = true →
    (s.gptpLink port.val).sentAt = some t1 → (s.gptpLink port.val).t2 = some t2 → (s.gptpLink port.val).t4 = some t4 →
    ∃ t, exec (.pdelayRespReceived port (s.gptpLink port.val).reqSeq true t3 fine) s = .next t ∧
      (t.gptpLink port.val).delay = some (((t4 - t1) - (t3 - t2)) / 2) ∧ t.regs = s.regs ∧ t.mem = s.mem)

/-- R48, R49, R51, R52, R53, R54, R55: alarms, trigger pulses and PPS pulses at their times, each edge placed in its tick to the nearest
ns, and PPS_IN edges. The frame at the head of a launch queue leaves once its launch time is reached, at its own MAC, or is dropped past
LQ_LATE_LIMIT. The placing in the tick, LQ_SENT counting late frames too and the bound of 3.2 ns are the model's reading (log 36). -/
def Obligations.AlarmsTriggersPpsAndLaunches : Prop :=
  (∀ (a : Fin 8) (s : State), s.pdOn 1 = true → s.sundial.running = true → s.flag (Regs.alarmArm a.val) = true →
    s.alarmTime a.val ≤ s.outTime >>> 24 →
    exec (.alarmFire a) s = .next (s.alarmFires a.val false false)) ∧
  (∀ (edge ns : Nat) (s : State), s.edgeInTick edge = some ns →
    ns ≤ 2 ∧ edge * 2 ^ 24 < s.outTime + ns * 2 ^ 40 + 2 ^ 39 ∧ s.outTime + ns * 2 ^ 40 ≤ edge * 2 ^ 24 + 2 ^ 39) ∧
  (∀ (k : Fin 4) (ns : Nat) (s : State), s.pdOn 1 = true → s.sundial.running = true → s.flag (Regs.trigEnable k.val) = true →
    s.trigLeft k.val = true → s.edgeInTick (s.trigEdge k.val) = some ns → s.trigActive k.val = false →
    ∃ t, exec (.triggerPulse k) s = .next t ∧
      kfind t.sundial.trigPulse k.val = some (s.now, s.now + ns + s.reg (Regs.trigWidth k.val)) ∧
      kget t.sundial.trigNext k.val 0 = kget s.sundial.trigNext k.val 0 + 1 ∧
      t.regs = (s.bump (Regs.trigPulses k.val)).regs ∧ t.mem = s.mem ∧
      t.out = (if kget s.pins.tpinActive k.val 0 = 1 then [.trig k.val (!s.flag (Regs.trigPolarity k.val)) ns] else []) ++ s.out) ∧
  (∀ (k : Fin 4) (b e : Nat) (s : State), kfind s.sundial.trigPulse k.val = some (b, e) → e < s.now + 2 →
    kfind s.pins.tpinNext k.val = none →
    exec (.triggerPulseEnd k) s =
      .next ({ s with sundial := { s.sundial with trigPulse := kdel s.sundial.trigPulse k.val } }.driveTrig k.val (e - s.now))) ∧
  (∀ (k : Fin 2) (ns : Nat) (s : State), s.pdOn 1 = true → s.sundial.running = true → s.flag (Regs.ppsOutEnable k.val) = true →
    kget s.sundial.ppsSecond k.val 0 < s.nearSecond → s.edgeInTick (s.nearSecond * 1000000000 * 65536) = some ns →
    s.reg (Regs.ppsOutGating k.val) ≠ 1 ∨ s.activeDom.servo = .locked →
    ∃ t, exec (.ppsOutPulse k) s = .next t ∧
      kfind t.sundial.ppsPulse k.val = some (s.now + ns + s.reg (Regs.ppsOutWidth k.val) * 1000) ∧
      kget t.sundial.ppsSecond k.val 0 = s.nearSecond ∧ t.regs = s.regs ∧ t.mem = s.mem ∧
      t.out = .pps k.val true ns :: s.out) ∧
  (∀ (k : Fin 2) (s : State), s.edgeInTick (s.nearSecond * 1000000000 * 65536) = none → exec (.ppsOutPulse k) s = .next s) ∧
  (∀ (k : Fin 2) (e : Nat) (s : State), kfind s.sundial.ppsPulse k.val = some e → e < s.now + 2 →
    exec (.ppsOutPulseEnd k) s =
      .next ({ s with sundial := { s.sundial with ppsPulse := kdel s.sundial.ppsPulse k.val } }.emit (.pps k.val false (e - s.now)))) ∧
  (∀ (rising : Bool) (fine : Fin 16) (s : State), s.pdOn 1 = true → s.sundial.running = true → rising ≠ s.flag Regs.ppsInPolarity →
    (∀ t, s.sundial.ppsAccepted = some t → t + 999000000 ≤ s.now ∧ s.now ≤ t + 1001000000) →
    s.reg (Regs.tdSource 0) ≠ 1 → s.reg (Regs.tdSource 1) ≠ 1 →
    exec (.ppsInEdge rising fine) s = .next { (s.setReg Regs.ppsInLast (s.stampAt tapPins fine.val 0)).bump Regs.ppsInEdges with
      sundial := { s.sundial with ppsAccepted := some s.now } }) ∧
  (∀ (rising : Bool) (fine : Fin 16) (s : State), rising = s.flag Regs.ppsInPolarity → exec (.ppsInEdge rising fine) s = .next s) ∧
  (∀ (q : Fin 16) (f : LaunchFrame) (rest : List LaunchFrame) (s t : State), s.launchQ q.val = f :: rest →
    s.timeCome (q.val / 4) f.time = true →
    s.launchStamp (q.val / 4) - f.time ≤ s.reg (Regs.lqLateLimit q.val) * 65536 → s.macFree (q.val / 4) = true →
    (∀ i, i < q.val % 4 → s.launchDue (4 * (q.val / 4) + i) = false) →
    t = ((s.setLaunchQ q.val rest).startFrame (q.val / 4) f).bump (Regs.lqSent q.val) →
    exec (.launchRelease q) s = .next (t.bumpIf
      (decide (32 * 65536 < 10 * (t.wireStamp (q.val / 4) - f.time))) (Regs.lqLateSent q.val))) ∧
  (∀ (q : Fin 16) (f : LaunchFrame) (rest : List LaunchFrame) (s : State), s.launchQ q.val = f :: rest →
    f.time + s.reg (Regs.lqLateLimit q.val) * 65536 < s.launchStamp (q.val / 4) →
    exec (.launchRelease q) s = .next ((s.setLaunchQ q.val rest).bump (Regs.lqLateDrop q.val))) ∧
  (∀ (q : Fin 16) (f : LaunchFrame) (rest : List LaunchFrame) (s : State), s.launchQ q.val = f :: rest →
    s.timeCome (q.val / 4) f.time = false → exec (.launchRelease q) s = .next s)

/-- R59, R60, R62: the sleep correction learns an eighth of each window's error, time is saved as power domain 1 goes off, and rebuilt
from the sleep count at wake. -/
def Obligations.TimeAcrossSleep : Prop :=
  (∀ (t0 n0 span : Nat) (measured : Int) (s : State), s.pdOn 1 = true → s.sundial.running = true → s.activeDom.servo = .locked →
    s.sundial.window = some (t0, n0) → t0 + 64000000000 * 2 ^ 40 ≤ s.outTime → span = s.outTime - t0 →
    measured = roundDivEven (((s.sleepCount - n0 : Nat) : Int) * (1000000000 * 2 ^ 40) * 1000000000 - 32768 * span * 1000000000)
      (32768 * span) →
    ∃ t, exec .sleepCorrWindow s = .next t ∧ t.regs =
      ((s.setReg Regs.sleepCorr (ofSigned 32 (roundDivEven (7 * s.sreg 32 Regs.sleepCorr + measured) 8))).setReg Regs.sleepCorrValid 1).regs ∧
      t.sundial.window = some (s.outTime, s.sleepCount) ∧ t.mem = s.mem ∧ t.out = s.out) ∧
  (∀ s : State, s.activeDom.servo ≠ .locked → exec .sleepCorrWindow s = .next s) ∧
  (∀ s : State, s.sundial.running = true → (s.pd 1).target = some .off → (s.pd 1).begun = true →
    ∃ t v, exec .timeSave s = .next t ∧ t.sundial.saved = some v ∧ v.t0 = s.out16 ∧ v.n0 = s.sleepCount ∧
      t.sundial.running = false ∧ t.sundial.residual = 0 ∧ t.reg Regs.sleepEntryCount = s.sleepCount ∧
      t.reg Regs.sleepEntryTime = s.timeNow ∧ t.mem = s.mem ∧ t.disp = s.disp) ∧
  (∀ (v : SavedTime) (s : State), s.sundial.saved = some v → s.sundial.running = false → s.pdOn 1 = true →
    ∃ t, exec .timeReconstruct s = .next t ∧ t.reg Regs.sleepWakeCount = s.sleepCount ∧ t.sundial.running = true ∧
      t.sundial.residual = 0 ∧ (t.dom false).counter = (coasting s.sundial.domA (rebuilt v s.sleepCount) none s.now).counter ∧
      (t.dom true).counter = (coasting s.sundial.domB (rebuilt v s.sleepCount) none s.now).counter ∧
      t.mem = s.mem)

/-! ### The Lodge and the Pergola (chapters 3 and 4) -/

/-- R72, R84, R105, R111, R124, R140: a stream is enabled and stopped, flushed, and a template is loaded. While no work order in flight
depends on them, a write of POSE_SOURCE empties the pose ring and a write of PG_SEED restarts both generators. That SEQ goes on across
enables is the model's reading (logs 58 and 70). -/
def Obligations.LodgeAndPergolaWrites : Prop :=
  (∀ (p : Path) (q : Fin 48) (v : Nat) (x : Bytes) (s : State), s.offered p (0x2300 + q.val) 1 (toLe 1 v) = some x → ofLe x = 1 →
    (s.pergolaStream q.val).flag (ingestEnable q.val) = false → (s.pergolaStream q.val).enableCheck q.val = none →
    exec (.streamEnable p q v) s = .next ((((s.pergolaStream q.val).setIngest q.val
      { seq := ((s.pergolaStream q.val).ingest q.val).seq, live := !(s.pergolaStream q.val).shift.closed }).setReg
        (ingestEnable q.val) 1).accepted p)) ∧
  (∀ (p : Path) (q : Fin 48) (v : Nat) (x : Bytes) (s t : State), s.offered p (0x2300 + q.val) 1 (toLe 1 v) = some x → ofLe x = 0 →
    t = (s.pergolaStream q.val).flushQueue q.val →
    exec (.streamEnable p q v) s = .next (((t.setIngest q.val { t.ingest q.val with live := false }).setReg (ingestEnable q.val) 0).accepted p)) ∧
  (∀ (p : Path) (q : Fin 48) (v : Nat) (x : Bytes) (s : State), s.offered p (0x2300 + q.val) 6 (toLe 1 v) = some x → ofLe x = 1 →
    exec (.streamFlush p q v) s = .next ((s.flushQueue q.val).accepted p)) ∧
  (∀ (p : Path) (t : Fin 8) (data : Bytes) (x : Bytes) (s : State), s.offered p (0x2340 + t.val) 1 data = some x →
    (List.range 12).any (fun k => s.flag (Regs.streamEnable (24 + k)) && decide (s.reg (Regs.scnTemplate k) = t.val)) = false →
    exec (.templateWrite p t data) s = .next (((s.setBlob (Blobs.tplData t.val) x).setReg (Regs.tplValid t.val)
      (if (parseTemplate x).valid then 1 else 0)).accepted p)) ∧
  (∀ (p : Path) (v : Nat) (x : Bytes) (s : State), s.offered p 0x2403 1 (toLe 1 v) = some x → s.pergolaUser 0x2403 1 = none →
    ∃ t, exec (.poseSourceWrite p v) s = .next t ∧ t = (s.emptyPoses.setReg Regs.poseSource (ofLe x)).accepted p ∧
      t.pergola.poseCount = 0 ∧ t.reg Regs.poseSource = ofLe x ∧ t.mem = s.mem ∧ t.disp = s.disp) ∧
  (∀ (p : Path) (v : Nat) (x : Bytes) (s : State), s.offered p 0x2400 4 (toLe 8 v) = some x → s.pergolaUser 0x2400 4 = none →
    exec (.pgSeedWrite p v) s = .next ({ s.setReg Regs.pgSeed (ofLe x) with
      pergola := { s.pergola with gens := [(0, ofLe x), (1, ofLe x)] } }.accepted p))

/-- R75, R76, R77, R78, R79: a camera frame opens at FS and takes a slot, a line is stored at its place, line starts and ends mark the
frame (R80), and FE or 100 ms of silence closes it. Packets that no stream takes are counted, packets with two header errors are dropped,
and a port is deskewed once. That an FE closes the frame whatever its number is the model's reading (log 22). -/
def Obligations.CameraFramesAreCut : Prop :=
  (∀ (port : Fin 6) (vc : Fin 16) (e : Fin 3) (frame : Nat) (fine : Fin 16) (s t : State), s.pdOn 40 = true → e.val ≠ 2 →
    t = s.bumpIf (decide (e.val = 1)) (Regs.csiEccCorrected port.val) → t.cameras port.val vc.val ≠ [] →
    exec (.csiFrameStart port vc e frame fine) s = .next ((t.cameras port.val vc.val).foldl
      (fun u q => u.openFrame q frame (s.csiStamp port.val fine.val)) t)) ∧
  (∀ (port : Fin 6) (vc : Fin 16) (dt q : Nat) (e : Fin 3) (good : Bool) (data : Bytes) (f : Frame) (s t u : State),
    s.pdOn 40 = true → e.val ≠ 2 → t = s.bumpIf (decide (e.val = 1)) (Regs.csiEccCorrected port.val) →
    t.camera port.val vc.val dt = some q → u = (t.bumpIf (!good) (Regs.csiCrcErrors port.val)).fifoDrains q →
    (s.ingest q).frame = some f →
    exec (.csiLine port vc dt e good data) s =
      .next (if u.fifoFull q then u.cutShort q else (u.storeLine q f good data).fifoTakes q data.length)) ∧
  (∀ (port : Fin 6) (vc : Fin 16) (e : Fin 3) (line : Nat) (fine : Fin 16) (s t : State), s.pdOn 40 = true → e.val ≠ 2 →
    t = s.bumpIf (decide (e.val = 1)) (Regs.csiEccCorrected port.val) → t.cameras port.val vc.val ≠ [] →
    exec (.csiLineStart port vc e line fine) s = .next ((t.cameras port.val vc.val).foldl
      (fun u q => u.lineStart q line (s.csiStamp port.val fine.val)) t)) ∧
  (∀ (port : Fin 6) (vc : Fin 16) (e : Fin 3) (line : Nat) (s t : State), s.pdOn 40 = true → e.val ≠ 2 →
    t = s.bumpIf (decide (e.val = 1)) (Regs.csiEccCorrected port.val) → t.cameras port.val vc.val ≠ [] →
    exec (.csiLineEnd port vc e line) s = .next ((t.cameras port.val vc.val).foldl (fun u q => u.lineEnd q line) t)) ∧
  (∀ (port : Fin 6) (vc : Fin 16) (e : Fin 3) (frame : Nat) (fine : Fin 16) (s t : State), s.pdOn 40 = true → e.val ≠ 2 →
    t = s.bumpIf (decide (e.val = 1)) (Regs.csiEccCorrected port.val) →
    (t.cameras port.val vc.val).filter (fun q => (t.ingest q).frame.isSome) ≠ [] →
    exec (.csiFrameEnd port vc e frame fine) s = .next (((t.cameras port.val vc.val).filter (fun q => (t.ingest q).frame.isSome)).foldl
      (fun u q => u.closeFrame q (some (s.csiStamp port.val fine.val))) t)) ∧
  (∀ (q : Fin 24) (f : Frame) (s : State), (s.ingest q.val).frame = some f → f.lastAt + 100000000 ≤ s.now →
    exec (.csiFrameTimeout q) s = .next (s.closeFrame q.val none)) ∧
  (∀ (port : Fin 6) (e : Fin 3) (s : State), s.pdOn 40 = true → e.val ≠ 2 →
    exec (.csiGenericShort port e) s =
      .next ((s.bumpIf (decide (e.val = 1)) (Regs.csiEccCorrected port.val)).bump (Regs.csiUnmatched port.val))) ∧
  (∀ (port : Fin 6) (vc : Fin 16) (c : Instr) (s : State), s.pdOn 40 = true →
    (∃ n fine, c = .csiFrameStart port vc 2 n fine ∨ c = .csiFrameEnd port vc 2 n fine ∨ c = .csiLineStart port vc 2 n fine) ∨
      (∃ n, c = .csiLineEnd port vc 2 n) ∨ (∃ dt good data, c = .csiLine port vc dt 2 good data) ∨ c = .csiGenericShort port 2 →
    exec c s = .next (s.bump (Regs.csiEccErrors port.val))) ∧
  (∀ (port : Fin 6) (vc : Fin 16) (dt : Nat) (good : Bool) (data : Bytes) (s : State), s.pdOn 40 = true →
    s.camera port.val vc.val dt = none →
    exec (.csiLine port vc dt 0 good data) s = .next (s.bump (Regs.csiUnmatched port.val))) ∧
  (∀ (port : Fin 6) (s : State), s.pdOn 40 = true → 1500 < s.reg (Regs.csiRate port.val) → port.val ∉ s.lodge.deskewed →
    exec (.deskewCalibration port) s = .next { s with lodge := { s.lodge with deskewed := s.lodge.deskewed ++ [port.val] } })

/-- R69, R70, R81, R82, R83, R97, R98: an item becomes visible, oldest first, and a waiting pop is then served. Frames from the network:
counted and dropped, cut into a scanner's items, handed to the host's queue, and sent with their stamp. That frames which wait are dropped
as the link is lost is the model's choice (log 69). -/
def Obligations.ItemsAndEthernetFrames : Prop :=
  (∀ (q : Fin 52) (s : State), (s.ingest q.val).done ≠ [] →
    exec (.itemVisible q) s = .next (((s.makeVisible q.val).pergolaSees q.val).servePop q.val)) ∧
  (∀ (q : Nat) (it : IngestItem) (rest : List IngestItem) (s : State), (s.ingest q).done = it :: rest →
    ((s.makeVisible q).ingest q).items = (s.ingest q).items ++ [it] ∧ ((s.makeVisible q).ingest q).done = rest ∧
    (s.makeVisible q).mem = s.mem) ∧
  (∀ (port : Fin 4) (fine : Fin 16) (frame : Bytes) (s : State), s.pdOn 40 = true → s.flag (Regs.ethLinkUp port.val) = true →
    60 ≤ frame.length → frame.length ≤ 9212 →
    exec (.ethFrameReceived port false fine frame) s = .next (s.bump (Regs.ethFcsErrors port.val))) ∧
  (∀ (port : Fin 4) (fine : Fin 16) (frame : Bytes) (q : Nat) (u : Udp) (s : State), s.pdOn 40 = true →
    s.flag (Regs.ethLinkUp port.val) = true → 60 ≤ frame.length → frame.length ≤ 9212 → (etherOf frame).1 ≠ 0x88F7 →
    (etherOf frame).1 ≠ 0x8808 → carried frame ≠ .fragment → s.scanStream port.val frame = some (q, u) → u.good = true →
    s.ingestLive q = true →
    exec (.ethFrameReceived port true fine frame) s =
      .next (s.scanPacket q (s.stampAt (tapEth port.val) fine.val (-(s.reg (Regs.ethRxLat port.val) : Int))) u.payload)) ∧
  (∀ (port : Fin 4) (fine : Fin 16) (frame : Bytes) (s : State), s.pdOn 40 = true →
    s.flag (Regs.ethLinkUp port.val) = true → 60 ≤ frame.length → frame.length ≤ 9212 → (etherOf frame).1 ≠ 0x88F7 →
    (etherOf frame).1 ≠ 0x8808 → carried frame ≠ .fragment → s.scanStream port.val frame = none →
    exec (.ethFrameReceived port true fine frame) s =
      .next (s.hostReceive port.val (s.stampAt (tapEth port.val) fine.val (-(s.reg (Regs.ethRxLat port.val) : Int))) frame)) ∧
  (∀ (port : Fin 4) (rate : Fin 5) (s : State), rate.val ≠ 0 → s.pdOn 40 = true → s.reg (Regs.ethMode port.val) ≠ 1 ∨ rate.val = 1 →
    exec (.ethLinkChange port rate) s =
      .next ((s.setReg (Regs.ethRate port.val) rate.val).setReg (Regs.ethLinkUp port.val) 1)) ∧
  (∀ (port : Fin 4) (s : State),
    ∃ t, exec (.ethLinkChange port 0) s = .next t ∧ t.reg (Regs.ethRate port.val) = 0 ∧ t.reg (Regs.ethLinkUp port.val) = 0 ∧
      kget t.sundial.gptpq port.val [] = [] ∧ t.mem = s.mem ∧ t.out = s.out) ∧
  (∀ (port : Fin 4) (w : WireFrame) (s : State), kfind s.sundial.onWire port.val = some w → w.endsAt ≤ s.now →
    ∃ t, exec (.ethFrameSent port) s = .next t ∧ t.out = .eth port.val w.frame.data :: s.out ∧
      kfind t.sundial.onWire port.val = none ∧
      t.reg (Regs.ethTxLastStamp port.val) = (if w.frame.stamped then w.stamp else s.reg (Regs.ethTxLastStamp port.val)) ∧
      t.mem = s.mem) ∧
  (∀ (p : Nat) (f : LaunchFrame) (rest : List LaunchFrame) (s : State), kget s.sundial.gptpq p [] = [] →
    s.txFrames (52 + p) = f :: rest → s.macFree p = true → s.launchBefore p f.data.length = false →
    s.macStarts p = (s.setTxFrames (52 + p) rest).startFrame p f) ∧
  (∀ (p : Nat) (s : State), s.macFree p = false → s.macStarts p = s)

/-- R90, R91, R92, R93, R94, R96, R101: a data-ready edge starts an item with its stamp and sends the bytes of IMU_CMD, be the item taken
or discarded (R75), and a second edge before the read's end is counted; the read's end makes one item of 64 bytes. Frames on CAN FD
controller 1 become items of 128 bytes or are counted, and bus-off stops a controller until it recovers. That CAN_ERROR_FRAMES counts for
controller 1 only (log 58) and the SEQ of an inertial item (log 70) are the model's reading. -/
def Obligations.InertialAndCanItems : Prop :=
  (∀ (port : Fin 6) (rising : Bool) (fine : Fin 16) (k : Option Nat) (s s1 : State), s.pdOn 40 = true →
    rising ≠ s.flag (Regs.imuDrdyPol port.val) → kfind s.lodge.reading port.val = none →
    s.ingestLive (36 + port.val) = true → s.startItem (36 + port.val) = (s1, k) →
    ∃ t, exec (.drdyEdge port rising fine) s = .next t ∧ (t.ingest (36 + port.val)).taken = k ∧
      kfind t.lodge.reading port.val =
        some (s.stampAt (tapSpi port.val) fine.val (-(s.reg (Regs.spiDrdyLat port.val) : Int))) ∧
      t.out = .spi port.val (s1.blob (Blobs.imuCmd port.val) []) :: s1.out ∧ t.regs = s1.regs ∧ t.mem = s1.mem) ∧
  (∀ (port : Fin 6) (rising : Bool) (fine : Fin 16) (x : Nat) (s : State), s.pdOn 40 = true →
    rising ≠ s.flag (Regs.imuDrdyPol port.val) → kfind s.lodge.reading port.val = some x →
    exec (.drdyEdge port rising fine) s = .next (s.bump (Regs.imuDrdyOverruns port.val))) ∧
  (∀ (port : Fin 6) (rising : Bool) (fine : Fin 16) (s : State), rising = s.flag (Regs.imuDrdyPol port.val) →
    exec (.drdyEdge port rising fine) s = .next s) ∧
  (∀ (port : Fin 6) (data : Bytes) (stamp k : Nat) (s : State), kfind s.lodge.reading port.val = some stamp →
    (s.ingest (36 + port.val)).taken = some k →
    ∃ (t u : State) (item : Bytes), exec (.imuReadComplete port data) s = .next t ∧ t = u.fillItem (36 + port.val) k stamp item ∧
      item.length = 64 ∧ (u.ingest (36 + port.val)).seq = ((s.ingest (36 + port.val)).seq + 1) % 2 ^ 32 ∧
      (u.ingest (36 + port.val)).taken = none ∧
      kfind u.lodge.reading port.val = none ∧ u.mem = s.mem ∧ u.regs = s.regs) ∧
  (∀ (port : Fin 6) (data : Bytes) (stamp : Nat) (s : State), kfind s.lodge.reading port.val = some stamp →
    (s.ingest (36 + port.val)).taken = none →
    exec (.imuReadComplete port data) s = .next { s with lodge := { s.lodge with reading := kdel s.lodge.reading port.val } }) ∧
  (∀ (f : CanFrame) (s : State), s.pdOn 40 = true → s.pins.io33 = true → s.lodge.busOff = false → f.remote = false →
    s.canStream f = none →
    exec (.canFrameReceived f) s = .next (s.bump Regs.canUnmatched)) ∧
  (∀ (f : CanFrame) (j : Nat) (s : State), s.pdOn 40 = true → s.pins.io33 = true → s.lodge.busOff = false → f.remote = false →
    s.canStream f = some j →
    s.ingestLive (42 + j) = true →
    ∃ (t : State) (item : Bytes), exec (.canFrameReceived f) s = .next t ∧
      t = { s with freeIx := s.freeIx + 4 }.wholeItem (42 + j) (s.stampAt tapCan 0 (-(s.reg Regs.canSofLat : Int))) item ∧
      item.length = 128 ∧
      slice item 16 4 = toLe 4 (f.ident + (if f.ide then 2 ^ 29 else 0) + (if f.fdf then 2 ^ 30 else 0) + (if f.brs then 2 ^ 31 else 0))) ∧
  (∀ (f : CanFrame) (ctrl : Fin 2) (s : State), s.pins.io33 = false →
    exec (.canFrameReceived f) s = .next s ∧ exec (.canErrorFrame ctrl) s = .next s) ∧
  (∀ s : State, s.pdOn 40 = true → s.pins.io33 = true → exec (.canErrorFrame 1) s = .next (s.bump Regs.canErrorFrames)) ∧
  (∀ s : State, s.pdOn 40 = true →
    exec (.canBusOffEntry 1) s = .next ({ s with lodge := { s.lodge with busOff := true } }.bump Regs.canBusOff)) ∧
  (∀ s : State, exec (.canBusOffEntry 0) s = .next ({ s with paths := { s.paths with canBus0Off := true } }.bump Regs.dictCanBusOff)) ∧
  (∀ s : State, exec (.busOffRecovery 1) s = .next { s with lodge := { s.lodge with busOff := false } }) ∧
  (∀ s : State, exec (.busOffRecovery 0) s = .next { s with paths := { s.paths with canBus0Off := false } })

/-- R104, R105, R110, R112, R113, R116, R121, R127, R128, R129, R134, R135: the integrator's ticks, host poses, and the opening and closing
of an epoch. A closed epoch is written into its grids, and the neighbours, the dense view and the labels are written where their
destinations answer. That a pushed sample enters as injected is the model's reading (log 28). -/
def Obligations.PosesEpochsAndTables : Prop :=
  (∀ (k : Nat) (s : State), s.reg Regs.poseSource = 0 → s.pergolaWorks = true → s.sundial.running = true → s.tickDue = some k →
    ∃ t, exec .poseTick s = .next t ∧ t = s.integrate k ∧ t.pergola.lastTick = some k ∧
      t.pergola.poseCount = min 4096 (s.pergola.poseCount + 1) ∧ t.pergola.poseNext = (s.pergola.poseNext + 1) % 4096) ∧
  (∀ (i : Item) (s s1 : State) (w : Touched), s.mayRun ⟨.pergola, .output⟩ 0x40 checkPosePush i s1 () →
    w = s1.touch i .pergola [((i.field 103 64 : Nat), 64 * i.field 63 32)] → w.gone = none → w.entry = none →
    samplesOk ((w.s.poseSample 0).map sampleTime)
      ((List.range (i.field 63 32)).map (fun k => ofLe (w.s.peek (i.field 103 64 + 64 * k) 64))) = true →
    exec .pgPosePush s = .next ((((List.range (i.field 63 32)).map (fun k => ofLe (w.s.peek (i.field 103 64 + 64 * k) 64))).foldl
      (fun t x => t.pushPose (injected x)) w.s).setFinish i (finDone 0))) ∧
  (∀ (i : Item) (s s1 : State) (outs : List GridOut), s.mayRun ⟨.pergola, .table⟩ 0x41 checkBin i s1 outs → s.binOf i = false →
    exec .pgBin s = .next (s1.startBin i)) ∧
  (∀ (b : PgBin) (i : Item) (s : State), s.openBin = some (b, i) → s.mayClose b i = true →
    exec .epochClose s = .next (s.closeEpoch b i)) ∧
  (∀ (b : PgBin) (i : Item) (s : State), s.openBin = some (b, i) → s.mayClose b i = false → exec .epochClose s = .next s) ∧
  (∀ (b : PgBin) (i : Item) (c : PgClosed) (outs : List GridOut) (s s1 : State) (ms : List Moved) (noPose extrap : Nat)
      (used : List Nat) (w : Touched) (ws : List (GridOut × GridWork)) (s2 : State),
    s.pergola.bin = some b → s.ready ⟨.pergola, .table⟩ 0x41 = some i → s.binOf i = true → b.closed = some c →
    s.checkGrids i s.grids = (s1, .ok outs) → s1.moveAll b.te c.slices = (ms, noPose, extrap, used) →
    w = s1.touch i .pergola (used.map (fun k => ((poseSlot (s1.pergola.poseNext + 4096 - 1 - k) : Int), 64))) →
    (s2, ws) = outs.foldl (fun ((s, ws) : State × List (GridOut × GridWork)) o =>
      ((s.gridWork i o.grid b.te ms).s, ws ++ [(o, s.gridWork i o.grid b.te ms)])) (w.s, []) →
    b.bad = none → w.entry = none → (∀ x ∈ ws, x.2.bad = none) →
    exec .pgBinComplete s = .next (s2.finishBin i b c noPose extrap ws)) ∧
  (∀ (i : Item) (s s1 s2 : State) (d : Tensor) (w : Touched), s.mayRun ⟨.pergola, .table⟩ 0x42 checkNeighbours i s1 d →
    w = s1.touch i .pergola [((hashBase (i.field 64 64) : Int), 0x800000)] → w.gone = none → w.entry = none →
    w.s.landing i .pergola d.spans = (s2, none) →
    exec .pgNeighbours s = .next (((s2.pillarCells (i.field 64 64)).foldl (fun t (k, cx, cy) =>
      t.setRun .pergola d [k] 0 ((List.range 9).map (fun j =>
        ofSigned 32 (s2.pillarOf (i.field 64 64) ((cx : Int) + (j % 3 : Nat) - 1) ((cy : Int) + (j / 3 : Nat) - 1))))) s2).setFinish i (finDone 0))) ∧
  (∀ (i : Item) (s s1 s2 : State) (a : BevArgs) (w : Touched), s.mayRun ⟨.pergola, .output⟩ 0x43 checkBev i s1 a →
    w = s1.touch i .pergola (a.headers.spans ++ (match a.features with
      | some t => t.spans
      | none => [])) → w.gone = none → w.entry = none → w.s.landing i .pergola a.out.spans = (s2, none) →
    exec .pgBev s = .next (((List.range (i.field 63 32)).foldl (fun t k => t.bevPillar i a k)
      (a.out.rows.foldl (fun t r => t.setRun .pergola a.out r 0 (List.replicate (a.out.size 0) a.out.fill)) s2)).setFinish i (finDone 0))) ∧
  (∀ (i : Item) (s s1 s2 s3 : State) (a : LabelArgs) (w : Touched) (spans : List (Int × Nat)),
    s.mayRun ⟨.pergola, .output⟩ 0x44 checkLabels i s1 a → spans = labelSpans a.table (a.labels.size 0 * (a.labels.fmt.bits / 8)) →
    w = s1.touch i .pergola (a.points.spans ++ a.labels.spans ++ (if bit i.rec0 66 then spans else [])) → w.gone = none →
    w.bad = [] → w.entry = none → w.s.landing i .pergola spans = (s2, none) → s2.labelsLate a (i.field 63 32) = false →
    bit i.rec0 65 = false →
    s3 = (List.range (i.field 63 32)).foldl (fun t k => (List.range (a.labels.size 1)).foldl (fun t j =>
      t.labelPoint i a [] j k) t) s2 →
    exec .pgLabels s = .next (s3.setFinish i (finDone 0)))

/-! ### Rings, queues and lanes (chapters 7 and 13) -/

/-- R216, R218, R219, R390, R391: a flush flushes the ring, enabling a ring sets head, tail and SEQ to 0, and enabling a completion ring sets
head, tail and phase to 0. An internal queue is flushed, enabled empty, or flushed and disabled by its owner. -/
def Obligations.RingAndQueueWrites : Prop :=
  (∀ (p : Path) (r : Fin 64) (v : Nat) (x : Bytes) (s : State), s.offered p (0x2940 + r.val) 2 (toLe 1 v) = some x → ofLe x = 1 →
    exec (.ringFlush p r v) s = .next ((s.flushRing r.val 1).accepted p)) ∧
  (∀ (p : Path) (r : Fin 64) (v : Nat) (x : Bytes) (s : State), s.offered p (0x2940 + r.val) 0x0A (toLe 1 v) = some x → ofLe x = 1 →
    s.flag (Regs.ringEnable r.val) = false → s.reg (Regs.ringSize r.val) ≠ 0 →
    s.ringPlace (s.reg (Regs.ringBase r.val)) (s.reg (Regs.ringSize r.val) * 64) = true →
    clash s.allClaims 6 r.val (s.reg (Regs.ringBase r.val)) (s.reg (Regs.ringSize r.val) * 64) = none →
    ∃ t, exec (.ringEnable p r v) s = .next t ∧ t.flag (Regs.ringEnable r.val) = true ∧ t.reg (Regs.ringHead r.val) = 0 ∧
      t.reg (Regs.ringTail r.val) = 0 ∧ (t.ring r.val).seq = 0 ∧ t.mem = s.mem ∧ t.disp.items = s.disp.items) ∧
  (∀ (p : Path) (c : Fin 64) (v : Nat) (x : Bytes) (s : State), s.offered p (0x29C0 + c.val) 1 (toLe 1 v) = some x → ofLe x = 1 →
    s.flag (Regs.cqEnable c.val) = false → s.reg (Regs.cqSize c.val) ≠ 0 →
    s.ringPlace (s.reg (Regs.cqBase c.val)) (s.reg (Regs.cqSize c.val) * 16) = true →
    clash s.allClaims 7 c.val (s.reg (Regs.cqBase c.val)) (s.reg (Regs.cqSize c.val) * 16) = none →
    ∃ t, exec (.cqEnable p c v) s = .next t ∧ t.flag (Regs.cqEnable c.val) = true ∧ t.reg (Regs.cqHead c.val) = 0 ∧
      t.reg (Regs.cqTail c.val) = 0 ∧ t.reg (Regs.cqPhase c.val) = 0 ∧ t.mem = s.mem ∧ t.disp.items = s.disp.items) ∧
  (∀ (p : Path) (q : Fin 32) (v : Nat) (x : Bytes) (s : State), s.offered p (0x2980 + q.val) 6 (toLe 1 v) = some x → ofLe x = 1 →
    s.reg (Regs.iqOwner q.val) = s.writer p → s.reg (Regs.iqOwner q.val) ≠ 0 →
    exec (.iqFlush p q v) s = .next ((s.flushQueue (128 + q.val)).accepted p)) ∧
  (∀ (p : Path) (q : Fin 32) (v : Nat) (x : Bytes) (s : State), s.offered p (0x2980 + q.val) 2 (toLe 1 v) = some x → ofLe x = 1 →
    s.reg (Regs.iqOwner q.val) = s.writer p → s.reg (Regs.iqOwner q.val) ≠ 0 → s.flag (Regs.iqEnable q.val) = false →
    s.iqReady q.val = true →
    clash (s.iqClaims ++ s.lodgeClaims) 13 (0x200 + 128 + q.val) (s.iqExtent q.val).1 (s.iqExtent q.val).2 = none →
    exec (.iqEnable p q v) s = .next (((s.setReg (Regs.iqEnable q.val) 1).setIq q.val {}).accepted p)) ∧
  (∀ (p : Path) (q : Fin 32) (v : Nat) (x : Bytes) (s : State), s.offered p (0x2980 + q.val) 2 (toLe 1 v) = some x → ofLe x = 0 →
    s.reg (Regs.iqOwner q.val) = s.writer p → s.reg (Regs.iqOwner q.val) ≠ 0 → s.flag (Regs.iqEnable q.val) = true →
    exec (.iqEnable p q v) s = .next (((s.flushQueue (128 + q.val)).setReg (Regs.iqEnable q.val) 0).accepted p))

/-- R396: a completion ring that an enabled submission ring names is not disabled, and the refusal names that ring; disabling a
submission ring flushes it and then stops it. -/
def Obligations.RingsAreDisabledInOrder : Prop :=
  (∀ (p : Path) (c : Fin 64) (v r : Nat) (x : Bytes) (s : State), s.offered p (0x29C0 + c.val) 1 (toLe 1 v) = some x → ofLe x = 0 →
    s.ringNaming c.val = some r →
    exec (.cqEnable p c v) s = .next (s.finishWrite p (0x29C0 + c.val) 1 (.error (conflictKind 6 r)))) ∧
  (∀ (p : Path) (c : Fin 64) (v : Nat) (x : Bytes) (s : State), s.offered p (0x29C0 + c.val) 1 (toLe 1 v) = some x → ofLe x = 0 →
    s.ringNaming c.val = none →
    exec (.cqEnable p c v) s = .next ((s.setReg (Regs.cqEnable c.val) 0).accepted p)) ∧
  (∀ (p : Path) (r : Fin 64) (v : Nat) (x : Bytes) (s : State), s.offered p (0x2940 + r.val) 0x0A (toLe 1 v) = some x → ofLe x = 0 →
    s.flag (Regs.ringEnable r.val) = true →
    exec (.ringEnable p r v) s = .next (((s.flushRing r.val 1).setReg (Regs.ringEnable r.val) 0).accepted p))

/-- R190, R192, R195, R196, R219, R391, R392: a doorbell write is accepted exactly when the doorbells are open, the ring is enabled and
the new pointer lies where R392 lets it; any other changes nothing and is counted. The dispatcher accepts the next item of a ring, a
free lane takes the next one waiting, an item yields at a pre-emption point, and a flushed ring drops what belonged to a skipped
item. That a doorbell value of the size or above counts as an error is the model's reading (log 55). -/
def Obligations.DoorbellsAndLanes : Prop :=
  (∀ (r : Fin 64) (v : Nat) (s : State), s.pdOn 44 = false →
    exec (.sqTailWrite r v) s = .next s ∧ exec (.cqHeadWrite r v) s = .next s) ∧
  (∀ (r : Fin 64) (v : Nat) (s : State), s.pdOn 44 = true → s.doorbellsOpen = true → s.flag (Regs.ringEnable r.val) = true →
    v < s.reg (Regs.ringSize r.val) →
    ringDistance (s.reg (Regs.ringSize r.val)) (s.reg (Regs.ringHead r.val)) (s.reg (Regs.ringTail r.val)) ≤
      ringDistance (s.reg (Regs.ringSize r.val)) (s.reg (Regs.ringHead r.val)) v →
    exec (.sqTailWrite r v) s = .next (s.setReg (Regs.ringTail r.val) v)) ∧
  (∀ (c : Fin 64) (v : Nat) (s : State), s.pdOn 44 = true → s.doorbellsOpen = true → s.flag (Regs.cqEnable c.val) = true →
    v < s.reg (Regs.cqSize c.val) →
    ringDistance (s.reg (Regs.cqSize c.val)) (s.reg (Regs.cqHead c.val)) v ≤
      ringDistance (s.reg (Regs.cqSize c.val)) (s.reg (Regs.cqHead c.val)) (s.reg (Regs.cqTail c.val)) →
    exec (.cqHeadWrite c v) s = .next (s.setReg (Regs.cqHead c.val) v)) ∧
  (∀ (r : Fin 64) (v : Nat) (s : State), s.pdOn 44 = true → s.doorbellsOpen = false ∨ s.flag (Regs.ringEnable r.val) = false ∨
      s.reg (Regs.ringSize r.val) ≤ v ∨
      ringDistance (s.reg (Regs.ringSize r.val)) (s.reg (Regs.ringHead r.val)) v <
        ringDistance (s.reg (Regs.ringSize r.val)) (s.reg (Regs.ringHead r.val)) (s.reg (Regs.ringTail r.val)) →
    exec (.sqTailWrite r v) s = .next (s.bump Regs.hifDoorbellErrors)) ∧
  (∀ (c : Fin 64) (v : Nat) (s : State), s.pdOn 44 = true → s.doorbellsOpen = false ∨ s.flag (Regs.cqEnable c.val) = false ∨
      s.reg (Regs.cqSize c.val) ≤ v ∨
      ringDistance (s.reg (Regs.cqSize c.val)) (s.reg (Regs.cqHead c.val)) (s.reg (Regs.cqTail c.val)) <
        ringDistance (s.reg (Regs.cqSize c.val)) (s.reg (Regs.cqHead c.val)) v →
    exec (.cqHeadWrite c v) s = .next (s.bump Regs.hifDoorbellErrors)) ∧
  (∀ (r : Fin 64) (s : State) (g : Group) (lane : Option Lane), s.flag (Regs.ringEnable r.val) = true → s.pdOn 41 = true →
    g = (s.discardConts r.val (s.published r.val)).group r.val →
    ((s.discardConts r.val (s.published r.val)).ring r.val).dropping = false → g.ends = .whole →
    g.s.judge r.val g = .ok lane →
    (s.discardConts r.val (s.published r.val)).stalled r.val
      (g.readable && !isCont (g.recs.headD 0) && bit (g.recs.headD 0) 13) lane = false →
    exec (.itemDispatch r) s = .next (g.s.accept (⟨r.val, ((s.discardConts r.val (s.published r.val)).ring r.val).seq, g.recs,
      (s.discardConts r.val (s.published r.val)).attMaskOf (bits (g.recs.headD 0) 7 0), g.readable, lane, .waiting, none, false, 0,
      false⟩ : Item) g.count)) ∧
  (∀ (l : Lane) (i : Item) (s : State), s.running l = none → s.targetChanging l.target = false → s.nextFor l = some i →
    i.cls = 0 ∨ s.goldenHolds l = false →
    exec (.laneSelect l) s = .next ((if i.cls = 0 then s else s.setLastServed l i.ring).setItem { i with phase := .executing })) ∧
  (∀ (l : Lane) (i : Item) (s : State),
    s.yields l ((laneGaffers l).any (fun g => (s.goldenOf g).running && (s.goldenOf g).forced)) = some i →
    exec (.preemptionPoint l) s = .next ((s.setItem { i with phase := .held, preempted := true }).bump (Regs.ringPreemptions i.ring))) ∧
  (∀ (r : Fin 64) (s : State), exec (.ringFlushDiscard r) s = .next (s.discardConts r.val (s.published r.val)))

/-- R194, R198, R204, R205, R206, R395: the end of an item, the message of a completion ring after its time, and a vector's pending
message at its unmasking. NOP, BARRIER and the semaphores, an addition at its saturating end, a BARRIER or a SEM_WAIT that is not met and
waits, the latter registered at its gaffer while a place is free, a wait that is offered again, and a wait that runs out. -/
def Obligations.CompletionsAndDispatcherItems : Prop :=
  (∀ (r : Fin 64) (seq : Nat) (i : Item) (f : Finish) (s : State), s.item? r.val seq = some i → i.finish = some f →
    exec (.itemCompletion r seq) s =
      .next (s.complete i f (decide (f.status ≠ 2 ∧ f.status ≠ 3))).policyFences.takeDamage) ∧
  (∀ (c : Fin 64) (since : Nat) (s : State), (s.comp c.val).firstAt = some since → s.reg (Regs.cqVector c.val) < 64 →
    s.reg (Regs.cqCoalesceTime c.val) ≠ 0 → since + s.reg (Regs.cqCoalesceTime c.val) * 1000 ≤ s.now →
    exec (.cqCoalesceTimeout c) s =
      .next ((s.setComp c.val { s.comp c.val with sinceMessage := 0, firstAt := none }).msix (s.reg (Regs.cqVector c.val)))) ∧
  (∀ (v : Fin 64) (s : State), s.pdOn 44 = true → v.val ∈ s.link.pendingMsix → s.flag Regs.hifLinkUp = true →
    ∃ t, exec (.msixUnmask v) s = .next t ∧ t.out = .msix v.val :: s.out ∧ v.val ∉ t.link.pendingMsix ∧ v.val ∈ t.link.unmasked ∧
      t.regs = s.regs ∧ t.mem = s.mem ∧ t.disp = s.disp) ∧
  (∀ (v : Fin 64) (s : State), s.pdOn 44 = true → v.val ∉ s.link.pendingMsix →
    ∃ t, exec (.msixUnmask v) s = .next t ∧ t.out = s.out ∧ v.val ∈ t.link.unmasked ∧ t.regs = s.regs ∧ t.mem = s.mem ∧ t.disp = s.disp) ∧
  (∀ (r : Fin 64) (i : Item) (s : State), s.dispatcherItem r.val 0 = some i → s.leaseRefuses i = false →
    exec (.nop r) s = .next (s.setFinish i (finDone 0))) ∧
  (∀ (r : Fin 64) (i : Item) (s : State), s.dispatcherItem r.val 2 = some i → i.phase ≠ .pendingWait → s.leaseRefuses i = false →
    barrierMet s.disp.items i = true →
    exec (.barrier r) s = .next (s.setFinish i (finDone 0))) ∧
  (∀ (r : Fin 64) (i : Item) (s : State), s.dispatcherItem r.val 2 = some i → i.phase ≠ .pendingWait → s.leaseRefuses i = false →
    barrierMet s.disp.items i = false →
    exec (.barrier r) s = .next (if i.timeout = 0 then s.setFinish i (finTimeout 2 0)
      else s.setItem { i with phase := .pendingWait, since := s.now })) ∧
  (∀ (r : Fin 64) (i : Item) (s : State), s.dispatcherItem r.val 4 = some i → i.field 39 32 ≤ 31 → s.fenced (i.field 39 32) = false →
    s.pdOn (gafferPd (i.field 39 32)) = true → s.leaseRefuses i = false → bit i.rec0 48 = false →
    2 ^ 32 ≤ s.sem (i.field 39 32) (i.field 44 40) + i.field 95 64 →
    exec (.semSignal r) s = .next ((((s.setFinish i (finDone 0)).bump (Regs.semSaturations (i.field 39 32))).setSem (i.field 39 32)
      (i.field 44 40) (2 ^ 32 - 1)).semChanged (i.field 39 32))) ∧
  (∀ (r : Fin 64) (i : Item) (s : State), s.dispatcherItem r.val 4 = some i → i.field 39 32 ≤ 31 → s.fenced (i.field 39 32) = false →
    s.pdOn (gafferPd (i.field 39 32)) = true → s.leaseRefuses i = false → bit i.rec0 48 = true →
    exec (.semSignal r) s = .next (((s.setFinish i (finDone 0)).setSem (i.field 39 32) (i.field 44 40) (i.field 95 64)).semChanged (i.field 39 32))) ∧
  (∀ (r : Fin 64) (i : Item) (s : State), s.dispatcherItem r.val 4 = some i → i.field 39 32 ≤ 31 → s.fenced (i.field 39 32) = false →
    s.pdOn (gafferPd (i.field 39 32)) = true → s.leaseRefuses i = false → bit i.rec0 48 = false →
    s.sem (i.field 39 32) (i.field 44 40) + i.field 95 64 < 2 ^ 32 →
    exec (.semSignal r) s = .next (((s.setFinish i (finDone 0)).setSem (i.field 39 32) (i.field 44 40)
      (s.sem (i.field 39 32) (i.field 44 40) + i.field 95 64)).semChanged (i.field 39 32))) ∧
  (∀ (r : Fin 64) (i : Item) (s : State), s.dispatcherItem r.val 5 = some i → i.phase ≠ .pendingWait → i.field 39 32 ≤ 31 →
    ¬ (bit i.rec0 48 = true ∧ bit i.rec0 49 = true) → s.fenced (i.field 39 32) = false → s.pdOn (gafferPd (i.field 39 32)) = true →
    s.leaseRefuses i = false → semMet (s.sem (i.field 39 32) (i.field 44 40)) (i.field 95 64) (bit i.rec0 48) = true →
    exec (.semWait r) s = .next (((if bit i.rec0 49 = true then s.setSem (i.field 39 32) (i.field 44 40)
      (s.sem (i.field 39 32) (i.field 44 40) - i.field 95 64) else s).setFinish i (finDone 0)).semChanged (i.field 39 32))) ∧
  (∀ (r : Fin 64) (i : Item) (s t : State), s.dispatcherItem r.val 5 = some i → i.phase ≠ .pendingWait → i.field 39 32 ≤ 31 →
    ¬ (bit i.rec0 48 = true ∧ bit i.rec0 49 = true) → s.fenced (i.field 39 32) = false → s.pdOn (gafferPd (i.field 39 32)) = true →
    s.leaseRefuses i = false → semMet (s.sem (i.field 39 32) (i.field 44 40)) (i.field 95 64) (bit i.rec0 48) = false →
    t = s.setItem { i with phase := .pendingWait, since := s.now } →
    exec (.semWait r) s = .next (if i.timeout = 0 then s.setFinish i (finTimeout 2 0)
      else if 64 ≤ (s.gaffer (i.field 39 32)).waits.length then t
      else t.setGaffer (i.field 39 32) { s.gaffer (i.field 39 32) with
        waits := (s.gaffer (i.field 39 32)).waits ++ [⟨i.ring, i.seq, i.field 44 40, bit i.rec0 48, bit i.rec0 49, i.field 95 64⟩] })) ∧
  (∀ (r : Fin 64) (i : Item) (s : State), s.dispatcherItem r.val 5 = some i → i.phase = .pendingWait →
    (∀ w ∈ (s.gaffer (i.field 39 32)).waits, ¬ (w.ring = i.ring ∧ w.seq = i.seq)) →
    exec (.semWaitReoffer r) s = .next (s.offerWait i)) ∧
  (∀ (r : Fin 64) (i : Item) (s : State), s.disp.items.find? (fun i => decide (i.ring = r.val) && i.readable && hasTimeout i.opcode
      && i.phase == .pendingWait && i.finish.isNone
      && decide (i.timeout ≠ 0xFFFFFFFF) && decide (i.since + i.timeout * 1000 ≤ s.now)) = some i →
    s.queueReady i = false → s.semReady i = false →
    exec (.waitTimeout r) s = .next ((s.dropWait i.ring i.seq).setFinish i
      (finTimeout (if i.opcode = 0x0C ∨ i.opcode = 0x0D then 1 else 2) (s.waited i))))

/-- R54, R97, R98, R194, R207, R214, R215, R217: COPY and FILL, where source and destination answer and nothing read is poisoned, write
every row and end DONE with the number of bytes. A push puts its data into the next slot of an internal queue, or its frame into a
transmit or launch queue; a pop takes the oldest item out. A push waits while the queue is full or another push is in progress, a pop
while there is no item or another pop is in progress. -/
def Obligations.CopiesAndQueueItems : Prop :=
  (∀ (u : CUnit) (i : Item) (s s1 s2 : State) (p : Tensor × Tensor) (w : Touched),
    s.mayRun ⟨.unit u, .copy⟩ 0x08 (checkCopy (.servitor u)) i s1 p → w = s1.touch i (.servitor u) p.1.spans → w.gone = none →
    w.entry = none → w.s.landing i (.servitor u) p.2.spans = (s2, none) →
    exec (.copy u) s = .next (((p.1.rows.foldl (fun t r => t.setRun (.servitor u) p.2 r 0 (s2.rowCodes p.1 r)) s2).poisonElems
      p.1 p.2 w.bad).setFinish i (finDone (auxBytes p.2.bytes)))) ∧
  (∀ (u : CUnit) (i : Item) (s s1 s2 : State) (d : Tensor), s.mayRun ⟨.unit u, .copy⟩ 0x09 (checkFill (.servitor u)) i s1 d →
    s1.landing i (.servitor u) d.spans = (s2, none) →
    exec (.fill u) s = .next ((d.rows.foldl (fun t r => t.setRun (.servitor u) d r 0 (List.replicate (d.size 0) d.fill)) s2).setFinish i
      (finDone (auxBytes d.bytes)))) ∧
  (∀ (l : Lane) (i : Item) (s s1 s2 : State), s.mayRun l 0x0C (checkPush (laneAgent l)) i s1 () → 128 ≤ i.queue →
    (s1.iq (i.queue - 128)).pushing = none → s1.queueTurn i = true →
    (s1.iq (i.queue - 128)).used < s1.reg (Regs.iqSlotCount (i.queue - 128)) →
    s1.copyBytes i (laneAgent l) (laneAgent l) i.qAddr (s1.reg (Regs.iqBase (i.queue - 128)) +
      (s1.iq (i.queue - 128)).next * s1.reg (Regs.iqSlotSize (i.queue - 128))) i.qLength = (s2, finDone (auxBytes i.qLength)) →
    exec (.queuePush l) s = .next ((s2.setIq (i.queue - 128) { s1.iq (i.queue - 128) with
      next := ((s1.iq (i.queue - 128)).next + 1) % s1.reg (Regs.iqSlotCount (i.queue - 128)),
      pushing := some ⟨i.ring, i.seq, ⟨(s1.iq (i.queue - 128)).next, i.qLength⟩⟩ }).setFinish i (finDone 0))) ∧
  (∀ (l : Lane) (i j : Item) (full : Bool) (s s1 : State), s.mayRun l 0x0C (checkPush (laneAgent l)) i s1 () → 128 ≤ i.queue →
    (s1.iq (i.queue - 128)).pushing.isSome = true ∨ s1.queueTurn i = false ∨
      s1.reg (Regs.iqSlotCount (i.queue - 128)) ≤ (s1.iq (i.queue - 128)).used →
    full = (decide (s1.reg (Regs.iqSlotCount (i.queue - 128)) ≤ (s1.iq (i.queue - 128)).used) &&
      (s1.iq (i.queue - 128)).pushing.isNone && !i.counted) →
    j = (if full then { i with counted := true } else i) → i.phase ≠ .pendingWait → i.timeout ≠ 0 →
    exec (.queuePush l) s = .next (((s1.setItem j).bumpIf full (Regs.iqFullWaits (i.queue - 128))).setItem
      { j with phase := .pendingWait, since := s1.now })) ∧
  (∀ (l : Lane) (i : Item) (s s1 : State) (w : Touched) (h : Nat), s.mayRun l 0x0C (checkPush (laneAgent l)) i s1 () → i.queue < 72 →
    kfind s1.lodge.pushes i.queue = none → s1.queueTurn i = true → s1.txUsed i.queue < 32 →
    w = s1.touch i (laneAgent l) [((i.qAddr : Int), i.qLength)] → w.gone = none → w.entry = none → h = ofLe (w.s.peek i.qAddr 32) →
    (56 ≤ i.queue → bits h 93 64 ≤ 999999999) → bits h 143 128 + 32 = i.qLength →
    exec (.queuePush l) s = .next ({ w.s with lodge := { w.s.lodge with pushes := kset w.s.lodge.pushes i.queue ⟨i.ring, i.seq,
      { time := t128Time h, stamped := bit h 144, data := w.s.peek (i.qAddr + 32) (bits h 143 128) }⟩ } }.setFinish i (finDone 0))) ∧
  (∀ (l : Lane) (i : Item) (s s1 : State), s.mayRun l 0x0C (checkPush (laneAgent l)) i s1 () → i.queue < 72 →
    (kfind s1.lodge.pushes i.queue).isSome = true ∨ s1.queueTurn i = false ∨ 32 ≤ s1.txUsed i.queue →
    exec (.queuePush l) s = .next ((s1.setItem i).waitOrFail i 1)) ∧
  (∀ (l : Lane) (i : Item) (s s1 s2 : State) (it : IqItem) (rest : List IqItem) (f : Finish),
    s.mayRun l 0x0D (checkPop (laneAgent l)) i s1 () → 128 ≤ i.queue → (s1.iq (i.queue - 128)).items = it :: rest →
    (s1.iq (i.queue - 128)).popping = none → s1.queueTurn i = true →
    (s1.setIq (i.queue - 128) { s1.iq (i.queue - 128) with items := rest, popping := some ⟨i.ring, i.seq, it⟩ }).copyBytes i
      (laneAgent l) (laneAgent l) (s1.reg (Regs.iqBase (i.queue - 128)) + it.slot * s1.reg (Regs.iqSlotSize (i.queue - 128)))
      i.qAddr it.len = (s2, f) →
    exec (.queuePop l) s = .next (s2.setFinish i f)) ∧
  (∀ (l : Lane) (i : Item) (s s1 s2 : State) (it : IngestItem) (rest : List IngestItem) (f : Finish),
    s.mayRun l 0x0D (checkPop (laneAgent l)) i s1 () → i.queue < 52 → (s1.ingest i.queue).items = it :: rest →
    (s1.ingest i.queue).pop = none → s1.queueTurn i = true →
    (s1.setIngest i.queue { s1.ingest i.queue with items := rest, pop := some ⟨i.ring, i.seq, it⟩ }).copyBytes i .lodge (laneAgent l)
      (s1.ingestBase i.queue + it.slot * s1.ingestSlot i.queue) i.qAddr (s1.ingestSlot i.queue) = (s2, f) →
    exec (.queuePop l) s = .next (s2.setFinish i f)) ∧
  (∀ (l : Lane) (i : Item) (s s1 : State), s.mayRun l 0x0D (checkPop (laneAgent l)) i s1 () → 128 ≤ i.queue →
    (s1.iq (i.queue - 128)).items = [] ∨ (s1.iq (i.queue - 128)).popping.isSome = true ∨ s1.queueTurn i = false →
    exec (.queuePop l) s = .next (s1.waitOrFail i 1)) ∧
  (∀ (l : Lane) (i : Item) (s s1 : State), s.mayRun l 0x0D (checkPop (laneAgent l)) i s1 () → i.queue < 52 →
    (s1.ingest i.queue).items = [] ∨ (s1.ingest i.queue).pop.isSome = true ∨ s1.queueTurn i = false →
    exec (.queuePop l) s = .next (s1.waitOrFail i 1))

/-! ### Arithmetic and gaffers (chapters 5 and 6) -/

/-- R208, R209, R210, R211, R212, R213: MATMUL computes its tiles in order and REDUCE its elements in order, and each ends DONE where no
tile or element meets poison or a residue mismatch. VECTOR starts a program at its first instruction with no loop open, and a program
ends at END, at MAX_CYCLES, or at its end. -/
def Obligations.MatmulReduceAndPrograms : Prop :=
  (∀ (u : CUnit) (i : Item) (s s1 s2 : State) (p : MatPlan), s.mayRun ⟨.unit u, .array⟩ 0x10 (checkMatmul u) i s1 p →
    (p.tiles u).foldl (fun (acc : State × Option Finish) t =>
      match acc.2 with
      | some _ => acc
      | none => acc.1.matTile u i p t.1 t.2) (s1, none) = (s2, none) →
    exec (.matmul u) s = .next (s2.setFinish i (finDone 0))) ∧
  (∀ (u : CUnit) (i : Item) (s s1 s2 : State) (p : Tensor × Tensor), s.mayRun ⟨.unit u, .vector⟩ 0x19 (checkReduce u) i s1 p →
    p.2.indices.foldl (fun (acc : State × Option Finish) idx =>
      match acc.2 with
      | some _ => acc
      | none => acc.1.reduceElem u i p idx) (s1, none) = (s2, none) →
    exec (.reduce u) s = .next (s2.setFinish i (finDone 0))) ∧
  (∀ (u : CUnit) (i : Item) (s s1 : State) (prog : List Nat), s.mayRun ⟨.unit u, .vector⟩ 0x18 (checkVector u) i s1 prog →
    (s1.vec u).running = false →
    exec (.vector u) s = .next (s1.vecSettle u ⟨true, i.ring, i.seq, prog, 0, [], [],
      (List.range 8).map (fun k => i.field (191 + 32 * k) (160 + 32 * k)), i.round, 0, i.maxCycles * 1024, []⟩)) ∧
  (∀ (u : CUnit) (i : Item) (v : VectorUnit) (x : Nat) (s : State), s.vecAt u 0x00 v i x →
    exec (.vEnd u) s = .next (s.vecStop u (finDone 0))) ∧
  (∀ (u : CUnit) (i : Item) (v : VectorUnit) (x : Nat) (s : State), s.vecNext u = some (v, i, x) → vecOver u v x = true →
    exec (.vectorTimeout u) s = .next (s.vecStop u
      (finTimeout 3 (v.maxCycles / levelMHz (s.reg (Regs.gafferLevelNow (vectorGaffer u))))))) ∧
  (∀ (u : CUnit) (i : Item) (v : VectorUnit) (x : Nat) (s : State), s.vecAt u 0x40 v i x →
    1 ≤ bits (vImm x) 15 0 → bits (vImm x) 15 0 ≤ 255 → bits (vImm x) 31 16 ≠ 0 →
    v.index + 1 + bits (vImm x) 15 0 ≤ v.prog.length →
    (∀ f ∈ v.loops.head?, v.index + 1 + bits (vImm x) 15 0 ≤ f.past) → v.loops.length < 4 →
    exec (.vLoop u) s = .next (s.vecAdvance u { v with
      loops := ⟨v.index + 1, v.index + 1 + bits (vImm x) 15 0, bits (vImm x) 31 16⟩ :: v.loops } (vCost u 0x40)))

/-- R211, R212: memory and address instructions: a load fills a register, a broadcast its every lane, a store writes its lanes' bytes, and an
address register moves by a 32-bit sum. -/
def Obligations.VectorMemoryInstructions : Prop :=
  (∀ (u : CUnit) (i : Item) (v : VectorUnit) (x : Nat) (s s1 : State) (l : List Nat), s.vecAt u 0x01 v i x →
    s.vecLoad u v i x (laneCount u) = (s1, .ok l) →
    exec (.vLd u) s = .next (s1.vecAdvance u (v.setReg (vD x) l) (vCost u 0x01))) ∧
  (∀ (u : CUnit) (i : Item) (v : VectorUnit) (x : Nat) (s s1 : State) (l : List Nat), s.vecAt u 0x03 v i x →
    s.vecLoad u v i x 1 = (s1, .ok l) →
    exec (.vLdb u) s = .next (s1.vecAdvance u (v.setReg (vD x) (List.replicate (laneCount u) (l.headD 0))) (vCost u 0x03))) ∧
  (∀ (u : CUnit) (i : Item) (v : VectorUnit) (x a : Nat) (s : State), s.vecAt u 0x02 v i x → vBf x = false →
    s.vecAddr u v x (laneCount u * vSize x) true = .ok a →
    ∃ t t1 : State, exec (.vSt u) s = .next t ∧ t = t1.vecAdvance u { v with stored := (a, laneCount u * vSize x) :: v.stored } (vCost u 0x02) ∧
      t1.mem = (s.put (.compute u) a ((v.reg (laneCount u) (vA x)).flatMap (toLe (vSize x)))).mem) ∧
  (∀ (u : CUnit) (i : Item) (v : VectorUnit) (x : Nat) (s : State), s.vecAt u 0x04 v i x →
    exec (.vPadd u) s = .next (s.vecAdvance u { v with
      addrs := v.addrs.set (vP x) ((v.addrs.getD (vP x) 0 + vImm x) % 2 ^ 32) } (vCost u 0x04))) ∧
  (∀ (u : CUnit) (i : Item) (v : VectorUnit) (x : Nat) (s : State), s.vecAt u 0x05 v i x →
    exec (.vMovi u) s = .next (s.vecAdvance u (v.setReg (vD x) (List.replicate (laneCount u) (vImm x))) (vCost u 0x05)))

/-- R158, R159, R211: the lane by lane arithmetic of two and three operands. Conversions, approximations and the sums and maxima over
all lanes. -/
def Obligations.VectorArithmetic : Prop :=
  (∀ (u : CUnit) (i : Item) (v : VectorUnit) (x : Nat) (s : State) (a b c : List Nat),
    a = v.reg (laneCount u) (vA x) → b = v.reg (laneCount u) (vB x) → c = v.reg (laneCount u) (vC x) →
    (s.vecAt u 0x10 v i x → s.vecWhole u → exec (.vAdd u) s = .next (s.vecAdvance u (v.setReg (vD x) (List.zipWith fadd a b)) (vCost u 0x10))) ∧
    (s.vecAt u 0x11 v i x → s.vecWhole u → exec (.vSub u) s = .next (s.vecAdvance u (v.setReg (vD x) (List.zipWith fsub a b)) (vCost u 0x11))) ∧
    (s.vecAt u 0x12 v i x → s.vecWhole u → exec (.vMul u) s = .next (s.vecAdvance u (v.setReg (vD x) (List.zipWith fmul a b)) (vCost u 0x12))) ∧
    (s.vecAt u 0x13 v i x → s.vecWhole u → exec (.vFma u) s = .next (s.vecAdvance u (v.setReg (vD x)
      (List.zipWith (fun p z => ffma p.1 p.2 z) (a.zip b) c)) (vCost u 0x13))) ∧
    (s.vecAt u 0x14 v i x → exec (.vMin u) s = .next (s.vecAdvance u (v.setReg (vD x) (List.zipWith fmin a b)) (vCost u 0x14))) ∧
    (s.vecAt u 0x15 v i x → exec (.vMax u) s = .next (s.vecAdvance u (v.setReg (vD x) (List.zipWith fmax a b)) (vCost u 0x15))) ∧
    (s.vecAt u 0x16 v i x → exec (.vClt u) s = .next (s.vecAdvance u (v.setReg (vD x)
      (List.zipWith (fun p q => if flt p q then 0x3F800000 else 0) a b)) (vCost u 0x16))) ∧
    (s.vecAt u 0x17 v i x → exec (.vSel u) s = .next (s.vecAdvance u (v.setReg (vD x)
      (List.zipWith (fun p z => if (f32 z).isZero then p.2 else p.1) (a.zip b) c)) (vCost u 0x17))) ∧
    (∀ (f : Finish) (s1 : State), s.vecAt u 0x10 v i x → s.vectorCheck u i v.index (List.zipWith exactAdd a b) = (s1, .error f) →
      exec (.vAdd u) s = .next (s1.vecStop u f))) ∧
  (∀ (u : CUnit) (i : Item) (v : VectorUnit) (x : Nat) (s : State) (a : List Nat), a = v.reg (laneCount u) (vA x) →
    (s.vecAt u 0x18 v i x → exec (.vCvti u) s = .next (s.vecAdvance u (v.setReg (vD x) (a.map cvti)) (vCost u 0x18))) ∧
    (s.vecAt u 0x19 v i x → exec (.vCvtf u) s = .next (s.vecAdvance u (v.setReg (vD x) (a.map cvtf)) (vCost u 0x19))) ∧
    (s.vecAt u 0x20 v i x → exec (.vExp u) s = .next (s.vecAdvance u (v.setReg (vD x) (a.map fexp)) (vCost u 0x20))) ∧
    (s.vecAt u 0x21 v i x → exec (.vRcp u) s = .next (s.vecAdvance u (v.setReg (vD x) (a.map frcp)) (vCost u 0x21))) ∧
    (s.vecAt u 0x22 v i x → exec (.vRsq u) s = .next (s.vecAdvance u (v.setReg (vD x) (a.map frsq)) (vCost u 0x22))) ∧
    (s.vecAt u 0x30 v i x → s.vecWhole u → a.length = laneCount u → exec (.vRsum u) s = .next (s.vecAdvance u (v.setReg (vD x)
      (List.replicate (laneCount u) (laneTree fadd a 7))) (vCost u 0x30))) ∧
    (s.vecAt u 0x31 v i x → exec (.vRmax u) s = .next (s.vecAdvance u (v.setReg (vD x)
      (List.replicate (laneCount u) (laneTree fmax a 7))) (vCost u 0x31))))

/-- R354, R355, R356, R357: without a fault, the residue predicted from the inputs is the one observed, of a vector operation and of an
accumulator after any products, whatever its window discards; a change of the result shows in its residue exactly when it is no
multiple of 127. A strike that shows ends the program with the mismatch, which names the residue observed: what a strike is, and where it
lands, is the model's own (logs 57 and 72). -/
def Obligations.ResiduesShowFaults : Prop :=
  (∀ a b c : Nat, (exactAdd a b).mismatch = none ∧ (exactSub a b).mismatch = none ∧ (exactMul a b).mismatch = none ∧
    (exactFma a b c).mismatch = none) ∧
  (∀ l : List (Machine.Num × Machine.Num), (l.foldl (fun (x : Watched) p => x.take p.1 p.2) ⟨{}, 0⟩).acc.res =
    (l.foldl (fun (x : Watched) p => x.take p.1 p.2) ⟨{}, 0⟩).res) ∧
  (∀ (x : Exact) (sign : Bool) (m : Nat) (e d : Int), x.v = .fin sign m e → x.mismatch = none →
    ((x.bent d).mismatch = none ↔ d % 127 = 0)) ∧
  (∀ (x : Acc) (d : Int), (x.bent d).res = x.res ↔ d % 127 = 0) ∧
  (∀ (g : Fin 32) (i : Item) (v : VectorUnit) (x r : Nat) (f : Strike) (y : Exact) (s s1 : State) (e : Finish),
    s.vecAt (.gaffer g) 0x10 v i x → (s.gaffer g.val).vectorFault = some f → f.turn = 0 →
    (List.zipWith exactAdd (v.reg (laneCount (.gaffer g)) (vA x)) (v.reg (laneCount (.gaffer g)) (vB x)))[f.place % 64]? = some y →
    (y.bent f.error).mismatch = some r →
    (s.setGaffer g.val { s.gaffer g.val with vectorFault := none }).residueMismatch i g.val 12 v.index r = (s1, e) →
    exec (.vAdd (.gaffer g)) s = .next (s1.vecStop (.gaffer g) e))

/-- R156, R178, R180, R181: forming chairs, a level request and a seed. -/
def Obligations.ChairLevelAndSeedWrites : Prop :=
  (∀ (p : Path) (v : Nat) (x : Bytes) (s : State), s.offered p 0x2500 3 (toLe 2 v) = some x →
    (∀ c, c < 16 → bit (ofLe x) c ≠ s.formed c → s.chairCause c (bit (ofLe x) c) = none) →
    exec (.chairFormedWrite p v) s = .next ((((List.range 16).filter (fun c => bit (ofLe x) c != s.formed c)).foldl State.beginChair
      (s.setReg Regs.chairFormed (ofLe x))).accepted p)) ∧
  (∀ (p : Path) (g : Fin 32) (v : Nat) (x : Bytes) (s : State), s.offered p (0x2520 + g.val) 1 (toLe 1 v) = some x →
    ¬ (g.val % 2 = 1 ∧ s.formed (g.val / 2) = true) →
    ∃ t, exec (.gafferLevelWrite p g v) s = .next t ∧ t.reg (Regs.gafferLevel g.val) = ofLe x ∧
      (t.gaffer g.val).levelChanging = true ∧ t.reg (Regs.gafferLevelNow g.val) = s.reg (Regs.gafferLevelNow g.val) ∧
      t.mem = s.mem ∧ t.disp.items = s.disp.items) ∧
  (∀ (p : Path) (g : Fin 32) (v : Nat) (x : Bytes) (s : State), s.offered p (0x2520 + g.val) 1 (toLe 1 v) = some x →
    g.val % 2 = 1 → s.formed (g.val / 2) = true →
    exec (.gafferLevelWrite p g v) s =
      .next (s.finishWrite p (0x2520 + g.val) 1 (.error (conflictKind 9 (g.val / 2))))) ∧
  (∀ (p : Path) (g : Fin 32) (v : Nat) (x : Bytes) (s : State), s.offered p (0x2540 + g.val) 1 (toLe 8 v) = some x →
    s.stochasticRing g.val = none →
    exec (.srSeedWrite p g v) s =
      .next (((s.setReg (Regs.srSeed g.val) (ofLe x)).setReg (Regs.srState g.val) (ofLe x)).accepted p))

/-- R183, R184, R185: a gaffer is fenced by the host, by the policy or by the Keeper, with its cause, and the host lifts a fence that
the Keeper has not set. -/
def Obligations.FencesAreSetAndLifted : Prop :=
  (∀ (p : Path) (g : Fin 32) (x : Bytes) (s : State),
    s.offered p 0x2500 2 (toLe 4 (setBit (s.reg Regs.gafferFence) g.val true)) = some x →
    ofLe x = setBit (s.reg Regs.gafferFence) g.val true → s.reg Regs.gafferFence < 2 ^ 32 → s.fenced g.val = false →
    exec (.gafferFenceSet (.host p) g) s = .next ((s.fence g.val (fenceCause (.host p))).accepted p)) ∧
  (∀ (g : Fin 32) (s : State), exec (.gafferFenceSet .policy g) s = .next (s.fence g.val 2)) ∧
  (∀ (g : Fin 32) (s : State), exec (.gafferFenceSet .keeper g) s = .next (s.fence g.val 3)) ∧
  (∀ (p : Path) (g : Fin 32) (x : Bytes) (s : State),
    s.offered p 0x2500 2 (toLe 4 (setBit (s.reg Regs.gafferFence) g.val false)) = some x →
    ofLe x = setBit (s.reg Regs.gafferFence) g.val false → s.reg Regs.gafferFence < 2 ^ 32 → s.fenced g.val = true →
    (s.reg (Regs.gafferFenceCause g.val) = 3 → p = .canSafety ∨ p = .keeper) → (s.gaffer g.val).lift = .none →
    exec (.gafferFenceClear p g) s = .next ((s.beginLift g.val).accepted p)) ∧
  (∀ (p : Path) (g : Fin 32) (x : Bytes) (s : State),
    s.offered p 0x2500 2 (toLe 4 (setBit (s.reg Regs.gafferFence) g.val false)) = some x →
    ofLe x = setBit (s.reg Regs.gafferFence) g.val false → s.fenced g.val = true →
    s.reg (Regs.gafferFenceCause g.val) = 3 → p ≠ .canSafety → p ≠ .keeper →
    exec (.gafferFenceClear p g) s = .next (s.finishWrite p 0x2500 2 (.error (conflictKind 13 0x400))))

/-- R178, R182, R184, R185: the ends of a join or split, of a level change, of a fence's draining and of a START TEST. -/
def Obligations.GafferChangesComplete : Prop :=
  (∀ (c : Fin 16) (s : State), c.val ∈ s.disp.chairsChanging → (s.gaffer (2 * c.val)).drainDue = false →
    (s.gaffer (2 * c.val + 1)).drainDue = false →
    ∃ t, exec (.chairChangeComplete c) s = .next t ∧ c.val ∉ t.disp.chairsChanging ∧ t.mem = s.mem ∧
      t.disp.items = s.disp.items ∧ (s.formed c.val = true →
        t.reg (Regs.gafferLevelNow (2 * c.val + 1)) = s.reg (Regs.gafferLevelNow (2 * c.val)))) ∧
  (∀ (g : Fin 32) (s : State), (s.gaffer g.val).levelChanging = true → (s.gaffer g.val).levelAt ≤ s.now →
    ¬ (g.val % 2 = 1 ∧ s.formed (g.val / 2) = true) →
    ∃ t, exec (.levelChangeComplete g) s = .next t ∧ (t.gaffer g.val).levelChanging = false ∧
      t.reg (Regs.gafferLevelNow g.val) = s.levelGoal g.val ∧ t.mem = s.mem ∧ t.disp.items = s.disp.items) ∧
  (∀ (g : Fin 32) (s : State), s.now < (s.gaffer g.val).levelAt → exec (.levelChangeComplete g) s = .next s) ∧
  (∀ (g : Fin 32) (s : State), g.val % 2 = 1 → s.formed (g.val / 2) = true → exec (.levelChangeComplete g) s = .next s) ∧
  (∀ (g : Fin 32) (s : State), (s.gaffer g.val).drainDue = true → s.drained (gafferPd g.val) = true →
    ∃ t, exec (.fencePowerOff g) s = .next t ∧ (t.gaffer g.val).drainDue = false ∧ (t.gaffer g.val).sems = [] ∧
      (t.pd (gafferPd g.val)).state = .off) ∧
  (∀ (g : Fin 32) (results : List Nat) (s u : State), u = s.settlesForced (gafferPd g.val) 3 → u.keeper.heldReset = false →
    u.pdOn (gafferPd g.val) = true → (u.gaffer g.val).drainDue = false → (u.gaffer g.val).lift = .testing →
    u.goldenFailure [g.val] results = none →
    exec (.startTestComplete g results) s = .next (((u.spendStrikes [g.val]).startTestEnds g.val none).goldenPassed g.val)) ∧
  (∀ (g : Fin 32) (k : Nat) (results : List Nat) (s u : State), u = s.settlesForced (gafferPd g.val) 3 → u.keeper.heldReset = false →
    u.pdOn (gafferPd g.val) = true → (u.gaffer g.val).drainDue = false → (u.gaffer g.val).lift = .testing →
    u.goldenFailure [g.val] results = some k →
    ∃ t, exec (.startTestComplete g results) s = .next t ∧ t.reg (Regs.gafferFenceCause g.val) = 4 ∧
      t.fenced g.val = u.fenced g.val ∧ (t.gaffer g.val).lift = .none ∧ (t.gaffer g.val).drainDue = true) ∧
  (∀ (g : Fin 32) (results : List Nat) (s : State), (s.settlesForced (gafferPd g.val) 3).pdOn (gafferPd g.val) = false →
    exec (.startTestComplete g results) s = .next s)

/-! ### The Marvers, attention, the KV manager and the Arbor (chapters 8, 9 and 10) -/

/-- R224, R234, R236, R237, R239, R250, R252, R259, R260: a Marver's transform, gather and scatter, once their descriptors pass. Opening,
allocating, truncating, closing and reading a sequence's pages. A table word that shows poison on the way ends the item (R370). -/
def Obligations.MarverAndKvItems : Prop :=
  (∀ (m : Fin 4) (i : Item) (s s1 : State) (a : TransformArgs),
    s.mayRun ⟨.marver m, .marver⟩ 0x20 (checkTransform (.marver m.val)) i s1 a →
    exec (.mvTransform m) s = .next (s1.transform m.val (.marver m.val) i a)) ∧
  (∀ (m : Fin 4) (i : Item) (s s1 : State) (a : IndexedArgs),
    s.mayRun ⟨.marver m, .marver⟩ 0x21 (checkIndexed (.marver m.val) false) i s1 a →
    exec (.mvGather m) s = .next (s1.gather m.val (.marver m.val) i a)) ∧
  (∀ (m : Fin 4) (i : Item) (s s1 : State) (a : IndexedArgs),
    s.mayRun ⟨.marver m, .marver⟩ 0x22 (checkIndexed (.marver m.val) true) i s1 a →
    exec (.mvScatter m) s = .next (s1.scatter m.val (.marver m.val) i a)) ∧
  (∀ (s s1 s2 s3 : State) (ag : Agent) (i : Item) (first masks : List (Int × Nat)) (elems writes : State → List (Int × Nat))
      (run : State → List (Nat × Nat) → State × Nat) (w : Touched) (aux : Nat), w = s.mvReads i ag first elems → w.gone = none →
    w.entry = none → w.s.landing i ag (writes w.s ++ masks) = (s2, none) →
    run (s2.heals (writes w.s)) w.bad = (s3, aux) → s1 = s.mvRun i ag first elems writes masks run →
    s1 = s3.setFinish i (finDone (min aux (2 ^ 32 - 1)))) ∧
  (∀ (i : Item) (s s1 : State), s.mayRun kvLane 0x34 checkOpen i s1 () → i.mapOp = 0 →
    exec .kvOpen s = .next (s.kvEnds
      (((s1.setSeqEntry i.sequence (1 + 2 * i.field 77 76)).forgetBlocks i.sequence).setFinish i (finDone 0)) i)) ∧
  (∀ (i : Item) (s s1 : State) (need : List Nat), s.mayRun kvLane 0x34 checkRange i s1 () → i.mapOp = 1 →
    need = i.pageList.filter (fun b => decide ((s1.pte i.sequence b).st = 0)) →
    need.length ≤ (s1.pool (seqPool (s1.seqEntry i.sequence))).free →
    ((need.map (fun b => b / 256)).eraseDups.filter (fun d => !bit (s1.dir i.sequence d) 16)).length ≤ s1.kv.l2Free.length →
    exec .kvAlloc s = .next (s.kvEnds ((need.foldl (fun t b => t.allocPage i.sequence b) s1).setFinish i (finDone need.length)) i)) ∧
  (∀ (i : Item) (s s1 : State), s.mayRun kvLane 0x34 (fun s i => checkMap i.firstPage 16384 s i) i s1 () → i.mapOp = 2 →
    bits (s1.seqEntry i.sequence) 63 32 = 0 →
    exec .kvTruncate s = .next (s.kvEnds (((s1.usedPages i.sequence i.firstPage 16384).foldl (fun t b => t.releasePage i.sequence b)
      s1).setFinish i (finDone (s1.usedPages i.sequence i.firstPage 16384).length)) i)) ∧
  (∀ (i : Item) (s s1 : State), s.mayRun kvLane 0x34 (checkMap 0 16384) i s1 () → i.mapOp = 3 →
    bits (s1.seqEntry i.sequence) 63 32 = 0 →
    exec .kvClose s = .next (s.kvEnds (((((s1.usedPages i.sequence 0 16384).foldl (fun t b => t.releasePage i.sequence b) s1).setSeqEntry
      i.sequence 0).forgetBlocks i.sequence).setFinish i (finDone (s1.usedPages i.sequence 0 16384).length)) i)) ∧
  (∀ (i : Item) (s s1 s2 : State) (bs : Bytes), s.mayRun kvLane 0x34 checkKvRead i s1 () → i.mapOp = 4 →
    bs = toLe 64 (s1.seqEntry i.sequence) ++ i.pageList.flatMap (fun b => toLe 8 (s1.pte i.sequence b).pack) →
    s1.landing i .kvm [((i.field 199 160 : Int), bs.length)] = (s2, none) →
    exec .kvRead s = .next (s.kvEnds ((s2.put .kvm (i.field 199 160) bs).setFinish i (finDone (auxBytes bs.length))) i)) ∧
  (∀ (s t : State) (i : Item), s.kv.stopped ≠ none ∨ t.kv.stopped = none → s.kvEnds t i = t) ∧
  (∀ (s t : State) (i j : Item) (e : Nat), s.kv.stopped = none → t.kv.stopped = some e → t.item? i.ring i.seq = some j →
    s.kvEnds t i = t.setFinish j (finUncorrected e))

/-- R253, R255, R257, R264, R272, R287, R288, R290, R291, R292, R294, R295: appends register, attention reads through registrations and
merges write their buckets in order. Looking up, inserting, unpinning and reopening shared pages, and swapping pages out and in. -/
def Obligations.AttentionAndArborItems : Prop :=
  (∀ (u : CUnit) (i : Item) (s s1 : State) (p : AppendPlan), s.mayRun ⟨.unit u, .copy⟩ 0x33 (checkAppend u) i s1 p →
    exec (.kvAppend u) s = .next (s1.append u i p)) ∧
  (∀ (u : CUnit) (i : Item) (s s1 s2 : State) (ps : List AttPlan), s.mayRun ⟨.unit u, .array⟩ 0x30 (checkAttention u false) i s1 ps →
    ((ps.foldl (fun t p => t.register i.ring i.seq p.e.sequence) s1).forgetRange i.workArea i.workBytes).attTiles u i ps = (s2, none) →
    exec (.attPrefill u) s = .next (s2.setFinish i (finDone 0))) ∧
  (∀ (u : CUnit) (i : Item) (s s1 s2 : State) (ps : List AttPlan), s.mayRun ⟨.unit u, .array⟩ 0x31 (checkAttention u true) i s1 ps →
    ((ps.foldl (fun t p => t.register i.ring i.seq p.e.sequence) s1).forgetRange i.workArea i.workBytes).attTiles u i ps = (s2, none) →
    exec (.attDecode u) s = .next (s2.setFinish i (finDone 0))) ∧
  (∀ (u : CUnit) (i : Item) (s s1 s2 : State) (bs : List MergeEntry), s.mayRun ⟨.unit u, .vector⟩ 0x32 (checkMerge u) i s1 bs →
    bs.foldl (fun (acc : State × Option Finish) b =>
      match acc.2 with
      | some _ => acc
      | none => acc.1.mergeBucket u i b) (s1, none) = (s2, none) →
    exec (.attMerge u) s = .next (s2.setFinish i (finDone 0))) ∧
  (∀ (i : Item) (s s1 : State) (ts : List Nat), s.mayRun kvLane 0x38 (checkBlocks 0) i s1 ts →
    exec .arbLookup s =
      .next (s.kvEnds (((i.pageList.zip ts).foldl (fun (x : Walk) b => x.look i i.sequence b.1 b.2) (s1.walk i)).finish i) i)) ∧
  (∀ (i : Item) (s s1 : State) (ts : List Nat), s.mayRun kvLane 0x39 (checkBlocks 2) i s1 ts →
    exec .arbInsert s =
      .next (s.kvEnds
        (((i.pageList.zip ts).foldl (fun (x : Walk) b => x.insert i (bit i.rec0 32) i.sequence b.1 b.2) (s1.walk i)).finish i) i)) ∧
  (∀ (i : Item) (k : Nat) (s s1 s2 s3 : State), s.mayRun kvLane 0x3A checkUnpin i s1 [k] → i.mapOp ≠ 1 →
    s1.readForUnpin i k = (s2, none) → s2.unpinNode k = some s3 →
    exec .unpin s = .next (s.kvEnds (s3.setFinish i (finDone 0)) i)) ∧
  (∀ (i : Item) (h : FrameEntry) (s s1 s2 : State), s.mayRun kvLane 0x3A checkReopen i s1 () → i.mapOp = 1 →
    s1.readFrame (seqPool (s1.seqEntry i.sequence)) (s1.pte i.sequence i.firstPage).frame = (s2, some h) → h.refs = 1 →
    bits (s2.seqEntry i.sequence) 63 32 = 0 →
    exec .reopen s = .next (s.kvEnds (((s2.changePage i.sequence i.firstPage
      { s1.pte i.sequence i.firstPage with st := 1, slices := 0, shared := false }).markShared i.sequence i.firstPage false).setFinish i
        (finDone 0)) i)) ∧
  (∀ (i : Item) (s s1 : State), s.mayRun kvLane 0x3B (checkSwap (fun _ => true)) i s1 () →
    bits ((s1.setSwapping i.sequence true).seqEntry i.sequence) 63 32 = 0 →
    exec .kvSwapOut s = .next (s.kvEnds (((s1.setSwapping i.sequence true).swapPages i
      (fun t b => t.swapOutPage i b (i.slot0 + (b - i.firstPage)))).setSwapping i.sequence false) i)) ∧
  (∀ (i : Item) (s s1 : State), s.mayRun kvLane 0x3C (checkSwap (fun i => bit i.rec0 32)) i s1 () →
    exec .kvSwapIn s = .next (s.kvEnds (s1.swapPages i (fun t b => t.swapInPage i b)) i))

/-! ### The Keeper and the Lamplighter (chapter 11) -/

/-- R310, R316, R321, R335, R339: arming and disarming the Keeper, the forced safe state and the end of LATCHED. A rule table that
passes every check is stored, marked valid and its CRC shown; another is refused as out of range. -/
def Obligations.KeeperWrites : Prop :=
  (∀ (p : Path) (v : Nat) (x : Bytes) (s : State), s.offered p 0x2800 1 (toLe 1 v) = some x → ofLe x = 1 →
    bit (s.reg Regs.kpRulesValid) 0 = true → s.lifecycle ≠ 2 → s.keeper.phase = .disarmed →
    exec (.kpArmedWrite p v) s = .next (((s.setReg Regs.kpArmed 1).keeperEnters .waiting).accepted p)) ∧
  (∀ (p : Path) (v : Nat) (x : Bytes) (s : State), s.offered p 0x2800 1 (toLe 1 v) = some x → ofLe x = 0 →
    s.keeper.phase = .waiting ∨ s.keeper.phase = .running →
    exec (.kpArmedWrite p v) s = .next (((s.setReg Regs.kpArmed 0).keeperEnters .disarmed).accepted p)) ∧
  (∀ (p : Path) (v : Nat) (x : Bytes) (s : State), s.offered p 0x2800 0x0A (toLe 1 v) = some x → ofLe x = 1 →
    s.keeper.phase = .waiting ∨ s.keeper.phase = .running →
    exec (.kpForceSafe p v) s = .next ((s.safeEntry 6 false).accepted p)) ∧
  (∀ (p : Path) (v : Nat) (x : Bytes) (s : State), s.offered p 0x2800 0x0B (toLe 1 v) = some x → ofLe x = 1 →
    s.keeper.phase = .latched →
    exec (.kpSafeClear p v) s =
      .next (((s.setKeeper { s.keeper with phase := .safe, heldReset := false }).flushEvery.warmRestart.takeDamage).accepted p)) ∧
  (∀ (p : Path) (parked : Bool) (data x : Bytes) (s : State), s.offered p 0x2810 (if parked then 2 else 1) data = some x →
    s.rulesOk parked x = true →
    exec (.rulesWrite p parked data) s =
      .next ((((s.setBlob (if parked then Blobs.kpRulesParked else Blobs.kpRulesDrive) x).setReg Regs.kpRulesValid
        (setBit (s.reg Regs.kpRulesValid) (if parked then 1 else 0) true)).setReg
          (if parked then Regs.kpRulesParkedCrc else Regs.kpRulesDriveCrc) (ofLe (slice x 8 4))).accepted p)) ∧
  (∀ (p : Path) (parked : Bool) (data x : Bytes) (s : State), s.offered p 0x2810 (if parked then 2 else 1) data = some x →
    s.rulesOk parked x = false →
    exec (.rulesWrite p parked data) s = .next (s.finishWrite p 0x2810 (if parked then 2 else 1) (.error outOfRange)))

/-- R308, R312, R318, R320, R323, R324, R325, R335: a declaration joins its epoch, and an epoch gets its verdict when its required runs
are complete, at its deadline, or when it never came. A lockstep mismatch, a lost Keeper clock and the Keeper's watchdog enter the
safe state from WAITING, RUNNING and DISARMED, with their own causes. -/
def Obligations.VerdictsAndLatchInputs : Prop :=
  (∀ (i : Item) (s s1 : State) (ts : List Tensor), s.mayRun ⟨.keeper, .keeper⟩ 0x50 (fun s i => s.checkDeclare i) i s1 ts →
    s.leaseRunning = false → s1.declareCode i ts = none →
    exec .kpDeclare s = .next ((s1.declareRun i).setFinish i (finDone 0))) ∧
  (∀ (e : Epoch) (s : State), s.openEpoch = some e → s.judging = true → requiredIn e = true → s.runsIn e = true →
    s.keeperReads.judging = true → exec .verdict s =
      .next ((s.keeperReads.giveVerdict e.number e.end_ (s.keeperReads.judgeIf e)).takeDamage.canOrdered s.keeperReads)) ∧
  (∀ (e : Epoch) (s : State), s.openEpoch = some e → s.judging = true → requiredIn e = false ∨ s.runsIn e = false →
    s.reached (e.end_ + s.reg Regs.kpDeadline * 65536000) = true →
    s.keeperReads.judging = true → exec .verdictDeadline s =
      .next ((s.keeperReads.giveVerdict e.number e.end_ (s.keeperReads.judgeIf e)).takeDamage.canOrdered s.keeperReads)) ∧
  (∀ (r e : Nat) (s : State), s.keeper.reference = some r → s.keeper.lastEnd = some e → s.openEpoch = none → s.judging = true →
    s.reached (e + (s.reg Regs.kpEpochPeriod + s.reg Regs.kpDeadline) * 65536000) = true →
    exec .epochMissing s =
      .next ((s.giveVerdict r (e + s.reg Regs.kpEpochPeriod * 65536000) { s := s, reasons := 2 ^ 6 }).canOrdered s)) ∧
  (∀ s : State, s.pdOn 1 = true → s.keeper.phase = .waiting ∨ s.keeper.phase = .running ∨ s.keeper.phase = .disarmed →
    exec .lockstepMismatch s = .next (s.safeEntry 1 false) ∧
    exec .keeperClockLoss s = .next (s.safeEntry 3 false) ∧
    exec .keeperWatchdog s = .next (s.safeEntry 4 false))

/-- R308, R309, R336, R341, R343, R344: the Keeper's start, the end of a restart, and HEARTBEAT. The parked rules, the Gardener's
heartbeat and what follows its silence. -/
def Obligations.KeeperStartsAndWatches : Prop :=
  (∀ s s1 : State, s.keeper.startDue = true → s.pdOn 1 = true → s.readKeepBank = (s1, false) → s1.keptSound = true →
    exec (.keeperStartComplete true) s = .next s1.keeperStarts.takeDamage) ∧
  (∀ s : State, s.keeper.phase = .starting → s.shift.phase = .drive →
    s.keeperStarts.keeper.phase = (if s.flag Regs.kpArmed then .waiting else .disarmed) ∧ s.keeperStarts.keeper.faultN = true ∧
      s.keeperStarts.keeper.startDue = false ∧ s.keeperStarts.paths.expectCounter = none ∧ s.keeperStarts.mem = s.mem ∧
      s.keeperStarts.disp = s.disp) ∧
  (∀ (passed lost : Bool) (s s1 : State), s.keeper.startDue = true → s.pdOn 1 = true → s.readKeepBank = (s1, lost) →
    passed = false ∨ lost = true ∨ s1.keptSound = false →
    exec (.keeperStartComplete passed) s = .next (s1.setKeeper { s1.keeper with faultN := false }).keeperLatches) ∧
  (∀ s : State, s.keeper.phase = .safe → s.keeper.restart = .warm → s.keeper.startDue = false →
    (∀ g ∈ s.keeper.testing, s.fenced g = true ∨ s.pdOn (gafferPd g) = false) → (∀ d ∈ List.range 39, s.forcedChange (d + 2) = none) →
    ∃ t, exec .restartReady s = .next t ∧ t.keeper.restart = .none ∧
      t.keeper.phase = (if s.flag Regs.kpArmed then .waiting else .disarmed) ∧ t.disp.shut = false ∧
      t.disp.items = s.disp.items ∧ t.mem = s.mem) ∧
  (∀ s : State, s.pdOn 1 = true → s.keeper.faultN = true → s.keeper.startDue = false →
    s.keeper.beatAt + s.reg Regs.kpHeartbeatHalf * 1000000 ≤ s.now →
    exec .heartbeatToggle s = .next (s.setKeeper { s.keeper with heartbeat := !s.keeper.heartbeat, beatAt := s.now })) ∧
  (∀ s : State, s.keeper.faultN = false ∨ s.now < s.keeper.beatAt + s.reg Regs.kpHeartbeatHalf * 1000000 →
    exec .heartbeatToggle s = .next s) ∧
  (∀ s t : State, s.pdOn 1 = true → s.keeper.phase = .parked → bit (s.reg Regs.kpRulesValid) 1 = true → s.keeper.parkedAt ≤ s.now →
    t = ((s.setKeeper { s.keeper with parkedAt := s.keeper.parkedAt + 100000000 }).observes 70).keeperReads → t.keeper.phase = .parked →
    exec .parkedRuleEval s = .next ((List.range (ruleCount (t.blob Blobs.kpRulesParked []))).foldl
      (fun u k => u.parkedRule (t.blob Blobs.kpRulesParked []) k) t)) ∧
  (∀ s : State, s.pdOn 1 = true → s.pdOn 45 = true → s.keeper.gardenerOff = false →
    exec .gardenerHeartbeat s = .next (s.setKeeper { s.keeper with gardenerAt := s.now })) ∧
  (∀ s : State, s.pdOn 1 = true → s.keeper.gardenerOff = false → s.boot.phase = .ready → s.keeper.startDue = false →
    s.keeper.gardenerAt + s.reg Regs.kpGardenerWd * 1000000 ≤ s.now →
    exec .gardenerWatchdog s = .next s.gardenerRestarts)

/-- R328, R329, R330, R331, R332, R334 (logs 52 and 57): the slot of the rotation that is next starts at its time and starts its gaffer's golden set, a
deferred attempt comes 100 ms later, a set passes or fences its gaffer, and a set that runs 100 ms is forced again. -/
def Obligations.LamplighterTestsGaffers : Prop :=
  (∀ (g : Fin 32) (missed : List Nat) (s : State), s.flag Regs.llEnable = true → s.pdOn 1 = true → s.keeper.slot = g.val →
    s.keeper.slotAt ≤ s.now →
    exec (.lamplighterSlot g missed) s = .next (s.slotStarts g.val missed)) ∧
  (∀ (g : Fin 32) (s : State), g.val ≠ 0 → s.slotLive g.val = true → s.gafferIdle g.val = true → (s.goldenOf g.val).running = false →
    s.ddrSkips (g.val % 8) = false →
    ∃ t, s.slotStarts g.val [] = t ∧ t.keeper.slot = (g.val + 1) % 32 ∧ t.keeper.slotAt = s.keeper.slotAt + 100000000 ∧
      (t.goldenOf g.val).running = true ∧ (t.goldenOf g.val).forced = false ∧ (t.goldenOf g.val).since = some s.now ∧
      t.regs = s.regs ∧ t.mem = s.mem ∧ t.disp = s.disp ∧ t.out = s.out) ∧
  (∀ (g : Fin 32) (missed : List Nat) (s : State), s.flag Regs.llEnable = true → s.pdOn 1 = true → s.slotNow g.val = false →
    0 < (s.goldenOf g.val).deferred → (s.goldenOf g.val).dueAt ≤ s.now →
    exec (.lamplighterSlot g missed) s = .next (s.slotDue g.val)) ∧
  (∀ (g : Fin 32) (s : State), (s.goldenOf g.val).running = false → s.slotLive g.val = true → s.gafferIdle g.val = false →
    ((s.goldenOf g.val).deferred < 3 → s.slotDue g.val = (s.setGolden g.val { s.goldenOf g.val with
      deferred := (s.goldenOf g.val).deferred + 1, dueAt := s.now + 100000000 }).bump Regs.llDeferrals) ∧
    (3 ≤ (s.goldenOf g.val).deferred → s.slotDue g.val = s.forceGolden g.val)) ∧
  (∀ (g : Fin 32) (results : List Nat) (s : State), (s.goldenOf g.val).running = true → s.goldenWaits g.val = false →
    s.slotLive g.val = true → s.goldenFailure (s.testedWith g.val) results = none →
    exec (.goldenSetComplete g results) s =
      .next (((s.forgetArea g.val).spendStrikes (s.testedWith g.val)).goldenPassed g.val)) ∧
  (∀ (g : Fin 32) (results : List Nat) (k : Nat) (s : State), (s.goldenOf g.val).running = true → s.goldenWaits g.val = false →
    s.goldenFailure (s.testedWith g.val) results = some k →
    ∃ t u, exec (.goldenSetComplete g results) s = .next t ∧
      u = (if s.slotLive g.val = true then s.forgetArea g.val else s).spendStrikes (s.testedWith g.val) ∧
      t = ((u.setGolden g.val { u.goldenOf g.val with running := false, forced := false, deferred := 0, since := none,
                                                      behind := [] }).bump Regs.llGoldenFails).fence g.val 3) ∧
  (∀ (g : Fin 32) (s : State), s.goldenFailure [g.val] ((List.range 11).map Config.goldenSignature) = none ↔
    ¬ (Gaffer.struck (s.gaffer g.val).arrayFault = true ∨ Gaffer.struck (s.gaffer g.val).vectorFault = true)) ∧
  (∀ (g : Fin 32) (t : Nat) (s : State), (s.goldenOf g.val).running = true → (s.goldenOf g.val).since = some t →
    t + 100000000 ≤ s.now →
    exec (.setMissed g) s = .next (((s.bump Regs.llMissed).logs
      { severity := .contained, source := 14, kind := 40, sub := g.val }).forceGolden g.val))

/-! ### Integrity, the host link and DDR5 (chapters 9, 12, 13 and 17) -/

/-- R358, R360, R365, R376: the patrol scrubs meet what they read, and the message of corrected events is held to its rate. -/
def Obligations.ScrubsAndHoldoff : Prop :=
  (∀ (addr d : Nat) (s : State), arrayDomain .mapped (addr / 8 * 8) = some d → s.pdOn d = true →
    addr / 8 * 8 ∈ s.mem.suspects (addr / 8 * 8) 8 →
    exec (.sramPatrolScrub .mapped addr) s = .next (if regionOf (addr / 8 * 8) = .kvTables then
        ((s.meetSram none (addr / 8 * 8)).1.kvDamaged (s.meetSram none (addr / 8 * 8)).2).policyFences
      else (s.meetSram none (addr / 8 * 8)).1.policyFences)) ∧
  (∀ (addr d : Nat) (s : State), arrayDomain .mapped (addr / 8 * 8) = some d → s.pdOn d = true →
    addr / 8 * 8 ∉ s.mem.suspects (addr / 8 * 8) 8 → exec (.sramPatrolScrub .mapped addr) s = .next s) ∧
  (∀ (addr d : Nat) (array : SramArray) (s : State), array ≠ .mapped → arrayDomain array (addr / 8 * 8) = some d → s.pdOn d = true →
    exec (.sramPatrolScrub array addr) s = .next (if array = .keeperMem then
        (s.meetArray array (addr / 8 * 8)).1.keeperDamaged (s.meetArray array (addr / 8 * 8)).2
      else (s.meetArray array (addr / 8 * 8)).1)) ∧
  (∀ (addr : Nat) (s : State), s.ddrScrubs (addr / 64 * 64) = true → addr / 64 * 64 ∈ s.scrubbed.mem.suspects (addr / 64 * 64) 64 →
    exec (.ddrPatrolScrub addr) s = .next ((s.scrubbed.meetDdr none (addr / 64 * 64)).1.takeDamage)) ∧
  (∀ (addr : Nat) (s : State), s.ddrScrubs (addr / 64 * 64) = true → addr / 64 * 64 ∉ s.scrubbed.mem.suspects (addr / 64 * 64) 64 →
    exec (.ddrPatrolScrub addr) s = .next s.scrubbed) ∧
  (∀ (t : Nat) (s : State), s.log.holdoffSince = some t → t + s.reg Regs.errCorrectedHoldoff * 1000 ≤ s.now →
    s.log.correctedDue = false →
    exec .errCorrectedHoldoff s = .next { s with log := { s.log with holdoffSince := none } }) ∧
  (∀ (t : Nat) (s : State), s.log.holdoffSince = some t → t + s.reg Regs.errCorrectedHoldoff * 1000 ≤ s.now →
    s.log.correctedDue = true →
    exec .errCorrectedHoldoff s = .next { s.msix (s.reg Regs.errVectorCorrected) with
      log := { s.log with holdoffSince := some s.now, correctedDue := false } })

/-- R277, R278, R364, R375, R378, R401, R503, R504: a KV pool is enabled with every frame free, and disabled once no sequence uses
it. Device marks, page retirement and its undoing, the log's read pointer and the interleave. The function of a trigger pin and an
observation multiplexer are written by their owner. -/
def Obligations.PoolMemoryAndPinWrites : Prop :=
  (∀ (p : Path) (k : Fin 4) (v : Nat) (x : Bytes) (s : State), s.offered p (0x2610 + k.val) 1 (toLe 1 v) = some x → ofLe x = 1 →
    s.flag (Regs.kvpEnable k.val) = false → s.poolPlace k.val = true → s.metaPlace k.val = true → s.poolClash k.val = none →
    exec (.kvpEnable p k v) s = .next (((s.freeAll k.val).setReg (Regs.kvpEnable k.val) 1).accepted p)) ∧
  (∀ (p : Path) (k : Fin 4) (v : Nat) (x : Bytes) (s : State), s.offered p (0x2610 + k.val) 1 (toLe 1 v) = some x → ofLe x = 0 →
    s.flag (Regs.kvpEnable k.val) = true → s.activeIn (some k.val) = 0 →
    exec (.kvpEnable p k v) s = .next (((s.setReg (Regs.kvpEnable k.val) 0).setPool k.val {}).accepted p)) ∧
  (∀ (p : Path) (sc : Fin 8) (v : Nat) (x : Bytes) (s : State), s.offered p (0x2A28 + sc.val) 1 (toLe 2 v) = some x →
    markOk (ofLe x) 0 = true → markOk (ofLe x) 1 = true → s.reg Regs.ddrWidth ≠ 1 →
    exec (.scMarkedWrite p sc v) s = .next (((s.writeMark sc.val (ofLe x) 0).writeMark sc.val (ofLe x) 1).accepted p)) ∧
  (∀ (p : Path) (v : Nat) (x : Bytes) (s : State), s.offered p 0x2A20 6 (toLe 8 v) = some x →
    ofLe x ∉ s.ddr.retired → s.ddr.retired.length < 256 → ofLe x % 4096 = 0 → ofLe x < s.ddr.capacity →
    overlaps (ofLe x) 4096 s.driveLo s.driveLen = false → clash s.bufferClaims 255 0 (ofLe x) 4096 = none →
    exec (.ddrRetire p v) s = .next ((s.pageLogged (ofLe x) 0 (sortBy id (ofLe x :: s.ddr.retired))).accepted p)) ∧
  (∀ (p : Path) (v : Nat) (x : Bytes) (s : State), s.offered p 0x2A20 7 (toLe 8 v) = some x → ofLe x ∈ s.ddr.retired →
    exec (.ddrUnretire p v) s = .next ((s.pageLogged (ofLe x) 1 (s.ddr.retired.filter (· != ofLe x))).accepted p)) ∧
  (∀ (p : Path) (v : Nat) (x : Bytes) (s : State), s.offered p 0x2010 2 (toLe 4 v) = some x →
    exec (.errLogReadSeq p v) s =
      .next ({ s with log := { s.log with readSeq := kset s.log.readSeq (pathKey p) (ofLe x) } }.accepted p)) ∧
  (∀ (p : Path) (v : Nat) (x : Bytes) (s : State), s.offered p 0x2A00 6 (toLe 1 v) = some x → s.interleaveHeld = none →
    exec (.ddrInterleaveWrite p v) s = .next ((s.setReg Regs.ddrInterleave (ofLe x)).forgetDdr.accepted p)) ∧
  (∀ (p : Path) (v : Nat) (x : Bytes) (s : State) (e : Reply), s.offered p 0x2A00 6 (toLe 1 v) = some x → s.interleaveHeld = some e →
    exec (.ddrInterleaveWrite p v) s = .next (s.finishWrite p 0x2A00 6 (.error e))) ∧
  (∀ (p : Path) (k : Fin 4) (v : Nat) (x : Bytes) (s : State), s.offered p (0x2C10 + k.val) 2 (toLe 1 v) = some x →
    s.reg (Regs.tpinOwner k.val) = s.writer p → s.reg (Regs.tpinOwner k.val) ≠ 0 →
    exec (.tpinFuncWrite p k v) s = .next ((s.tpinChange k.val (ofLe x)).accepted p)) ∧
  (∀ (p : Path) (m : Fin 2) (v : Nat) (x : Bytes) (s : State), s.offered p (0x2C20 + m.val) 3 (toLe 2 v) = some x →
    obsListed (ofLe x) = true → s.reg (Regs.obsOwner m.val) = s.writer p → s.reg (Regs.obsOwner m.val) ≠ 0 →
    exec (.obsSelectWrite p m v) s = .next ((s.setReg (Regs.obsSelect m.val) (ofLe x)).accepted p))

/-- R381, R385, R387, R388, R389, R446 (logs 12 and 47): the aperture, its size, the host window's table and a host read that failed.
Nothing of them reaches a PCIe endpoint that is off. -/
def Obligations.ApertureAndHostWindow : Prop :=
  (∀ (off len : Nat) (bs : Bytes) (s s1 : State), s.pdOn 44 = true → off + len ≤ s.reg Regs.hifBar2Size →
    s.readMem .bar2 none (s.reg Regs.hifApertureBase + off) len = (s1, .bytes bs [] none) →
    exec (.bar2Read off len) s = .next (s1.emit (.bar2 bs false)).takeDamage) ∧
  (∀ (off len : Nat) (s s1 : State), s.pdOn 44 = true → off + len ≤ s.reg Regs.hifBar2Size →
    s.readMem .bar2 none (s.reg Regs.hifApertureBase + off) len = (s1, .absent) →
    s1.answer .bar2 (s.reg Regs.hifApertureBase + off) len false ≠ .off →
    exec (.bar2Read off len) s = .next ((s1.aer 20).emit .bar2Unsupported)) ∧
  (∀ (off len : Nat) (s s1 : State), s.pdOn 44 = true → off + len ≤ s.reg Regs.hifBar2Size →
    s.readMem .bar2 none (s.reg Regs.hifApertureBase + off) len = (s1, .absent) →
    s1.answer .bar2 (s.reg Regs.hifApertureBase + off) len false = .off →
    exec (.bar2Read off len) s =
      .next (((s1.notPresent none (s.reg Regs.hifApertureBase + off) .off).aer 20).emit .bar2Unsupported)) ∧
  (∀ (off len : Nat) (s : State), s.pdOn 44 = true → s.reg Regs.hifBar2Size < off + len →
    exec (.bar2Read off len) s = .next ((s.aer 20).emit .bar2Unsupported)) ∧
  (∀ (off : Nat) (data : Bytes) (s s1 : State), s.pdOn 44 = true → off + data.length ≤ s.reg Regs.hifBar2Size →
    s.writeMem .bar2 (s.reg Regs.hifApertureBase + off) data = (s1, .ok) →
    exec (.bar2Write off data false) s = .next s1) ∧
  (∀ (off : Nat) (data : Bytes) (s s1 : State), s.pdOn 44 = true → off + data.length ≤ s.reg Regs.hifBar2Size →
    (s.aer 12).writeMem .bar2 (s.reg Regs.hifApertureBase + off) data = (s1, .ok) →
    exec (.bar2Write off data true) s = .next (s1.pokePoison (s.reg Regs.hifApertureBase + off) data.length)) ∧
  (∀ (off : Nat) (data : Bytes) (ans : Answer) (s s1 : State), s.pdOn 44 = true → off + data.length ≤ s.reg Regs.hifBar2Size →
    s.writeMem .bar2 (s.reg Regs.hifApertureBase + off) data = (s1, ans) → ans ≠ .ok →
    exec (.bar2Write off data false) s = .next (s1.notPresent none (s.reg Regs.hifApertureBase + off) ans)) ∧
  (∀ (off len i v : Nat) (data : Bytes) (bad : Bool) (k : Fin 64) (s : State), s.pdOn 44 = false →
    exec (.bar2Read off len) s = .next s ∧ exec (.bar2Write off data bad) s = .next s ∧ exec (.bar2Resize k) s = .next s ∧
    exec (.xlateEntryWrite i v) s = .next s ∧ exec .hotReset s = .next s ∧ exec .flr s = .next s) ∧
  (∀ (k : Fin 64) (s : State), s.pdOn 44 = true → 28 ≤ k.val → k.val ≤ 37 → s.reg Regs.hifBar2Size ≠ 2 ^ k.val →
    exec (.bar2Resize k) s = .next ((s.setReg Regs.hifBar2Size (2 ^ k.val)).setReg Regs.hifApertureBase 0)) ∧
  (∀ (i v : Nat) (s : State), s.pdOn 44 = true → v < 2 ^ 64 →
    ∃ t, exec (.xlateEntryWrite i v) s = .next t ∧ kget t.link.xlate i 0 % 8 = v % 8 ∧ kget t.link.xlate i 0 >>> 24 = v >>> 24 ∧
      bits (kget t.link.xlate i 0) 23 3 = 0 ∧ (∀ k, k ≠ i → kget t.link.xlate k 0 = kget s.link.xlate k 0) ∧
      t.mem = s.mem ∧ t.hostMem = s.hostMem ∧ t.regs = s.regs ∧ t.disp = s.disp) ∧
  (∀ (r : Fin 64) (seq addr : Nat) (i : Item) (s : State), s.item? r.val seq = some i → regionOf addr = .host →
    ∃ (t : State) (k : Nat), exec (.hostReadFail r seq addr) s = .next t ∧
      t.link.failedReads = ⟨r.val, seq, addr, k⟩ :: s.link.failedReads ∧
      t.reg Regs.hifHostReadFails = satAdd (2 ^ 32 - 1) (s.reg Regs.hifHostReadFails) 1 ∧ t.mem = s.mem ∧ t.disp = s.disp) ∧
  (∀ (r : Fin 64) (seq addr : Nat) (s : State), s.item? r.val seq = none → s.readsRecords r.val seq = true → regionOf addr = .host →
    ∃ (t : State) (k : Nat), exec (.hostReadFail r seq addr) s = .next t ∧
      t.link.failedReads = ⟨r.val, seq, addr, k⟩ :: s.link.failedReads ∧ t.mem = s.mem ∧ t.disp = s.disp) ∧
  (∀ (r : Fin 64) (seq addr : Nat) (g : Staging) (s : State), s.item? r.val seq = none → s.readsRecords r.val seq = false →
    s.boot.staging = some g → s.stagingReads addr = true → regionOf addr = .host →
    ∃ t, exec (.hostReadFail r seq addr) s = .next t ∧ t.boot.staging = some { g with failed := true } ∧ t.mem = s.mem ∧ t.disp = s.disp)

/-- R382, R397, R403, R404 (logs 12 and 61): what a link event leaves: the link's registers, configuration space, the translation table and the memory.
Retraining is counted, a training ends, and a loss of VDDQ_DDR leaves DDR5 untrained and a sealed drive region damaged. -/
def Obligations.LinkEventsAndDdrTraining : Prop :=
  (∀ (rate : Fin 6) (width : Nat) (s : State), 3 ≤ rate.val → width ∈ [1, 2, 4, 8] → s.link.perst = false → s.pdOn 44 = true →
    exec (.linkUp rate width) s = .next (s.link.heldMsix.foldl State.msix (((((s.setReg Regs.hifLinkUp 1).setReg Regs.hifLinkRate
      rate.val).setReg Regs.hifLinkWidth width).setReg Regs.hifBelowFloor 0).setHostLink { s.link with heldMsix := [] }))) ∧
  (∀ s : State, s.flag Regs.hifLinkUp = true →
    ∃ t, exec .linkDown s = .next t ∧ t.flag Regs.hifLinkUp = false ∧ t.reg Regs.hifLinkRate = 0 ∧
      t.reg Regs.hifLinkDowns = satAdd (2 ^ 32 - 1) (s.reg Regs.hifLinkDowns) 1 ∧ t.link.xlate = s.link.xlate ∧ t.drive = s.drive) ∧
  (∀ s : State, s.pdOn 44 = true → ∃ t, exec .hotReset s = .next t ∧ t.flag Regs.hifLinkUp = false ∧ t.link.unmasked = [] ∧ t.link.xlate = s.link.xlate ∧
      (∀ r, r < 64 → t.flag (Regs.ringEnable r) = false) ∧ (∀ c, c < 64 → t.flag (Regs.cqEnable c) = false) ∧ t.drive = s.drive) ∧
  (∀ s : State, s.pdOn 44 = true → ∃ t, exec .flr s = .next t ∧ t.link.xlate = [] ∧ t.link.unmasked = [] ∧
      t.reg Regs.hifBar2Size = Regs.hifBar2Size.dflt ∧ (∀ r, r < 64 → t.flag (Regs.ringEnable r) = false) ∧ t.drive = s.drive) ∧
  (∀ s : State, ∃ t, exec .perstAssert s = .next t ∧ t.link.perst = true ∧ t.link.xlate = [] ∧ t.flag Regs.hifLinkUp = false ∧
      (∀ r, r < 64 → t.flag (Regs.ringEnable r) = false) ∧ t.drive = s.drive) ∧
  (∀ s : State, exec .perstRelease s = .next (s.setHostLink { s.link with perst := false })) ∧
  (∀ (sc : Fin 8) (s : State), s.ddrPair (sc.val / 4) = .trained ∨ s.ddrPair (sc.val / 4) = .restored → s.pdOn (42 + sc.val / 4) = true →
    exec (.ddrRetrain sc) s = .next (s.bump Regs.ddrRetrains)) ∧
  (∀ (k : Fin 2) (s : State), s.trainingDue k.val = true →
    ∃ t, exec (.ddrTrainingComplete k true true) s = .next t ∧ t.ddrPair k.val = .trained ∧ t.reg Regs.ddrTrainTime ≤ 250000 ∧
      t.mem = s.mem ∧ t.disp = s.disp ∧ t.keeper = s.keeper) ∧
  (∀ (k : Fin 2) (s : State), s.trainingDue k.val = true →
    ∃ t, exec (.ddrTrainingComplete k false true) s = .next t ∧ t.ddrPair k.val = .untrained ∧ t.reg Regs.ddrTrainState = 0 ∧
      t.mem = s.mem ∧ t.disp = s.disp) ∧
  (∀ (k : Fin 2) (s : State), s.trainingDue k.val = true → s.trainsInFull k.val = false →
    ∃ t, exec (.ddrTrainingComplete k true false) s = .next t ∧ t.ddrPair k.val = .restored ∧ t.mem = s.mem ∧ t.disp = s.disp ∧
      t.keeper = s.keeper) ∧
  (∀ (k : Fin 2) (s : State), s.trainingDue k.val = true → s.trainsInFull k.val = false →
    ∃ t, exec (.ddrTrainingComplete k false false) s = .next t ∧ t.ddrPair k.val = .selfRefresh ∧ t.trainsInFull k.val = true ∧
      t.regs = s.regs ∧ t.mem = s.mem ∧ t.disp = s.disp ∧ t.log = s.log) ∧
  (∀ (k : Fin 2) (good : Bool) (s : State), s.trainsInFull k.val = true → exec (.ddrTrainingComplete k good false) s = .next s) ∧
  (∀ s : State, s.driveSealed = false →
    ∃ t, exec .vddqDdrLoss s = .next t ∧ t.ddrPair 0 = .untrained ∧ t.ddrPair 1 = .untrained ∧ t.reg Regs.ddrTrainState = 0 ∧
      t.hostMem = s.hostMem ∧ t.keeper = s.keeper ∧ t.disp = s.disp ∧
      (∀ a, 0x2000000000 ≤ a → t.mem.get a = s.mem.get a)) ∧
  (∀ s : State, s.driveSealed = true → s.pdOn 1 = false →
    ∃ t, exec .vddqDdrLoss s = .next t ∧ t.reg Regs.ddrDriveDamaged = 1 ∧ t.keeper.damage = true ∧ t.ddrPair 0 = .untrained)

/-- R9, R12, R13, R14, R368, R505, R506, R507 (log 67): the first transfer of a good packet enters the FIFO of its side with the output
that its destination gives, and the next ones follow it; a refused copy is counted and stays in its sender's retry buffer, and the
fourth arrives as poison. A sender without a credit, a link at the edge of the mesh, a packet that is not of its class and a Promenade
that is off bring nothing. An instruction that JTAG_ACCESS does not allow acts as BYPASS, every other one takes effect, and all of them
act as BYPASS while KP_ARMED is 1. -/
def Obligations.PacketsEnterAndJtagFollowsAccess : Prop :=
  (∀ (k : Fin 48) (port : Port) (e : Nat) (more : List Nat) (pkt : Packet) (l : Nat × Nat) (s : State),
    linkInto k.val (portNumber port) = some l → kfind (s.stop k.val).retry (portNumber port) = none → copyGood e = true →
    s.mayEnter k.val (portNumber port) pkt 0 = true → (s.stop k.val).partial_ (portNumber port) pkt.traffic = none →
    (s.lastSecond (kget (s.stop l.1).poisons l.2 [])).length < 2 → (s.lastSecond (kget (s.stop l.1).retries l.2 [])).length ≤ 1000 →
    pkt.item ≠ none → pkt.poisoned = [] →
    ∃ t, exec (.promenadePacket k port (e :: more) pkt 0) s = .next t ∧ (t.stop k.val).held = (s.stop k.val).held ++
        [⟨portNumber port, routePort k.val pkt.dst.val, { pkt with payload := spoilPayload e 0 pkt.payload }, 1, 0⟩] ∧
      (e = 0 → spoilPayload e 0 pkt.payload = pkt.payload) ∧ (t.stop k.val).outbox = (s.stop k.val).outbox ∧
      t.regs = s.regs ∧ t.mem = s.mem ∧ t.disp = s.disp ∧ (∀ j, j ≠ k.val → t.stop j = s.stop j)) ∧
  (∀ (k : Fin 48) (port : Port) (e : Nat) (more : List Nat) (pkt : Packet) (n : Fin 4) (l : Nat × Nat) (h : Held) (s : State),
    linkInto k.val (portNumber port) = some l → kfind (s.stop k.val).retry (portNumber port) = none → copyGood e = true →
    s.mayEnter k.val (portNumber port) pkt n.val = true → (s.stop k.val).partial_ (portNumber port) pkt.traffic = some h →
    (s.lastSecond (kget (s.stop l.1).poisons l.2 [])).length < 2 → (s.lastSecond (kget (s.stop l.1).retries l.2 [])).length ≤ 1000 →
    pkt.item ≠ none → pkt.poisoned = [] → h.pkt.poisoned = [] →
    ∃ t, exec (.promenadePacket k port (e :: more) pkt n) s = .next t ∧ (t.stop k.val).held = replaceFirst (· == h)
        (fun _ => { h with got := h.got + 1, pkt := { pkt with payload := spoilPayload e n.val h.pkt.payload } }) (s.stop k.val).held ∧
      t.regs = s.regs ∧ t.mem = s.mem ∧ t.disp = s.disp) ∧
  (∀ (k : Fin 48) (port : Port) (e : Nat) (pkt : Packet) (n : Fin 4) (l : Nat × Nat) (s : State),
    linkInto k.val (portNumber port) = some l → kfind (s.stop k.val).retry (portNumber port) = none → copyGood e = false →
    s.mayEnter k.val (portNumber port) pkt n.val = true → (s.lastSecond (kget (s.stop l.1).poisons l.2 [])).length < 2 →
    (s.lastSecond (kget (s.stop l.1).retries l.2 [])).length < 1000 → pkt.item ≠ none → s.mem.flaws = [] →
    ∃ t, exec (.promenadePacket k port [e] pkt n) s = .next t ∧ (t.stop k.val).held = (s.stop k.val).held ∧
      kfind (t.stop k.val).retry (portNumber port) = some ⟨pkt, n.val, 1⟩ ∧
      t.reg Regs.linkRetries = satAdd (2 ^ 32 - 1) (s.reg Regs.linkRetries) 1 ∧ t.reg Regs.linkPoisoned = s.reg Regs.linkPoisoned ∧
      t.mem = s.mem ∧ t.disp.items = s.disp.items) ∧
  (∀ (k : Fin 48) (port : Port) (e : Nat) (pkt : Packet) (n : Fin 4) (l : Nat × Nat) (s : State),
    linkInto k.val (portNumber port) = some l → kfind (s.stop k.val).retry (portNumber port) = some ⟨pkt, n.val, 3⟩ → copyGood e = false →
    s.mayEnter k.val (portNumber port) pkt n.val = true → pkt.item ≠ none → s.mem.flaws = [] →
    ∃ t, exec (.promenadePacket k port [e] pkt n) s = .next t ∧ kfind (t.stop k.val).retry (portNumber port) = none ∧
      t.reg Regs.linkRetries = s.reg Regs.linkRetries ∧ t.reg Regs.linkPoisoned = satAdd (2 ^ 32 - 1) (s.reg Regs.linkPoisoned) 1 ∧
      (∃ h ∈ (t.stop k.val).held, h.inp = portNumber port ∧ n ∈ h.pkt.poisoned) ∧ t.mem = s.mem) ∧
  (∀ (k : Fin 48) (port : Port) (copies : List Nat) (pkt : Packet) (n : Fin 4) (s : State), linkInto k.val (portNumber port) = none ∨
      s.pdOn 41 = false ∨ packetLawful pkt = false ∨ (s.stop k.val).hasCredit k.val (portNumber port) pkt.traffic = false →
    exec (.promenadePacket k port copies pkt n) s = .next s) ∧
  (∀ (code : Fin 256) (s : State), s.flag Regs.kpArmed = true → s.pdOn 46 = true →
    exec .extest s = .next (s.setPins { s.pins with jtag := .bypass }) ∧
    exec .clamp s = .next (s.setPins { s.pins with jtag := .bypass }) ∧
    exec .highz s = .next (s.setPins { s.pins with jtag := .bypass }) ∧
    (0x80 ≤ code.val → exec (.bypass code) s = .next (s.setPins { s.pins with jtag := .bypass }))) ∧
  (∀ (code : Fin 256) (s : State), s.flag Regs.kpArmed = false → s.lifecycle ≠ 1 → s.lifecycle ≠ 2 → s.pdOn 46 = true →
    exec .extest s = .next (s.setPins { s.pins with jtag := .extest }) ∧
    exec .clamp s = .next (s.setPins { s.pins with jtag := .clamp }) ∧
    exec .highz s = .next (s.setPins { s.pins with jtag := .highz }) ∧
    (0x80 ≤ code.val → code.val ≤ 0xFE → exec (.bypass code) s = .next (s.setPins { s.pins with jtag := .keryomos code.val }))) ∧
  (∀ (code : Fin 256) (data : List Bool) (s : State), s.pdOn 46 = true →
    (code.val = 0 ∨ (5 < code.val ∧ code.val < 0x80) ∨ code.val = 0xFF →
      exec (.bypass code) s = .next (s.setPins { s.pins with jtag := .bypass })) ∧
    exec .idcode s = .next ((s.setPins { s.pins with jtag := .idcode }).emit (.jtag (s.reg Regs.jtagIdcode))) ∧
    exec (.samplePreload data) s = .next ((s.setPins { s.pins with jtag := .samplePreload, boundary := data }).emit
      (.sampled (chainPins.map s.captured)))) ∧
  (∀ s : State, exec .tapReset s = .next (s.setPins { s.pins with jtag := .idcode }))

/-- R309, R446, R491, R503, R504, R507 (log 48): the observation pins are high-Z while their multiplexer is off or selects nothing, and show a gaffer's
fence and the power domains that are on; whatever instruction JTAG has decoded, a low fault latch is never driven high, and outside
the boundary modes the pins show the latch. A trigger pin is high-Z without its bank's supply and follows its pulse's polarity. -/
def Obligations.PinsShowTheirSources : Prop :=
  (∀ (s : State) (m i : Nat), s.flag (Regs.obsEnable m) = false ∨ bits (s.reg (Regs.obsSelect m)) 15 12 = 0 ∨ s.pdOn 46 = false →
    s.obsPin m i = none) ∧
  (∀ (s : State) (m g : Nat), s.drivesPins 46 = true → s.flag (Regs.obsEnable m) = true → s.lifeLocked (0x2C20 + m) 2 = false →
    bits (s.reg (Regs.obsSelect m)) 15 12 = 1 → bits (s.reg (Regs.obsSelect m)) 11 0 = g → s.obsPin m 3 = some (s.fenced g)) ∧
  (∀ (s : State) (m a b : Nat), s.drivesPins 46 = true → s.flag (Regs.obsEnable m) = true → s.lifeLocked (0x2C20 + m) 2 = false →
    bits (s.reg (Regs.obsSelect m)) 15 12 = 2 → bits (s.reg (Regs.obsSelect m)) 11 0 = a → b < 8 → 8 * a + b < 47 →
    s.obsPin m b = some (s.pdOn (8 * a + b))) ∧
  (∀ s : State, (s.keeper.safeN = false → s.safePin ≠ some true) ∧ (s.keeper.faultN = false → s.faultPin ≠ some true)) ∧
  (∀ s : State, s.drivesPins 1 = true → s.tapNow ≠ .extest → s.tapNow ≠ .clamp → s.tapNow ≠ .highz →
    s.safePin = some s.keeper.safeN ∧ s.faultPin = some s.keeper.faultN) ∧
  (∀ s : State, s.flag Regs.kpArmed = true → s.tapNow ≠ .extest ∧ s.tapNow ≠ .clamp ∧ s.tapNow ≠ .highz) ∧
  (∀ (s : State) (t : Nat), s.pins.io33 = false → s.trigPin t = none) ∧
  (∀ (s : State) (t : Nat), s.drivesPins 1 = true → s.pins.io33 = true → kget s.pins.tpinActive t 0 = 1 →
    s.trigPin t = some (s.trigActive t != s.flag (Regs.trigPolarity t)))

/-! ### Power, supplies and sleep (chapter 15) -/

/-- R408, R442, R443, R445, R447, R452 (log 44): a request for power states that R443 does not refuse, the way to sleep, and BOOT_RESTART. A step
of a change of power state ends, and the cap lowers the level of one plot group, raises one, or counts. -/
def Obligations.PowerChangesAndCap : Prop :=
  (∀ (p : Path) (d : Fin 47) (data x : Bytes) (s : State), s.offered p (0x2110 + d.val) 1 data = some x →
    s.pdRefused (fun k => if k = d.val then some (pdStateOf (ofLe x)) else none) = none →
    ∃ t, s.hostRequests (fun k => if k = d.val then some (pdStateOf (ofLe x)) else none) = .ok t ∧
      exec (.pdRequest p (some d) data) s = .next (t.accepted p)) ∧
  (∀ (p : Path) (data x : Bytes) (s : State), s.offered p 0x2100 5 data = some x →
    x.all (fun b => [0, 1, 2, 0xFF].contains b.toNat) = true →
    s.pdRefused (fun d => match x[d]? with
      | some b => if b = 0xFF then none else some (pdStateOf b.toNat)
      | none => none) = none →
    ∃ t, s.hostRequests (fun d => match x[d]? with
      | some b => if b = 0xFF then none else some (pdStateOf b.toNat)
      | none => none) = .ok t ∧ exec (.pdRequest p none data) s = .next (t.accepted p)) ∧
  (∀ (p : Path) (data : Bytes) (s : State), s.offered p 0x2101 1 data = some data → data.length = 47 → s.sleepRefused data = none →
    ∃ t, hookSleep s p data = .ok t ∧ exec (.pwrSleepEnter p data) s = .next (t.accepted p) ∧ t.power.doorbellsShut = true) ∧
  (∀ (p : Path) (data x : Bytes) (s : State) (e : Reply), s.offered p 0x2101 1 data = some x → data.length = 47 →
    s.sleepRefused data = some e →
    ∃ t, exec (.pwrSleepEnter p data) s = .next t ∧ t.power.phase = s.power.phase ∧ t.power.domains = s.power.domains) ∧
  (∀ (p : Path) (v : Nat) (x : Bytes) (s : State), s.offered p 0x2B00 0x0B (toLe 1 v) = some x → ofLe x = 1 →
    exec (.bootRestart p v) s = .next ((((s.setReg Regs.bootFailCount 0).resetFor .restart).beginStart).accepted p)) ∧
  (∀ (d : Fin 47) (v : PdState) (s : State), (s.pd d.val).target = some v → (s.pd d.val).forced = false → (s.pd d.val).begun = true →
    s.stepMayEnd d.val v = true → (s.pdStepDone d.val).power.phase = .awake →
    exec (.pdTransitionComplete d) s = .next (s.pdStepDone d.val)) ∧
  (∀ (d : Fin 47) (v : PdState) (s : State), (s.pd d.val).target = some v → (s.pd d.val).forced = false → (s.pd d.val).begun = true →
    s.stepMayEnd d.val v = false → exec (.pdTransitionComplete d) s = .next s) ∧
  (∀ (d : Fin 47) (v : PdState) (s : State), (s.pd d.val).target = some v → (s.pd d.val).forced = false → (s.pd d.val).begun = false →
    s.mayStart d.val v = true → (s.pdStarts d.val).stepMayEnd d.val v = false →
    exec (.pdTransitionComplete d) s = .next (s.pdStarts d.val)) ∧
  (∀ (d : Fin 47) (v : PdState) (s : State), (s.pd d.val).target = some v → (s.pd d.val).forced = false → (s.pd d.val).begun = false →
    s.mayStart d.val v = false → exec (.pdTransitionComplete d) s = .next s) ∧
  (∀ (mW g : Nat) (s t : State), (∀ l, s.power.capAt = some l → l + 100000 ≤ s.now) →
    t = s.setPower { s.power with samples := (mW :: s.power.samples).take 10, capAt := some s.now } → t.overCap = true →
    highestBy t.capRank (t.plotGroups.filter (fun k => decide (t.reg (Regs.gafferLevelNow k) ≠ 0))) = some g →
    exec (.powerCapTick mW) s = .next ((t.setLevelNow g (t.reg (Regs.gafferLevelNow g) - 1)).setPower { t.power with overrunTick := 0 })) ∧
  (∀ (mW : Nat) (s t : State), (∀ l, s.power.capAt = some l → l + 100000 ≤ s.now) →
    t = s.setPower { s.power with samples := (mW :: s.power.samples).take 10, capAt := some s.now } → t.overCap = true →
    highestBy t.capRank (t.plotGroups.filter (fun k => decide (t.reg (Regs.gafferLevelNow k) ≠ 0))) = none → t.power.overrunTick = 9 →
    exec (.powerCapTick mW) s = .next ((t.setPower { t.power with overrunTick := 0 }).bump Regs.pwrCapOverruns)) ∧
  (∀ (mW l : Nat) (s : State), s.power.capAt = some l → s.now < l + 100000 → exec (.powerCapTick mW) s = .next s) ∧
  (∀ (g : Nat) (s : State), s.power.samples ≠ [] → s.underCap = true → (∀ l, s.power.raiseAt = some l → l + 1000000 ≤ s.now) →
    highestBy (fun k => 2000 - s.capRank k) (s.plotGroups.filter (fun k => bit (s.reg Regs.pwrCapHeld) k)) = some g →
    exec .powerRaiseTick s = .next ((s.raiseLevel g).setPower { (s.raiseLevel g).power with raiseAt := some s.now })) ∧
  (∀ (g v : Nat) (s t : State), v = min (s.reg (Regs.gafferLevel g)) (s.reg (Regs.gafferLevelNow g) + 1) →
    t = (s.setGaffer g { s.gaffer g with raiseTo := some v }).beginLevel g → (t.gaffer g).levelAt ≤ s.now →
    s.raiseLevel g = s.setLevelNow g v) ∧
  (∀ (g v : Nat) (s t : State), v = min (s.reg (Regs.gafferLevel g)) (s.reg (Regs.gafferLevelNow g) + 1) →
    t = (s.setGaffer g { s.gaffer g with raiseTo := some v }).beginLevel g → s.now < (t.gaffer g).levelAt →
    (s.raiseLevel g).reg (Regs.gafferLevelNow g) = s.reg (Regs.gafferLevelNow g) ∧ ((s.raiseLevel g).gaffer g).levelChanging = true)

/-- R453, R454, R455, R456, R457, R458, R459, R460 (log 46): the steps into sleep once the changes are complete, and the events that wake from it. The
steps of a wake in their order, a try that fails and the end of the time in which wake events are ignored. -/
def Obligations.SleepAndWake : Prop :=
  (∀ s : State, s.power.phase = .entering 2 → s.power.wakeDue = false → (∀ d ∈ leavingOrder, (s.pd d).target = none) →
    exec .sleepClockHandover s = .next (s.setPower { s.power with phase := .entering 3, since := s.now, lowPower := true })) ∧
  (∀ s : State, s.power.phase = .entering 3 → s.power.since * 32768 + 4000000000 ≤ s.now * 32768 → s.power.wakeDue = false →
    s.levelWake false = false → s.levelWake true = false → s.alarmDue = none →
    ∃ t, exec .wakeDetectorArm s = .next t ∧ t.power.phase = .asleep ∧ t.pins.pmicSleep = true ∧
      t.reg Regs.pwrSleepEntries = satAdd (2 ^ 32 - 1) (s.reg Regs.pwrSleepEntries) 1 ∧ t.mem = s.mem ∧ t.disp = s.disp) ∧
  (∀ (byte : Nat) (s : State), s.power.comparator = true → s.pins.io33 = true → bit (s.reg Regs.pwrSmbWake) 15 = true →
    (bits byte 7 1 ^^^ bits (s.reg Regs.pwrSmbWake) 6 0) &&& bits (s.reg Regs.pwrSmbWake) 14 8 = 0 → s.power.phase = .asleep →
    exec (.smbAddressMatch byte) s = .next (((s.recordWake (some (bits byte 7 1)) none).setPower { s.power with
      phase := .waking 1, since := s.now, tries := 0, gatehouseTry := false }).emit .nack)) ∧
  (∀ (level : Bool) (s : State), s.pins.io33 = true → bit (s.reg Regs.wake1Cfg) 1 = level →
    exec (.wakePin true level) s = .next { s with pins := { s.pins with wake1 := level } }) ∧
  (∀ (level : Bool) (s t : State), s.pins.io33 = true → bit (s.reg Regs.wake0Cfg) 1 ≠ level → s.pins.wake0 ≠ level →
    t = { s with pins := { s.pins with wake0 := level } } → bit (s.reg Regs.wake0Cfg) 0 = true → bits (s.reg Regs.wake0Cfg) 4 3 = 0 →
    exec (.wakePin false level) s = .next (t.wakeEvent none (if bit (s.reg Regs.wake0Cfg) 2 then some false else none))) ∧
  (∀ (a : Fin 8) (n : Nat) (s : State), kfind s.sundial.alarmWake a.val = some n → s.power.phase = .asleep → n ≤ s.sleepCount →
    exec (.sleepAlarm a) s = .next ((s.recordWake none none).setPower { s.power with
      phase := .waking 1, since := s.now, tries := 0, gatehouseTry := false })) ∧
  (∀ s : State, s.power.phase = .waking 1 → s.power.tries < 3 →
    ∃ t, exec .wakeTry s = .next t ∧ t.power.phase = .waking 2 ∧ t.power.tries = s.power.tries + 1 ∧ t.power.gatehouseTry = false ∧
      t.pins.pmicSleep = false ∧ t.regs = s.regs ∧ t.mem = s.mem ∧ t.disp = s.disp) ∧
  (∀ s : State, s.power.phase = .waking 2 →
    exec .regulatorReady s = .next (s.setPower { s.power with
      phase := .waking (if s.pins.pgCore && s.pins.pgSram then 4 else 3), since := s.now })) ∧
  (∀ s : State, s.power.phase = .waking 3 →
    exec .pgHigh s = .next { s with pins := { s.pins with pgCore := true, pgSram := true },
                                    power := { s.power with phase := .waking 4, since := s.now } }) ∧
  (∀ s : State, s.power.phase = .waking 4 →
    exec .refclkSysPresent s = .next { s with pins := { s.pins with refclk := true },
                                              power := { s.power with phase := .waking 5, since := s.now } }) ∧
  (∀ (n : Fin 242) (s : State), s.power.phase = .waking 5 → s.power.gatehouseTry = false →
    exec (.plotCalibration n) s = .next (s.calibrates 0).wakeDomains) ∧
  (∀ (n : Fin 242) (s : State), s.power.phase ≠ .waking 5 → s.calibrationDue n.val = true →
    exec (.plotCalibration n) s = .next (s.setPower { s.power with calibrated := kset s.power.calibrated n.val s.now })) ∧
  (∀ (reason : Fin 6) (s : State), s.tryFails reason.val = true → s.power.gatehouseTry = false →
    ∃ t, exec (.wakeTryFail reason) s = .next t ∧ t.power.phase = .failed ∧ t.power.lowPower = true ∧ t.pins.pmicSleep = true ∧
      t.reg Regs.pwrWakeFailReason = reason.val ∧ t.reg Regs.pwrWakeFails = satAdd (2 ^ 32 - 1) (s.reg Regs.pwrWakeFails) 1 ∧
      t.mem = s.mem ∧ t.disp = s.disp) ∧
  (∀ s t : State, s.power.phase = .ignored → s.power.since + 1000000000 ≤ s.now →
    t = s.setPower { s.power with phase := .asleep, since := s.now, tries := 0, gatehouseTry := false, comparator := true } →
    exec .wakeIgnoreExpiry s =
      .next (if (t.levelWake false || t.levelWake true || t.alarmDue.isSome) = true then t.wakeEvent none none else t))

/-- R451, R461, R469, R470, R495, R496, R497, R499 (log 46): supplies, clocks and resets from outside. -/
def Obligations.SuppliesClocksAndResets : Prop :=
  (∀ (cause : Fin 5) (s : State), cause.val ≠ 0 → (cause.val = 2 → s.power.lowPower = true) → (cause.val = 3 → s.power.lowPower = false) →
    ∃ t, exec (.alwaysOnBrownOut cause) s = .next (if cause.val = 1 then
        { t.setReg Regs.pwrIo18Low 1 with pins := { t.pins with io18 := false } } else t).released ∧
      t = ((s.resetFor .cold).setReg Regs.pwrBrownoutCause cause.val).setReg Regs.pwrBrownouts
        (min 255 ((s.resetFor .cold).reg Regs.pwrBrownouts + 1))) ∧
  (∀ s : State, s.boot.staging = none → s.boot.fuseJobs = [] → exec .io18Low s = .next (s.setReg Regs.pwrIo18Low 1)) ∧
  (∀ s : State, exec .io18Restored s = .next { s.setReg Regs.pwrIo18Low 0 with pins := { s.pins with io18 := true } }.released) ∧
  (∀ s : State, s.pins.io33 = true → exec (.io33Low false) s = .next { s with pins := { s.pins with io33 := false } }) ∧
  (∀ s : State, s.pins.pgSram = true → s.pins.pmicSleep = false →
    exec .pgSramLoss s = .next ({ s with pins := { s.pins with pgSram := false } }.resetFor .cold)) ∧
  (∀ s : State, s.pins.pgSram = true → s.pins.pmicSleep = true →
    exec .pgSramLoss s = .next { s with pins := { s.pins with pgSram := false } }.retentionLost) ∧
  (∀ s : State, (s.pins.pgSram = false → exec .pgSramLoss s = .next s) ∧ (s.pins.pgCore = false → exec (.pgCoreFall false) s = .next s)) ∧
  (∀ s : State, s.pins.pgCore = true → s.pins.pmicSleep = false →
    exec (.pgCoreFall false) s = .next ({ s with pins := { s.pins with pgCore := false } }.resetFor .cold)) ∧
  (∀ s : State, s.flag Regs.sleepClockSrc = false →
    ∃ t, exec .clk32kLoss s = .next t ∧ t.flag Regs.sleepClockSrc = true ∧ t.flag Regs.sleepCorrValid = false ∧
      t.reg Regs.pinClk32kLosses = satAdd (2 ^ 32 - 1) (s.reg Regs.pinClk32kLosses) 1 ∧ t.pins.clk32k = false ∧ t.mem = s.mem ∧ t.disp = s.disp) ∧
  (∀ s : State, ∃ t, exec .powerOn s = .next t ∧ t.pins.resetN = false ∧ t.pins.pgCore = false ∧ t.pins.pgSram = false ∧ t.pins.io33 = false ∧
      t.boot.phase = .held ∧ t.disp.items = [] ∧ t.link.perst = true ∧ t.power.phase = .awake) ∧
  (∀ s : State, exec .resetAssert s = .next { s.resetFor .cold with pins := { (s.resetFor .cold).pins with resetN := false } }) ∧
  (∀ s : State, s.pins.resetN = false → exec .resetRelease s = .next { s with pins := { s.pins with resetN := true } }.released) ∧
  (∀ s : State, s.boot.phase = .started → s.boot.since + 120000000 ≤ s.now → s.keeper.gardenerOff = false →
    exec .startWatchdog s = .next (s.startFails 10).beginStart) ∧
  (∀ s : State, s.boot.phase ≠ .started ∨ s.now < s.boot.since + 120000000 ∨ s.keeper.gardenerOff = true →
    exec .startWatchdog s = .next s) ∧
  (∀ s t : State, t = s.settlesForced 45 3 → t.paths.serving = false → t.boot.phase = .started →
    t.pdOn 45 = true ∨ (t.keeper.gardenerOff = true ∧ t.boot.coldRestart = true) →
    exec .dictionaryReady s = .next t.startReady.servesNow) ∧
  (∀ s : State, (s.settlesForced 45 3).paths.serving = true → exec .dictionaryReady s = .next s)

/-! ### The root of trust and leases (chapters 1 and 16) -/

/-- R26, R472, R473, R477 (logs 14 and 47): the four actions of the staging area begin when nothing refuses them. A staging action ends with its state, a
fuse command with what was read back, and a seal with the SHA-384 of the drive region. -/
def Obligations.StagingAndEngines : Prop :=
  (∀ (p : Path) (x : Bytes) (s : State), s.offered p 0x2B01 3 [1] = some x → ofLe x = 1 → s.stageRefused 1 = none →
    exec (.stageVerify p) s = .next ((s.beginStage 1).accepted p)) ∧
  (∀ (p : Path) (b : Bool) (x : Bytes) (s : State), s.offered p 0x2B01 3 [if b then 3 else 2] = some x → ofLe x = (if b then 3 else 2) →
    s.stageRefused (if b then 3 else 2) = none →
    exec (.stageProgram p b) s = .next ((s.beginStage (if b then 3 else 2)).accepted p)) ∧
  (∀ (p : Path) (x : Bytes) (s : State), s.offered p 0x2B01 3 [4] = some x → ofLe x = 4 → s.stageRefused 4 = none →
    exec (.stageBoot p) s = .next ((s.beginStage 4).accepted p)) ∧
  (∀ (good : Bool) (g : Staging) (s : State), s.boot.staging = some g → g.failed = false → g.reason ≠ 0 →
    exec (.stageComplete good) s = .next ((s.stageEnds g 3).setReg Regs.stageReason g.reason)) ∧
  (∀ (good : Bool) (g : Staging) (s : State), s.boot.staging = some g → g.failed = false → g.reason = 0 → g.action = 1 →
    exec (.stageComplete good) s = .next (((s.setBoot { s.boot with staging := none }).setReg Regs.stageState 2).setReg
      Regs.stageProgress g.image.length)) ∧
  (∀ (good : Bool) (g : Staging) (s : State), s.boot.staging = some g → g.failed = false → g.reason = 0 → g.action = 4 →
    exec (.stageComplete good) s = .next ((s.stageEnds g 2).stageBoots (imageOf g.image))) ∧
  (∀ (g : Staging) (s : State), s.boot.staging = some g → g.failed = false → g.reason = 0 → g.action = 2 ∨ g.action = 3 →
    exec (.stageComplete false) s = .next (s.stageEnds g 5)) ∧
  (∀ (g : Staging) (s t : State), s.boot.staging = some g → g.failed = false → g.reason = 0 → g.action = 2 ∨ g.action = 3 →
    t = s.programs ((g.action - 2) * 0x1000000) g.image →
    exec (.stageComplete true) s = .next (t.stageEnds g (if t.slotReason (g.action - 2) = 0 then 2 else 5))) ∧
  (∀ (good : Bool) (g : Staging) (s : State), s.boot.staging = some g → g.failed = true →
    exec (.stageComplete good) s = .next (s.stageEnds g 6)) ∧
  (∀ (j : FuseJob) (rest : List FuseJob) (s : State), s.boot.fuseJobs = j :: rest →
    ∃ t, exec (.fuseCommandComplete true) s = .next t ∧ t.boot.fuses = s.boot.fuses.blow j none ∧ t.boot.fuseJobs = rest ∧
      t.reg Regs.lcFuseStatus = (if (s.boot.fuses.blow j none).holds j then 1 else 3) ∧ t.blobs = s.blobs ∧ t.mem = s.mem ∧
      t.disp = s.disp) ∧
  (∀ (bs : Bytes) (e : Option Nat) (s s1 : State), s.drive = .sealing →
    s.readMem .gardener none s.driveLo s.driveLen = (s1, .bytes bs [] e) →
    exec .drSealComplete s = .next { ((s1.setBlob Blobs.drMeasurement (sha384 bs)).setReg Regs.drSealTime
      (s1.setBlob Blobs.drMeasurement (sha384 bs)).timeNow) with drive := .sealed })

/-- R473, R474, R475 (log 47): fuse commands queue one job while VDD_IO18 is good, judged against what the fuses will hold
once the jobs before it are done, and a good token unlocks. -/
def Obligations.FuseAndTokenCommands : Prop :=
  (∀ (p : Path) (v : Nat) (x : Bytes) (s : State), s.offered p 0x2B00 0x0C (toLe 1 v) = some x → ofLe x = 1 →
    s.boot.fuses.svn < s.reg Regs.bootSvn → s.supplyRefused = none →
    exec (.bootCommitSvn p v) s =
      .next ((s.setBoot { s.boot with fuseJobs := s.boot.fuseJobs ++ [.svn (s.reg Regs.bootSvn)] }).accepted p)) ∧
  (∀ (p : Path) (v : Nat) (x : Bytes) (s : State), s.offered p 0x2B02 2 (toLe 1 v) = some x → ofLe x = 1 →
    s.fusesToBe.lifecycle = 0 → s.boot.fuses.keyHash ≠ [] → s.supplyRefused = none →
    exec (.lcAdvance p v) s = .next ((s.setBoot { s.boot with fuseJobs := s.boot.fuseJobs ++ [.lifecycle 1] }).accepted p)) ∧
  (∀ (p : Path) (v : Nat) (x : Bytes) (s : State), s.offered p 0x2B02 2 (toLe 1 v) = some x → ofLe x = 3 →
    s.fusesToBe.lifecycle = 0 ∨ (s.fusesToBe.lifecycle = 1 ∧ s.boot.unlocked = false) → s.supplyRefused = none →
    exec (.lcAdvance p v) s = .next ((s.setBoot { s.boot with fuseJobs := s.boot.fuseJobs ++ [.lifecycle 3] }).accepted p)) ∧
  (∀ (p : Path) (v : Nat) (x : Bytes) (s : State), s.offered p 0x2B02 2 (toLe 1 v) = some x →
    (ofLe x = 1 ∧ s.fusesToBe.lifecycle ≠ 0) ∨ 2 ≤ s.fusesToBe.lifecycle →
    exec (.lcAdvance p v) s = .next (s.finishWrite p 0x2B02 2 (.error outOfRange))) ∧
  (∀ (p : Path) (v : Nat) (x : Bytes) (s : State), s.offered p 0x2B02 7 (toLe 1 v) = some x → s.runningKey = none →
    (List.range 4).any (fun k => (kfind s.boot.fuses.keyHash k).isSome && !bit (s.fusesToBe.revoked ||| ofLe x) k) = true →
    s.supplyRefused = none →
    exec (.lcKeyRevoke p v) s = .next ((s.setBoot { s.boot with fuseJobs := s.boot.fuseJobs ++ [.revoke (ofLe x)] }).accepted p)) ∧
  (∀ (p : Path) (k : Fin 4) (data x : Bytes) (s : State), s.offered p 0x2B02 (3 + k.val) data = some x → s.lifecycle = 0 →
    s.supplyRefused = none →
    exec (.lcKeyHashWrite p ⟨k.val, by omega⟩ data) s =
      .next ((s.setBoot { s.boot with fuseJobs := s.boot.fuseJobs ++ [.keyHash k.val x] }).accepted p)) ∧
  (∀ (p : Path) (data x : Bytes) (s : State), s.offered p 0x2B02 8 data = some x → s.lifecycle = 0 → s.supplyRefused = none →
    exec (.lcKeyHashWrite p 4 data) s =
      .next ((s.setBoot { s.boot with fuseJobs := s.boot.fuseJobs ++ [.debugHash x] }).accepted p)) ∧
  (∀ (p : Path) (data x : Bytes) (s : State), s.offered p 0x2B03 2 data = some x → s.lifecycle = 0 → s.supplyRefused = none →
    exec (.lcKeyHashWrite p 5 data) s =
      .next ((s.setBoot { s.boot with fuseJobs := s.boot.fuseJobs ++ [.certificate x] }).accepted p)) ∧
  (∀ (p : Path) (data x : Bytes) (s : State), s.offered p 0x2B03 4 data = some x → s.tokenGood x = true → s.lifecycle = 1 →
    s.reg Regs.kpArmed = 0 → s.inLease = false →
    exec (.dbgToken p data) s = .next ((((s.setBoot { s.boot with unlocked := true }).setReg Regs.dbgPerms
      (bits (ofLe x) 41 40)).accepted p).newChallenge))

/-- R26, R28, R29, R30, R477, R478, R479, R480 (log 34): a lease starts, closes and is pre-empted by command; a start is refused with the cause it
names. The drive region begins to seal, and unsealing forgets its measurement. -/
def Obligations.LeaseAndSealCommands : Prop :=
  (∀ (p : Path) (x : Bytes) (s : State), s.offered p 0x2B10 1 [1] = some x → ofLe x = 1 → s.leaseRefused = none →
    exec (.leaseStart p) s = .next (s.beginLease.accepted p)) ∧
  (∀ (p : Path) (x : Bytes) (s : State) (e : Reply), s.offered p 0x2B10 1 [1] = some x → ofLe x = 1 → s.leaseRefused = some e →
    exec (.leaseStart p) s = .next (s.finishWrite p 0x2B10 1 (.error e))) ∧
  (∀ (p : Path) (x : Bytes) (s : State), s.offered p 0x2B10 1 [2] = some x → ofLe x = 2 → s.shift.phase = .lease →
    exec (.leaseClose p) s =
      .next ((s.setShift { s.shift with phase := .closing 1, endReason := 0, since := s.now }).accepted p)) ∧
  (∀ (p : Path) (x : Bytes) (s : State), s.offered p 0x2B10 1 [3] = some x → ofLe x = 3 → s.shift.phase = .lease →
    exec (.leasePreemptCmd p false) s =
      .next (((s.preemptAt 1 1 (s.reg Regs.leaseExportBudget)).flushLease).accepted p)) ∧
  (∀ (p : Path) (x : Bytes) (s : State), s.offered p 0x2B10 5 [1] = some x → ofLe x = 1 → s.shift.phase = .lease → s.paths.serving = true →
    exec (.leasePreemptCmd p true) s =
      .next (((s.preemptAt 1 4 (s.reg Regs.leaseExportBudget)).flushLease).accepted p)) ∧
  (∀ (p : Path) (v : Nat) (x : Bytes) (s : State), s.offered p 0x2B08 3 (toLe 1 v) = some x → ofLe x = 1 →
    s.reg Regs.drSize ≠ 0 → s.reg Regs.ddrTrainState ≠ 0 → s.inLease = false → s.driveSealed = false →
    exec (.drSeal p v) s = .next ({ s with drive := .sealing }.accepted p)) ∧
  (∀ (p : Path) (v : Nat) (x : Bytes) (s : State), s.offered p 0x2B08 4 (toLe 1 v) = some x → ofLe x = 1 → s.inLease = false →
    exec (.drUnseal p v) s =
      .next (({ s with drive := .unsealed }.setBlob Blobs.drMeasurement (List.replicate 48 0)).accepted p)) ∧
  (∀ (p : Path) (v : Nat) (data : Bytes) (s : State), p ≠ .canSafety → p ≠ .keeper →
    s.offered p 0x2B08 4 data = none ∧
    ∃ t, exec (.drUnseal p v) s = .next t ∧ t.drive = s.drive)

/-- R28, R29, R30, R366, R479, R480 (log 34): the steps of a lease's start, of a pre-emption and of a close. -/
def Obligations.LeaseStepsComplete : Prop :=
  (∀ s : State, s.shift.phase = .starting 1 → s.disp.items = [] →
    ∃ t, exec .driveWorkDrained s = .next t ∧ t.shift.phase = .starting 3 ∧ t.shift.closed = true) ∧
  (∀ s : State, s.shift.phase = .starting 3 → s.paths.serving = true →
    ∃ t, exec .leaseScrubComplete s = .next t ∧ t.shift.phase = .lease ∧ t.shift.llLocked = true) ∧
  (∀ (code : Fin 7) (s : State), code.val ≠ 0 → s.shift.phase = .lease →
    exec (.preemptionTrigger code) s = .next (s.preemptAt 1 code.val
      (if code.val = 6 then 0 else s.reg Regs.leaseExportBudget)).flushLease) ∧
  (∀ (code : Fin 7) (k : Nat) (s : State), code.val ≠ 0 → s.shift.phase = .preempting k →
    s.shift.since ≠ s.now ∨ s.shift.endReason ≤ code.val →
    exec (.preemptionTrigger code) s = .next (s.bump Regs.leaseExtraTriggers)) ∧
  (∀ (code : Fin 7) (k : Nat) (s : State), code.val ≠ 0 → s.shift.phase = .preempting k → s.shift.since = s.now →
    code.val < s.shift.endReason →
    exec (.preemptionTrigger code) s = .next ((s.bump Regs.leaseExtraTriggers).setShift { s.shift with
      endReason := code.val, budget := min s.shift.budget (if code.val = 6 then 0 else s.reg Regs.leaseExportBudget) })) ∧
  (∀ s : State, s.shift.phase = .preempting 1 → s.disp.items = [] → s.shift.budget = 0 →
    exec .leaseWorkDrained s = .next (s.setShift { s.shift with phase := .preempting 4 })) ∧
  (∀ (q slot0 : Nat) (t : State) (good : Bool) (s : State), s.shift.phase = .preempting 3 → s.shift.since + 5000000 ≤ s.now →
    s.now < s.shift.since + 5000000 + s.shift.budget * 1000000 → s.exportEntry s.kv.exportAt = some (q, slot0) → s.exportSequence q slot0 = (t, good) →
    ∃ u, exec .exportEntryDone s = .next u ∧ u.kv.exportAt = s.kv.exportAt + 1 ∧
      u.regs = (t.exportOutcome s.kv.exportAt good).regs) ∧
  (∀ s : State, s.shift.phase = .preempting 3 → s.shift.since + 5000000 + s.shift.budget * 1000000 ≤ s.now →
    ∃ t, exec .exportBudgetExpiry s = .next t ∧ t.shift.phase = .preempting 4 ∧ t.mem = s.mem ∧ t.hostMem = s.hostMem) ∧
  (∀ s : State, s.shift.phase = .preempting 3 → s.shift.since + 5000000 + s.shift.budget * 1000000 ≤ s.now →
    exec .exportEntryDone s = exec .exportBudgetExpiry s) ∧
  (∀ s : State, s.now < s.shift.since + 5000000 + s.shift.budget * 1000000 → exec .exportBudgetExpiry s = .next s) ∧
  (∀ (k : Nat) (s : State), s.shift.phase = .preempting k → k ≠ 4 → exec .driveShiftRelease s = .next s) ∧
  (∀ s : State, s.shift.phase = .preempting 4 ∨ s.shift.phase = .closing 3 →
    s.keeper.damage = false ∨ s.pdOn 1 = false ∨ s.keeper.phase ≠ .parked →
    exec .driveShiftRelease s = .next s.release.takeDamage) ∧
  (∀ s : State, s.shift.phase = .preempting 4 ∨ s.shift.phase = .closing 3 →
    s.keeper.damage = true → s.pdOn 1 = true → s.keeper.phase = .parked →
    exec .driveShiftRelease s = .next ((s.setKeeper { s.keeper with damage := false }).safeEntry 6 true)) ∧
  (∀ s : State, s.shift.quarantine = true → s.ddrScrubbable = true → s.gardenerServes = true ∨ s.keeper.gardenerOff = true →
    ∃ t, exec .quarantineLift s = .next t ∧ t.shift.quarantine = false ∧ t.shift.llLocked = (s.shift.llLocked && s.leaseRunning)) ∧
  (∀ s : State, s.shift.phase = .closing 1 → s.disp.items = [] ∨ s.shift.since + 100000000 ≤ s.now →
    exec .leaseCloseDrained s = .next (s.flushLease.setShift { s.flushLease.shift with phase := .closing 3 }))
end

