-- ==== Sys2Proof/Laws/Dict.lean ====
section
/-! SUPPORT. What a dictionary write does, once for all hooks (R410): the lemmas that a proof about a write cites. -/

namespace Sys2Proof.Machine

theorem dictAccess_findObj {s : State} {p : Path} {index sub : Nat} {o : Obj × Nat}
    (h : s.dictAccess p index sub = .ok o) : findObj index sub = some o := by
  unfold State.dictAccess at h
  cases hr : s.dictReach p index sub with
  | error e => simp [hr, bind, Except.bind] at h
  | ok _ =>
    simp only [hr, bind, Except.bind] at h
    cases hf : findObj index sub with
    | none => simp [hf] at h
    | some q =>
      obtain ⟨o', k⟩ := q
      simp only [hf] at h
      split_ifs at h
      all_goals simp_all

theorem offered_iff {s : State} {p : Path} {index sub : Nat} {data x : Bytes} :
    s.offered p index sub data = some x ↔ s.served p index = true ∧ ∃ o k, s.dictAccess p index sub = .ok (o, k) ∧
      o.badLength data.length = false ∧ o.inRange (o.given data) = true ∧
      x = o.given data := by
  unfold State.offered
  split
  · rename_i hs
    cases hd : s.dictAccess p index sub with
    | error e => simp
    | ok q =>
      obtain ⟨o, k⟩ := q
      simp only [hs, true_and, Bool.or_eq_true, Bool.not_eq_true']
      constructor
      · intro h
        split at h
        · cases h
        · rename_i hn
          exact ⟨o, k, rfl, by simp_all, by simp_all, by simpa using h.symm⟩
      · rintro ⟨o', k', he, h1, h2, h3⟩
        cases he
        simp [h1, h2, h3]
  · simp_all

theorem writeObject_offered {s : State} {p : Path} {index sub : Nat} {data x : Bytes} {h : Hook}
    (hx : s.offered p index sub data = some x) :
    s.writeObject p index sub data h = s.finishWrite p index sub (h s p x) := by
  obtain ⟨hs, o, k, ha, hl, hr, rfl⟩ := offered_iff.mp hx
  unfold State.writeObject
  rw [if_pos hs]
  congr 1
  unfold State.dictTry
  simp [ha, bind, Except.bind, hl, hr]

theorem writeObject_accepted {s t : State} {p : Path} {index sub : Nat} {data x : Bytes} {h : Hook}
    (hx : s.offered p index sub data = some x) (ht : h s p x = .ok t) :
    s.writeObject p index sub data h = t.accepted p := by
  rw [writeObject_offered hx, ht]; rfl

theorem writeObject_refused {s : State} {p : Path} {index sub : Nat} {data x : Bytes} {h : Hook} {e : Reply}
    (hx : s.offered p index sub data = some x) (he : h s p x = .error e) :
    s.writeObject p index sub data h = s.finishWrite p index sub (.error e) := by
  rw [writeObject_offered hx, he]

theorem actHook_one {f : State → Path → Except Reply State} {s : State} {p : Path} {x : Bytes} (h : ofLe x = 1) :
    actHook f s p x = f s p := by simp [actHook, h]

theorem ownedHook_owner {r : Reg} {h : Hook} {s : State} {p : Path} {x : Bytes} (h1 : s.reg r = s.writer p) (h2 : s.reg r ≠ 0) :
    ownedHook r h s p x = h s p x := by
  unfold ownedHook
  rw [if_pos ⟨h1, h2⟩]

end Sys2Proof.Machine
end

