-- ==== Sys2Proof/Laws/Mem.lean ====
section
/-! SUPPORT. Every operation on a byte memory keeps its canonical form, and the memories after reset have it. -/

namespace Sys2Proof.Machine

/-- A cell that the canonical form allows: outside every undefined range, not what an unlisted address reads as. -/
def Memory.cellOk (m : Memory) (c : Host.Cell) : Prop := c.2 ≠ blankByte c.1 ∨ (m.undefAt c.1).isSome = true

theorem cellsOk_iff (m : Memory) (l : List Host.Cell) :
    m.cellsOk l = true ↔ l.Pairwise (fun c d => c.1 < d.1) ∧ ∀ c ∈ l, m.cellOk c := by
  induction l with
  | nil => simp [Memory.cellsOk]
  | cons c t ih =>
    cases t with
    | nil => simp [Memory.cellsOk, Memory.cellOk]
    | cons d t =>
      simp only [Memory.cellsOk, Bool.and_eq_true, decide_eq_true_eq, ih, Bool.or_eq_true]
      constructor
      · rintro ⟨⟨hc, hlt⟩, hp, ha⟩
        refine ⟨List.pairwise_cons.2 ⟨fun x hx => ?_, hp⟩, fun x hx => ?_⟩
        · rcases List.mem_cons.1 hx with rfl | hx
          · exact hlt
          · exact lt_trans hlt ((List.pairwise_cons.1 hp).1 x hx)
        · rcases List.mem_cons.1 hx with rfl | hx
          · exact hc
          · exact ha x hx
      · rintro ⟨hp, ha⟩
        have h := List.pairwise_cons.1 hp
        exact ⟨⟨ha c (List.mem_cons_self ..), h.1 d (List.mem_cons_self ..)⟩, h.2, fun x hx => ha x (List.mem_cons_of_mem _ hx)⟩

theorem wf_iff (m : Memory) : m.wf = true ↔ m.cells.Pairwise (fun c d => c.1 < d.1) ∧ ∀ c ∈ m.cells, m.cellOk c :=
  cellsOk_iff m m.cells

/-- The new cell, or a cell of another key that was there. -/
theorem mem_kset {α : Type} {m : KMap α} {k : Nat} {v : α} {c : Nat × α} (h : c ∈ kset m k v) : c = (k, v) ∨ c ∈ m := by
  induction m with
  | nil => simpa [kset] using h
  | cons e t ih =>
    obtain ⟨k', v'⟩ := e
    simp only [kset] at h
    split_ifs at h
    · rcases List.mem_cons.1 h with h | h
      · exact .inl h
      · exact .inr (List.mem_cons_of_mem _ h)
    · rcases List.mem_cons.1 h with h | h
      · exact .inl h
      · exact .inr h
    · rcases List.mem_cons.1 h with h | h
      · exact .inr (h ▸ List.mem_cons_self ..)
      · exact (ih h).imp id (List.mem_cons_of_mem _)

theorem kset_rising {α : Type} {m : KMap α} (k : Nat) (v : α) (h : m.Pairwise (fun c d => c.1 < d.1)) :
    (kset m k v).Pairwise (fun c d => c.1 < d.1) := by
  induction m with
  | nil => simp [kset]
  | cons e t ih =>
    obtain ⟨k', v'⟩ := e
    have hp := List.pairwise_cons.1 h
    simp only [kset]
    split_ifs with h1 h2
    · exact List.pairwise_cons.2 ⟨fun x hx => h1 ▸ hp.1 x hx, hp.2⟩
    · refine List.pairwise_cons.2 ⟨fun x hx => ?_, h⟩
      rcases List.mem_cons.1 hx with rfl | hx
      · exact h2
      · exact lt_trans h2 (hp.1 x hx)
    · refine List.pairwise_cons.2 ⟨fun x hx => ?_, ih hp.2⟩
      rcases mem_kset hx with rfl | hx
      · show k' < k
        omega
      · exact hp.1 x hx

/-- Dropping cells keeps the form, whatever is poisoned or flawed. -/
theorem wf_filter {m n : Memory} {f : Host.Cell → Bool} (h : m.wf = true) (hc : n.cells = m.cells.filter f)
    (hu : ∀ a, f (a, 0) = true → (m.undefAt a).isSome = true → (n.undefAt a).isSome = true)
    (hf : ∀ a b, f (a, b) = f (a, 0)) : n.wf = true := by
  obtain ⟨hp, ha⟩ := (wf_iff m).1 h
  refine (wf_iff n).2 ⟨hc ▸ hp.sublist List.filter_sublist, fun c hm => ?_⟩
  obtain ⟨hm, hk⟩ := List.mem_filter.1 (hc ▸ hm)
  rcases ha c hm with h0 | h0
  · exact .inl h0
  · exact .inr (hu c.1 (hf c.1 c.2 ▸ hk) h0)

theorem wf_same {m n : Memory} (h : m.wf = true) (hc : n.cells = m.cells) (hu : n.undef = m.undef) : n.wf = true := by
  refine wf_filter (f := fun _ => true) h (by simp [hc]) (fun a _ ha => ?_) (fun _ _ => rfl)
  simpa only [Memory.undefAt, hu] using ha

theorem wf_set {m : Memory} (a : Nat) (b : Byte) (h : m.wf = true) : (m.set a b).wf = true := by
  unfold Memory.set
  split
  · exact wf_filter h rfl (fun _ _ hu => hu) (fun _ _ => rfl)
  · next hn =>
    obtain ⟨hp, ha⟩ := (wf_iff m).1 h
    refine (wf_iff _).2 ⟨kset_rising a b hp, fun c hm => ?_⟩
    rcases mem_kset hm with rfl | hm
    · by_cases hb : b = blankByte a
      · refine .inr ?_
        show (m.undefAt a).isSome = true
        cases hu : m.undefAt a with
        | none => exact absurd ⟨hb, hu⟩ hn
        | some _ => rfl
      · exact .inl hb
    · exact ha c hm

theorem wf_write {m : Memory} (a : Nat) (bs : Bytes) (h : m.wf = true) : (m.write a bs).wf = true := by
  induction bs generalizing m a with
  | nil => exact h
  | cons b t ih => exact ih (a + 1) (wf_set a b h)

theorem wf_dropRange {m : Memory} (lo hi : Nat) (h : m.wf = true) : (m.dropRange lo hi).wf = true :=
  wf_filter h rfl (fun _ _ hu => hu) (fun _ _ => rfl)

theorem wf_forget {m : Memory} (lo hi tag : Nat) (h : m.wf = true) : (m.forget lo hi tag).wf = true := by
  unfold Memory.forget
  split
  · refine wf_filter h rfl (fun a hk hu => ?_) (fun _ _ => rfl)
    simp only [Memory.undefAt, List.find?_cons]
    split
    · rfl
    · exact hu
  · exact h

/-- What is left of an undefined range outside a part of it. -/
theorem mem_minus {e : Extent} {lo hi a : Nat} (h : e.lo ≤ a ∧ a < e.hi) (ho : a < lo ∨ hi ≤ a) :
    ∃ x ∈ e.minus lo hi, x.lo ≤ a ∧ a < x.hi := by
  unfold Extent.minus
  rcases ho with ho | ho
  · refine ⟨⟨e.lo, min lo e.hi, e.tag⟩, ?_, h.1, lt_min ho h.2⟩
    rw [if_pos (lt_min (by omega) (by omega))]
    simp
  · refine ⟨⟨max hi e.lo, e.hi, e.tag⟩, ?_, max_le ho h.1, h.2⟩
    rw [if_pos (show max hi e.lo < e.hi from max_lt (by omega) (by omega))]
    simp

theorem wf_zero {m : Memory} (lo hi : Nat) (h : m.wf = true) : (m.zero lo hi).wf = true := by
  unfold Memory.zero
  split
  · refine wf_filter h rfl (fun a hk hu => ?_) (fun _ _ => rfl)
    obtain ⟨e, he⟩ := Option.isSome_iff_exists.1 hu
    have hin := List.find?_some he
    obtain ⟨x, hx, hx1⟩ := mem_minus (e := e) (lo := lo) (hi := hi) (a := a)
      (by simpa using hin) (by simp at hk; omega)
    exact List.find?_isSome.2 ⟨x, List.mem_flatMap.2 ⟨e, List.mem_of_find?_eq_some he, hx⟩, by simpa using hx1⟩
  · exact h

theorem wf_poisonAt {m : Memory} (g : Nat) (h : m.wf = true) : (m.poisonAt g).wf = true := by
  unfold Memory.poisonAt
  split
  · exact h
  · exact wf_same h rfl rfl

theorem wf_heal {m : Memory} (g : Nat) (h : m.wf = true) : (m.heal g).wf = true := wf_same h rfl rfl

/-- A fold of operations that keep the form keeps it. -/
theorem wf_foldl {α : Type} {f : Memory → α → Memory} (hf : ∀ m x, m.wf = true → (f m x).wf = true) (l : List α) :
    ∀ {m : Memory}, m.wf = true → (l.foldl f m).wf = true := by
  induction l with
  | nil => exact fun h => h
  | cons x t ih => exact fun h => ih (hf _ x h)

theorem wf_healRange {m : Memory} (a n : Nat) (h : m.wf = true) : (m.healRange a n).wf = true :=
  wf_foldl (fun _ g hm => wf_heal g hm) _ h

theorem wf_resetMemory (tag : Nat) : (resetMemory tag).wf = true := rfl

theorem wf_resetHostMem : State.reset.hostMem.wf = true := rfl

/-- Zeros over a list of ranges, as the scrubs of R29 and R30 write them. -/
theorem wf_zeros {m : Memory} (l : List (Nat × Nat)) (h : m.wf = true) :
    (l.foldl (fun m p => m.zero p.1 p.2) m).wf = true := wf_foldl (fun _ p hm => wf_zero p.1 p.2 hm) l h

/-! ### Writes to device memory (R19, R200, R370) -/

/-- A write changes the two memories and nothing else. -/
theorem poke_frame (s : State) (a : Nat) (bs : Bytes) :
    s.poke a bs = { s with mem := (s.poke a bs).mem, hostMem := (s.poke a bs).hostMem } := by
  unfold State.poke
  split <;> rfl

theorem poke_wf {s : State} (a : Nat) (bs : Bytes) (hm : s.mem.wf = true) (hh : s.hostMem.wf = true) :
    (s.poke a bs).mem.wf = true ∧ (s.poke a bs).hostMem.wf = true := by
  unfold State.poke
  split
  · refine ⟨hm, wf_foldl (fun m x h => ?_) _ hh⟩
    obtain ⟨b, i⟩ := x
    dsimp only
    split
    · exact wf_set _ _ h
    · exact h
  · exact ⟨wf_foldl (fun m x h => wf_set _ _ h) _ (wf_healRange _ _ hm), hh⟩
  · exact ⟨wf_write _ _ (wf_healRange _ _ hm), hh⟩

/-- A write is answered without effect, dropped on its way to a host whose link is down, or carried out. -/
theorem writeMem_cases (s : State) (ag : Agent) (a : Nat) (bs : Bytes) :
    (s.answer ag a bs.length true ≠ .ok ∧ s.writeMem ag a bs = (s, s.answer ag a bs.length true)) ∨
    (s.answer ag a bs.length true = .ok ∧ regionOf a = .host ∧ s.flag Regs.hifLinkUp = false ∧ s.writeMem ag a bs = (s, .ok)) ∨
    (s.answer ag a bs.length true = .ok ∧ s.writeMem ag a bs = (s.poke a bs, .ok)) := by
  unfold State.writeMem
  split
  · next h =>
    split
    · next hd =>
      simp only [Bool.and_eq_true, Bool.not_eq_true', beq_iff_eq] at hd
      exact .inr (.inl ⟨h, hd.1, hd.2, rfl⟩)
    · exact .inr (.inr ⟨h, rfl⟩)
  · next h => exact .inl ⟨h, rfl⟩

theorem writeMem_wf {s : State} (ag : Agent) (a : Nat) (bs : Bytes) (hm : s.mem.wf = true) (hh : s.hostMem.wf = true) :
    (s.writeMem ag a bs).1.mem.wf = true ∧ (s.writeMem ag a bs).1.hostMem.wf = true := by
  obtain ⟨-, h⟩ | ⟨-, -, -, h⟩ | ⟨-, h⟩ := writeMem_cases s ag a bs
  · rw [h]; exact ⟨hm, hh⟩
  · rw [h]; exact ⟨hm, hh⟩
  · rw [h]; exact poke_wf a bs hm hh

theorem pokePoison_wf {s : State} (a n : Nat) (hm : s.mem.wf = true) (hh : s.hostMem.wf = true) :
    (s.pokePoison a n).mem.wf = true ∧ (s.pokePoison a n).hostMem.wf = true := by
  unfold State.pokePoison
  split
  · split
    · exact ⟨hm, hh⟩
    · exact ⟨hm, hh⟩
  · exact ⟨wf_foldl (fun m g h => wf_poisonAt _ h) _ hm, hh⟩

theorem forgetRange_wf {s : State} (a n : Nat) (hm : s.mem.wf = true) (hh : s.hostMem.wf = true) :
    (s.forgetRange a n).mem.wf = true ∧ (s.forgetRange a n).hostMem.wf = true := by
  unfold State.forgetRange
  split
  · refine ⟨hm, wf_foldl (fun m i h => ?_) _ hh⟩
    dsimp only
    split
    · split
      · exact wf_forget _ _ _ h
      · exact h
    · exact h
  · refine ⟨wf_foldl (fun m i h => ?_) _ hm, hh⟩
    dsimp only
    split
    · exact wf_forget _ _ _ h
    · exact h
  · exact ⟨wf_forget _ _ _ hm, hh⟩

end Sys2Proof.Machine
end

