-- ==== Sys2Proof/WellFormed.lean ====
section
/-! DEFINITION. Which operands a command can carry: the widths that the rules fix and that the types of Syntax do not. -/

namespace Sys2Proof

/-- A path's access carries at most 131,648 bytes, the longest object (R409). -/
def dataOk (data : Bytes) : Bool := decide (data.length ≤ 131648)

/-- A dictionary access names an index of 16 bits and a sub-index of 8 (R409). -/
def dictOk (index sub : Nat) (data : Bytes) : Bool := decide (index < 65536) && decide (sub < 256) && dataOk data

/-- A scalar value has at most 64 bits (R409). -/
def scalarOk (v : Nat) : Bool := decide (v < 2 ^ 64)

/-- A packet holds 0 to 256 payload bytes and an address of 40 bits (R12, R19). -/
def Packet.wf (p : Packet) : Bool := decide (p.payload.length ≤ 256) && decide (p.addr < 2 ^ 40)

/-- The bytes of a CAN FD frame are at most 64, an identifier has 29 bits, or 11 without IDE (R93, R96). -/
def CanFrame.wf (f : CanFrame) : Bool := decide (f.data.length ≤ 64) && decide (f.ident < (if f.ide then 2 ^ 29 else 2 ^ 11))

/-- Whether a command's operands can be sent: its addresses, numbers and lengths lie within their fields. The commands
of the last arm carry no operand that their type does not bound. -/
def Instr.wf : Instr → Bool
  | .dictWrite _ index sub data => dictOk index sub data
  | .promenadePacket _ _ copies pkt _ => pkt.wf && decide (copies.length ≤ 4) && copies.all (fun e => decide (e < 2 ^ 640))
  | .tapMessage _ errors => decide (errors < 2 ^ 256)
  | .syncReceived _ _ seq _ _ _ => decide (seq < 65536)
  | .followUpReceived _ _ seq _ => decide (seq < 65536)
  | .announceReceived _ msg => decide (msg.length < 65536)
  | .pdelayReqReceived _ seq requester _ => decide (seq < 65536) && decide (requester.length ≤ 10)
  | .pdelayRespReceived _ seq _ _ _ => decide (seq < 65536)
  | .tdSourceWrite _ _ v => scalarOk v
  | .timeActiveDomainWrite _ v => scalarOk v
  | .timeForceSwitch _ v => scalarOk v
  | .alarmArm _ _ v => scalarOk v
  | .lqFlush _ _ v => scalarOk v
  | .ownerWrite _ index v => decide (index < 65536) && scalarOk v
  | .csiFrameStart _ _ _ frame _ => decide (frame < 65536)
  | .csiLine _ _ dt _ _ data => decide (dt < 64) && decide (data.length < 65536)
  | .csiLineStart _ _ _ line _ => decide (line < 65536)
  | .csiLineEnd _ _ _ line => decide (line < 65536)
  | .csiFrameEnd _ _ _ frame _ => decide (frame < 65536)
  | .ethFrameReceived _ _ _ frame => decide (frame.length < 65536)
  | .ethTxFlush _ _ v => scalarOk v
  | .imuReadComplete _ data => decide (data.length ≤ 255)
  | .canFrameReceived f => f.wf
  | .streamEnable _ _ v => scalarOk v
  | .streamFlush _ _ v => scalarOk v
  | .templateWrite _ _ data => dataOk data
  | .poseSourceWrite _ v => scalarOk v
  | .pgSeedWrite _ v => scalarOk v
  | .sqTailWrite _ v => scalarOk v
  | .cqHeadWrite _ v => scalarOk v
  | .itemCompletion _ seq => decide (seq < 2 ^ 32)
  | .ringFlush _ _ v => scalarOk v
  | .ringEnable _ _ v => scalarOk v
  | .cqEnable _ _ v => scalarOk v
  | .iqFlush _ _ v => scalarOk v
  | .iqEnable _ _ v => scalarOk v
  | .chairFormedWrite _ v => scalarOk v
  | .gafferLevelWrite _ _ v => scalarOk v
  | .srSeedWrite _ _ v => scalarOk v
  | .startTestComplete _ results => decide (results.length = 11) && results.all (· < 2 ^ 32)
  | .goldenSetComplete _ results => decide (results.length = 11) && results.all (· < 2 ^ 32)
  | .kvpEnable _ _ v => scalarOk v
  | .kpArmedWrite _ v => scalarOk v
  | .kpForceSafe _ v => scalarOk v
  | .kpSafeClear _ v => scalarOk v
  | .rulesWrite _ _ data => dataOk data
  | .lamplighterSlot _ missed => missed.all (· < 32)
  | .sramPatrolScrub _ addr => decide (addr < 2 ^ 40)
  | .ddrPatrolScrub addr => decide (addr < 2 ^ 40)
  | .scMarkedWrite _ _ v => scalarOk v
  | .ddrRetire _ v => scalarOk v
  | .ddrUnretire _ v => scalarOk v
  | .errLogReadSeq _ v => scalarOk v
  | .bar2Read off len => decide (off < 2 ^ 37) && decide (len ≤ 4096)
  | .bar2Write off data _ => decide (off < 2 ^ 37) && decide (data.length ≤ 4096)
  | .xlateEntryWrite i v => decide (i < 16384) && scalarOk v
  | .hostReadFail _ seq addr => decide (seq < 2 ^ 32) && decide (addr < 2 ^ 40)
  | .linkUp _ width => decide (width ≤ 64)
  | .ddrInterleaveWrite _ v => scalarOk v
  | .directMapWrite off data => decide (off < 2 ^ 26) && decide (data.length ≤ 4096)
  | .directMapRead off size => decide (off < 2 ^ 26) && decide (size ≤ 4096)
  | .channelRead _ index sub => dictOk index sub []
  | .channelWrite _ index sub data => dictOk index sub data
  | .canRead _ frame => frame.wf
  | .canWrite _ frame => frame.wf
  | .canAbort _ frame => frame.wf
  | .smbSelect _ _ data => decide (data.length ≤ 255)
  | .smbWrite _ data => decide (data.length ≤ 255)
  | .ifSelectWrite _ data => dataOk data
  | .devAttentionClear _ v => scalarOk v
  | .pdRequest _ _ data => dataOk data
  | .powerCapTick mW => decide (mW < 2 ^ 32)
  | .pwrSleepEnter _ data => dataOk data
  | .smbAddressMatch byte => decide (byte < 256)
  | .bootRestart _ v => scalarOk v
  | .bootCommitSvn _ v => scalarOk v
  | .lcAdvance _ v => scalarOk v
  | .lcKeyRevoke _ v => scalarOk v
  | .lcKeyHashWrite _ _ data => dataOk data
  | .dbgToken _ data => dataOk data
  | .drSeal _ v => scalarOk v
  | .drUnseal _ v => scalarOk v
  | .tpinFuncWrite _ _ v => scalarOk v
  | .obsSelectWrite _ _ v => scalarOk v
  | .plotCalibration .. | .leaseStart .. | .driveWorkDrained | .leaseScrubComplete | .preemptionTrigger ..
    | .leaseWorkDrained | .exportEntryDone | .exportBudgetExpiry | .driveShiftRelease | .quarantineLift
    | .leaseClose .. | .leaseCloseDrained | .leasePreemptCmd .. | .timeMessage | .delayLineRecalibration
    | .signalingReceived .. | .pdelayReqTimer .. | .syncReceiptTimeout .. | .slewComplete | .steppedExpiry
    | .alarmFire .. | .triggerPulse .. | .triggerPulseEnd .. | .ppsOutPulse .. | .ppsOutPulseEnd ..
    | .ppsInEdge .. | .launchRelease .. | .timeSave | .timeReconstruct | .tapSilence .. | .sleepCorrWindow | .csiGenericShort ..
    | .csiFrameTimeout .. | .itemVisible .. | .ethLinkChange .. | .ethFrameSent .. | .drdyEdge .. | .poseTick
    | .pgPosePush | .pgBin | .epochClose | .pgBinComplete | .pgNeighbours | .pgBev | .pgLabels
    | .itemDispatch .. | .laneSelect .. | .preemptionPoint .. | .cqCoalesceTimeout .. | .msixUnmask ..
    | .nop .. | .barrier .. | .semSignal .. | .semWait .. | .semWaitReoffer .. | .waitTimeout .. | .copy ..
    | .fill .. | .queuePush .. | .queuePop .. | .matmul .. | .vector .. | .vectorTimeout .. | .vEnd ..
    | .vLd .. | .vSt .. | .vLdb .. | .vPadd .. | .vMovi .. | .vAdd .. | .vSub .. | .vMul .. | .vFma ..
    | .vMin .. | .vMax .. | .vClt .. | .vSel .. | .vCvti .. | .vCvtf .. | .vExp .. | .vRcp .. | .vRsq ..
    | .vRsum .. | .vRmax .. | .vLoop .. | .reduce .. | .ringFlushDiscard .. | .chairChangeComplete ..
    | .levelChangeComplete .. | .gafferFenceSet .. | .fencePowerOff .. | .gafferFenceClear .. | .mvTransform ..
    | .mvGather .. | .mvScatter .. | .kvAppend .. | .kvOpen | .kvAlloc | .kvTruncate | .kvClose | .kvRead
    | .attPrefill .. | .attDecode .. | .attMerge .. | .arbLookup | .arbInsert | .unpin | .reopen | .kvSwapOut
    | .kvSwapIn | .kpDeclare | .verdict | .verdictDeadline | .epochMissing | .lockstepMismatch
    | .keeperClockLoss | .keeperWatchdog | .keeperStartComplete .. | .restartReady | .heartbeatToggle
    | .parkedRuleEval | .gardenerHeartbeat | .gardenerWatchdog | .setMissed ..
    | .errCorrectedHoldoff | .bar2Resize .. | .linkDown | .hotReset | .flr | .perstAssert | .ddrRetrain ..
    | .ddrTrainingComplete .. | .channelAbort .. | .channelComplete .. | .canTransferTimeout .. | .smbRead ..
    | .smbCommit .. | .smbResult | .smbAbort .. | .smbTimeout | .pdTransitionComplete .. | .powerRaiseTick
    | .sleepClockHandover | .wakeDetectorArm | .wakePin .. | .sleepAlarm .. | .wakeTry | .wakeTryFail ..
    | .dictionaryReady | .alwaysOnBrownOut .. | .io18Low | .io18Restored | .io33Low .. | .pgSramLoss
    | .pgCoreFall .. | .clk32kLoss | .powerOn | .resetAssert | .resetRelease | .startWatchdog | .stageVerify ..
    | .stageProgram .. | .stageBoot .. | .stageComplete .. | .fuseCommandComplete .. | .drSealComplete
    | .bypass .. | .idcode | .samplePreload .. | .extest | .clamp | .highz | .canErrorFrame ..
    | .canBusOffEntry .. | .busOffRecovery .. | .deskewCalibration .. | .vddqDdrLoss | .perstRelease
    | .regulatorReady | .pgHigh | .refclkSysPresent | .wakeIgnoreExpiry | .tapReset => true

end Sys2Proof
end

