-- ==== Sys2Proof/Laws/PerInstr.lean ====
section
/-! SUPPORT. Per command: a well-formed command carries at most the 131,648 bytes of the longest object (R409). -/

namespace Sys2Proof.Laws.Operands

/-- How many bytes of data a command carries from outside. -/
def carried : Instr → Nat
  | .dictWrite _ _ _ data => data.length
  | .promenadePacket _ _ _ pkt _ => pkt.payload.length
  | .announceReceived _ msg => msg.length
  | .pdelayReqReceived _ _ requester _ => requester.length
  | .csiLine _ _ _ _ _ data => data.length
  | .ethFrameReceived _ _ _ frame => frame.length
  | .imuReadComplete _ data => data.length
  | .canFrameReceived f => f.data.length
  | .templateWrite _ _ data => data.length
  | .rulesWrite _ _ data => data.length
  | .bar2Write _ data _ => data.length
  | .directMapWrite _ data => data.length
  | .channelWrite _ _ _ data => data.length
  | .canRead _ frame => frame.data.length
  | .canWrite _ frame => frame.data.length
  | .canAbort _ frame => frame.data.length
  | .smbSelect _ _ data => data.length
  | .smbWrite _ data => data.length
  | .ifSelectWrite _ data => data.length
  | .pdRequest _ _ data => data.length
  | .pwrSleepEnter _ data => data.length
  | .lcKeyHashWrite _ _ data => data.length
  | .dbgToken _ data => data.length
  | _ => 0

/-- A well-formed command carries no more bytes than the longest object has (R409). -/
def Statement (i : Instr) : Prop := i.wf = true → carried i ≤ 131648

theorem dictWrite (p : Path) (index : Nat) (sub : Nat) (data : Bytes) : Statement (.dictWrite p index sub data) := by
  intro h; simp [Instr.wf, dictOk, dataOk] at h; simp only [carried]; omega

theorem plotCalibration (plot : Fin 242) : Statement (.plotCalibration plot) := fun _ => Nat.zero_le _

theorem promenadePacket (stop : Fin 48) (port : Port) (copies : List Nat) (pkt : Packet) (transfer : Fin 4) : Statement (.promenadePacket stop port copies pkt transfer) := by
  intro h; simp [Instr.wf, Packet.wf] at h; simp only [carried]; omega

theorem leaseStart (p : Path) : Statement (.leaseStart p) := fun _ => Nat.zero_le _

theorem driveWorkDrained : Statement .driveWorkDrained := fun _ => Nat.zero_le _

theorem leaseScrubComplete : Statement .leaseScrubComplete := fun _ => Nat.zero_le _

theorem preemptionTrigger (code : Fin 7) : Statement (.preemptionTrigger code) := fun _ => Nat.zero_le _

theorem leaseWorkDrained : Statement .leaseWorkDrained := fun _ => Nat.zero_le _

theorem exportEntryDone : Statement .exportEntryDone := fun _ => Nat.zero_le _

theorem exportBudgetExpiry : Statement .exportBudgetExpiry := fun _ => Nat.zero_le _

theorem driveShiftRelease : Statement .driveShiftRelease := fun _ => Nat.zero_le _

theorem quarantineLift : Statement .quarantineLift := fun _ => Nat.zero_le _

theorem leaseClose (p : Path) : Statement (.leaseClose p) := fun _ => Nat.zero_le _

theorem leaseCloseDrained : Statement .leaseCloseDrained := fun _ => Nat.zero_le _

theorem leasePreemptCmd (p : Path) (bySafetyObject : Bool) : Statement (.leasePreemptCmd p bySafetyObject) := fun _ => Nat.zero_le _

theorem timeMessage : Statement .timeMessage := fun _ => Nat.zero_le _

theorem tapMessage (tap : Fin 24) (errors : Nat) : Statement (.tapMessage tap errors) := fun _ => Nat.zero_le _

theorem tapSilence (tap : Fin 24) : Statement (.tapSilence tap) := fun _ => Nat.zero_le _

theorem delayLineRecalibration : Statement .delayLineRecalibration := fun _ => Nat.zero_le _

theorem syncReceived (domainNumber : Fin 256) (port : Fin 4) (seq : Nat) (twoStep : Bool) (origin : Int) (fine : Fin 16) : Statement (.syncReceived domainNumber port seq twoStep origin fine) := fun _ => Nat.zero_le _

theorem followUpReceived (domainNumber : Fin 256) (port : Fin 4) (seq : Nat) (origin : Int) : Statement (.followUpReceived domainNumber port seq origin) := fun _ => Nat.zero_le _

theorem announceReceived (port : Fin 4) (msg : Bytes) : Statement (.announceReceived port msg) := by
  intro h; simp [Instr.wf] at h; simp only [carried]; omega

theorem signalingReceived (port : Fin 4) : Statement (.signalingReceived port) := fun _ => Nat.zero_le _

theorem pdelayReqTimer (port : Fin 4) : Statement (.pdelayReqTimer port) := fun _ => Nat.zero_le _

theorem pdelayReqReceived (port : Fin 4) (seq : Nat) (requester : Bytes) (fine : Fin 16) : Statement (.pdelayReqReceived port seq requester fine) := by
  intro h; simp [Instr.wf] at h; simp only [carried]; omega

theorem pdelayRespReceived (port : Fin 4) (seq : Nat) (followUp : Bool) (time : Int) (fine : Fin 16) : Statement (.pdelayRespReceived port seq followUp time fine) := fun _ => Nat.zero_le _

theorem syncReceiptTimeout (dom : Bool) : Statement (.syncReceiptTimeout dom) := fun _ => Nat.zero_le _

theorem tdSourceWrite (p : Path) (dom : Bool) (v : Nat) : Statement (.tdSourceWrite p dom v) := fun _ => Nat.zero_le _

theorem timeActiveDomainWrite (p : Path) (v : Nat) : Statement (.timeActiveDomainWrite p v) := fun _ => Nat.zero_le _

theorem timeForceSwitch (p : Path) (v : Nat) : Statement (.timeForceSwitch p v) := fun _ => Nat.zero_le _

theorem slewComplete : Statement .slewComplete := fun _ => Nat.zero_le _

theorem steppedExpiry : Statement .steppedExpiry := fun _ => Nat.zero_le _

theorem alarmFire (a : Fin 8) : Statement (.alarmFire a) := fun _ => Nat.zero_le _

theorem alarmArm (p : Path) (a : Fin 8) (v : Nat) : Statement (.alarmArm p a v) := fun _ => Nat.zero_le _

theorem triggerPulse (t : Fin 4) : Statement (.triggerPulse t) := fun _ => Nat.zero_le _

theorem triggerPulseEnd (t : Fin 4) : Statement (.triggerPulseEnd t) := fun _ => Nat.zero_le _

theorem ppsOutPulse (k : Fin 2) : Statement (.ppsOutPulse k) := fun _ => Nat.zero_le _

theorem ppsOutPulseEnd (k : Fin 2) : Statement (.ppsOutPulseEnd k) := fun _ => Nat.zero_le _

theorem ppsInEdge (rising : Bool) (fine : Fin 16) : Statement (.ppsInEdge rising fine) := fun _ => Nat.zero_le _

theorem launchRelease (q : Fin 16) : Statement (.launchRelease q) := fun _ => Nat.zero_le _

theorem lqFlush (p : Path) (q : Fin 16) (v : Nat) : Statement (.lqFlush p q v) := fun _ => Nat.zero_le _

theorem sleepCorrWindow : Statement .sleepCorrWindow := fun _ => Nat.zero_le _

theorem timeSave : Statement .timeSave := fun _ => Nat.zero_le _

theorem timeReconstruct : Statement .timeReconstruct := fun _ => Nat.zero_le _

theorem ownerWrite (p : Path) (index : Nat) (v : Nat) : Statement (.ownerWrite p index v) := fun _ => Nat.zero_le _

theorem csiFrameStart (port : Fin 6) (vc : Fin 16) (headerErrors : Fin 3) (frame : Nat) (fine : Fin 16) : Statement (.csiFrameStart port vc headerErrors frame fine) := fun _ => Nat.zero_le _

theorem csiLine (port : Fin 6) (vc : Fin 16) (dt : Nat) (headerErrors : Fin 3) (crcGood : Bool) (data : Bytes) : Statement (.csiLine port vc dt headerErrors crcGood data) := by
  intro h; simp [Instr.wf] at h; simp only [carried]; omega

theorem csiLineStart (port : Fin 6) (vc : Fin 16) (headerErrors : Fin 3) (line : Nat) (fine : Fin 16) : Statement (.csiLineStart port vc headerErrors line fine) := fun _ => Nat.zero_le _

theorem csiLineEnd (port : Fin 6) (vc : Fin 16) (headerErrors : Fin 3) (line : Nat) : Statement (.csiLineEnd port vc headerErrors line) := fun _ => Nat.zero_le _

theorem csiFrameEnd (port : Fin 6) (vc : Fin 16) (headerErrors : Fin 3) (frame : Nat) (fine : Fin 16) : Statement (.csiFrameEnd port vc headerErrors frame fine) := fun _ => Nat.zero_le _

theorem csiGenericShort (port : Fin 6) (headerErrors : Fin 3) : Statement (.csiGenericShort port headerErrors) := fun _ => Nat.zero_le _

theorem csiFrameTimeout (q : Fin 24) : Statement (.csiFrameTimeout q) := fun _ => Nat.zero_le _

theorem itemVisible (q : Fin 52) : Statement (.itemVisible q) := fun _ => Nat.zero_le _

theorem ethFrameReceived (port : Fin 4) (fcsGood : Bool) (fine : Fin 16) (frame : Bytes) : Statement (.ethFrameReceived port fcsGood fine frame) := by
  intro h; simp [Instr.wf] at h; simp only [carried]; omega

theorem ethLinkChange (port : Fin 4) (rate : Fin 5) : Statement (.ethLinkChange port rate) := fun _ => Nat.zero_le _

theorem ethFrameSent (port : Fin 4) : Statement (.ethFrameSent port) := fun _ => Nat.zero_le _

theorem ethTxFlush (p : Path) (port : Fin 4) (v : Nat) : Statement (.ethTxFlush p port v) := fun _ => Nat.zero_le _

theorem drdyEdge (port : Fin 6) (rising : Bool) (fine : Fin 16) : Statement (.drdyEdge port rising fine) := fun _ => Nat.zero_le _

theorem imuReadComplete (port : Fin 6) (data : Bytes) : Statement (.imuReadComplete port data) := by
  intro h; simp [Instr.wf] at h; simp only [carried]; omega

theorem canFrameReceived (f : CanFrame) : Statement (.canFrameReceived f) := by
  intro h; simp [Instr.wf, CanFrame.wf] at h; simp only [carried]; omega

theorem streamEnable (p : Path) (q : Fin 48) (v : Nat) : Statement (.streamEnable p q v) := fun _ => Nat.zero_le _

theorem streamFlush (p : Path) (q : Fin 48) (v : Nat) : Statement (.streamFlush p q v) := fun _ => Nat.zero_le _

theorem templateWrite (p : Path) (t : Fin 8) (data : Bytes) : Statement (.templateWrite p t data) := by
  intro h; simp [Instr.wf, dataOk] at h; simp only [carried]; omega

theorem poseTick : Statement .poseTick := fun _ => Nat.zero_le _

theorem poseSourceWrite (p : Path) (v : Nat) : Statement (.poseSourceWrite p v) := fun _ => Nat.zero_le _

theorem pgPosePush : Statement .pgPosePush := fun _ => Nat.zero_le _

theorem pgBin : Statement .pgBin := fun _ => Nat.zero_le _

theorem epochClose : Statement .epochClose := fun _ => Nat.zero_le _

theorem pgBinComplete : Statement .pgBinComplete := fun _ => Nat.zero_le _

theorem pgNeighbours : Statement .pgNeighbours := fun _ => Nat.zero_le _

theorem pgBev : Statement .pgBev := fun _ => Nat.zero_le _

theorem pgLabels : Statement .pgLabels := fun _ => Nat.zero_le _

theorem pgSeedWrite (p : Path) (v : Nat) : Statement (.pgSeedWrite p v) := fun _ => Nat.zero_le _

theorem sqTailWrite (r : Fin 64) (v : Nat) : Statement (.sqTailWrite r v) := fun _ => Nat.zero_le _

theorem cqHeadWrite (c : Fin 64) (v : Nat) : Statement (.cqHeadWrite c v) := fun _ => Nat.zero_le _

theorem itemDispatch (r : Fin 64) : Statement (.itemDispatch r) := fun _ => Nat.zero_le _

theorem laneSelect (l : Lane) : Statement (.laneSelect l) := fun _ => Nat.zero_le _

theorem preemptionPoint (l : Lane) : Statement (.preemptionPoint l) := fun _ => Nat.zero_le _

theorem itemCompletion (r : Fin 64) (seq : Nat) : Statement (.itemCompletion r seq) := fun _ => Nat.zero_le _

theorem cqCoalesceTimeout (c : Fin 64) : Statement (.cqCoalesceTimeout c) := fun _ => Nat.zero_le _

theorem msixUnmask (v : Fin 64) : Statement (.msixUnmask v) := fun _ => Nat.zero_le _

theorem nop (r : Fin 64) : Statement (.nop r) := fun _ => Nat.zero_le _

theorem barrier (r : Fin 64) : Statement (.barrier r) := fun _ => Nat.zero_le _

theorem semSignal (r : Fin 64) : Statement (.semSignal r) := fun _ => Nat.zero_le _

theorem semWait (r : Fin 64) : Statement (.semWait r) := fun _ => Nat.zero_le _

theorem semWaitReoffer (r : Fin 64) : Statement (.semWaitReoffer r) := fun _ => Nat.zero_le _

theorem waitTimeout (r : Fin 64) : Statement (.waitTimeout r) := fun _ => Nat.zero_le _

theorem copy (u : CUnit) : Statement (.copy u) := fun _ => Nat.zero_le _

theorem fill (u : CUnit) : Statement (.fill u) := fun _ => Nat.zero_le _

theorem queuePush (l : Lane) : Statement (.queuePush l) := fun _ => Nat.zero_le _

theorem queuePop (l : Lane) : Statement (.queuePop l) := fun _ => Nat.zero_le _

theorem matmul (u : CUnit) : Statement (.matmul u) := fun _ => Nat.zero_le _

theorem vector (u : CUnit) : Statement (.vector u) := fun _ => Nat.zero_le _

theorem vectorTimeout (u : CUnit) : Statement (.vectorTimeout u) := fun _ => Nat.zero_le _

theorem vEnd (u : CUnit) : Statement (.vEnd u) := fun _ => Nat.zero_le _

theorem vLd (u : CUnit) : Statement (.vLd u) := fun _ => Nat.zero_le _

theorem vSt (u : CUnit) : Statement (.vSt u) := fun _ => Nat.zero_le _

theorem vLdb (u : CUnit) : Statement (.vLdb u) := fun _ => Nat.zero_le _

theorem vPadd (u : CUnit) : Statement (.vPadd u) := fun _ => Nat.zero_le _

theorem vMovi (u : CUnit) : Statement (.vMovi u) := fun _ => Nat.zero_le _

theorem vAdd (u : CUnit) : Statement (.vAdd u) := fun _ => Nat.zero_le _

theorem vSub (u : CUnit) : Statement (.vSub u) := fun _ => Nat.zero_le _

theorem vMul (u : CUnit) : Statement (.vMul u) := fun _ => Nat.zero_le _

theorem vFma (u : CUnit) : Statement (.vFma u) := fun _ => Nat.zero_le _

theorem vMin (u : CUnit) : Statement (.vMin u) := fun _ => Nat.zero_le _

theorem vMax (u : CUnit) : Statement (.vMax u) := fun _ => Nat.zero_le _

theorem vClt (u : CUnit) : Statement (.vClt u) := fun _ => Nat.zero_le _

theorem vSel (u : CUnit) : Statement (.vSel u) := fun _ => Nat.zero_le _

theorem vCvti (u : CUnit) : Statement (.vCvti u) := fun _ => Nat.zero_le _

theorem vCvtf (u : CUnit) : Statement (.vCvtf u) := fun _ => Nat.zero_le _

theorem vExp (u : CUnit) : Statement (.vExp u) := fun _ => Nat.zero_le _

theorem vRcp (u : CUnit) : Statement (.vRcp u) := fun _ => Nat.zero_le _

theorem vRsq (u : CUnit) : Statement (.vRsq u) := fun _ => Nat.zero_le _

theorem vRsum (u : CUnit) : Statement (.vRsum u) := fun _ => Nat.zero_le _

theorem vRmax (u : CUnit) : Statement (.vRmax u) := fun _ => Nat.zero_le _

theorem vLoop (u : CUnit) : Statement (.vLoop u) := fun _ => Nat.zero_le _

theorem reduce (u : CUnit) : Statement (.reduce u) := fun _ => Nat.zero_le _

theorem ringFlush (p : Path) (r : Fin 64) (v : Nat) : Statement (.ringFlush p r v) := fun _ => Nat.zero_le _

theorem ringFlushDiscard (r : Fin 64) : Statement (.ringFlushDiscard r) := fun _ => Nat.zero_le _

theorem ringEnable (p : Path) (r : Fin 64) (v : Nat) : Statement (.ringEnable p r v) := fun _ => Nat.zero_le _

theorem cqEnable (p : Path) (c : Fin 64) (v : Nat) : Statement (.cqEnable p c v) := fun _ => Nat.zero_le _

theorem iqFlush (p : Path) (q : Fin 32) (v : Nat) : Statement (.iqFlush p q v) := fun _ => Nat.zero_le _

theorem iqEnable (p : Path) (q : Fin 32) (v : Nat) : Statement (.iqEnable p q v) := fun _ => Nat.zero_le _

theorem chairFormedWrite (p : Path) (v : Nat) : Statement (.chairFormedWrite p v) := fun _ => Nat.zero_le _

theorem chairChangeComplete (c : Fin 16) : Statement (.chairChangeComplete c) := fun _ => Nat.zero_le _

theorem gafferLevelWrite (p : Path) (g : Fin 32) (v : Nat) : Statement (.gafferLevelWrite p g v) := fun _ => Nat.zero_le _

theorem levelChangeComplete (g : Fin 32) : Statement (.levelChangeComplete g) := fun _ => Nat.zero_le _

theorem srSeedWrite (p : Path) (g : Fin 32) (v : Nat) : Statement (.srSeedWrite p g v) := fun _ => Nat.zero_le _

theorem gafferFenceSet (by_ : FenceBy) (g : Fin 32) : Statement (.gafferFenceSet by_ g) := fun _ => Nat.zero_le _

theorem fencePowerOff (g : Fin 32) : Statement (.fencePowerOff g) := fun _ => Nat.zero_le _

theorem gafferFenceClear (p : Path) (g : Fin 32) : Statement (.gafferFenceClear p g) := fun _ => Nat.zero_le _

theorem startTestComplete (g : Fin 32) (results : List Nat) : Statement (.startTestComplete g results) := fun _ => Nat.zero_le _

theorem mvTransform (m : Fin 4) : Statement (.mvTransform m) := fun _ => Nat.zero_le _

theorem mvGather (m : Fin 4) : Statement (.mvGather m) := fun _ => Nat.zero_le _

theorem mvScatter (m : Fin 4) : Statement (.mvScatter m) := fun _ => Nat.zero_le _

theorem kvAppend (u : CUnit) : Statement (.kvAppend u) := fun _ => Nat.zero_le _

theorem kvOpen : Statement .kvOpen := fun _ => Nat.zero_le _

theorem kvAlloc : Statement .kvAlloc := fun _ => Nat.zero_le _

theorem kvTruncate : Statement .kvTruncate := fun _ => Nat.zero_le _

theorem kvClose : Statement .kvClose := fun _ => Nat.zero_le _

theorem kvRead : Statement .kvRead := fun _ => Nat.zero_le _

theorem kvpEnable (p : Path) (pool : Fin 4) (v : Nat) : Statement (.kvpEnable p pool v) := fun _ => Nat.zero_le _

theorem attPrefill (u : CUnit) : Statement (.attPrefill u) := fun _ => Nat.zero_le _

theorem attDecode (u : CUnit) : Statement (.attDecode u) := fun _ => Nat.zero_le _

theorem attMerge (u : CUnit) : Statement (.attMerge u) := fun _ => Nat.zero_le _

theorem arbLookup : Statement .arbLookup := fun _ => Nat.zero_le _

theorem arbInsert : Statement .arbInsert := fun _ => Nat.zero_le _

theorem unpin : Statement .unpin := fun _ => Nat.zero_le _

theorem reopen : Statement .reopen := fun _ => Nat.zero_le _

theorem kvSwapOut : Statement .kvSwapOut := fun _ => Nat.zero_le _

theorem kvSwapIn : Statement .kvSwapIn := fun _ => Nat.zero_le _

theorem kpDeclare : Statement .kpDeclare := fun _ => Nat.zero_le _

theorem verdict : Statement .verdict := fun _ => Nat.zero_le _

theorem verdictDeadline : Statement .verdictDeadline := fun _ => Nat.zero_le _

theorem epochMissing : Statement .epochMissing := fun _ => Nat.zero_le _

theorem kpArmedWrite (p : Path) (v : Nat) : Statement (.kpArmedWrite p v) := fun _ => Nat.zero_le _

theorem kpForceSafe (p : Path) (v : Nat) : Statement (.kpForceSafe p v) := fun _ => Nat.zero_le _

theorem kpSafeClear (p : Path) (v : Nat) : Statement (.kpSafeClear p v) := fun _ => Nat.zero_le _

theorem rulesWrite (p : Path) (parked : Bool) (data : Bytes) : Statement (.rulesWrite p parked data) := by
  intro h; simp [Instr.wf, dataOk] at h; simp only [carried]; omega

theorem lockstepMismatch : Statement .lockstepMismatch := fun _ => Nat.zero_le _

theorem keeperClockLoss : Statement .keeperClockLoss := fun _ => Nat.zero_le _

theorem keeperWatchdog : Statement .keeperWatchdog := fun _ => Nat.zero_le _

theorem keeperStartComplete (passed : Bool) : Statement (.keeperStartComplete passed) := fun _ => Nat.zero_le _

theorem restartReady : Statement .restartReady := fun _ => Nat.zero_le _

theorem heartbeatToggle : Statement .heartbeatToggle := fun _ => Nat.zero_le _

theorem parkedRuleEval : Statement .parkedRuleEval := fun _ => Nat.zero_le _

theorem gardenerHeartbeat : Statement .gardenerHeartbeat := fun _ => Nat.zero_le _

theorem gardenerWatchdog : Statement .gardenerWatchdog := fun _ => Nat.zero_le _

theorem lamplighterSlot (i : Fin 32) (missed : List Nat) : Statement (.lamplighterSlot i missed) := fun _ => Nat.zero_le _

theorem goldenSetComplete (g : Fin 32) (results : List Nat) : Statement (.goldenSetComplete g results) := fun _ => Nat.zero_le _

theorem setMissed (g : Fin 32) : Statement (.setMissed g) := fun _ => Nat.zero_le _

theorem sramPatrolScrub (array : SramArray) (addr : Nat) : Statement (.sramPatrolScrub array addr) := fun _ => Nat.zero_le _

theorem ddrPatrolScrub (addr : Nat) : Statement (.ddrPatrolScrub addr) := fun _ => Nat.zero_le _

theorem scMarkedWrite (p : Path) (sc : Fin 8) (v : Nat) : Statement (.scMarkedWrite p sc v) := fun _ => Nat.zero_le _

theorem ddrRetire (p : Path) (v : Nat) : Statement (.ddrRetire p v) := fun _ => Nat.zero_le _

theorem ddrUnretire (p : Path) (v : Nat) : Statement (.ddrUnretire p v) := fun _ => Nat.zero_le _

theorem errLogReadSeq (p : Path) (v : Nat) : Statement (.errLogReadSeq p v) := fun _ => Nat.zero_le _

theorem errCorrectedHoldoff : Statement .errCorrectedHoldoff := fun _ => Nat.zero_le _

theorem bar2Read (off : Nat) (len : Nat) : Statement (.bar2Read off len) := fun _ => Nat.zero_le _

theorem bar2Write (off : Nat) (data : Bytes) (poisoned : Bool) : Statement (.bar2Write off data poisoned) := by
  intro h; simp [Instr.wf] at h; simp only [carried]; omega

theorem bar2Resize (sizeBits : Fin 64) : Statement (.bar2Resize sizeBits) := fun _ => Nat.zero_le _

theorem xlateEntryWrite (i : Nat) (v : Nat) : Statement (.xlateEntryWrite i v) := fun _ => Nat.zero_le _

theorem hostReadFail (r : Fin 64) (seq : Nat) (addr : Nat) : Statement (.hostReadFail r seq addr) := fun _ => Nat.zero_le _

theorem linkUp (rate : Fin 6) (width : Nat) : Statement (.linkUp rate width) := fun _ => Nat.zero_le _

theorem linkDown : Statement .linkDown := fun _ => Nat.zero_le _

theorem hotReset : Statement .hotReset := fun _ => Nat.zero_le _

theorem flr : Statement .flr := fun _ => Nat.zero_le _

theorem perstAssert : Statement .perstAssert := fun _ => Nat.zero_le _

theorem ddrRetrain (sc : Fin 8) : Statement (.ddrRetrain sc) := fun _ => Nat.zero_le _

theorem ddrTrainingComplete (pair : Fin 2) (passed : Bool) (full : Bool) : Statement (.ddrTrainingComplete pair passed full) := fun _ => Nat.zero_le _

theorem ddrInterleaveWrite (p : Path) (v : Nat) : Statement (.ddrInterleaveWrite p v) := fun _ => Nat.zero_le _

theorem directMapWrite (off : Nat) (data : Bytes) : Statement (.directMapWrite off data) := by
  intro h; simp [Instr.wf] at h; simp only [carried]; omega

theorem directMapRead (off : Nat) (size : Nat) : Statement (.directMapRead off size) := fun _ => Nat.zero_le _

theorem channelRead (k : Fin 4) (index : Nat) (sub : Nat) : Statement (.channelRead k index sub) := fun _ => Nat.zero_le _

theorem channelWrite (k : Fin 4) (index : Nat) (sub : Nat) (data : Bytes) : Statement (.channelWrite k index sub data) := by
  intro h; simp [Instr.wf, dictOk, dataOk] at h; simp only [carried]; omega

theorem channelAbort (k : Fin 4) : Statement (.channelAbort k) := fun _ => Nat.zero_le _

theorem channelComplete (k : Fin 4) : Statement (.channelComplete k) := fun _ => Nat.zero_le _

theorem canRead (safety : Bool) (frame : CanFrame) : Statement (.canRead safety frame) := by
  intro h; simp [Instr.wf, CanFrame.wf] at h; simp only [carried]; omega

theorem canWrite (safety : Bool) (frame : CanFrame) : Statement (.canWrite safety frame) := by
  intro h; simp [Instr.wf, CanFrame.wf] at h; simp only [carried]; omega

theorem canAbort (safety : Bool) (frame : CanFrame) : Statement (.canAbort safety frame) := by
  intro h; simp [Instr.wf, CanFrame.wf] at h; simp only [carried]; omega

theorem canTransferTimeout (safety : Bool) : Statement (.canTransferTimeout safety) := fun _ => Nat.zero_le _

theorem smbSelect (code : Fin 256) (pecGood : Bool) (data : Bytes) : Statement (.smbSelect code pecGood data) := by
  intro h; simp [Instr.wf] at h; simp only [carried]; omega

theorem smbRead (code : Fin 256) : Statement (.smbRead code) := fun _ => Nat.zero_le _

theorem smbWrite (pecGood : Bool) (data : Bytes) : Statement (.smbWrite pecGood data) := by
  intro h; simp [Instr.wf] at h; simp only [carried]; omega

theorem smbCommit (pecGood : Bool) : Statement (.smbCommit pecGood) := fun _ => Nat.zero_le _

theorem smbResult : Statement .smbResult := fun _ => Nat.zero_le _

theorem smbAbort (pecGood : Bool) : Statement (.smbAbort pecGood) := fun _ => Nat.zero_le _

theorem smbTimeout : Statement .smbTimeout := fun _ => Nat.zero_le _

theorem ifSelectWrite (p : Path) (data : Bytes) : Statement (.ifSelectWrite p data) := by
  intro h; simp [Instr.wf, dataOk] at h; simp only [carried]; omega

theorem devAttentionClear (p : Path) (v : Nat) : Statement (.devAttentionClear p v) := fun _ => Nat.zero_le _

theorem pdRequest (p : Path) (one : Option (Fin 47)) (data : Bytes) : Statement (.pdRequest p one data) := by
  intro h; simp [Instr.wf, dataOk] at h; simp only [carried]; omega

theorem pdTransitionComplete (d : Fin 47) : Statement (.pdTransitionComplete d) := fun _ => Nat.zero_le _

theorem powerCapTick (mW : Nat) : Statement (.powerCapTick mW) := fun _ => Nat.zero_le _

theorem powerRaiseTick : Statement .powerRaiseTick := fun _ => Nat.zero_le _

theorem pwrSleepEnter (p : Path) (data : Bytes) : Statement (.pwrSleepEnter p data) := by
  intro h; simp [Instr.wf, dataOk] at h; simp only [carried]; omega

theorem sleepClockHandover : Statement .sleepClockHandover := fun _ => Nat.zero_le _

theorem wakeDetectorArm : Statement .wakeDetectorArm := fun _ => Nat.zero_le _

theorem smbAddressMatch (byte : Nat) : Statement (.smbAddressMatch byte) := fun _ => Nat.zero_le _

theorem wakePin (pin : Bool) (level : Bool) : Statement (.wakePin pin level) := fun _ => Nat.zero_le _

theorem sleepAlarm (a : Fin 8) : Statement (.sleepAlarm a) := fun _ => Nat.zero_le _

theorem wakeTry : Statement .wakeTry := fun _ => Nat.zero_le _

theorem wakeTryFail (reason : Fin 6) : Statement (.wakeTryFail reason) := fun _ => Nat.zero_le _

theorem dictionaryReady : Statement .dictionaryReady := fun _ => Nat.zero_le _

theorem alwaysOnBrownOut (cause : Fin 5) : Statement (.alwaysOnBrownOut cause) := fun _ => Nat.zero_le _

theorem io18Low : Statement .io18Low := fun _ => Nat.zero_le _

theorem io18Restored : Statement .io18Restored := fun _ => Nat.zero_le _

theorem io33Low (good : Bool) : Statement (.io33Low good) := fun _ => Nat.zero_le _

theorem pgSramLoss : Statement .pgSramLoss := fun _ => Nat.zero_le _

theorem pgCoreFall (sram : Bool) : Statement (.pgCoreFall sram) := fun _ => Nat.zero_le _

theorem clk32kLoss : Statement .clk32kLoss := fun _ => Nat.zero_le _

theorem powerOn : Statement .powerOn := fun _ => Nat.zero_le _

theorem resetAssert : Statement .resetAssert := fun _ => Nat.zero_le _

theorem resetRelease : Statement .resetRelease := fun _ => Nat.zero_le _

theorem startWatchdog : Statement .startWatchdog := fun _ => Nat.zero_le _

theorem bootRestart (p : Path) (v : Nat) : Statement (.bootRestart p v) := fun _ => Nat.zero_le _

theorem stageVerify (p : Path) : Statement (.stageVerify p) := fun _ => Nat.zero_le _

theorem stageProgram (p : Path) (slotB : Bool) : Statement (.stageProgram p slotB) := fun _ => Nat.zero_le _

theorem stageBoot (p : Path) : Statement (.stageBoot p) := fun _ => Nat.zero_le _

theorem stageComplete (flashGood : Bool) : Statement (.stageComplete flashGood) := fun _ => Nat.zero_le _

theorem bootCommitSvn (p : Path) (v : Nat) : Statement (.bootCommitSvn p v) := fun _ => Nat.zero_le _

theorem lcAdvance (p : Path) (v : Nat) : Statement (.lcAdvance p v) := fun _ => Nat.zero_le _

theorem lcKeyRevoke (p : Path) (v : Nat) : Statement (.lcKeyRevoke p v) := fun _ => Nat.zero_le _

theorem lcKeyHashWrite (p : Path) (what : Fin 6) (data : Bytes) : Statement (.lcKeyHashWrite p what data) := by
  intro h; simp [Instr.wf, dataOk] at h; simp only [carried]; omega

theorem fuseCommandComplete (readBackGood : Bool) : Statement (.fuseCommandComplete readBackGood) := fun _ => Nat.zero_le _

theorem dbgToken (p : Path) (data : Bytes) : Statement (.dbgToken p data) := by
  intro h; simp [Instr.wf, dataOk] at h; simp only [carried]; omega

theorem drSeal (p : Path) (v : Nat) : Statement (.drSeal p v) := fun _ => Nat.zero_le _

theorem drSealComplete : Statement .drSealComplete := fun _ => Nat.zero_le _

theorem drUnseal (p : Path) (v : Nat) : Statement (.drUnseal p v) := fun _ => Nat.zero_le _

theorem tpinFuncWrite (p : Path) (t : Fin 4) (v : Nat) : Statement (.tpinFuncWrite p t v) := fun _ => Nat.zero_le _

theorem obsSelectWrite (p : Path) (m : Fin 2) (v : Nat) : Statement (.obsSelectWrite p m v) := fun _ => Nat.zero_le _

theorem bypass (code : Fin 256) : Statement (.bypass code) := fun _ => Nat.zero_le _

theorem idcode : Statement .idcode := fun _ => Nat.zero_le _

theorem samplePreload (data : List Bool) : Statement (.samplePreload data) := fun _ => Nat.zero_le _

theorem extest : Statement .extest := fun _ => Nat.zero_le _

theorem clamp : Statement .clamp := fun _ => Nat.zero_le _

theorem highz : Statement .highz := fun _ => Nat.zero_le _

theorem canErrorFrame (ctrl : Fin 2) : Statement (.canErrorFrame ctrl) := fun _ => Nat.zero_le _

theorem canBusOffEntry (ctrl : Fin 2) : Statement (.canBusOffEntry ctrl) := fun _ => Nat.zero_le _

theorem busOffRecovery (ctrl : Fin 2) : Statement (.busOffRecovery ctrl) := fun _ => Nat.zero_le _

theorem deskewCalibration (port : Fin 6) : Statement (.deskewCalibration port) := fun _ => Nat.zero_le _

theorem vddqDdrLoss : Statement .vddqDdrLoss := fun _ => Nat.zero_le _

theorem perstRelease : Statement .perstRelease := fun _ => Nat.zero_le _

theorem regulatorReady : Statement .regulatorReady := fun _ => Nat.zero_le _

theorem pgHigh : Statement .pgHigh := fun _ => Nat.zero_le _

theorem refclkSysPresent : Statement .refclkSysPresent := fun _ => Nat.zero_le _

theorem wakeIgnoreExpiry : Statement .wakeIgnoreExpiry := fun _ => Nat.zero_le _

theorem tapReset : Statement .tapReset := fun _ => Nat.zero_le _

end Sys2Proof.Laws.Operands
end

