-- ==== Sys2Proof/Laws/Tables.lean ====
section
/-! SUPPORT. Reading a table after a write of it. -/

namespace Sys2Proof.Machine

@[simp] theorem kget_kset_same {α : Type} (m : KMap α) (k : Nat) (v d : α) : kget (kset m k v) k d = v := by
  induction m with
  | nil => simp [kset, kget]
  | cons e t ih =>
    obtain ⟨k', v'⟩ := e
    simp only [kset]
    split_ifs <;> simp_all [kget]

theorem kget_kset_ne {α : Type} (m : KMap α) {k j : Nat} (v d : α) (h : j ≠ k) : kget (kset m k v) j d = kget m j d := by
  induction m with
  | nil => simp [kset, kget, Ne.symm h]
  | cons e t ih =>
    obtain ⟨k', v'⟩ := e
    simp only [kset]
    split_ifs with h1 h2
    · subst h1; simp [kget, Ne.symm h]
    · simp [kget, Ne.symm h]
    · simp only [kget, ih]

theorem kget_kset {α : Type} (m : KMap α) (k j : Nat) (v d : α) : kget (kset m k v) j d = if j = k then v else kget m j d := by
  split
  · subst j; simp
  · exact kget_kset_ne m v d ‹_›

@[simp] theorem kfind_kset_same {α : Type} (m : KMap α) (k : Nat) (v : α) : kfind (kset m k v) k = some v := by
  induction m with
  | nil => simp [kset, kfind]
  | cons e t ih =>
    obtain ⟨k', v'⟩ := e
    simp only [kset]
    split_ifs <;> simp_all [kfind]

theorem kfind_kset_ne {α : Type} (m : KMap α) {k j : Nat} (v : α) (h : j ≠ k) : kfind (kset m k v) j = kfind m j := by
  induction m with
  | nil => simp [kset, kfind, Ne.symm h]
  | cons e t ih =>
    obtain ⟨k', v'⟩ := e
    simp only [kset]
    split_ifs with h1 h2
    · subst h1; simp [kfind, Ne.symm h]
    · simp [kfind, Ne.symm h]
    · simp only [kfind, ih]

/-- A write of the value that is written last decides. -/
@[simp] theorem kset_kset {α : Type} (m : KMap α) (k : Nat) (v w : α) : kset (kset m k v) k w = kset m k w := by
  induction m with
  | nil => simp [kset]
  | cons e t ih =>
    obtain ⟨k', v'⟩ := e
    simp only [kset]
    split_ifs <;> simp_all [kset]

end Sys2Proof.Machine
end

