-- ==== Sys2Proof/Laws/State.lean ====
section
/-! SUPPORT. What each plain update of State leaves in each field, so that no proof unfolds a record update. -/

namespace Sys2Proof.Machine

@[simp] theorem setReg_pending (s : State) (r : Reg) (v : Nat) : (s.setReg r v).pending = s.pending := rfl
@[simp] theorem setReg_freeIx (s : State) (r : Reg) (v : Nat) : (s.setReg r v).freeIx = s.freeIx := rfl
@[simp] theorem setReg_now (s : State) (r : Reg) (v : Nat) : (s.setReg r v).now = s.now := rfl
@[simp] theorem setReg_uptime0 (s : State) (r : Reg) (v : Nat) : (s.setReg r v).uptime0 = s.uptime0 := rfl
@[simp] theorem setReg_regs (s : State) (r : Reg) (v : Nat) : (s.setReg r v).regs = kset s.regs r.key v := rfl
@[simp] theorem setReg_blobs (s : State) (r : Reg) (v : Nat) : (s.setReg r v).blobs = s.blobs := rfl
@[simp] theorem setReg_mem (s : State) (r : Reg) (v : Nat) : (s.setReg r v).mem = s.mem := rfl
@[simp] theorem setReg_hostMem (s : State) (r : Reg) (v : Nat) : (s.setReg r v).hostMem = s.hostMem := rfl
@[simp] theorem setReg_stops (s : State) (r : Reg) (v : Nat) : (s.setReg r v).stops = s.stops := rfl
@[simp] theorem setReg_log (s : State) (r : Reg) (v : Nat) : (s.setReg r v).log = s.log := rfl
@[simp] theorem setReg_sundial (s : State) (r : Reg) (v : Nat) : (s.setReg r v).sundial = s.sundial := rfl
@[simp] theorem setReg_disp (s : State) (r : Reg) (v : Nat) : (s.setReg r v).disp = s.disp := rfl
@[simp] theorem setReg_link (s : State) (r : Reg) (v : Nat) : (s.setReg r v).link = s.link := rfl
@[simp] theorem setReg_ddr (s : State) (r : Reg) (v : Nat) : (s.setReg r v).ddr = s.ddr := rfl
@[simp] theorem setReg_paths (s : State) (r : Reg) (v : Nat) : (s.setReg r v).paths = s.paths := rfl
@[simp] theorem setReg_lodge (s : State) (r : Reg) (v : Nat) : (s.setReg r v).lodge = s.lodge := rfl
@[simp] theorem setReg_pergola (s : State) (r : Reg) (v : Nat) : (s.setReg r v).pergola = s.pergola := rfl
@[simp] theorem setReg_kv (s : State) (r : Reg) (v : Nat) : (s.setReg r v).kv = s.kv := rfl
@[simp] theorem setReg_keeper (s : State) (r : Reg) (v : Nat) : (s.setReg r v).keeper = s.keeper := rfl
@[simp] theorem setReg_shift (s : State) (r : Reg) (v : Nat) : (s.setReg r v).shift = s.shift := rfl
@[simp] theorem setReg_drive (s : State) (r : Reg) (v : Nat) : (s.setReg r v).drive = s.drive := rfl
@[simp] theorem setReg_power (s : State) (r : Reg) (v : Nat) : (s.setReg r v).power = s.power := rfl
@[simp] theorem setReg_boot (s : State) (r : Reg) (v : Nat) : (s.setReg r v).boot = s.boot := rfl
@[simp] theorem setReg_pins (s : State) (r : Reg) (v : Nat) : (s.setReg r v).pins = s.pins := rfl
@[simp] theorem setReg_out (s : State) (r : Reg) (v : Nat) : (s.setReg r v).out = s.out := rfl

@[simp] theorem setBlob_pending (s : State) (k : Nat) (v : Bytes) : (s.setBlob k v).pending = s.pending := rfl
@[simp] theorem setBlob_freeIx (s : State) (k : Nat) (v : Bytes) : (s.setBlob k v).freeIx = s.freeIx := rfl
@[simp] theorem setBlob_now (s : State) (k : Nat) (v : Bytes) : (s.setBlob k v).now = s.now := rfl
@[simp] theorem setBlob_uptime0 (s : State) (k : Nat) (v : Bytes) : (s.setBlob k v).uptime0 = s.uptime0 := rfl
@[simp] theorem setBlob_regs (s : State) (k : Nat) (v : Bytes) : (s.setBlob k v).regs = s.regs := rfl
@[simp] theorem setBlob_blobs (s : State) (k : Nat) (v : Bytes) : (s.setBlob k v).blobs = kset s.blobs k v := rfl
@[simp] theorem setBlob_mem (s : State) (k : Nat) (v : Bytes) : (s.setBlob k v).mem = s.mem := rfl
@[simp] theorem setBlob_hostMem (s : State) (k : Nat) (v : Bytes) : (s.setBlob k v).hostMem = s.hostMem := rfl
@[simp] theorem setBlob_stops (s : State) (k : Nat) (v : Bytes) : (s.setBlob k v).stops = s.stops := rfl
@[simp] theorem setBlob_log (s : State) (k : Nat) (v : Bytes) : (s.setBlob k v).log = s.log := rfl
@[simp] theorem setBlob_sundial (s : State) (k : Nat) (v : Bytes) : (s.setBlob k v).sundial = s.sundial := rfl
@[simp] theorem setBlob_disp (s : State) (k : Nat) (v : Bytes) : (s.setBlob k v).disp = s.disp := rfl
@[simp] theorem setBlob_link (s : State) (k : Nat) (v : Bytes) : (s.setBlob k v).link = s.link := rfl
@[simp] theorem setBlob_ddr (s : State) (k : Nat) (v : Bytes) : (s.setBlob k v).ddr = s.ddr := rfl
@[simp] theorem setBlob_paths (s : State) (k : Nat) (v : Bytes) : (s.setBlob k v).paths = s.paths := rfl
@[simp] theorem setBlob_lodge (s : State) (k : Nat) (v : Bytes) : (s.setBlob k v).lodge = s.lodge := rfl
@[simp] theorem setBlob_pergola (s : State) (k : Nat) (v : Bytes) : (s.setBlob k v).pergola = s.pergola := rfl
@[simp] theorem setBlob_kv (s : State) (k : Nat) (v : Bytes) : (s.setBlob k v).kv = s.kv := rfl
@[simp] theorem setBlob_keeper (s : State) (k : Nat) (v : Bytes) : (s.setBlob k v).keeper = s.keeper := rfl
@[simp] theorem setBlob_shift (s : State) (k : Nat) (v : Bytes) : (s.setBlob k v).shift = s.shift := rfl
@[simp] theorem setBlob_drive (s : State) (k : Nat) (v : Bytes) : (s.setBlob k v).drive = s.drive := rfl
@[simp] theorem setBlob_power (s : State) (k : Nat) (v : Bytes) : (s.setBlob k v).power = s.power := rfl
@[simp] theorem setBlob_boot (s : State) (k : Nat) (v : Bytes) : (s.setBlob k v).boot = s.boot := rfl
@[simp] theorem setBlob_pins (s : State) (k : Nat) (v : Bytes) : (s.setBlob k v).pins = s.pins := rfl
@[simp] theorem setBlob_out (s : State) (k : Nat) (v : Bytes) : (s.setBlob k v).out = s.out := rfl

@[simp] theorem emit_pending (s : State) (o : Out) : (s.emit o).pending = s.pending := rfl
@[simp] theorem emit_freeIx (s : State) (o : Out) : (s.emit o).freeIx = s.freeIx := rfl
@[simp] theorem emit_now (s : State) (o : Out) : (s.emit o).now = s.now := rfl
@[simp] theorem emit_uptime0 (s : State) (o : Out) : (s.emit o).uptime0 = s.uptime0 := rfl
@[simp] theorem emit_regs (s : State) (o : Out) : (s.emit o).regs = s.regs := rfl
@[simp] theorem emit_blobs (s : State) (o : Out) : (s.emit o).blobs = s.blobs := rfl
@[simp] theorem emit_mem (s : State) (o : Out) : (s.emit o).mem = s.mem := rfl
@[simp] theorem emit_hostMem (s : State) (o : Out) : (s.emit o).hostMem = s.hostMem := rfl
@[simp] theorem emit_stops (s : State) (o : Out) : (s.emit o).stops = s.stops := rfl
@[simp] theorem emit_log (s : State) (o : Out) : (s.emit o).log = s.log := rfl
@[simp] theorem emit_sundial (s : State) (o : Out) : (s.emit o).sundial = s.sundial := rfl
@[simp] theorem emit_disp (s : State) (o : Out) : (s.emit o).disp = s.disp := rfl
@[simp] theorem emit_link (s : State) (o : Out) : (s.emit o).link = s.link := rfl
@[simp] theorem emit_ddr (s : State) (o : Out) : (s.emit o).ddr = s.ddr := rfl
@[simp] theorem emit_paths (s : State) (o : Out) : (s.emit o).paths = s.paths := rfl
@[simp] theorem emit_lodge (s : State) (o : Out) : (s.emit o).lodge = s.lodge := rfl
@[simp] theorem emit_pergola (s : State) (o : Out) : (s.emit o).pergola = s.pergola := rfl
@[simp] theorem emit_kv (s : State) (o : Out) : (s.emit o).kv = s.kv := rfl
@[simp] theorem emit_keeper (s : State) (o : Out) : (s.emit o).keeper = s.keeper := rfl
@[simp] theorem emit_shift (s : State) (o : Out) : (s.emit o).shift = s.shift := rfl
@[simp] theorem emit_drive (s : State) (o : Out) : (s.emit o).drive = s.drive := rfl
@[simp] theorem emit_power (s : State) (o : Out) : (s.emit o).power = s.power := rfl
@[simp] theorem emit_boot (s : State) (o : Out) : (s.emit o).boot = s.boot := rfl
@[simp] theorem emit_pins (s : State) (o : Out) : (s.emit o).pins = s.pins := rfl
@[simp] theorem emit_out (s : State) (o : Out) : (s.emit o).out = o :: s.out := rfl

@[simp] theorem skipFree_pending (s : State) : (s.skipFree).pending = s.pending := rfl
@[simp] theorem skipFree_freeIx (s : State) : (s.skipFree).freeIx = s.freeIx + 1 := rfl
@[simp] theorem skipFree_now (s : State) : (s.skipFree).now = s.now := rfl
@[simp] theorem skipFree_uptime0 (s : State) : (s.skipFree).uptime0 = s.uptime0 := rfl
@[simp] theorem skipFree_regs (s : State) : (s.skipFree).regs = s.regs := rfl
@[simp] theorem skipFree_blobs (s : State) : (s.skipFree).blobs = s.blobs := rfl
@[simp] theorem skipFree_mem (s : State) : (s.skipFree).mem = s.mem := rfl
@[simp] theorem skipFree_hostMem (s : State) : (s.skipFree).hostMem = s.hostMem := rfl
@[simp] theorem skipFree_stops (s : State) : (s.skipFree).stops = s.stops := rfl
@[simp] theorem skipFree_log (s : State) : (s.skipFree).log = s.log := rfl
@[simp] theorem skipFree_sundial (s : State) : (s.skipFree).sundial = s.sundial := rfl
@[simp] theorem skipFree_disp (s : State) : (s.skipFree).disp = s.disp := rfl
@[simp] theorem skipFree_link (s : State) : (s.skipFree).link = s.link := rfl
@[simp] theorem skipFree_ddr (s : State) : (s.skipFree).ddr = s.ddr := rfl
@[simp] theorem skipFree_paths (s : State) : (s.skipFree).paths = s.paths := rfl
@[simp] theorem skipFree_lodge (s : State) : (s.skipFree).lodge = s.lodge := rfl
@[simp] theorem skipFree_pergola (s : State) : (s.skipFree).pergola = s.pergola := rfl
@[simp] theorem skipFree_kv (s : State) : (s.skipFree).kv = s.kv := rfl
@[simp] theorem skipFree_keeper (s : State) : (s.skipFree).keeper = s.keeper := rfl
@[simp] theorem skipFree_shift (s : State) : (s.skipFree).shift = s.shift := rfl
@[simp] theorem skipFree_drive (s : State) : (s.skipFree).drive = s.drive := rfl
@[simp] theorem skipFree_power (s : State) : (s.skipFree).power = s.power := rfl
@[simp] theorem skipFree_boot (s : State) : (s.skipFree).boot = s.boot := rfl
@[simp] theorem skipFree_pins (s : State) : (s.skipFree).pins = s.pins := rfl
@[simp] theorem skipFree_out (s : State) : (s.skipFree).out = s.out := rfl

@[simp] theorem setPd_pending (s : State) (d : Nat) (v : PowerDomain) : (s.setPd d v).pending = s.pending := rfl
@[simp] theorem setPd_freeIx (s : State) (d : Nat) (v : PowerDomain) : (s.setPd d v).freeIx = s.freeIx := rfl
@[simp] theorem setPd_now (s : State) (d : Nat) (v : PowerDomain) : (s.setPd d v).now = s.now := rfl
@[simp] theorem setPd_uptime0 (s : State) (d : Nat) (v : PowerDomain) : (s.setPd d v).uptime0 = s.uptime0 := rfl
@[simp] theorem setPd_regs (s : State) (d : Nat) (v : PowerDomain) : (s.setPd d v).regs = s.regs := rfl
@[simp] theorem setPd_blobs (s : State) (d : Nat) (v : PowerDomain) : (s.setPd d v).blobs = s.blobs := rfl
@[simp] theorem setPd_mem (s : State) (d : Nat) (v : PowerDomain) : (s.setPd d v).mem = s.mem := rfl
@[simp] theorem setPd_hostMem (s : State) (d : Nat) (v : PowerDomain) : (s.setPd d v).hostMem = s.hostMem := rfl
@[simp] theorem setPd_stops (s : State) (d : Nat) (v : PowerDomain) : (s.setPd d v).stops = s.stops := rfl
@[simp] theorem setPd_log (s : State) (d : Nat) (v : PowerDomain) : (s.setPd d v).log = s.log := rfl
@[simp] theorem setPd_sundial (s : State) (d : Nat) (v : PowerDomain) : (s.setPd d v).sundial = s.sundial := rfl
@[simp] theorem setPd_disp (s : State) (d : Nat) (v : PowerDomain) : (s.setPd d v).disp = s.disp := rfl
@[simp] theorem setPd_link (s : State) (d : Nat) (v : PowerDomain) : (s.setPd d v).link = s.link := rfl
@[simp] theorem setPd_ddr (s : State) (d : Nat) (v : PowerDomain) : (s.setPd d v).ddr = s.ddr := rfl
@[simp] theorem setPd_paths (s : State) (d : Nat) (v : PowerDomain) : (s.setPd d v).paths = s.paths := rfl
@[simp] theorem setPd_lodge (s : State) (d : Nat) (v : PowerDomain) : (s.setPd d v).lodge = s.lodge := rfl
@[simp] theorem setPd_pergola (s : State) (d : Nat) (v : PowerDomain) : (s.setPd d v).pergola = s.pergola := rfl
@[simp] theorem setPd_kv (s : State) (d : Nat) (v : PowerDomain) : (s.setPd d v).kv = s.kv := rfl
@[simp] theorem setPd_keeper (s : State) (d : Nat) (v : PowerDomain) : (s.setPd d v).keeper = s.keeper := rfl
@[simp] theorem setPd_shift (s : State) (d : Nat) (v : PowerDomain) : (s.setPd d v).shift = s.shift := rfl
@[simp] theorem setPd_drive (s : State) (d : Nat) (v : PowerDomain) : (s.setPd d v).drive = s.drive := rfl
@[simp] theorem setPd_power (s : State) (d : Nat) (v : PowerDomain) : (s.setPd d v).power = { s.power with domains := kset s.power.domains d v } := rfl
@[simp] theorem setPd_boot (s : State) (d : Nat) (v : PowerDomain) : (s.setPd d v).boot = s.boot := rfl
@[simp] theorem setPd_pins (s : State) (d : Nat) (v : PowerDomain) : (s.setPd d v).pins = s.pins := rfl
@[simp] theorem setPd_out (s : State) (d : Nat) (v : PowerDomain) : (s.setPd d v).out = s.out := rfl

@[simp] theorem setGaffer_pending (s : State) (g : Nat) (v : Gaffer) : (s.setGaffer g v).pending = s.pending := rfl
@[simp] theorem setGaffer_freeIx (s : State) (g : Nat) (v : Gaffer) : (s.setGaffer g v).freeIx = s.freeIx := rfl
@[simp] theorem setGaffer_now (s : State) (g : Nat) (v : Gaffer) : (s.setGaffer g v).now = s.now := rfl
@[simp] theorem setGaffer_uptime0 (s : State) (g : Nat) (v : Gaffer) : (s.setGaffer g v).uptime0 = s.uptime0 := rfl
@[simp] theorem setGaffer_regs (s : State) (g : Nat) (v : Gaffer) : (s.setGaffer g v).regs = s.regs := rfl
@[simp] theorem setGaffer_blobs (s : State) (g : Nat) (v : Gaffer) : (s.setGaffer g v).blobs = s.blobs := rfl
@[simp] theorem setGaffer_mem (s : State) (g : Nat) (v : Gaffer) : (s.setGaffer g v).mem = s.mem := rfl
@[simp] theorem setGaffer_hostMem (s : State) (g : Nat) (v : Gaffer) : (s.setGaffer g v).hostMem = s.hostMem := rfl
@[simp] theorem setGaffer_stops (s : State) (g : Nat) (v : Gaffer) : (s.setGaffer g v).stops = s.stops := rfl
@[simp] theorem setGaffer_log (s : State) (g : Nat) (v : Gaffer) : (s.setGaffer g v).log = s.log := rfl
@[simp] theorem setGaffer_sundial (s : State) (g : Nat) (v : Gaffer) : (s.setGaffer g v).sundial = s.sundial := rfl
@[simp] theorem setGaffer_disp (s : State) (g : Nat) (v : Gaffer) : (s.setGaffer g v).disp = { s.disp with gaffers := kset s.disp.gaffers g v } := rfl
@[simp] theorem setGaffer_link (s : State) (g : Nat) (v : Gaffer) : (s.setGaffer g v).link = s.link := rfl
@[simp] theorem setGaffer_ddr (s : State) (g : Nat) (v : Gaffer) : (s.setGaffer g v).ddr = s.ddr := rfl
@[simp] theorem setGaffer_paths (s : State) (g : Nat) (v : Gaffer) : (s.setGaffer g v).paths = s.paths := rfl
@[simp] theorem setGaffer_lodge (s : State) (g : Nat) (v : Gaffer) : (s.setGaffer g v).lodge = s.lodge := rfl
@[simp] theorem setGaffer_pergola (s : State) (g : Nat) (v : Gaffer) : (s.setGaffer g v).pergola = s.pergola := rfl
@[simp] theorem setGaffer_kv (s : State) (g : Nat) (v : Gaffer) : (s.setGaffer g v).kv = s.kv := rfl
@[simp] theorem setGaffer_keeper (s : State) (g : Nat) (v : Gaffer) : (s.setGaffer g v).keeper = s.keeper := rfl
@[simp] theorem setGaffer_shift (s : State) (g : Nat) (v : Gaffer) : (s.setGaffer g v).shift = s.shift := rfl
@[simp] theorem setGaffer_drive (s : State) (g : Nat) (v : Gaffer) : (s.setGaffer g v).drive = s.drive := rfl
@[simp] theorem setGaffer_power (s : State) (g : Nat) (v : Gaffer) : (s.setGaffer g v).power = s.power := rfl
@[simp] theorem setGaffer_boot (s : State) (g : Nat) (v : Gaffer) : (s.setGaffer g v).boot = s.boot := rfl
@[simp] theorem setGaffer_pins (s : State) (g : Nat) (v : Gaffer) : (s.setGaffer g v).pins = s.pins := rfl
@[simp] theorem setGaffer_out (s : State) (g : Nat) (v : Gaffer) : (s.setGaffer g v).out = s.out := rfl

@[simp] theorem setDom_pending (s : State) (b : Bool) (d : TimeDomain) : (s.setDom b d).pending = s.pending := rfl
@[simp] theorem setDom_freeIx (s : State) (b : Bool) (d : TimeDomain) : (s.setDom b d).freeIx = s.freeIx := rfl
@[simp] theorem setDom_now (s : State) (b : Bool) (d : TimeDomain) : (s.setDom b d).now = s.now := rfl
@[simp] theorem setDom_uptime0 (s : State) (b : Bool) (d : TimeDomain) : (s.setDom b d).uptime0 = s.uptime0 := rfl
@[simp] theorem setDom_regs (s : State) (b : Bool) (d : TimeDomain) : (s.setDom b d).regs = s.regs := rfl
@[simp] theorem setDom_blobs (s : State) (b : Bool) (d : TimeDomain) : (s.setDom b d).blobs = s.blobs := rfl
@[simp] theorem setDom_mem (s : State) (b : Bool) (d : TimeDomain) : (s.setDom b d).mem = s.mem := rfl
@[simp] theorem setDom_hostMem (s : State) (b : Bool) (d : TimeDomain) : (s.setDom b d).hostMem = s.hostMem := rfl
@[simp] theorem setDom_stops (s : State) (b : Bool) (d : TimeDomain) : (s.setDom b d).stops = s.stops := rfl
@[simp] theorem setDom_log (s : State) (b : Bool) (d : TimeDomain) : (s.setDom b d).log = s.log := rfl
@[simp] theorem setDom_sundial (s : State) (b : Bool) (d : TimeDomain) : (s.setDom b d).sundial = if b then { s.sundial with domB := d } else { s.sundial with domA := d } := rfl
@[simp] theorem setDom_disp (s : State) (b : Bool) (d : TimeDomain) : (s.setDom b d).disp = s.disp := rfl
@[simp] theorem setDom_link (s : State) (b : Bool) (d : TimeDomain) : (s.setDom b d).link = s.link := rfl
@[simp] theorem setDom_ddr (s : State) (b : Bool) (d : TimeDomain) : (s.setDom b d).ddr = s.ddr := rfl
@[simp] theorem setDom_paths (s : State) (b : Bool) (d : TimeDomain) : (s.setDom b d).paths = s.paths := rfl
@[simp] theorem setDom_lodge (s : State) (b : Bool) (d : TimeDomain) : (s.setDom b d).lodge = s.lodge := rfl
@[simp] theorem setDom_pergola (s : State) (b : Bool) (d : TimeDomain) : (s.setDom b d).pergola = s.pergola := rfl
@[simp] theorem setDom_kv (s : State) (b : Bool) (d : TimeDomain) : (s.setDom b d).kv = s.kv := rfl
@[simp] theorem setDom_keeper (s : State) (b : Bool) (d : TimeDomain) : (s.setDom b d).keeper = s.keeper := rfl
@[simp] theorem setDom_shift (s : State) (b : Bool) (d : TimeDomain) : (s.setDom b d).shift = s.shift := rfl
@[simp] theorem setDom_drive (s : State) (b : Bool) (d : TimeDomain) : (s.setDom b d).drive = s.drive := rfl
@[simp] theorem setDom_power (s : State) (b : Bool) (d : TimeDomain) : (s.setDom b d).power = s.power := rfl
@[simp] theorem setDom_boot (s : State) (b : Bool) (d : TimeDomain) : (s.setDom b d).boot = s.boot := rfl
@[simp] theorem setDom_pins (s : State) (b : Bool) (d : TimeDomain) : (s.setDom b d).pins = s.pins := rfl
@[simp] theorem setDom_out (s : State) (b : Bool) (d : TimeDomain) : (s.setDom b d).out = s.out := rfl

@[simp] theorem setPool_pending (s : State) (p : Nat) (l : PoolLists) : (s.setPool p l).pending = s.pending := rfl
@[simp] theorem setPool_freeIx (s : State) (p : Nat) (l : PoolLists) : (s.setPool p l).freeIx = s.freeIx := rfl
@[simp] theorem setPool_now (s : State) (p : Nat) (l : PoolLists) : (s.setPool p l).now = s.now := rfl
@[simp] theorem setPool_uptime0 (s : State) (p : Nat) (l : PoolLists) : (s.setPool p l).uptime0 = s.uptime0 := rfl
@[simp] theorem setPool_regs (s : State) (p : Nat) (l : PoolLists) : (s.setPool p l).regs = s.regs := rfl
@[simp] theorem setPool_blobs (s : State) (p : Nat) (l : PoolLists) : (s.setPool p l).blobs = s.blobs := rfl
@[simp] theorem setPool_mem (s : State) (p : Nat) (l : PoolLists) : (s.setPool p l).mem = s.mem := rfl
@[simp] theorem setPool_hostMem (s : State) (p : Nat) (l : PoolLists) : (s.setPool p l).hostMem = s.hostMem := rfl
@[simp] theorem setPool_stops (s : State) (p : Nat) (l : PoolLists) : (s.setPool p l).stops = s.stops := rfl
@[simp] theorem setPool_log (s : State) (p : Nat) (l : PoolLists) : (s.setPool p l).log = s.log := rfl
@[simp] theorem setPool_sundial (s : State) (p : Nat) (l : PoolLists) : (s.setPool p l).sundial = s.sundial := rfl
@[simp] theorem setPool_disp (s : State) (p : Nat) (l : PoolLists) : (s.setPool p l).disp = s.disp := rfl
@[simp] theorem setPool_link (s : State) (p : Nat) (l : PoolLists) : (s.setPool p l).link = s.link := rfl
@[simp] theorem setPool_ddr (s : State) (p : Nat) (l : PoolLists) : (s.setPool p l).ddr = s.ddr := rfl
@[simp] theorem setPool_paths (s : State) (p : Nat) (l : PoolLists) : (s.setPool p l).paths = s.paths := rfl
@[simp] theorem setPool_lodge (s : State) (p : Nat) (l : PoolLists) : (s.setPool p l).lodge = s.lodge := rfl
@[simp] theorem setPool_pergola (s : State) (p : Nat) (l : PoolLists) : (s.setPool p l).pergola = s.pergola := rfl
@[simp] theorem setPool_kv (s : State) (p : Nat) (l : PoolLists) : (s.setPool p l).kv = { s.kv with pools := kset s.kv.pools p l } := rfl
@[simp] theorem setPool_keeper (s : State) (p : Nat) (l : PoolLists) : (s.setPool p l).keeper = s.keeper := rfl
@[simp] theorem setPool_shift (s : State) (p : Nat) (l : PoolLists) : (s.setPool p l).shift = s.shift := rfl
@[simp] theorem setPool_drive (s : State) (p : Nat) (l : PoolLists) : (s.setPool p l).drive = s.drive := rfl
@[simp] theorem setPool_power (s : State) (p : Nat) (l : PoolLists) : (s.setPool p l).power = s.power := rfl
@[simp] theorem setPool_boot (s : State) (p : Nat) (l : PoolLists) : (s.setPool p l).boot = s.boot := rfl
@[simp] theorem setPool_pins (s : State) (p : Nat) (l : PoolLists) : (s.setPool p l).pins = s.pins := rfl
@[simp] theorem setPool_out (s : State) (p : Nat) (l : PoolLists) : (s.setPool p l).out = s.out := rfl

@[simp] theorem setReaders_pending (s : State) (e n : Nat) : (s.setReaders e n).pending = s.pending := rfl
@[simp] theorem setReaders_freeIx (s : State) (e n : Nat) : (s.setReaders e n).freeIx = s.freeIx := rfl
@[simp] theorem setReaders_now (s : State) (e n : Nat) : (s.setReaders e n).now = s.now := rfl
@[simp] theorem setReaders_uptime0 (s : State) (e n : Nat) : (s.setReaders e n).uptime0 = s.uptime0 := rfl
@[simp] theorem setReaders_regs (s : State) (e n : Nat) : (s.setReaders e n).regs = s.regs := rfl
@[simp] theorem setReaders_blobs (s : State) (e n : Nat) : (s.setReaders e n).blobs = s.blobs := rfl
@[simp] theorem setReaders_mem (s : State) (e n : Nat) : (s.setReaders e n).mem = s.mem := rfl
@[simp] theorem setReaders_hostMem (s : State) (e n : Nat) : (s.setReaders e n).hostMem = s.hostMem := rfl
@[simp] theorem setReaders_stops (s : State) (e n : Nat) : (s.setReaders e n).stops = s.stops := rfl
@[simp] theorem setReaders_log (s : State) (e n : Nat) : (s.setReaders e n).log = s.log := rfl
@[simp] theorem setReaders_sundial (s : State) (e n : Nat) : (s.setReaders e n).sundial = s.sundial := rfl
@[simp] theorem setReaders_disp (s : State) (e n : Nat) : (s.setReaders e n).disp = s.disp := rfl
@[simp] theorem setReaders_link (s : State) (e n : Nat) : (s.setReaders e n).link = s.link := rfl
@[simp] theorem setReaders_ddr (s : State) (e n : Nat) : (s.setReaders e n).ddr = s.ddr := rfl
@[simp] theorem setReaders_paths (s : State) (e n : Nat) : (s.setReaders e n).paths = s.paths := rfl
@[simp] theorem setReaders_lodge (s : State) (e n : Nat) : (s.setReaders e n).lodge = s.lodge := rfl
@[simp] theorem setReaders_pergola (s : State) (e n : Nat) : (s.setReaders e n).pergola = s.pergola := rfl
@[simp] theorem setReaders_kv (s : State) (e n : Nat) : (s.setReaders e n).kv = if e % 2 = 0 then { s.kv with readers0 := n } else { s.kv with readers1 := n } := rfl
@[simp] theorem setReaders_keeper (s : State) (e n : Nat) : (s.setReaders e n).keeper = s.keeper := rfl
@[simp] theorem setReaders_shift (s : State) (e n : Nat) : (s.setReaders e n).shift = s.shift := rfl
@[simp] theorem setReaders_drive (s : State) (e n : Nat) : (s.setReaders e n).drive = s.drive := rfl
@[simp] theorem setReaders_power (s : State) (e n : Nat) : (s.setReaders e n).power = s.power := rfl
@[simp] theorem setReaders_boot (s : State) (e n : Nat) : (s.setReaders e n).boot = s.boot := rfl
@[simp] theorem setReaders_pins (s : State) (e n : Nat) : (s.setReaders e n).pins = s.pins := rfl
@[simp] theorem setReaders_out (s : State) (e n : Nat) : (s.setReaders e n).out = s.out := rfl

@[simp] theorem setIngest_pending (s : State) (q : Nat) (v : Ingest) : (s.setIngest q v).pending = s.pending := rfl
@[simp] theorem setIngest_freeIx (s : State) (q : Nat) (v : Ingest) : (s.setIngest q v).freeIx = s.freeIx := rfl
@[simp] theorem setIngest_now (s : State) (q : Nat) (v : Ingest) : (s.setIngest q v).now = s.now := rfl
@[simp] theorem setIngest_uptime0 (s : State) (q : Nat) (v : Ingest) : (s.setIngest q v).uptime0 = s.uptime0 := rfl
@[simp] theorem setIngest_regs (s : State) (q : Nat) (v : Ingest) : (s.setIngest q v).regs = s.regs := rfl
@[simp] theorem setIngest_blobs (s : State) (q : Nat) (v : Ingest) : (s.setIngest q v).blobs = s.blobs := rfl
@[simp] theorem setIngest_mem (s : State) (q : Nat) (v : Ingest) : (s.setIngest q v).mem = s.mem := rfl
@[simp] theorem setIngest_hostMem (s : State) (q : Nat) (v : Ingest) : (s.setIngest q v).hostMem = s.hostMem := rfl
@[simp] theorem setIngest_stops (s : State) (q : Nat) (v : Ingest) : (s.setIngest q v).stops = s.stops := rfl
@[simp] theorem setIngest_log (s : State) (q : Nat) (v : Ingest) : (s.setIngest q v).log = s.log := rfl
@[simp] theorem setIngest_sundial (s : State) (q : Nat) (v : Ingest) : (s.setIngest q v).sundial = s.sundial := rfl
@[simp] theorem setIngest_disp (s : State) (q : Nat) (v : Ingest) : (s.setIngest q v).disp = s.disp := rfl
@[simp] theorem setIngest_link (s : State) (q : Nat) (v : Ingest) : (s.setIngest q v).link = s.link := rfl
@[simp] theorem setIngest_ddr (s : State) (q : Nat) (v : Ingest) : (s.setIngest q v).ddr = s.ddr := rfl
@[simp] theorem setIngest_paths (s : State) (q : Nat) (v : Ingest) : (s.setIngest q v).paths = s.paths := rfl
@[simp] theorem setIngest_lodge (s : State) (q : Nat) (v : Ingest) : (s.setIngest q v).lodge = { s.lodge with ingest := kset s.lodge.ingest q v } := rfl
@[simp] theorem setIngest_pergola (s : State) (q : Nat) (v : Ingest) : (s.setIngest q v).pergola = s.pergola := rfl
@[simp] theorem setIngest_kv (s : State) (q : Nat) (v : Ingest) : (s.setIngest q v).kv = s.kv := rfl
@[simp] theorem setIngest_keeper (s : State) (q : Nat) (v : Ingest) : (s.setIngest q v).keeper = s.keeper := rfl
@[simp] theorem setIngest_shift (s : State) (q : Nat) (v : Ingest) : (s.setIngest q v).shift = s.shift := rfl
@[simp] theorem setIngest_drive (s : State) (q : Nat) (v : Ingest) : (s.setIngest q v).drive = s.drive := rfl
@[simp] theorem setIngest_power (s : State) (q : Nat) (v : Ingest) : (s.setIngest q v).power = s.power := rfl
@[simp] theorem setIngest_boot (s : State) (q : Nat) (v : Ingest) : (s.setIngest q v).boot = s.boot := rfl
@[simp] theorem setIngest_pins (s : State) (q : Nat) (v : Ingest) : (s.setIngest q v).pins = s.pins := rfl
@[simp] theorem setIngest_out (s : State) (q : Nat) (v : Ingest) : (s.setIngest q v).out = s.out := rfl

@[simp] theorem setIq_pending (s : State) (k : Nat) (v : IntQueue) : (s.setIq k v).pending = s.pending := rfl
@[simp] theorem setIq_freeIx (s : State) (k : Nat) (v : IntQueue) : (s.setIq k v).freeIx = s.freeIx := rfl
@[simp] theorem setIq_now (s : State) (k : Nat) (v : IntQueue) : (s.setIq k v).now = s.now := rfl
@[simp] theorem setIq_uptime0 (s : State) (k : Nat) (v : IntQueue) : (s.setIq k v).uptime0 = s.uptime0 := rfl
@[simp] theorem setIq_regs (s : State) (k : Nat) (v : IntQueue) : (s.setIq k v).regs = s.regs := rfl
@[simp] theorem setIq_blobs (s : State) (k : Nat) (v : IntQueue) : (s.setIq k v).blobs = s.blobs := rfl
@[simp] theorem setIq_mem (s : State) (k : Nat) (v : IntQueue) : (s.setIq k v).mem = s.mem := rfl
@[simp] theorem setIq_hostMem (s : State) (k : Nat) (v : IntQueue) : (s.setIq k v).hostMem = s.hostMem := rfl
@[simp] theorem setIq_stops (s : State) (k : Nat) (v : IntQueue) : (s.setIq k v).stops = s.stops := rfl
@[simp] theorem setIq_log (s : State) (k : Nat) (v : IntQueue) : (s.setIq k v).log = s.log := rfl
@[simp] theorem setIq_sundial (s : State) (k : Nat) (v : IntQueue) : (s.setIq k v).sundial = s.sundial := rfl
@[simp] theorem setIq_disp (s : State) (k : Nat) (v : IntQueue) : (s.setIq k v).disp = { s.disp with iqs := kset s.disp.iqs k v } := rfl
@[simp] theorem setIq_link (s : State) (k : Nat) (v : IntQueue) : (s.setIq k v).link = s.link := rfl
@[simp] theorem setIq_ddr (s : State) (k : Nat) (v : IntQueue) : (s.setIq k v).ddr = s.ddr := rfl
@[simp] theorem setIq_paths (s : State) (k : Nat) (v : IntQueue) : (s.setIq k v).paths = s.paths := rfl
@[simp] theorem setIq_lodge (s : State) (k : Nat) (v : IntQueue) : (s.setIq k v).lodge = s.lodge := rfl
@[simp] theorem setIq_pergola (s : State) (k : Nat) (v : IntQueue) : (s.setIq k v).pergola = s.pergola := rfl
@[simp] theorem setIq_kv (s : State) (k : Nat) (v : IntQueue) : (s.setIq k v).kv = s.kv := rfl
@[simp] theorem setIq_keeper (s : State) (k : Nat) (v : IntQueue) : (s.setIq k v).keeper = s.keeper := rfl
@[simp] theorem setIq_shift (s : State) (k : Nat) (v : IntQueue) : (s.setIq k v).shift = s.shift := rfl
@[simp] theorem setIq_drive (s : State) (k : Nat) (v : IntQueue) : (s.setIq k v).drive = s.drive := rfl
@[simp] theorem setIq_power (s : State) (k : Nat) (v : IntQueue) : (s.setIq k v).power = s.power := rfl
@[simp] theorem setIq_boot (s : State) (k : Nat) (v : IntQueue) : (s.setIq k v).boot = s.boot := rfl
@[simp] theorem setIq_pins (s : State) (k : Nat) (v : IntQueue) : (s.setIq k v).pins = s.pins := rfl
@[simp] theorem setIq_out (s : State) (k : Nat) (v : IntQueue) : (s.setIq k v).out = s.out := rfl

@[simp] theorem setItem_pending (s : State) (i : Item) : (s.setItem i).pending = s.pending := rfl
@[simp] theorem setItem_freeIx (s : State) (i : Item) : (s.setItem i).freeIx = s.freeIx := rfl
@[simp] theorem setItem_now (s : State) (i : Item) : (s.setItem i).now = s.now := rfl
@[simp] theorem setItem_uptime0 (s : State) (i : Item) : (s.setItem i).uptime0 = s.uptime0 := rfl
@[simp] theorem setItem_regs (s : State) (i : Item) : (s.setItem i).regs = s.regs := rfl
@[simp] theorem setItem_blobs (s : State) (i : Item) : (s.setItem i).blobs = s.blobs := rfl
@[simp] theorem setItem_mem (s : State) (i : Item) : (s.setItem i).mem = s.mem := rfl
@[simp] theorem setItem_hostMem (s : State) (i : Item) : (s.setItem i).hostMem = s.hostMem := rfl
@[simp] theorem setItem_stops (s : State) (i : Item) : (s.setItem i).stops = s.stops := rfl
@[simp] theorem setItem_log (s : State) (i : Item) : (s.setItem i).log = s.log := rfl
@[simp] theorem setItem_sundial (s : State) (i : Item) : (s.setItem i).sundial = s.sundial := rfl
@[simp] theorem setItem_link (s : State) (i : Item) : (s.setItem i).link = s.link := rfl
@[simp] theorem setItem_ddr (s : State) (i : Item) : (s.setItem i).ddr = s.ddr := rfl
@[simp] theorem setItem_paths (s : State) (i : Item) : (s.setItem i).paths = s.paths := rfl
@[simp] theorem setItem_lodge (s : State) (i : Item) : (s.setItem i).lodge = s.lodge := rfl
@[simp] theorem setItem_pergola (s : State) (i : Item) : (s.setItem i).pergola = s.pergola := rfl
@[simp] theorem setItem_kv (s : State) (i : Item) : (s.setItem i).kv = s.kv := rfl
@[simp] theorem setItem_keeper (s : State) (i : Item) : (s.setItem i).keeper = s.keeper := rfl
@[simp] theorem setItem_shift (s : State) (i : Item) : (s.setItem i).shift = s.shift := rfl
@[simp] theorem setItem_drive (s : State) (i : Item) : (s.setItem i).drive = s.drive := rfl
@[simp] theorem setItem_power (s : State) (i : Item) : (s.setItem i).power = s.power := rfl
@[simp] theorem setItem_boot (s : State) (i : Item) : (s.setItem i).boot = s.boot := rfl
@[simp] theorem setItem_pins (s : State) (i : Item) : (s.setItem i).pins = s.pins := rfl
@[simp] theorem setItem_out (s : State) (i : Item) : (s.setItem i).out = s.out := rfl

@[simp] theorem setRing_pending (s : State) (r : Nat) (v : Ring) : (s.setRing r v).pending = s.pending := rfl
@[simp] theorem setRing_freeIx (s : State) (r : Nat) (v : Ring) : (s.setRing r v).freeIx = s.freeIx := rfl
@[simp] theorem setRing_now (s : State) (r : Nat) (v : Ring) : (s.setRing r v).now = s.now := rfl
@[simp] theorem setRing_uptime0 (s : State) (r : Nat) (v : Ring) : (s.setRing r v).uptime0 = s.uptime0 := rfl
@[simp] theorem setRing_regs (s : State) (r : Nat) (v : Ring) : (s.setRing r v).regs = s.regs := rfl
@[simp] theorem setRing_blobs (s : State) (r : Nat) (v : Ring) : (s.setRing r v).blobs = s.blobs := rfl
@[simp] theorem setRing_mem (s : State) (r : Nat) (v : Ring) : (s.setRing r v).mem = s.mem := rfl
@[simp] theorem setRing_hostMem (s : State) (r : Nat) (v : Ring) : (s.setRing r v).hostMem = s.hostMem := rfl
@[simp] theorem setRing_stops (s : State) (r : Nat) (v : Ring) : (s.setRing r v).stops = s.stops := rfl
@[simp] theorem setRing_log (s : State) (r : Nat) (v : Ring) : (s.setRing r v).log = s.log := rfl
@[simp] theorem setRing_sundial (s : State) (r : Nat) (v : Ring) : (s.setRing r v).sundial = s.sundial := rfl
@[simp] theorem setRing_disp (s : State) (r : Nat) (v : Ring) : (s.setRing r v).disp = { s.disp with rings := kset s.disp.rings r v } := rfl
@[simp] theorem setRing_link (s : State) (r : Nat) (v : Ring) : (s.setRing r v).link = s.link := rfl
@[simp] theorem setRing_ddr (s : State) (r : Nat) (v : Ring) : (s.setRing r v).ddr = s.ddr := rfl
@[simp] theorem setRing_paths (s : State) (r : Nat) (v : Ring) : (s.setRing r v).paths = s.paths := rfl
@[simp] theorem setRing_lodge (s : State) (r : Nat) (v : Ring) : (s.setRing r v).lodge = s.lodge := rfl
@[simp] theorem setRing_pergola (s : State) (r : Nat) (v : Ring) : (s.setRing r v).pergola = s.pergola := rfl
@[simp] theorem setRing_kv (s : State) (r : Nat) (v : Ring) : (s.setRing r v).kv = s.kv := rfl
@[simp] theorem setRing_keeper (s : State) (r : Nat) (v : Ring) : (s.setRing r v).keeper = s.keeper := rfl
@[simp] theorem setRing_shift (s : State) (r : Nat) (v : Ring) : (s.setRing r v).shift = s.shift := rfl
@[simp] theorem setRing_drive (s : State) (r : Nat) (v : Ring) : (s.setRing r v).drive = s.drive := rfl
@[simp] theorem setRing_power (s : State) (r : Nat) (v : Ring) : (s.setRing r v).power = s.power := rfl
@[simp] theorem setRing_boot (s : State) (r : Nat) (v : Ring) : (s.setRing r v).boot = s.boot := rfl
@[simp] theorem setRing_pins (s : State) (r : Nat) (v : Ring) : (s.setRing r v).pins = s.pins := rfl
@[simp] theorem setRing_out (s : State) (r : Nat) (v : Ring) : (s.setRing r v).out = s.out := rfl

@[simp] theorem setComp_pending (s : State) (c : Nat) (v : CompRing) : (s.setComp c v).pending = s.pending := rfl
@[simp] theorem setComp_freeIx (s : State) (c : Nat) (v : CompRing) : (s.setComp c v).freeIx = s.freeIx := rfl
@[simp] theorem setComp_now (s : State) (c : Nat) (v : CompRing) : (s.setComp c v).now = s.now := rfl
@[simp] theorem setComp_uptime0 (s : State) (c : Nat) (v : CompRing) : (s.setComp c v).uptime0 = s.uptime0 := rfl
@[simp] theorem setComp_regs (s : State) (c : Nat) (v : CompRing) : (s.setComp c v).regs = s.regs := rfl
@[simp] theorem setComp_blobs (s : State) (c : Nat) (v : CompRing) : (s.setComp c v).blobs = s.blobs := rfl
@[simp] theorem setComp_mem (s : State) (c : Nat) (v : CompRing) : (s.setComp c v).mem = s.mem := rfl
@[simp] theorem setComp_hostMem (s : State) (c : Nat) (v : CompRing) : (s.setComp c v).hostMem = s.hostMem := rfl
@[simp] theorem setComp_stops (s : State) (c : Nat) (v : CompRing) : (s.setComp c v).stops = s.stops := rfl
@[simp] theorem setComp_log (s : State) (c : Nat) (v : CompRing) : (s.setComp c v).log = s.log := rfl
@[simp] theorem setComp_sundial (s : State) (c : Nat) (v : CompRing) : (s.setComp c v).sundial = s.sundial := rfl
@[simp] theorem setComp_disp (s : State) (c : Nat) (v : CompRing) : (s.setComp c v).disp = { s.disp with comps := kset s.disp.comps c v } := rfl
@[simp] theorem setComp_link (s : State) (c : Nat) (v : CompRing) : (s.setComp c v).link = s.link := rfl
@[simp] theorem setComp_ddr (s : State) (c : Nat) (v : CompRing) : (s.setComp c v).ddr = s.ddr := rfl
@[simp] theorem setComp_paths (s : State) (c : Nat) (v : CompRing) : (s.setComp c v).paths = s.paths := rfl
@[simp] theorem setComp_lodge (s : State) (c : Nat) (v : CompRing) : (s.setComp c v).lodge = s.lodge := rfl
@[simp] theorem setComp_pergola (s : State) (c : Nat) (v : CompRing) : (s.setComp c v).pergola = s.pergola := rfl
@[simp] theorem setComp_kv (s : State) (c : Nat) (v : CompRing) : (s.setComp c v).kv = s.kv := rfl
@[simp] theorem setComp_keeper (s : State) (c : Nat) (v : CompRing) : (s.setComp c v).keeper = s.keeper := rfl
@[simp] theorem setComp_shift (s : State) (c : Nat) (v : CompRing) : (s.setComp c v).shift = s.shift := rfl
@[simp] theorem setComp_drive (s : State) (c : Nat) (v : CompRing) : (s.setComp c v).drive = s.drive := rfl
@[simp] theorem setComp_power (s : State) (c : Nat) (v : CompRing) : (s.setComp c v).power = s.power := rfl
@[simp] theorem setComp_boot (s : State) (c : Nat) (v : CompRing) : (s.setComp c v).boot = s.boot := rfl
@[simp] theorem setComp_pins (s : State) (c : Nat) (v : CompRing) : (s.setComp c v).pins = s.pins := rfl
@[simp] theorem setComp_out (s : State) (c : Nat) (v : CompRing) : (s.setComp c v).out = s.out := rfl

@[simp] theorem setPgStream_pending (s : State) (k : Nat) (v : PgStream) : (s.setPgStream k v).pending = s.pending := rfl
@[simp] theorem setPgStream_freeIx (s : State) (k : Nat) (v : PgStream) : (s.setPgStream k v).freeIx = s.freeIx := rfl
@[simp] theorem setPgStream_now (s : State) (k : Nat) (v : PgStream) : (s.setPgStream k v).now = s.now := rfl
@[simp] theorem setPgStream_uptime0 (s : State) (k : Nat) (v : PgStream) : (s.setPgStream k v).uptime0 = s.uptime0 := rfl
@[simp] theorem setPgStream_regs (s : State) (k : Nat) (v : PgStream) : (s.setPgStream k v).regs = s.regs := rfl
@[simp] theorem setPgStream_blobs (s : State) (k : Nat) (v : PgStream) : (s.setPgStream k v).blobs = s.blobs := rfl
@[simp] theorem setPgStream_mem (s : State) (k : Nat) (v : PgStream) : (s.setPgStream k v).mem = s.mem := rfl
@[simp] theorem setPgStream_hostMem (s : State) (k : Nat) (v : PgStream) : (s.setPgStream k v).hostMem = s.hostMem := rfl
@[simp] theorem setPgStream_stops (s : State) (k : Nat) (v : PgStream) : (s.setPgStream k v).stops = s.stops := rfl
@[simp] theorem setPgStream_log (s : State) (k : Nat) (v : PgStream) : (s.setPgStream k v).log = s.log := rfl
@[simp] theorem setPgStream_sundial (s : State) (k : Nat) (v : PgStream) : (s.setPgStream k v).sundial = s.sundial := rfl
@[simp] theorem setPgStream_disp (s : State) (k : Nat) (v : PgStream) : (s.setPgStream k v).disp = s.disp := rfl
@[simp] theorem setPgStream_link (s : State) (k : Nat) (v : PgStream) : (s.setPgStream k v).link = s.link := rfl
@[simp] theorem setPgStream_ddr (s : State) (k : Nat) (v : PgStream) : (s.setPgStream k v).ddr = s.ddr := rfl
@[simp] theorem setPgStream_paths (s : State) (k : Nat) (v : PgStream) : (s.setPgStream k v).paths = s.paths := rfl
@[simp] theorem setPgStream_lodge (s : State) (k : Nat) (v : PgStream) : (s.setPgStream k v).lodge = s.lodge := rfl
@[simp] theorem setPgStream_pergola (s : State) (k : Nat) (v : PgStream) : (s.setPgStream k v).pergola = { s.pergola with streams := kset s.pergola.streams k v } := rfl
@[simp] theorem setPgStream_kv (s : State) (k : Nat) (v : PgStream) : (s.setPgStream k v).kv = s.kv := rfl
@[simp] theorem setPgStream_keeper (s : State) (k : Nat) (v : PgStream) : (s.setPgStream k v).keeper = s.keeper := rfl
@[simp] theorem setPgStream_shift (s : State) (k : Nat) (v : PgStream) : (s.setPgStream k v).shift = s.shift := rfl
@[simp] theorem setPgStream_drive (s : State) (k : Nat) (v : PgStream) : (s.setPgStream k v).drive = s.drive := rfl
@[simp] theorem setPgStream_power (s : State) (k : Nat) (v : PgStream) : (s.setPgStream k v).power = s.power := rfl
@[simp] theorem setPgStream_boot (s : State) (k : Nat) (v : PgStream) : (s.setPgStream k v).boot = s.boot := rfl
@[simp] theorem setPgStream_pins (s : State) (k : Nat) (v : PgStream) : (s.setPgStream k v).pins = s.pins := rfl
@[simp] theorem setPgStream_out (s : State) (k : Nat) (v : PgStream) : (s.setPgStream k v).out = s.out := rfl

@[simp] theorem setLastServed_pending (s : State) (l : Lane) (r : Nat) : (s.setLastServed l r).pending = s.pending := rfl
@[simp] theorem setLastServed_freeIx (s : State) (l : Lane) (r : Nat) : (s.setLastServed l r).freeIx = s.freeIx := rfl
@[simp] theorem setLastServed_now (s : State) (l : Lane) (r : Nat) : (s.setLastServed l r).now = s.now := rfl
@[simp] theorem setLastServed_uptime0 (s : State) (l : Lane) (r : Nat) : (s.setLastServed l r).uptime0 = s.uptime0 := rfl
@[simp] theorem setLastServed_regs (s : State) (l : Lane) (r : Nat) : (s.setLastServed l r).regs = s.regs := rfl
@[simp] theorem setLastServed_blobs (s : State) (l : Lane) (r : Nat) : (s.setLastServed l r).blobs = s.blobs := rfl
@[simp] theorem setLastServed_mem (s : State) (l : Lane) (r : Nat) : (s.setLastServed l r).mem = s.mem := rfl
@[simp] theorem setLastServed_hostMem (s : State) (l : Lane) (r : Nat) : (s.setLastServed l r).hostMem = s.hostMem := rfl
@[simp] theorem setLastServed_stops (s : State) (l : Lane) (r : Nat) : (s.setLastServed l r).stops = s.stops := rfl
@[simp] theorem setLastServed_log (s : State) (l : Lane) (r : Nat) : (s.setLastServed l r).log = s.log := rfl
@[simp] theorem setLastServed_sundial (s : State) (l : Lane) (r : Nat) : (s.setLastServed l r).sundial = s.sundial := rfl
@[simp] theorem setLastServed_link (s : State) (l : Lane) (r : Nat) : (s.setLastServed l r).link = s.link := rfl
@[simp] theorem setLastServed_ddr (s : State) (l : Lane) (r : Nat) : (s.setLastServed l r).ddr = s.ddr := rfl
@[simp] theorem setLastServed_paths (s : State) (l : Lane) (r : Nat) : (s.setLastServed l r).paths = s.paths := rfl
@[simp] theorem setLastServed_lodge (s : State) (l : Lane) (r : Nat) : (s.setLastServed l r).lodge = s.lodge := rfl
@[simp] theorem setLastServed_pergola (s : State) (l : Lane) (r : Nat) : (s.setLastServed l r).pergola = s.pergola := rfl
@[simp] theorem setLastServed_kv (s : State) (l : Lane) (r : Nat) : (s.setLastServed l r).kv = s.kv := rfl
@[simp] theorem setLastServed_keeper (s : State) (l : Lane) (r : Nat) : (s.setLastServed l r).keeper = s.keeper := rfl
@[simp] theorem setLastServed_shift (s : State) (l : Lane) (r : Nat) : (s.setLastServed l r).shift = s.shift := rfl
@[simp] theorem setLastServed_drive (s : State) (l : Lane) (r : Nat) : (s.setLastServed l r).drive = s.drive := rfl
@[simp] theorem setLastServed_power (s : State) (l : Lane) (r : Nat) : (s.setLastServed l r).power = s.power := rfl
@[simp] theorem setLastServed_boot (s : State) (l : Lane) (r : Nat) : (s.setLastServed l r).boot = s.boot := rfl
@[simp] theorem setLastServed_pins (s : State) (l : Lane) (r : Nat) : (s.setLastServed l r).pins = s.pins := rfl
@[simp] theorem setLastServed_out (s : State) (l : Lane) (r : Nat) : (s.setLastServed l r).out = s.out := rfl

@[simp] theorem setVec_pending (s : State) (u : CUnit) (v : VectorUnit) : (s.setVec u v).pending = s.pending := rfl
@[simp] theorem setVec_freeIx (s : State) (u : CUnit) (v : VectorUnit) : (s.setVec u v).freeIx = s.freeIx := rfl
@[simp] theorem setVec_now (s : State) (u : CUnit) (v : VectorUnit) : (s.setVec u v).now = s.now := rfl
@[simp] theorem setVec_uptime0 (s : State) (u : CUnit) (v : VectorUnit) : (s.setVec u v).uptime0 = s.uptime0 := rfl
@[simp] theorem setVec_regs (s : State) (u : CUnit) (v : VectorUnit) : (s.setVec u v).regs = s.regs := rfl
@[simp] theorem setVec_blobs (s : State) (u : CUnit) (v : VectorUnit) : (s.setVec u v).blobs = s.blobs := rfl
@[simp] theorem setVec_mem (s : State) (u : CUnit) (v : VectorUnit) : (s.setVec u v).mem = s.mem := rfl
@[simp] theorem setVec_hostMem (s : State) (u : CUnit) (v : VectorUnit) : (s.setVec u v).hostMem = s.hostMem := rfl
@[simp] theorem setVec_stops (s : State) (u : CUnit) (v : VectorUnit) : (s.setVec u v).stops = s.stops := rfl
@[simp] theorem setVec_log (s : State) (u : CUnit) (v : VectorUnit) : (s.setVec u v).log = s.log := rfl
@[simp] theorem setVec_sundial (s : State) (u : CUnit) (v : VectorUnit) : (s.setVec u v).sundial = s.sundial := rfl
@[simp] theorem setVec_disp (s : State) (u : CUnit) (v : VectorUnit) : (s.setVec u v).disp = { s.disp with vectors := kset s.disp.vectors (unitCode u) v } := rfl
@[simp] theorem setVec_link (s : State) (u : CUnit) (v : VectorUnit) : (s.setVec u v).link = s.link := rfl
@[simp] theorem setVec_ddr (s : State) (u : CUnit) (v : VectorUnit) : (s.setVec u v).ddr = s.ddr := rfl
@[simp] theorem setVec_paths (s : State) (u : CUnit) (v : VectorUnit) : (s.setVec u v).paths = s.paths := rfl
@[simp] theorem setVec_lodge (s : State) (u : CUnit) (v : VectorUnit) : (s.setVec u v).lodge = s.lodge := rfl
@[simp] theorem setVec_pergola (s : State) (u : CUnit) (v : VectorUnit) : (s.setVec u v).pergola = s.pergola := rfl
@[simp] theorem setVec_kv (s : State) (u : CUnit) (v : VectorUnit) : (s.setVec u v).kv = s.kv := rfl
@[simp] theorem setVec_keeper (s : State) (u : CUnit) (v : VectorUnit) : (s.setVec u v).keeper = s.keeper := rfl
@[simp] theorem setVec_shift (s : State) (u : CUnit) (v : VectorUnit) : (s.setVec u v).shift = s.shift := rfl
@[simp] theorem setVec_drive (s : State) (u : CUnit) (v : VectorUnit) : (s.setVec u v).drive = s.drive := rfl
@[simp] theorem setVec_power (s : State) (u : CUnit) (v : VectorUnit) : (s.setVec u v).power = s.power := rfl
@[simp] theorem setVec_boot (s : State) (u : CUnit) (v : VectorUnit) : (s.setVec u v).boot = s.boot := rfl
@[simp] theorem setVec_pins (s : State) (u : CUnit) (v : VectorUnit) : (s.setVec u v).pins = s.pins := rfl
@[simp] theorem setVec_out (s : State) (u : CUnit) (v : VectorUnit) : (s.setVec u v).out = s.out := rfl

@[simp] theorem setTap_pending (s : State) (k : Nat) (t : Tap) : (s.setTap k t).pending = s.pending := rfl
@[simp] theorem setTap_freeIx (s : State) (k : Nat) (t : Tap) : (s.setTap k t).freeIx = s.freeIx := rfl
@[simp] theorem setTap_now (s : State) (k : Nat) (t : Tap) : (s.setTap k t).now = s.now := rfl
@[simp] theorem setTap_uptime0 (s : State) (k : Nat) (t : Tap) : (s.setTap k t).uptime0 = s.uptime0 := rfl
@[simp] theorem setTap_regs (s : State) (k : Nat) (t : Tap) : (s.setTap k t).regs = s.regs := rfl
@[simp] theorem setTap_blobs (s : State) (k : Nat) (t : Tap) : (s.setTap k t).blobs = s.blobs := rfl
@[simp] theorem setTap_mem (s : State) (k : Nat) (t : Tap) : (s.setTap k t).mem = s.mem := rfl
@[simp] theorem setTap_hostMem (s : State) (k : Nat) (t : Tap) : (s.setTap k t).hostMem = s.hostMem := rfl
@[simp] theorem setTap_stops (s : State) (k : Nat) (t : Tap) : (s.setTap k t).stops = s.stops := rfl
@[simp] theorem setTap_log (s : State) (k : Nat) (t : Tap) : (s.setTap k t).log = s.log := rfl
@[simp] theorem setTap_sundial (s : State) (k : Nat) (t : Tap) : (s.setTap k t).sundial = { s.sundial with taps := kset s.sundial.taps k t } := rfl
@[simp] theorem setTap_disp (s : State) (k : Nat) (t : Tap) : (s.setTap k t).disp = s.disp := rfl
@[simp] theorem setTap_link (s : State) (k : Nat) (t : Tap) : (s.setTap k t).link = s.link := rfl
@[simp] theorem setTap_ddr (s : State) (k : Nat) (t : Tap) : (s.setTap k t).ddr = s.ddr := rfl
@[simp] theorem setTap_paths (s : State) (k : Nat) (t : Tap) : (s.setTap k t).paths = s.paths := rfl
@[simp] theorem setTap_lodge (s : State) (k : Nat) (t : Tap) : (s.setTap k t).lodge = s.lodge := rfl
@[simp] theorem setTap_pergola (s : State) (k : Nat) (t : Tap) : (s.setTap k t).pergola = s.pergola := rfl
@[simp] theorem setTap_kv (s : State) (k : Nat) (t : Tap) : (s.setTap k t).kv = s.kv := rfl
@[simp] theorem setTap_keeper (s : State) (k : Nat) (t : Tap) : (s.setTap k t).keeper = s.keeper := rfl
@[simp] theorem setTap_shift (s : State) (k : Nat) (t : Tap) : (s.setTap k t).shift = s.shift := rfl
@[simp] theorem setTap_drive (s : State) (k : Nat) (t : Tap) : (s.setTap k t).drive = s.drive := rfl
@[simp] theorem setTap_power (s : State) (k : Nat) (t : Tap) : (s.setTap k t).power = s.power := rfl
@[simp] theorem setTap_boot (s : State) (k : Nat) (t : Tap) : (s.setTap k t).boot = s.boot := rfl
@[simp] theorem setTap_pins (s : State) (k : Nat) (t : Tap) : (s.setTap k t).pins = s.pins := rfl
@[simp] theorem setTap_out (s : State) (k : Nat) (t : Tap) : (s.setTap k t).out = s.out := rfl

@[simp] theorem setLink_pending (s : State) (p : Nat) (l : LinkDelay) : (s.setLink p l).pending = s.pending := rfl
@[simp] theorem setLink_freeIx (s : State) (p : Nat) (l : LinkDelay) : (s.setLink p l).freeIx = s.freeIx := rfl
@[simp] theorem setLink_now (s : State) (p : Nat) (l : LinkDelay) : (s.setLink p l).now = s.now := rfl
@[simp] theorem setLink_uptime0 (s : State) (p : Nat) (l : LinkDelay) : (s.setLink p l).uptime0 = s.uptime0 := rfl
@[simp] theorem setLink_regs (s : State) (p : Nat) (l : LinkDelay) : (s.setLink p l).regs = s.regs := rfl
@[simp] theorem setLink_blobs (s : State) (p : Nat) (l : LinkDelay) : (s.setLink p l).blobs = s.blobs := rfl
@[simp] theorem setLink_mem (s : State) (p : Nat) (l : LinkDelay) : (s.setLink p l).mem = s.mem := rfl
@[simp] theorem setLink_hostMem (s : State) (p : Nat) (l : LinkDelay) : (s.setLink p l).hostMem = s.hostMem := rfl
@[simp] theorem setLink_stops (s : State) (p : Nat) (l : LinkDelay) : (s.setLink p l).stops = s.stops := rfl
@[simp] theorem setLink_log (s : State) (p : Nat) (l : LinkDelay) : (s.setLink p l).log = s.log := rfl
@[simp] theorem setLink_sundial (s : State) (p : Nat) (l : LinkDelay) : (s.setLink p l).sundial = { s.sundial with links := kset s.sundial.links p l } := rfl
@[simp] theorem setLink_disp (s : State) (p : Nat) (l : LinkDelay) : (s.setLink p l).disp = s.disp := rfl
@[simp] theorem setLink_link (s : State) (p : Nat) (l : LinkDelay) : (s.setLink p l).link = s.link := rfl
@[simp] theorem setLink_ddr (s : State) (p : Nat) (l : LinkDelay) : (s.setLink p l).ddr = s.ddr := rfl
@[simp] theorem setLink_paths (s : State) (p : Nat) (l : LinkDelay) : (s.setLink p l).paths = s.paths := rfl
@[simp] theorem setLink_lodge (s : State) (p : Nat) (l : LinkDelay) : (s.setLink p l).lodge = s.lodge := rfl
@[simp] theorem setLink_pergola (s : State) (p : Nat) (l : LinkDelay) : (s.setLink p l).pergola = s.pergola := rfl
@[simp] theorem setLink_kv (s : State) (p : Nat) (l : LinkDelay) : (s.setLink p l).kv = s.kv := rfl
@[simp] theorem setLink_keeper (s : State) (p : Nat) (l : LinkDelay) : (s.setLink p l).keeper = s.keeper := rfl
@[simp] theorem setLink_shift (s : State) (p : Nat) (l : LinkDelay) : (s.setLink p l).shift = s.shift := rfl
@[simp] theorem setLink_drive (s : State) (p : Nat) (l : LinkDelay) : (s.setLink p l).drive = s.drive := rfl
@[simp] theorem setLink_power (s : State) (p : Nat) (l : LinkDelay) : (s.setLink p l).power = s.power := rfl
@[simp] theorem setLink_boot (s : State) (p : Nat) (l : LinkDelay) : (s.setLink p l).boot = s.boot := rfl
@[simp] theorem setLink_pins (s : State) (p : Nat) (l : LinkDelay) : (s.setLink p l).pins = s.pins := rfl
@[simp] theorem setLink_out (s : State) (p : Nat) (l : LinkDelay) : (s.setLink p l).out = s.out := rfl

@[simp] theorem setLaunchQ_pending (s : State) (n : Nat) (q : List LaunchFrame) : (s.setLaunchQ n q).pending = s.pending := rfl
@[simp] theorem setLaunchQ_freeIx (s : State) (n : Nat) (q : List LaunchFrame) : (s.setLaunchQ n q).freeIx = s.freeIx := rfl
@[simp] theorem setLaunchQ_now (s : State) (n : Nat) (q : List LaunchFrame) : (s.setLaunchQ n q).now = s.now := rfl
@[simp] theorem setLaunchQ_uptime0 (s : State) (n : Nat) (q : List LaunchFrame) : (s.setLaunchQ n q).uptime0 = s.uptime0 := rfl
@[simp] theorem setLaunchQ_regs (s : State) (n : Nat) (q : List LaunchFrame) : (s.setLaunchQ n q).regs = s.regs := rfl
@[simp] theorem setLaunchQ_blobs (s : State) (n : Nat) (q : List LaunchFrame) : (s.setLaunchQ n q).blobs = s.blobs := rfl
@[simp] theorem setLaunchQ_mem (s : State) (n : Nat) (q : List LaunchFrame) : (s.setLaunchQ n q).mem = s.mem := rfl
@[simp] theorem setLaunchQ_hostMem (s : State) (n : Nat) (q : List LaunchFrame) : (s.setLaunchQ n q).hostMem = s.hostMem := rfl
@[simp] theorem setLaunchQ_stops (s : State) (n : Nat) (q : List LaunchFrame) : (s.setLaunchQ n q).stops = s.stops := rfl
@[simp] theorem setLaunchQ_log (s : State) (n : Nat) (q : List LaunchFrame) : (s.setLaunchQ n q).log = s.log := rfl
@[simp] theorem setLaunchQ_sundial (s : State) (n : Nat) (q : List LaunchFrame) : (s.setLaunchQ n q).sundial = { s.sundial with launch := kset s.sundial.launch n q } := rfl
@[simp] theorem setLaunchQ_disp (s : State) (n : Nat) (q : List LaunchFrame) : (s.setLaunchQ n q).disp = s.disp := rfl
@[simp] theorem setLaunchQ_link (s : State) (n : Nat) (q : List LaunchFrame) : (s.setLaunchQ n q).link = s.link := rfl
@[simp] theorem setLaunchQ_ddr (s : State) (n : Nat) (q : List LaunchFrame) : (s.setLaunchQ n q).ddr = s.ddr := rfl
@[simp] theorem setLaunchQ_paths (s : State) (n : Nat) (q : List LaunchFrame) : (s.setLaunchQ n q).paths = s.paths := rfl
@[simp] theorem setLaunchQ_lodge (s : State) (n : Nat) (q : List LaunchFrame) : (s.setLaunchQ n q).lodge = s.lodge := rfl
@[simp] theorem setLaunchQ_pergola (s : State) (n : Nat) (q : List LaunchFrame) : (s.setLaunchQ n q).pergola = s.pergola := rfl
@[simp] theorem setLaunchQ_kv (s : State) (n : Nat) (q : List LaunchFrame) : (s.setLaunchQ n q).kv = s.kv := rfl
@[simp] theorem setLaunchQ_keeper (s : State) (n : Nat) (q : List LaunchFrame) : (s.setLaunchQ n q).keeper = s.keeper := rfl
@[simp] theorem setLaunchQ_shift (s : State) (n : Nat) (q : List LaunchFrame) : (s.setLaunchQ n q).shift = s.shift := rfl
@[simp] theorem setLaunchQ_drive (s : State) (n : Nat) (q : List LaunchFrame) : (s.setLaunchQ n q).drive = s.drive := rfl
@[simp] theorem setLaunchQ_power (s : State) (n : Nat) (q : List LaunchFrame) : (s.setLaunchQ n q).power = s.power := rfl
@[simp] theorem setLaunchQ_boot (s : State) (n : Nat) (q : List LaunchFrame) : (s.setLaunchQ n q).boot = s.boot := rfl
@[simp] theorem setLaunchQ_pins (s : State) (n : Nat) (q : List LaunchFrame) : (s.setLaunchQ n q).pins = s.pins := rfl
@[simp] theorem setLaunchQ_out (s : State) (n : Nat) (q : List LaunchFrame) : (s.setLaunchQ n q).out = s.out := rfl

@[simp] theorem setShift_pending (s : State) (v : Shift) : (s.setShift v).pending = s.pending := rfl
@[simp] theorem setShift_freeIx (s : State) (v : Shift) : (s.setShift v).freeIx = s.freeIx := rfl
@[simp] theorem setShift_now (s : State) (v : Shift) : (s.setShift v).now = s.now := rfl
@[simp] theorem setShift_uptime0 (s : State) (v : Shift) : (s.setShift v).uptime0 = s.uptime0 := rfl
@[simp] theorem setShift_regs (s : State) (v : Shift) : (s.setShift v).regs = s.regs := rfl
@[simp] theorem setShift_blobs (s : State) (v : Shift) : (s.setShift v).blobs = s.blobs := rfl
@[simp] theorem setShift_mem (s : State) (v : Shift) : (s.setShift v).mem = s.mem := rfl
@[simp] theorem setShift_hostMem (s : State) (v : Shift) : (s.setShift v).hostMem = s.hostMem := rfl
@[simp] theorem setShift_stops (s : State) (v : Shift) : (s.setShift v).stops = s.stops := rfl
@[simp] theorem setShift_log (s : State) (v : Shift) : (s.setShift v).log = s.log := rfl
@[simp] theorem setShift_sundial (s : State) (v : Shift) : (s.setShift v).sundial = s.sundial := rfl
@[simp] theorem setShift_disp (s : State) (v : Shift) : (s.setShift v).disp = s.disp := rfl
@[simp] theorem setShift_link (s : State) (v : Shift) : (s.setShift v).link = s.link := rfl
@[simp] theorem setShift_ddr (s : State) (v : Shift) : (s.setShift v).ddr = s.ddr := rfl
@[simp] theorem setShift_paths (s : State) (v : Shift) : (s.setShift v).paths = s.paths := rfl
@[simp] theorem setShift_lodge (s : State) (v : Shift) : (s.setShift v).lodge = s.lodge := rfl
@[simp] theorem setShift_pergola (s : State) (v : Shift) : (s.setShift v).pergola = s.pergola := rfl
@[simp] theorem setShift_kv (s : State) (v : Shift) : (s.setShift v).kv = s.kv := rfl
@[simp] theorem setShift_keeper (s : State) (v : Shift) : (s.setShift v).keeper = s.keeper := rfl
@[simp] theorem setShift_shift (s : State) (v : Shift) : (s.setShift v).shift = v := rfl
@[simp] theorem setShift_drive (s : State) (v : Shift) : (s.setShift v).drive = s.drive := rfl
@[simp] theorem setShift_power (s : State) (v : Shift) : (s.setShift v).power = s.power := rfl
@[simp] theorem setShift_boot (s : State) (v : Shift) : (s.setShift v).boot = s.boot := rfl
@[simp] theorem setShift_pins (s : State) (v : Shift) : (s.setShift v).pins = s.pins := rfl
@[simp] theorem setShift_out (s : State) (v : Shift) : (s.setShift v).out = s.out := rfl

@[simp] theorem setKeeper_pending (s : State) (v : Keeper) : (s.setKeeper v).pending = s.pending := rfl
@[simp] theorem setKeeper_freeIx (s : State) (v : Keeper) : (s.setKeeper v).freeIx = s.freeIx := rfl
@[simp] theorem setKeeper_now (s : State) (v : Keeper) : (s.setKeeper v).now = s.now := rfl
@[simp] theorem setKeeper_uptime0 (s : State) (v : Keeper) : (s.setKeeper v).uptime0 = s.uptime0 := rfl
@[simp] theorem setKeeper_regs (s : State) (v : Keeper) : (s.setKeeper v).regs = s.regs := rfl
@[simp] theorem setKeeper_blobs (s : State) (v : Keeper) : (s.setKeeper v).blobs = s.blobs := rfl
@[simp] theorem setKeeper_mem (s : State) (v : Keeper) : (s.setKeeper v).mem = s.mem := rfl
@[simp] theorem setKeeper_hostMem (s : State) (v : Keeper) : (s.setKeeper v).hostMem = s.hostMem := rfl
@[simp] theorem setKeeper_stops (s : State) (v : Keeper) : (s.setKeeper v).stops = s.stops := rfl
@[simp] theorem setKeeper_log (s : State) (v : Keeper) : (s.setKeeper v).log = s.log := rfl
@[simp] theorem setKeeper_sundial (s : State) (v : Keeper) : (s.setKeeper v).sundial = s.sundial := rfl
@[simp] theorem setKeeper_disp (s : State) (v : Keeper) : (s.setKeeper v).disp = s.disp := rfl
@[simp] theorem setKeeper_link (s : State) (v : Keeper) : (s.setKeeper v).link = s.link := rfl
@[simp] theorem setKeeper_ddr (s : State) (v : Keeper) : (s.setKeeper v).ddr = s.ddr := rfl
@[simp] theorem setKeeper_paths (s : State) (v : Keeper) : (s.setKeeper v).paths = s.paths := rfl
@[simp] theorem setKeeper_lodge (s : State) (v : Keeper) : (s.setKeeper v).lodge = s.lodge := rfl
@[simp] theorem setKeeper_pergola (s : State) (v : Keeper) : (s.setKeeper v).pergola = s.pergola := rfl
@[simp] theorem setKeeper_kv (s : State) (v : Keeper) : (s.setKeeper v).kv = s.kv := rfl
@[simp] theorem setKeeper_keeper (s : State) (v : Keeper) : (s.setKeeper v).keeper = v := rfl
@[simp] theorem setKeeper_shift (s : State) (v : Keeper) : (s.setKeeper v).shift = s.shift := rfl
@[simp] theorem setKeeper_drive (s : State) (v : Keeper) : (s.setKeeper v).drive = s.drive := rfl
@[simp] theorem setKeeper_power (s : State) (v : Keeper) : (s.setKeeper v).power = s.power := rfl
@[simp] theorem setKeeper_boot (s : State) (v : Keeper) : (s.setKeeper v).boot = s.boot := rfl
@[simp] theorem setKeeper_pins (s : State) (v : Keeper) : (s.setKeeper v).pins = s.pins := rfl
@[simp] theorem setKeeper_out (s : State) (v : Keeper) : (s.setKeeper v).out = s.out := rfl

@[simp] theorem setHostLink_pending (s : State) (v : HostLink) : (s.setHostLink v).pending = s.pending := rfl
@[simp] theorem setHostLink_freeIx (s : State) (v : HostLink) : (s.setHostLink v).freeIx = s.freeIx := rfl
@[simp] theorem setHostLink_now (s : State) (v : HostLink) : (s.setHostLink v).now = s.now := rfl
@[simp] theorem setHostLink_uptime0 (s : State) (v : HostLink) : (s.setHostLink v).uptime0 = s.uptime0 := rfl
@[simp] theorem setHostLink_regs (s : State) (v : HostLink) : (s.setHostLink v).regs = s.regs := rfl
@[simp] theorem setHostLink_blobs (s : State) (v : HostLink) : (s.setHostLink v).blobs = s.blobs := rfl
@[simp] theorem setHostLink_mem (s : State) (v : HostLink) : (s.setHostLink v).mem = s.mem := rfl
@[simp] theorem setHostLink_hostMem (s : State) (v : HostLink) : (s.setHostLink v).hostMem = s.hostMem := rfl
@[simp] theorem setHostLink_stops (s : State) (v : HostLink) : (s.setHostLink v).stops = s.stops := rfl
@[simp] theorem setHostLink_log (s : State) (v : HostLink) : (s.setHostLink v).log = s.log := rfl
@[simp] theorem setHostLink_sundial (s : State) (v : HostLink) : (s.setHostLink v).sundial = s.sundial := rfl
@[simp] theorem setHostLink_disp (s : State) (v : HostLink) : (s.setHostLink v).disp = s.disp := rfl
@[simp] theorem setHostLink_link (s : State) (v : HostLink) : (s.setHostLink v).link = v := rfl
@[simp] theorem setHostLink_ddr (s : State) (v : HostLink) : (s.setHostLink v).ddr = s.ddr := rfl
@[simp] theorem setHostLink_paths (s : State) (v : HostLink) : (s.setHostLink v).paths = s.paths := rfl
@[simp] theorem setHostLink_lodge (s : State) (v : HostLink) : (s.setHostLink v).lodge = s.lodge := rfl
@[simp] theorem setHostLink_pergola (s : State) (v : HostLink) : (s.setHostLink v).pergola = s.pergola := rfl
@[simp] theorem setHostLink_kv (s : State) (v : HostLink) : (s.setHostLink v).kv = s.kv := rfl
@[simp] theorem setHostLink_keeper (s : State) (v : HostLink) : (s.setHostLink v).keeper = s.keeper := rfl
@[simp] theorem setHostLink_shift (s : State) (v : HostLink) : (s.setHostLink v).shift = s.shift := rfl
@[simp] theorem setHostLink_drive (s : State) (v : HostLink) : (s.setHostLink v).drive = s.drive := rfl
@[simp] theorem setHostLink_power (s : State) (v : HostLink) : (s.setHostLink v).power = s.power := rfl
@[simp] theorem setHostLink_boot (s : State) (v : HostLink) : (s.setHostLink v).boot = s.boot := rfl
@[simp] theorem setHostLink_pins (s : State) (v : HostLink) : (s.setHostLink v).pins = s.pins := rfl
@[simp] theorem setHostLink_out (s : State) (v : HostLink) : (s.setHostLink v).out = s.out := rfl

@[simp] theorem setDdr_pending (s : State) (v : Ddr) : (s.setDdr v).pending = s.pending := rfl
@[simp] theorem setDdr_freeIx (s : State) (v : Ddr) : (s.setDdr v).freeIx = s.freeIx := rfl
@[simp] theorem setDdr_now (s : State) (v : Ddr) : (s.setDdr v).now = s.now := rfl
@[simp] theorem setDdr_uptime0 (s : State) (v : Ddr) : (s.setDdr v).uptime0 = s.uptime0 := rfl
@[simp] theorem setDdr_regs (s : State) (v : Ddr) : (s.setDdr v).regs = s.regs := rfl
@[simp] theorem setDdr_blobs (s : State) (v : Ddr) : (s.setDdr v).blobs = s.blobs := rfl
@[simp] theorem setDdr_mem (s : State) (v : Ddr) : (s.setDdr v).mem = s.mem := rfl
@[simp] theorem setDdr_hostMem (s : State) (v : Ddr) : (s.setDdr v).hostMem = s.hostMem := rfl
@[simp] theorem setDdr_stops (s : State) (v : Ddr) : (s.setDdr v).stops = s.stops := rfl
@[simp] theorem setDdr_log (s : State) (v : Ddr) : (s.setDdr v).log = s.log := rfl
@[simp] theorem setDdr_sundial (s : State) (v : Ddr) : (s.setDdr v).sundial = s.sundial := rfl
@[simp] theorem setDdr_disp (s : State) (v : Ddr) : (s.setDdr v).disp = s.disp := rfl
@[simp] theorem setDdr_link (s : State) (v : Ddr) : (s.setDdr v).link = s.link := rfl
@[simp] theorem setDdr_ddr (s : State) (v : Ddr) : (s.setDdr v).ddr = v := rfl
@[simp] theorem setDdr_paths (s : State) (v : Ddr) : (s.setDdr v).paths = s.paths := rfl
@[simp] theorem setDdr_lodge (s : State) (v : Ddr) : (s.setDdr v).lodge = s.lodge := rfl
@[simp] theorem setDdr_pergola (s : State) (v : Ddr) : (s.setDdr v).pergola = s.pergola := rfl
@[simp] theorem setDdr_kv (s : State) (v : Ddr) : (s.setDdr v).kv = s.kv := rfl
@[simp] theorem setDdr_keeper (s : State) (v : Ddr) : (s.setDdr v).keeper = s.keeper := rfl
@[simp] theorem setDdr_shift (s : State) (v : Ddr) : (s.setDdr v).shift = s.shift := rfl
@[simp] theorem setDdr_drive (s : State) (v : Ddr) : (s.setDdr v).drive = s.drive := rfl
@[simp] theorem setDdr_power (s : State) (v : Ddr) : (s.setDdr v).power = s.power := rfl
@[simp] theorem setDdr_boot (s : State) (v : Ddr) : (s.setDdr v).boot = s.boot := rfl
@[simp] theorem setDdr_pins (s : State) (v : Ddr) : (s.setDdr v).pins = s.pins := rfl
@[simp] theorem setDdr_out (s : State) (v : Ddr) : (s.setDdr v).out = s.out := rfl

@[simp] theorem setPower_pending (s : State) (v : PowerCtl) : (s.setPower v).pending = s.pending := rfl
@[simp] theorem setPower_freeIx (s : State) (v : PowerCtl) : (s.setPower v).freeIx = s.freeIx := rfl
@[simp] theorem setPower_now (s : State) (v : PowerCtl) : (s.setPower v).now = s.now := rfl
@[simp] theorem setPower_uptime0 (s : State) (v : PowerCtl) : (s.setPower v).uptime0 = s.uptime0 := rfl
@[simp] theorem setPower_regs (s : State) (v : PowerCtl) : (s.setPower v).regs = s.regs := rfl
@[simp] theorem setPower_blobs (s : State) (v : PowerCtl) : (s.setPower v).blobs = s.blobs := rfl
@[simp] theorem setPower_mem (s : State) (v : PowerCtl) : (s.setPower v).mem = s.mem := rfl
@[simp] theorem setPower_hostMem (s : State) (v : PowerCtl) : (s.setPower v).hostMem = s.hostMem := rfl
@[simp] theorem setPower_stops (s : State) (v : PowerCtl) : (s.setPower v).stops = s.stops := rfl
@[simp] theorem setPower_log (s : State) (v : PowerCtl) : (s.setPower v).log = s.log := rfl
@[simp] theorem setPower_sundial (s : State) (v : PowerCtl) : (s.setPower v).sundial = s.sundial := rfl
@[simp] theorem setPower_disp (s : State) (v : PowerCtl) : (s.setPower v).disp = s.disp := rfl
@[simp] theorem setPower_link (s : State) (v : PowerCtl) : (s.setPower v).link = s.link := rfl
@[simp] theorem setPower_ddr (s : State) (v : PowerCtl) : (s.setPower v).ddr = s.ddr := rfl
@[simp] theorem setPower_paths (s : State) (v : PowerCtl) : (s.setPower v).paths = s.paths := rfl
@[simp] theorem setPower_lodge (s : State) (v : PowerCtl) : (s.setPower v).lodge = s.lodge := rfl
@[simp] theorem setPower_pergola (s : State) (v : PowerCtl) : (s.setPower v).pergola = s.pergola := rfl
@[simp] theorem setPower_kv (s : State) (v : PowerCtl) : (s.setPower v).kv = s.kv := rfl
@[simp] theorem setPower_keeper (s : State) (v : PowerCtl) : (s.setPower v).keeper = s.keeper := rfl
@[simp] theorem setPower_shift (s : State) (v : PowerCtl) : (s.setPower v).shift = s.shift := rfl
@[simp] theorem setPower_drive (s : State) (v : PowerCtl) : (s.setPower v).drive = s.drive := rfl
@[simp] theorem setPower_power (s : State) (v : PowerCtl) : (s.setPower v).power = v := rfl
@[simp] theorem setPower_boot (s : State) (v : PowerCtl) : (s.setPower v).boot = s.boot := rfl
@[simp] theorem setPower_pins (s : State) (v : PowerCtl) : (s.setPower v).pins = s.pins := rfl
@[simp] theorem setPower_out (s : State) (v : PowerCtl) : (s.setPower v).out = s.out := rfl

@[simp] theorem setBoot_pending (s : State) (v : Boot) : (s.setBoot v).pending = s.pending := rfl
@[simp] theorem setBoot_freeIx (s : State) (v : Boot) : (s.setBoot v).freeIx = s.freeIx := rfl
@[simp] theorem setBoot_now (s : State) (v : Boot) : (s.setBoot v).now = s.now := rfl
@[simp] theorem setBoot_uptime0 (s : State) (v : Boot) : (s.setBoot v).uptime0 = s.uptime0 := rfl
@[simp] theorem setBoot_regs (s : State) (v : Boot) : (s.setBoot v).regs = s.regs := rfl
@[simp] theorem setBoot_blobs (s : State) (v : Boot) : (s.setBoot v).blobs = s.blobs := rfl
@[simp] theorem setBoot_mem (s : State) (v : Boot) : (s.setBoot v).mem = s.mem := rfl
@[simp] theorem setBoot_hostMem (s : State) (v : Boot) : (s.setBoot v).hostMem = s.hostMem := rfl
@[simp] theorem setBoot_stops (s : State) (v : Boot) : (s.setBoot v).stops = s.stops := rfl
@[simp] theorem setBoot_log (s : State) (v : Boot) : (s.setBoot v).log = s.log := rfl
@[simp] theorem setBoot_sundial (s : State) (v : Boot) : (s.setBoot v).sundial = s.sundial := rfl
@[simp] theorem setBoot_disp (s : State) (v : Boot) : (s.setBoot v).disp = s.disp := rfl
@[simp] theorem setBoot_link (s : State) (v : Boot) : (s.setBoot v).link = s.link := rfl
@[simp] theorem setBoot_ddr (s : State) (v : Boot) : (s.setBoot v).ddr = s.ddr := rfl
@[simp] theorem setBoot_paths (s : State) (v : Boot) : (s.setBoot v).paths = s.paths := rfl
@[simp] theorem setBoot_lodge (s : State) (v : Boot) : (s.setBoot v).lodge = s.lodge := rfl
@[simp] theorem setBoot_pergola (s : State) (v : Boot) : (s.setBoot v).pergola = s.pergola := rfl
@[simp] theorem setBoot_kv (s : State) (v : Boot) : (s.setBoot v).kv = s.kv := rfl
@[simp] theorem setBoot_keeper (s : State) (v : Boot) : (s.setBoot v).keeper = s.keeper := rfl
@[simp] theorem setBoot_shift (s : State) (v : Boot) : (s.setBoot v).shift = s.shift := rfl
@[simp] theorem setBoot_drive (s : State) (v : Boot) : (s.setBoot v).drive = s.drive := rfl
@[simp] theorem setBoot_power (s : State) (v : Boot) : (s.setBoot v).power = s.power := rfl
@[simp] theorem setBoot_boot (s : State) (v : Boot) : (s.setBoot v).boot = v := rfl
@[simp] theorem setBoot_pins (s : State) (v : Boot) : (s.setBoot v).pins = s.pins := rfl
@[simp] theorem setBoot_out (s : State) (v : Boot) : (s.setBoot v).out = s.out := rfl

@[simp] theorem setPins_pending (s : State) (v : Pins) : (s.setPins v).pending = s.pending := rfl
@[simp] theorem setPins_freeIx (s : State) (v : Pins) : (s.setPins v).freeIx = s.freeIx := rfl
@[simp] theorem setPins_now (s : State) (v : Pins) : (s.setPins v).now = s.now := rfl
@[simp] theorem setPins_uptime0 (s : State) (v : Pins) : (s.setPins v).uptime0 = s.uptime0 := rfl
@[simp] theorem setPins_regs (s : State) (v : Pins) : (s.setPins v).regs = s.regs := rfl
@[simp] theorem setPins_blobs (s : State) (v : Pins) : (s.setPins v).blobs = s.blobs := rfl
@[simp] theorem setPins_mem (s : State) (v : Pins) : (s.setPins v).mem = s.mem := rfl
@[simp] theorem setPins_hostMem (s : State) (v : Pins) : (s.setPins v).hostMem = s.hostMem := rfl
@[simp] theorem setPins_stops (s : State) (v : Pins) : (s.setPins v).stops = s.stops := rfl
@[simp] theorem setPins_log (s : State) (v : Pins) : (s.setPins v).log = s.log := rfl
@[simp] theorem setPins_sundial (s : State) (v : Pins) : (s.setPins v).sundial = s.sundial := rfl
@[simp] theorem setPins_disp (s : State) (v : Pins) : (s.setPins v).disp = s.disp := rfl
@[simp] theorem setPins_link (s : State) (v : Pins) : (s.setPins v).link = s.link := rfl
@[simp] theorem setPins_ddr (s : State) (v : Pins) : (s.setPins v).ddr = s.ddr := rfl
@[simp] theorem setPins_paths (s : State) (v : Pins) : (s.setPins v).paths = s.paths := rfl
@[simp] theorem setPins_lodge (s : State) (v : Pins) : (s.setPins v).lodge = s.lodge := rfl
@[simp] theorem setPins_pergola (s : State) (v : Pins) : (s.setPins v).pergola = s.pergola := rfl
@[simp] theorem setPins_kv (s : State) (v : Pins) : (s.setPins v).kv = s.kv := rfl
@[simp] theorem setPins_keeper (s : State) (v : Pins) : (s.setPins v).keeper = s.keeper := rfl
@[simp] theorem setPins_shift (s : State) (v : Pins) : (s.setPins v).shift = s.shift := rfl
@[simp] theorem setPins_drive (s : State) (v : Pins) : (s.setPins v).drive = s.drive := rfl
@[simp] theorem setPins_power (s : State) (v : Pins) : (s.setPins v).power = s.power := rfl
@[simp] theorem setPins_boot (s : State) (v : Pins) : (s.setPins v).boot = s.boot := rfl
@[simp] theorem setPins_pins (s : State) (v : Pins) : (s.setPins v).pins = v := rfl
@[simp] theorem setPins_out (s : State) (v : Pins) : (s.setPins v).out = s.out := rfl

@[simp] theorem setStop_pending (s : State) (k : Nat) (v : Stop) : (s.setStop k v).pending = s.pending := rfl
@[simp] theorem setStop_freeIx (s : State) (k : Nat) (v : Stop) : (s.setStop k v).freeIx = s.freeIx := rfl
@[simp] theorem setStop_now (s : State) (k : Nat) (v : Stop) : (s.setStop k v).now = s.now := rfl
@[simp] theorem setStop_uptime0 (s : State) (k : Nat) (v : Stop) : (s.setStop k v).uptime0 = s.uptime0 := rfl
@[simp] theorem setStop_regs (s : State) (k : Nat) (v : Stop) : (s.setStop k v).regs = s.regs := rfl
@[simp] theorem setStop_blobs (s : State) (k : Nat) (v : Stop) : (s.setStop k v).blobs = s.blobs := rfl
@[simp] theorem setStop_mem (s : State) (k : Nat) (v : Stop) : (s.setStop k v).mem = s.mem := rfl
@[simp] theorem setStop_hostMem (s : State) (k : Nat) (v : Stop) : (s.setStop k v).hostMem = s.hostMem := rfl
@[simp] theorem setStop_stops (s : State) (k : Nat) (v : Stop) : (s.setStop k v).stops = kset s.stops k v := rfl
@[simp] theorem setStop_log (s : State) (k : Nat) (v : Stop) : (s.setStop k v).log = s.log := rfl
@[simp] theorem setStop_sundial (s : State) (k : Nat) (v : Stop) : (s.setStop k v).sundial = s.sundial := rfl
@[simp] theorem setStop_disp (s : State) (k : Nat) (v : Stop) : (s.setStop k v).disp = s.disp := rfl
@[simp] theorem setStop_link (s : State) (k : Nat) (v : Stop) : (s.setStop k v).link = s.link := rfl
@[simp] theorem setStop_ddr (s : State) (k : Nat) (v : Stop) : (s.setStop k v).ddr = s.ddr := rfl
@[simp] theorem setStop_paths (s : State) (k : Nat) (v : Stop) : (s.setStop k v).paths = s.paths := rfl
@[simp] theorem setStop_lodge (s : State) (k : Nat) (v : Stop) : (s.setStop k v).lodge = s.lodge := rfl
@[simp] theorem setStop_pergola (s : State) (k : Nat) (v : Stop) : (s.setStop k v).pergola = s.pergola := rfl
@[simp] theorem setStop_kv (s : State) (k : Nat) (v : Stop) : (s.setStop k v).kv = s.kv := rfl
@[simp] theorem setStop_keeper (s : State) (k : Nat) (v : Stop) : (s.setStop k v).keeper = s.keeper := rfl
@[simp] theorem setStop_shift (s : State) (k : Nat) (v : Stop) : (s.setStop k v).shift = s.shift := rfl
@[simp] theorem setStop_drive (s : State) (k : Nat) (v : Stop) : (s.setStop k v).drive = s.drive := rfl
@[simp] theorem setStop_power (s : State) (k : Nat) (v : Stop) : (s.setStop k v).power = s.power := rfl
@[simp] theorem setStop_boot (s : State) (k : Nat) (v : Stop) : (s.setStop k v).boot = s.boot := rfl
@[simp] theorem setStop_pins (s : State) (k : Nat) (v : Stop) : (s.setStop k v).pins = s.pins := rfl
@[simp] theorem setStop_out (s : State) (k : Nat) (v : Stop) : (s.setStop k v).out = s.out := rfl

@[simp] theorem setPaths_pending (s : State) (v : Paths) : (s.setPaths v).pending = s.pending := rfl
@[simp] theorem setPaths_freeIx (s : State) (v : Paths) : (s.setPaths v).freeIx = s.freeIx := rfl
@[simp] theorem setPaths_now (s : State) (v : Paths) : (s.setPaths v).now = s.now := rfl
@[simp] theorem setPaths_uptime0 (s : State) (v : Paths) : (s.setPaths v).uptime0 = s.uptime0 := rfl
@[simp] theorem setPaths_regs (s : State) (v : Paths) : (s.setPaths v).regs = s.regs := rfl
@[simp] theorem setPaths_blobs (s : State) (v : Paths) : (s.setPaths v).blobs = s.blobs := rfl
@[simp] theorem setPaths_mem (s : State) (v : Paths) : (s.setPaths v).mem = s.mem := rfl
@[simp] theorem setPaths_hostMem (s : State) (v : Paths) : (s.setPaths v).hostMem = s.hostMem := rfl
@[simp] theorem setPaths_stops (s : State) (v : Paths) : (s.setPaths v).stops = s.stops := rfl
@[simp] theorem setPaths_log (s : State) (v : Paths) : (s.setPaths v).log = s.log := rfl
@[simp] theorem setPaths_sundial (s : State) (v : Paths) : (s.setPaths v).sundial = s.sundial := rfl
@[simp] theorem setPaths_disp (s : State) (v : Paths) : (s.setPaths v).disp = s.disp := rfl
@[simp] theorem setPaths_link (s : State) (v : Paths) : (s.setPaths v).link = s.link := rfl
@[simp] theorem setPaths_ddr (s : State) (v : Paths) : (s.setPaths v).ddr = s.ddr := rfl
@[simp] theorem setPaths_paths (s : State) (v : Paths) : (s.setPaths v).paths = v := rfl
@[simp] theorem setPaths_lodge (s : State) (v : Paths) : (s.setPaths v).lodge = s.lodge := rfl
@[simp] theorem setPaths_pergola (s : State) (v : Paths) : (s.setPaths v).pergola = s.pergola := rfl
@[simp] theorem setPaths_kv (s : State) (v : Paths) : (s.setPaths v).kv = s.kv := rfl
@[simp] theorem setPaths_keeper (s : State) (v : Paths) : (s.setPaths v).keeper = s.keeper := rfl
@[simp] theorem setPaths_shift (s : State) (v : Paths) : (s.setPaths v).shift = s.shift := rfl
@[simp] theorem setPaths_drive (s : State) (v : Paths) : (s.setPaths v).drive = s.drive := rfl
@[simp] theorem setPaths_power (s : State) (v : Paths) : (s.setPaths v).power = s.power := rfl
@[simp] theorem setPaths_boot (s : State) (v : Paths) : (s.setPaths v).boot = s.boot := rfl
@[simp] theorem setPaths_pins (s : State) (v : Paths) : (s.setPaths v).pins = s.pins := rfl
@[simp] theorem setPaths_out (s : State) (v : Paths) : (s.setPaths v).out = s.out := rfl

@[simp] theorem setChannel_pending (s : State) (k : Nat) (c : Channel) : (s.setChannel k c).pending = s.pending := rfl
@[simp] theorem setChannel_freeIx (s : State) (k : Nat) (c : Channel) : (s.setChannel k c).freeIx = s.freeIx := rfl
@[simp] theorem setChannel_now (s : State) (k : Nat) (c : Channel) : (s.setChannel k c).now = s.now := rfl
@[simp] theorem setChannel_uptime0 (s : State) (k : Nat) (c : Channel) : (s.setChannel k c).uptime0 = s.uptime0 := rfl
@[simp] theorem setChannel_regs (s : State) (k : Nat) (c : Channel) : (s.setChannel k c).regs = s.regs := rfl
@[simp] theorem setChannel_blobs (s : State) (k : Nat) (c : Channel) : (s.setChannel k c).blobs = s.blobs := rfl
@[simp] theorem setChannel_mem (s : State) (k : Nat) (c : Channel) : (s.setChannel k c).mem = s.mem := rfl
@[simp] theorem setChannel_hostMem (s : State) (k : Nat) (c : Channel) : (s.setChannel k c).hostMem = s.hostMem := rfl
@[simp] theorem setChannel_stops (s : State) (k : Nat) (c : Channel) : (s.setChannel k c).stops = s.stops := rfl
@[simp] theorem setChannel_log (s : State) (k : Nat) (c : Channel) : (s.setChannel k c).log = s.log := rfl
@[simp] theorem setChannel_sundial (s : State) (k : Nat) (c : Channel) : (s.setChannel k c).sundial = s.sundial := rfl
@[simp] theorem setChannel_disp (s : State) (k : Nat) (c : Channel) : (s.setChannel k c).disp = s.disp := rfl
@[simp] theorem setChannel_link (s : State) (k : Nat) (c : Channel) : (s.setChannel k c).link = s.link := rfl
@[simp] theorem setChannel_ddr (s : State) (k : Nat) (c : Channel) : (s.setChannel k c).ddr = s.ddr := rfl
@[simp] theorem setChannel_paths (s : State) (k : Nat) (c : Channel) : (s.setChannel k c).paths = { s.paths with channels := kset s.paths.channels k c } := rfl
@[simp] theorem setChannel_lodge (s : State) (k : Nat) (c : Channel) : (s.setChannel k c).lodge = s.lodge := rfl
@[simp] theorem setChannel_pergola (s : State) (k : Nat) (c : Channel) : (s.setChannel k c).pergola = s.pergola := rfl
@[simp] theorem setChannel_kv (s : State) (k : Nat) (c : Channel) : (s.setChannel k c).kv = s.kv := rfl
@[simp] theorem setChannel_keeper (s : State) (k : Nat) (c : Channel) : (s.setChannel k c).keeper = s.keeper := rfl
@[simp] theorem setChannel_shift (s : State) (k : Nat) (c : Channel) : (s.setChannel k c).shift = s.shift := rfl
@[simp] theorem setChannel_drive (s : State) (k : Nat) (c : Channel) : (s.setChannel k c).drive = s.drive := rfl
@[simp] theorem setChannel_power (s : State) (k : Nat) (c : Channel) : (s.setChannel k c).power = s.power := rfl
@[simp] theorem setChannel_boot (s : State) (k : Nat) (c : Channel) : (s.setChannel k c).boot = s.boot := rfl
@[simp] theorem setChannel_pins (s : State) (k : Nat) (c : Channel) : (s.setChannel k c).pins = s.pins := rfl
@[simp] theorem setChannel_out (s : State) (k : Nat) (c : Channel) : (s.setChannel k c).out = s.out := rfl

@[simp] theorem setGolden_pending (s : State) (g : Nat) (v : Golden) : (s.setGolden g v).pending = s.pending := rfl
@[simp] theorem setGolden_freeIx (s : State) (g : Nat) (v : Golden) : (s.setGolden g v).freeIx = s.freeIx := rfl
@[simp] theorem setGolden_now (s : State) (g : Nat) (v : Golden) : (s.setGolden g v).now = s.now := rfl
@[simp] theorem setGolden_uptime0 (s : State) (g : Nat) (v : Golden) : (s.setGolden g v).uptime0 = s.uptime0 := rfl
@[simp] theorem setGolden_regs (s : State) (g : Nat) (v : Golden) : (s.setGolden g v).regs = s.regs := rfl
@[simp] theorem setGolden_blobs (s : State) (g : Nat) (v : Golden) : (s.setGolden g v).blobs = s.blobs := rfl
@[simp] theorem setGolden_mem (s : State) (g : Nat) (v : Golden) : (s.setGolden g v).mem = s.mem := rfl
@[simp] theorem setGolden_hostMem (s : State) (g : Nat) (v : Golden) : (s.setGolden g v).hostMem = s.hostMem := rfl
@[simp] theorem setGolden_stops (s : State) (g : Nat) (v : Golden) : (s.setGolden g v).stops = s.stops := rfl
@[simp] theorem setGolden_log (s : State) (g : Nat) (v : Golden) : (s.setGolden g v).log = s.log := rfl
@[simp] theorem setGolden_sundial (s : State) (g : Nat) (v : Golden) : (s.setGolden g v).sundial = s.sundial := rfl
@[simp] theorem setGolden_disp (s : State) (g : Nat) (v : Golden) : (s.setGolden g v).disp = s.disp := rfl
@[simp] theorem setGolden_link (s : State) (g : Nat) (v : Golden) : (s.setGolden g v).link = s.link := rfl
@[simp] theorem setGolden_ddr (s : State) (g : Nat) (v : Golden) : (s.setGolden g v).ddr = s.ddr := rfl
@[simp] theorem setGolden_paths (s : State) (g : Nat) (v : Golden) : (s.setGolden g v).paths = s.paths := rfl
@[simp] theorem setGolden_lodge (s : State) (g : Nat) (v : Golden) : (s.setGolden g v).lodge = s.lodge := rfl
@[simp] theorem setGolden_pergola (s : State) (g : Nat) (v : Golden) : (s.setGolden g v).pergola = s.pergola := rfl
@[simp] theorem setGolden_kv (s : State) (g : Nat) (v : Golden) : (s.setGolden g v).kv = s.kv := rfl
@[simp] theorem setGolden_keeper (s : State) (g : Nat) (v : Golden) : (s.setGolden g v).keeper = { s.keeper with golden := kset s.keeper.golden g v } := rfl
@[simp] theorem setGolden_shift (s : State) (g : Nat) (v : Golden) : (s.setGolden g v).shift = s.shift := rfl
@[simp] theorem setGolden_drive (s : State) (g : Nat) (v : Golden) : (s.setGolden g v).drive = s.drive := rfl
@[simp] theorem setGolden_power (s : State) (g : Nat) (v : Golden) : (s.setGolden g v).power = s.power := rfl
@[simp] theorem setGolden_boot (s : State) (g : Nat) (v : Golden) : (s.setGolden g v).boot = s.boot := rfl
@[simp] theorem setGolden_pins (s : State) (g : Nat) (v : Golden) : (s.setGolden g v).pins = s.pins := rfl
@[simp] theorem setGolden_out (s : State) (g : Nat) (v : Golden) : (s.setGolden g v).out = s.out := rfl

@[simp] theorem accepted_pending (s : State) (p : Path) : (s.accepted p).pending = s.pending := rfl
@[simp] theorem accepted_freeIx (s : State) (p : Path) : (s.accepted p).freeIx = s.freeIx := rfl
@[simp] theorem accepted_now (s : State) (p : Path) : (s.accepted p).now = s.now := rfl
@[simp] theorem accepted_uptime0 (s : State) (p : Path) : (s.accepted p).uptime0 = s.uptime0 := rfl
@[simp] theorem accepted_regs (s : State) (p : Path) : (s.accepted p).regs = s.regs := rfl
@[simp] theorem accepted_blobs (s : State) (p : Path) : (s.accepted p).blobs = s.blobs := rfl
@[simp] theorem accepted_mem (s : State) (p : Path) : (s.accepted p).mem = s.mem := rfl
@[simp] theorem accepted_hostMem (s : State) (p : Path) : (s.accepted p).hostMem = s.hostMem := rfl
@[simp] theorem accepted_stops (s : State) (p : Path) : (s.accepted p).stops = s.stops := rfl
@[simp] theorem accepted_log (s : State) (p : Path) : (s.accepted p).log = s.log := rfl
@[simp] theorem accepted_sundial (s : State) (p : Path) : (s.accepted p).sundial = s.sundial := rfl
@[simp] theorem accepted_disp (s : State) (p : Path) : (s.accepted p).disp = s.disp := rfl
@[simp] theorem accepted_link (s : State) (p : Path) : (s.accepted p).link = s.link := rfl
@[simp] theorem accepted_ddr (s : State) (p : Path) : (s.accepted p).ddr = s.ddr := rfl
@[simp] theorem accepted_paths (s : State) (p : Path) : (s.accepted p).paths = s.paths := rfl
@[simp] theorem accepted_lodge (s : State) (p : Path) : (s.accepted p).lodge = s.lodge := rfl
@[simp] theorem accepted_pergola (s : State) (p : Path) : (s.accepted p).pergola = s.pergola := rfl
@[simp] theorem accepted_kv (s : State) (p : Path) : (s.accepted p).kv = s.kv := rfl
@[simp] theorem accepted_keeper (s : State) (p : Path) : (s.accepted p).keeper = s.keeper := rfl
@[simp] theorem accepted_shift (s : State) (p : Path) : (s.accepted p).shift = s.shift := rfl
@[simp] theorem accepted_drive (s : State) (p : Path) : (s.accepted p).drive = s.drive := rfl
@[simp] theorem accepted_power (s : State) (p : Path) : (s.accepted p).power = s.power := rfl
@[simp] theorem accepted_boot (s : State) (p : Path) : (s.accepted p).boot = s.boot := rfl
@[simp] theorem accepted_pins (s : State) (p : Path) : (s.accepted p).pins = s.pins := rfl
@[simp] theorem accepted_out (s : State) (p : Path) : (s.accepted p).out = .answer p 0 0 :: s.out := rfl

@[simp] theorem bumpBy_pending (s : State) (r : Reg) (k : Nat) : (s.bumpBy r k).pending = s.pending := rfl
@[simp] theorem bumpBy_freeIx (s : State) (r : Reg) (k : Nat) : (s.bumpBy r k).freeIx = s.freeIx := rfl
@[simp] theorem bumpBy_now (s : State) (r : Reg) (k : Nat) : (s.bumpBy r k).now = s.now := rfl
@[simp] theorem bumpBy_uptime0 (s : State) (r : Reg) (k : Nat) : (s.bumpBy r k).uptime0 = s.uptime0 := rfl
@[simp] theorem bumpBy_regs (s : State) (r : Reg) (k : Nat) : (s.bumpBy r k).regs = kset s.regs r.key (satAdd (2 ^ 32 - 1) (s.reg r) k) := rfl
@[simp] theorem bumpBy_blobs (s : State) (r : Reg) (k : Nat) : (s.bumpBy r k).blobs = s.blobs := rfl
@[simp] theorem bumpBy_mem (s : State) (r : Reg) (k : Nat) : (s.bumpBy r k).mem = s.mem := rfl
@[simp] theorem bumpBy_hostMem (s : State) (r : Reg) (k : Nat) : (s.bumpBy r k).hostMem = s.hostMem := rfl
@[simp] theorem bumpBy_stops (s : State) (r : Reg) (k : Nat) : (s.bumpBy r k).stops = s.stops := rfl
@[simp] theorem bumpBy_log (s : State) (r : Reg) (k : Nat) : (s.bumpBy r k).log = s.log := rfl
@[simp] theorem bumpBy_sundial (s : State) (r : Reg) (k : Nat) : (s.bumpBy r k).sundial = s.sundial := rfl
@[simp] theorem bumpBy_disp (s : State) (r : Reg) (k : Nat) : (s.bumpBy r k).disp = s.disp := rfl
@[simp] theorem bumpBy_link (s : State) (r : Reg) (k : Nat) : (s.bumpBy r k).link = s.link := rfl
@[simp] theorem bumpBy_ddr (s : State) (r : Reg) (k : Nat) : (s.bumpBy r k).ddr = s.ddr := rfl
@[simp] theorem bumpBy_paths (s : State) (r : Reg) (k : Nat) : (s.bumpBy r k).paths = s.paths := rfl
@[simp] theorem bumpBy_lodge (s : State) (r : Reg) (k : Nat) : (s.bumpBy r k).lodge = s.lodge := rfl
@[simp] theorem bumpBy_pergola (s : State) (r : Reg) (k : Nat) : (s.bumpBy r k).pergola = s.pergola := rfl
@[simp] theorem bumpBy_kv (s : State) (r : Reg) (k : Nat) : (s.bumpBy r k).kv = s.kv := rfl
@[simp] theorem bumpBy_keeper (s : State) (r : Reg) (k : Nat) : (s.bumpBy r k).keeper = s.keeper := rfl
@[simp] theorem bumpBy_shift (s : State) (r : Reg) (k : Nat) : (s.bumpBy r k).shift = s.shift := rfl
@[simp] theorem bumpBy_drive (s : State) (r : Reg) (k : Nat) : (s.bumpBy r k).drive = s.drive := rfl
@[simp] theorem bumpBy_power (s : State) (r : Reg) (k : Nat) : (s.bumpBy r k).power = s.power := rfl
@[simp] theorem bumpBy_boot (s : State) (r : Reg) (k : Nat) : (s.bumpBy r k).boot = s.boot := rfl
@[simp] theorem bumpBy_pins (s : State) (r : Reg) (k : Nat) : (s.bumpBy r k).pins = s.pins := rfl
@[simp] theorem bumpBy_out (s : State) (r : Reg) (k : Nat) : (s.bumpBy r k).out = s.out := rfl

@[simp] theorem bump_pending (s : State) (r : Reg) : (s.bump r).pending = s.pending := rfl
@[simp] theorem bump_freeIx (s : State) (r : Reg) : (s.bump r).freeIx = s.freeIx := rfl
@[simp] theorem bump_now (s : State) (r : Reg) : (s.bump r).now = s.now := rfl
@[simp] theorem bump_uptime0 (s : State) (r : Reg) : (s.bump r).uptime0 = s.uptime0 := rfl
@[simp] theorem bump_regs (s : State) (r : Reg) : (s.bump r).regs = kset s.regs r.key (satAdd (2 ^ 32 - 1) (s.reg r) 1) := rfl
@[simp] theorem bump_blobs (s : State) (r : Reg) : (s.bump r).blobs = s.blobs := rfl
@[simp] theorem bump_mem (s : State) (r : Reg) : (s.bump r).mem = s.mem := rfl
@[simp] theorem bump_hostMem (s : State) (r : Reg) : (s.bump r).hostMem = s.hostMem := rfl
@[simp] theorem bump_stops (s : State) (r : Reg) : (s.bump r).stops = s.stops := rfl
@[simp] theorem bump_log (s : State) (r : Reg) : (s.bump r).log = s.log := rfl
@[simp] theorem bump_sundial (s : State) (r : Reg) : (s.bump r).sundial = s.sundial := rfl
@[simp] theorem bump_disp (s : State) (r : Reg) : (s.bump r).disp = s.disp := rfl
@[simp] theorem bump_link (s : State) (r : Reg) : (s.bump r).link = s.link := rfl
@[simp] theorem bump_ddr (s : State) (r : Reg) : (s.bump r).ddr = s.ddr := rfl
@[simp] theorem bump_paths (s : State) (r : Reg) : (s.bump r).paths = s.paths := rfl
@[simp] theorem bump_lodge (s : State) (r : Reg) : (s.bump r).lodge = s.lodge := rfl
@[simp] theorem bump_pergola (s : State) (r : Reg) : (s.bump r).pergola = s.pergola := rfl
@[simp] theorem bump_kv (s : State) (r : Reg) : (s.bump r).kv = s.kv := rfl
@[simp] theorem bump_keeper (s : State) (r : Reg) : (s.bump r).keeper = s.keeper := rfl
@[simp] theorem bump_shift (s : State) (r : Reg) : (s.bump r).shift = s.shift := rfl
@[simp] theorem bump_drive (s : State) (r : Reg) : (s.bump r).drive = s.drive := rfl
@[simp] theorem bump_power (s : State) (r : Reg) : (s.bump r).power = s.power := rfl
@[simp] theorem bump_boot (s : State) (r : Reg) : (s.bump r).boot = s.boot := rfl
@[simp] theorem bump_pins (s : State) (r : Reg) : (s.bump r).pins = s.pins := rfl
@[simp] theorem bump_out (s : State) (r : Reg) : (s.bump r).out = s.out := rfl

@[simp] theorem bumpIf_pending (s : State) (b : Bool) (r : Reg) : (s.bumpIf b r).pending = s.pending := by cases b <;> rfl
@[simp] theorem bumpIf_freeIx (s : State) (b : Bool) (r : Reg) : (s.bumpIf b r).freeIx = s.freeIx := by cases b <;> rfl
@[simp] theorem bumpIf_now (s : State) (b : Bool) (r : Reg) : (s.bumpIf b r).now = s.now := by cases b <;> rfl
@[simp] theorem bumpIf_uptime0 (s : State) (b : Bool) (r : Reg) : (s.bumpIf b r).uptime0 = s.uptime0 := by cases b <;> rfl
@[simp] theorem bumpIf_blobs (s : State) (b : Bool) (r : Reg) : (s.bumpIf b r).blobs = s.blobs := by cases b <;> rfl
@[simp] theorem bumpIf_mem (s : State) (b : Bool) (r : Reg) : (s.bumpIf b r).mem = s.mem := by cases b <;> rfl
@[simp] theorem bumpIf_hostMem (s : State) (b : Bool) (r : Reg) : (s.bumpIf b r).hostMem = s.hostMem := by cases b <;> rfl
@[simp] theorem bumpIf_stops (s : State) (b : Bool) (r : Reg) : (s.bumpIf b r).stops = s.stops := by cases b <;> rfl
@[simp] theorem bumpIf_log (s : State) (b : Bool) (r : Reg) : (s.bumpIf b r).log = s.log := by cases b <;> rfl
@[simp] theorem bumpIf_sundial (s : State) (b : Bool) (r : Reg) : (s.bumpIf b r).sundial = s.sundial := by cases b <;> rfl
@[simp] theorem bumpIf_disp (s : State) (b : Bool) (r : Reg) : (s.bumpIf b r).disp = s.disp := by cases b <;> rfl
@[simp] theorem bumpIf_link (s : State) (b : Bool) (r : Reg) : (s.bumpIf b r).link = s.link := by cases b <;> rfl
@[simp] theorem bumpIf_ddr (s : State) (b : Bool) (r : Reg) : (s.bumpIf b r).ddr = s.ddr := by cases b <;> rfl
@[simp] theorem bumpIf_paths (s : State) (b : Bool) (r : Reg) : (s.bumpIf b r).paths = s.paths := by cases b <;> rfl
@[simp] theorem bumpIf_lodge (s : State) (b : Bool) (r : Reg) : (s.bumpIf b r).lodge = s.lodge := by cases b <;> rfl
@[simp] theorem bumpIf_pergola (s : State) (b : Bool) (r : Reg) : (s.bumpIf b r).pergola = s.pergola := by cases b <;> rfl
@[simp] theorem bumpIf_kv (s : State) (b : Bool) (r : Reg) : (s.bumpIf b r).kv = s.kv := by cases b <;> rfl
@[simp] theorem bumpIf_keeper (s : State) (b : Bool) (r : Reg) : (s.bumpIf b r).keeper = s.keeper := by cases b <;> rfl
@[simp] theorem bumpIf_shift (s : State) (b : Bool) (r : Reg) : (s.bumpIf b r).shift = s.shift := by cases b <;> rfl
@[simp] theorem bumpIf_drive (s : State) (b : Bool) (r : Reg) : (s.bumpIf b r).drive = s.drive := by cases b <;> rfl
@[simp] theorem bumpIf_power (s : State) (b : Bool) (r : Reg) : (s.bumpIf b r).power = s.power := by cases b <;> rfl
@[simp] theorem bumpIf_boot (s : State) (b : Bool) (r : Reg) : (s.bumpIf b r).boot = s.boot := by cases b <;> rfl
@[simp] theorem bumpIf_pins (s : State) (b : Bool) (r : Reg) : (s.bumpIf b r).pins = s.pins := by cases b <;> rfl
@[simp] theorem bumpIf_out (s : State) (b : Bool) (r : Reg) : (s.bumpIf b r).out = s.out := by cases b <;> rfl

/-! Reading a register after an update. -/

@[simp] theorem reg_setReg_same (s : State) (r : Reg) (v : Nat) : (s.setReg r v).reg r = v := kget_kset_same _ _ _ _
theorem reg_setReg_ne (s : State) {r q : Reg} (v : Nat) (h : q.key ≠ r.key) : (s.setReg r v).reg q = s.reg q := kget_kset_ne _ _ _ h
theorem reg_setReg (s : State) (r q : Reg) (v : Nat) : (s.setReg r v).reg q = if q.key = r.key then v else s.reg q :=
  kget_kset _ _ _ _ _
@[simp] theorem reg_bump_same (s : State) (r : Reg) : (s.bump r).reg r = satAdd (2 ^ 32 - 1) (s.reg r) 1 := kget_kset_same _ _ _ _
theorem reg_bump_ne (s : State) {r q : Reg} (h : q.key ≠ r.key) : (s.bump r).reg q = s.reg q := kget_kset_ne _ _ _ h
@[simp] theorem blob_setBlob_same (s : State) (k : Nat) (v d : Bytes) : (s.setBlob k v).blob k d = v := kget_kset_same _ _ _ _
theorem blob_setBlob_ne (s : State) {k j : Nat} (v d : Bytes) (h : j ≠ k) : (s.setBlob k v).blob j d = s.blob j d :=
  kget_kset_ne _ _ _ h
@[simp] theorem setReg_setReg (s : State) (r : Reg) (v w : Nat) : (s.setReg r v).setReg r w = s.setReg r w := by
  simp only [State.setReg, kset_kset]

@[simp] theorem reg_setBlob (s : State) (k : Nat) (v : Bytes) (x : Reg) : (s.setBlob k v).reg x = s.reg x := rfl
@[simp] theorem flag_setBlob (s : State) (k : Nat) (v : Bytes) (x : Reg) : (s.setBlob k v).flag x = s.flag x := rfl
@[simp] theorem reg_emit (s : State) (o : Out) (x : Reg) : (s.emit o).reg x = s.reg x := rfl
@[simp] theorem flag_emit (s : State) (o : Out) (x : Reg) : (s.emit o).flag x = s.flag x := rfl
@[simp] theorem reg_skipFree (s : State) (x : Reg) : (s.skipFree).reg x = s.reg x := rfl
@[simp] theorem flag_skipFree (s : State) (x : Reg) : (s.skipFree).flag x = s.flag x := rfl
@[simp] theorem reg_setPd (s : State) (d : Nat) (v : PowerDomain) (x : Reg) : (s.setPd d v).reg x = s.reg x := rfl
@[simp] theorem flag_setPd (s : State) (d : Nat) (v : PowerDomain) (x : Reg) : (s.setPd d v).flag x = s.flag x := rfl
@[simp] theorem reg_setGaffer (s : State) (g : Nat) (v : Gaffer) (x : Reg) : (s.setGaffer g v).reg x = s.reg x := rfl
@[simp] theorem flag_setGaffer (s : State) (g : Nat) (v : Gaffer) (x : Reg) : (s.setGaffer g v).flag x = s.flag x := rfl
@[simp] theorem reg_setDom (s : State) (b : Bool) (d : TimeDomain) (x : Reg) : (s.setDom b d).reg x = s.reg x := rfl
@[simp] theorem flag_setDom (s : State) (b : Bool) (d : TimeDomain) (x : Reg) : (s.setDom b d).flag x = s.flag x := rfl
@[simp] theorem reg_setPool (s : State) (p : Nat) (l : PoolLists) (x : Reg) : (s.setPool p l).reg x = s.reg x := rfl
@[simp] theorem flag_setPool (s : State) (p : Nat) (l : PoolLists) (x : Reg) : (s.setPool p l).flag x = s.flag x := rfl
@[simp] theorem reg_setReaders (s : State) (e n : Nat) (x : Reg) : (s.setReaders e n).reg x = s.reg x := rfl
@[simp] theorem flag_setReaders (s : State) (e n : Nat) (x : Reg) : (s.setReaders e n).flag x = s.flag x := rfl
@[simp] theorem reg_setIngest (s : State) (q : Nat) (v : Ingest) (x : Reg) : (s.setIngest q v).reg x = s.reg x := rfl
@[simp] theorem flag_setIngest (s : State) (q : Nat) (v : Ingest) (x : Reg) : (s.setIngest q v).flag x = s.flag x := rfl
@[simp] theorem reg_setIq (s : State) (k : Nat) (v : IntQueue) (x : Reg) : (s.setIq k v).reg x = s.reg x := rfl
@[simp] theorem flag_setIq (s : State) (k : Nat) (v : IntQueue) (x : Reg) : (s.setIq k v).flag x = s.flag x := rfl
@[simp] theorem reg_setItem (s : State) (i : Item) (x : Reg) : (s.setItem i).reg x = s.reg x := rfl
@[simp] theorem flag_setItem (s : State) (i : Item) (x : Reg) : (s.setItem i).flag x = s.flag x := rfl
@[simp] theorem reg_setRing (s : State) (r0 : Nat) (v : Ring) (x : Reg) : (s.setRing r0 v).reg x = s.reg x := rfl
@[simp] theorem flag_setRing (s : State) (r0 : Nat) (v : Ring) (x : Reg) : (s.setRing r0 v).flag x = s.flag x := rfl
@[simp] theorem reg_setComp (s : State) (c : Nat) (v : CompRing) (x : Reg) : (s.setComp c v).reg x = s.reg x := rfl
@[simp] theorem flag_setComp (s : State) (c : Nat) (v : CompRing) (x : Reg) : (s.setComp c v).flag x = s.flag x := rfl
@[simp] theorem reg_setPgStream (s : State) (k : Nat) (v : PgStream) (x : Reg) : (s.setPgStream k v).reg x = s.reg x := rfl
@[simp] theorem flag_setPgStream (s : State) (k : Nat) (v : PgStream) (x : Reg) : (s.setPgStream k v).flag x = s.flag x := rfl
@[simp] theorem reg_setLastServed (s : State) (l : Lane) (r0 : Nat) (x : Reg) : (s.setLastServed l r0).reg x = s.reg x := rfl
@[simp] theorem flag_setLastServed (s : State) (l : Lane) (r0 : Nat) (x : Reg) : (s.setLastServed l r0).flag x = s.flag x := rfl
@[simp] theorem reg_setVec (s : State) (u : CUnit) (v : VectorUnit) (x : Reg) : (s.setVec u v).reg x = s.reg x := rfl
@[simp] theorem flag_setVec (s : State) (u : CUnit) (v : VectorUnit) (x : Reg) : (s.setVec u v).flag x = s.flag x := rfl
@[simp] theorem reg_setTap (s : State) (k : Nat) (t : Tap) (x : Reg) : (s.setTap k t).reg x = s.reg x := rfl
@[simp] theorem flag_setTap (s : State) (k : Nat) (t : Tap) (x : Reg) : (s.setTap k t).flag x = s.flag x := rfl
@[simp] theorem reg_setLink (s : State) (p : Nat) (l : LinkDelay) (x : Reg) : (s.setLink p l).reg x = s.reg x := rfl
@[simp] theorem flag_setLink (s : State) (p : Nat) (l : LinkDelay) (x : Reg) : (s.setLink p l).flag x = s.flag x := rfl
@[simp] theorem reg_setLaunchQ (s : State) (n : Nat) (q : List LaunchFrame) (x : Reg) : (s.setLaunchQ n q).reg x = s.reg x := rfl
@[simp] theorem flag_setLaunchQ (s : State) (n : Nat) (q : List LaunchFrame) (x : Reg) : (s.setLaunchQ n q).flag x = s.flag x := rfl
@[simp] theorem reg_setShift (s : State) (v : Shift) (x : Reg) : (s.setShift v).reg x = s.reg x := rfl
@[simp] theorem flag_setShift (s : State) (v : Shift) (x : Reg) : (s.setShift v).flag x = s.flag x := rfl
@[simp] theorem reg_setKeeper (s : State) (v : Keeper) (x : Reg) : (s.setKeeper v).reg x = s.reg x := rfl
@[simp] theorem flag_setKeeper (s : State) (v : Keeper) (x : Reg) : (s.setKeeper v).flag x = s.flag x := rfl
@[simp] theorem reg_setHostLink (s : State) (v : HostLink) (x : Reg) : (s.setHostLink v).reg x = s.reg x := rfl
@[simp] theorem flag_setHostLink (s : State) (v : HostLink) (x : Reg) : (s.setHostLink v).flag x = s.flag x := rfl
@[simp] theorem reg_setDdr (s : State) (v : Ddr) (x : Reg) : (s.setDdr v).reg x = s.reg x := rfl
@[simp] theorem flag_setDdr (s : State) (v : Ddr) (x : Reg) : (s.setDdr v).flag x = s.flag x := rfl
@[simp] theorem reg_setPower (s : State) (v : PowerCtl) (x : Reg) : (s.setPower v).reg x = s.reg x := rfl
@[simp] theorem flag_setPower (s : State) (v : PowerCtl) (x : Reg) : (s.setPower v).flag x = s.flag x := rfl
@[simp] theorem reg_setBoot (s : State) (v : Boot) (x : Reg) : (s.setBoot v).reg x = s.reg x := rfl
@[simp] theorem flag_setBoot (s : State) (v : Boot) (x : Reg) : (s.setBoot v).flag x = s.flag x := rfl
@[simp] theorem reg_setPins (s : State) (v : Pins) (x : Reg) : (s.setPins v).reg x = s.reg x := rfl
@[simp] theorem flag_setPins (s : State) (v : Pins) (x : Reg) : (s.setPins v).flag x = s.flag x := rfl
@[simp] theorem reg_setStop (s : State) (k : Nat) (v : Stop) (x : Reg) : (s.setStop k v).reg x = s.reg x := rfl
@[simp] theorem flag_setStop (s : State) (k : Nat) (v : Stop) (x : Reg) : (s.setStop k v).flag x = s.flag x := rfl
@[simp] theorem reg_setPaths (s : State) (v : Paths) (x : Reg) : (s.setPaths v).reg x = s.reg x := rfl
@[simp] theorem flag_setPaths (s : State) (v : Paths) (x : Reg) : (s.setPaths v).flag x = s.flag x := rfl
@[simp] theorem reg_setChannel (s : State) (k : Nat) (c : Channel) (x : Reg) : (s.setChannel k c).reg x = s.reg x := rfl
@[simp] theorem flag_setChannel (s : State) (k : Nat) (c : Channel) (x : Reg) : (s.setChannel k c).flag x = s.flag x := rfl
@[simp] theorem reg_setGolden (s : State) (g : Nat) (v : Golden) (x : Reg) : (s.setGolden g v).reg x = s.reg x := rfl
@[simp] theorem flag_setGolden (s : State) (g : Nat) (v : Golden) (x : Reg) : (s.setGolden g v).flag x = s.flag x := rfl
@[simp] theorem reg_accepted (s : State) (p : Path) (x : Reg) : (s.accepted p).reg x = s.reg x := rfl
@[simp] theorem flag_accepted (s : State) (p : Path) (x : Reg) : (s.accepted p).flag x = s.flag x := rfl

@[simp] theorem pd_setPd_same (s : State) (d : Nat) (v : PowerDomain) : (s.setPd d v).pd d = v := kget_kset_same _ _ _ _
theorem pd_setPd_ne (s : State) {d e : Nat} (v : PowerDomain) (h : e ≠ d) : (s.setPd d v).pd e = s.pd e := by
  simp only [State.pd, setPd_power]; exact kget_kset_ne _ _ _ h
@[simp] theorem gaffer_setGaffer_same (s : State) (g : Nat) (v : Gaffer) : (s.setGaffer g v).gaffer g = v := kget_kset_same _ _ _ _
theorem gaffer_setGaffer_ne (s : State) {g k : Nat} (v : Gaffer) (h : k ≠ g) : (s.setGaffer g v).gaffer k = s.gaffer k :=
  kget_kset_ne _ _ _ h
@[simp] theorem ingest_setIngest_same (s : State) (q : Nat) (v : Ingest) : (s.setIngest q v).ingest q = v := kget_kset_same _ _ _ _
theorem ingest_setIngest_ne (s : State) {q k : Nat} (v : Ingest) (h : k ≠ q) : (s.setIngest q v).ingest k = s.ingest k :=
  kget_kset_ne _ _ _ h
@[simp] theorem iq_setIq_same (s : State) (q : Nat) (v : IntQueue) : (s.setIq q v).iq q = v := kget_kset_same _ _ _ _
@[simp] theorem channel_setChannel_same (s : State) (k : Nat) (c : Channel) : (s.setChannel k c).channel k = c := kget_kset_same _ _ _ _
theorem channel_setChannel_ne (s : State) {k j : Nat} (c : Channel) (h : j ≠ k) : (s.setChannel k c).channel j = s.channel j :=
  kget_kset_ne _ _ _ h
@[simp] theorem ring_setRing_same (s : State) (r : Nat) (v : Ring) : (s.setRing r v).ring r = v := kget_kset_same _ _ _ _
@[simp] theorem comp_setComp_same (s : State) (c : Nat) (v : CompRing) : (s.setComp c v).comp c = v := kget_kset_same _ _ _ _

@[simp] theorem observes_pending (s : State) (n : Nat) : (s.observes n).pending = s.pending := rfl
@[simp] theorem observes_freeIx (s : State) (n : Nat) : (s.observes n).freeIx = s.freeIx := rfl
@[simp] theorem observes_now (s : State) (n : Nat) : (s.observes n).now = s.now := rfl
@[simp] theorem observes_uptime0 (s : State) (n : Nat) : (s.observes n).uptime0 = s.uptime0 := rfl
@[simp] theorem observes_regs (s : State) (n : Nat) : (s.observes n).regs = s.regs := rfl
@[simp] theorem observes_blobs (s : State) (n : Nat) : (s.observes n).blobs = s.blobs := rfl
@[simp] theorem observes_mem (s : State) (n : Nat) : (s.observes n).mem = s.mem := rfl
@[simp] theorem observes_hostMem (s : State) (n : Nat) : (s.observes n).hostMem = s.hostMem := rfl
@[simp] theorem observes_stops (s : State) (n : Nat) : (s.observes n).stops = s.stops := rfl
@[simp] theorem observes_log (s : State) (n : Nat) : (s.observes n).log = s.log := rfl
@[simp] theorem observes_sundial (s : State) (n : Nat) : (s.observes n).sundial = s.sundial := rfl
@[simp] theorem observes_disp (s : State) (n : Nat) : (s.observes n).disp = s.disp := rfl
@[simp] theorem observes_link (s : State) (n : Nat) : (s.observes n).link = s.link := rfl
@[simp] theorem observes_ddr (s : State) (n : Nat) : (s.observes n).ddr = s.ddr := rfl
@[simp] theorem observes_paths (s : State) (n : Nat) : (s.observes n).paths = s.paths := rfl
@[simp] theorem observes_lodge (s : State) (n : Nat) : (s.observes n).lodge = s.lodge := rfl
@[simp] theorem observes_pergola (s : State) (n : Nat) : (s.observes n).pergola = s.pergola := rfl
@[simp] theorem observes_kv (s : State) (n : Nat) : (s.observes n).kv = s.kv := rfl
@[simp] theorem observes_keeper (s : State) (n : Nat) : (s.observes n).keeper = s.keeper := rfl
@[simp] theorem observes_shift (s : State) (n : Nat) : (s.observes n).shift = s.shift := rfl
@[simp] theorem observes_drive (s : State) (n : Nat) : (s.observes n).drive = s.drive := rfl
@[simp] theorem observes_power (s : State) (n : Nat) : (s.observes n).power = s.power := rfl
@[simp] theorem observes_boot (s : State) (n : Nat) : (s.observes n).boot = s.boot := rfl
@[simp] theorem observes_pins (s : State) (n : Nat) : (s.observes n).pins = { s.pins with events := kset s.pins.events n s.now } := rfl
@[simp] theorem observes_out (s : State) (n : Nat) : (s.observes n).out = s.out := rfl

@[simp] theorem aer_pending (s : State) (b : Nat) : (s.aer b).pending = s.pending := rfl
@[simp] theorem aer_freeIx (s : State) (b : Nat) : (s.aer b).freeIx = s.freeIx := rfl
@[simp] theorem aer_now (s : State) (b : Nat) : (s.aer b).now = s.now := rfl
@[simp] theorem aer_uptime0 (s : State) (b : Nat) : (s.aer b).uptime0 = s.uptime0 := rfl
@[simp] theorem aer_regs (s : State) (b : Nat) : (s.aer b).regs = s.regs := rfl
@[simp] theorem aer_blobs (s : State) (b : Nat) : (s.aer b).blobs = s.blobs := rfl
@[simp] theorem aer_mem (s : State) (b : Nat) : (s.aer b).mem = s.mem := rfl
@[simp] theorem aer_hostMem (s : State) (b : Nat) : (s.aer b).hostMem = s.hostMem := rfl
@[simp] theorem aer_stops (s : State) (b : Nat) : (s.aer b).stops = s.stops := rfl
@[simp] theorem aer_log (s : State) (b : Nat) : (s.aer b).log = s.log := rfl
@[simp] theorem aer_sundial (s : State) (b : Nat) : (s.aer b).sundial = s.sundial := rfl
@[simp] theorem aer_disp (s : State) (b : Nat) : (s.aer b).disp = s.disp := rfl
@[simp] theorem aer_link (s : State) (b : Nat) : (s.aer b).link = { s.link with config := { s.link.config with uncorrectable := s.link.config.uncorrectable ||| 2 ^ b } } := rfl
@[simp] theorem aer_ddr (s : State) (b : Nat) : (s.aer b).ddr = s.ddr := rfl
@[simp] theorem aer_paths (s : State) (b : Nat) : (s.aer b).paths = s.paths := rfl
@[simp] theorem aer_lodge (s : State) (b : Nat) : (s.aer b).lodge = s.lodge := rfl
@[simp] theorem aer_pergola (s : State) (b : Nat) : (s.aer b).pergola = s.pergola := rfl
@[simp] theorem aer_kv (s : State) (b : Nat) : (s.aer b).kv = s.kv := rfl
@[simp] theorem aer_keeper (s : State) (b : Nat) : (s.aer b).keeper = s.keeper := rfl
@[simp] theorem aer_shift (s : State) (b : Nat) : (s.aer b).shift = s.shift := rfl
@[simp] theorem aer_drive (s : State) (b : Nat) : (s.aer b).drive = s.drive := rfl
@[simp] theorem aer_power (s : State) (b : Nat) : (s.aer b).power = s.power := rfl
@[simp] theorem aer_boot (s : State) (b : Nat) : (s.aer b).boot = s.boot := rfl
@[simp] theorem aer_pins (s : State) (b : Nat) : (s.aer b).pins = s.pins := rfl
@[simp] theorem aer_out (s : State) (b : Nat) : (s.aer b).out = s.out := rfl

@[simp] theorem setXlate_pending (s : State) (i v : Nat) : (s.setXlate i v).pending = s.pending := rfl
@[simp] theorem setXlate_freeIx (s : State) (i v : Nat) : (s.setXlate i v).freeIx = s.freeIx := rfl
@[simp] theorem setXlate_now (s : State) (i v : Nat) : (s.setXlate i v).now = s.now := rfl
@[simp] theorem setXlate_uptime0 (s : State) (i v : Nat) : (s.setXlate i v).uptime0 = s.uptime0 := rfl
@[simp] theorem setXlate_regs (s : State) (i v : Nat) : (s.setXlate i v).regs = s.regs := rfl
@[simp] theorem setXlate_blobs (s : State) (i v : Nat) : (s.setXlate i v).blobs = s.blobs := rfl
@[simp] theorem setXlate_mem (s : State) (i v : Nat) : (s.setXlate i v).mem = s.mem := rfl
@[simp] theorem setXlate_hostMem (s : State) (i v : Nat) : (s.setXlate i v).hostMem = s.hostMem := rfl
@[simp] theorem setXlate_stops (s : State) (i v : Nat) : (s.setXlate i v).stops = s.stops := rfl
@[simp] theorem setXlate_log (s : State) (i v : Nat) : (s.setXlate i v).log = s.log := rfl
@[simp] theorem setXlate_sundial (s : State) (i v : Nat) : (s.setXlate i v).sundial = s.sundial := rfl
@[simp] theorem setXlate_disp (s : State) (i v : Nat) : (s.setXlate i v).disp = s.disp := rfl
@[simp] theorem setXlate_link (s : State) (i v : Nat) : (s.setXlate i v).link = { s.link with xlate := kset s.link.xlate i (bits v 63 24 <<< 24 + v % 8) } := rfl
@[simp] theorem setXlate_ddr (s : State) (i v : Nat) : (s.setXlate i v).ddr = s.ddr := rfl
@[simp] theorem setXlate_paths (s : State) (i v : Nat) : (s.setXlate i v).paths = s.paths := rfl
@[simp] theorem setXlate_lodge (s : State) (i v : Nat) : (s.setXlate i v).lodge = s.lodge := rfl
@[simp] theorem setXlate_pergola (s : State) (i v : Nat) : (s.setXlate i v).pergola = s.pergola := rfl
@[simp] theorem setXlate_kv (s : State) (i v : Nat) : (s.setXlate i v).kv = s.kv := rfl
@[simp] theorem setXlate_keeper (s : State) (i v : Nat) : (s.setXlate i v).keeper = s.keeper := rfl
@[simp] theorem setXlate_shift (s : State) (i v : Nat) : (s.setXlate i v).shift = s.shift := rfl
@[simp] theorem setXlate_drive (s : State) (i v : Nat) : (s.setXlate i v).drive = s.drive := rfl
@[simp] theorem setXlate_power (s : State) (i v : Nat) : (s.setXlate i v).power = s.power := rfl
@[simp] theorem setXlate_boot (s : State) (i v : Nat) : (s.setXlate i v).boot = s.boot := rfl
@[simp] theorem setXlate_pins (s : State) (i v : Nat) : (s.setXlate i v).pins = s.pins := rfl
@[simp] theorem setXlate_out (s : State) (i v : Nat) : (s.setXlate i v).out = s.out := rfl

@[simp] theorem setSmbus_pending (s : State) (v : Smbus) : (s.setSmbus v).pending = s.pending := rfl
@[simp] theorem setSmbus_freeIx (s : State) (v : Smbus) : (s.setSmbus v).freeIx = s.freeIx := rfl
@[simp] theorem setSmbus_now (s : State) (v : Smbus) : (s.setSmbus v).now = s.now := rfl
@[simp] theorem setSmbus_uptime0 (s : State) (v : Smbus) : (s.setSmbus v).uptime0 = s.uptime0 := rfl
@[simp] theorem setSmbus_regs (s : State) (v : Smbus) : (s.setSmbus v).regs = s.regs := rfl
@[simp] theorem setSmbus_blobs (s : State) (v : Smbus) : (s.setSmbus v).blobs = s.blobs := rfl
@[simp] theorem setSmbus_mem (s : State) (v : Smbus) : (s.setSmbus v).mem = s.mem := rfl
@[simp] theorem setSmbus_hostMem (s : State) (v : Smbus) : (s.setSmbus v).hostMem = s.hostMem := rfl
@[simp] theorem setSmbus_stops (s : State) (v : Smbus) : (s.setSmbus v).stops = s.stops := rfl
@[simp] theorem setSmbus_log (s : State) (v : Smbus) : (s.setSmbus v).log = s.log := rfl
@[simp] theorem setSmbus_sundial (s : State) (v : Smbus) : (s.setSmbus v).sundial = s.sundial := rfl
@[simp] theorem setSmbus_disp (s : State) (v : Smbus) : (s.setSmbus v).disp = s.disp := rfl
@[simp] theorem setSmbus_link (s : State) (v : Smbus) : (s.setSmbus v).link = s.link := rfl
@[simp] theorem setSmbus_ddr (s : State) (v : Smbus) : (s.setSmbus v).ddr = s.ddr := rfl
@[simp] theorem setSmbus_paths (s : State) (v : Smbus) : (s.setSmbus v).paths = { s.paths with smbus := v } := rfl
@[simp] theorem setSmbus_lodge (s : State) (v : Smbus) : (s.setSmbus v).lodge = s.lodge := rfl
@[simp] theorem setSmbus_pergola (s : State) (v : Smbus) : (s.setSmbus v).pergola = s.pergola := rfl
@[simp] theorem setSmbus_kv (s : State) (v : Smbus) : (s.setSmbus v).kv = s.kv := rfl
@[simp] theorem setSmbus_keeper (s : State) (v : Smbus) : (s.setSmbus v).keeper = s.keeper := rfl
@[simp] theorem setSmbus_shift (s : State) (v : Smbus) : (s.setSmbus v).shift = s.shift := rfl
@[simp] theorem setSmbus_drive (s : State) (v : Smbus) : (s.setSmbus v).drive = s.drive := rfl
@[simp] theorem setSmbus_power (s : State) (v : Smbus) : (s.setSmbus v).power = s.power := rfl
@[simp] theorem setSmbus_boot (s : State) (v : Smbus) : (s.setSmbus v).boot = s.boot := rfl
@[simp] theorem setSmbus_pins (s : State) (v : Smbus) : (s.setSmbus v).pins = s.pins := rfl
@[simp] theorem setSmbus_out (s : State) (v : Smbus) : (s.setSmbus v).out = s.out := rfl

@[simp] theorem setCan_pending (s : State) (b : Bool) (c : CanChannel) : (s.setCan b c).pending = s.pending := rfl
@[simp] theorem setCan_freeIx (s : State) (b : Bool) (c : CanChannel) : (s.setCan b c).freeIx = s.freeIx := rfl
@[simp] theorem setCan_now (s : State) (b : Bool) (c : CanChannel) : (s.setCan b c).now = s.now := rfl
@[simp] theorem setCan_uptime0 (s : State) (b : Bool) (c : CanChannel) : (s.setCan b c).uptime0 = s.uptime0 := rfl
@[simp] theorem setCan_regs (s : State) (b : Bool) (c : CanChannel) : (s.setCan b c).regs = s.regs := rfl
@[simp] theorem setCan_blobs (s : State) (b : Bool) (c : CanChannel) : (s.setCan b c).blobs = s.blobs := rfl
@[simp] theorem setCan_mem (s : State) (b : Bool) (c : CanChannel) : (s.setCan b c).mem = s.mem := rfl
@[simp] theorem setCan_hostMem (s : State) (b : Bool) (c : CanChannel) : (s.setCan b c).hostMem = s.hostMem := rfl
@[simp] theorem setCan_stops (s : State) (b : Bool) (c : CanChannel) : (s.setCan b c).stops = s.stops := rfl
@[simp] theorem setCan_log (s : State) (b : Bool) (c : CanChannel) : (s.setCan b c).log = s.log := rfl
@[simp] theorem setCan_sundial (s : State) (b : Bool) (c : CanChannel) : (s.setCan b c).sundial = s.sundial := rfl
@[simp] theorem setCan_disp (s : State) (b : Bool) (c : CanChannel) : (s.setCan b c).disp = s.disp := rfl
@[simp] theorem setCan_link (s : State) (b : Bool) (c : CanChannel) : (s.setCan b c).link = s.link := rfl
@[simp] theorem setCan_ddr (s : State) (b : Bool) (c : CanChannel) : (s.setCan b c).ddr = s.ddr := rfl
@[simp] theorem setCan_paths (s : State) (b : Bool) (c : CanChannel) : (s.setCan b c).paths = if b then { s.paths with canSafety := c } else { s.paths with canOrdinary := c } := rfl
@[simp] theorem setCan_lodge (s : State) (b : Bool) (c : CanChannel) : (s.setCan b c).lodge = s.lodge := rfl
@[simp] theorem setCan_pergola (s : State) (b : Bool) (c : CanChannel) : (s.setCan b c).pergola = s.pergola := rfl
@[simp] theorem setCan_kv (s : State) (b : Bool) (c : CanChannel) : (s.setCan b c).kv = s.kv := rfl
@[simp] theorem setCan_keeper (s : State) (b : Bool) (c : CanChannel) : (s.setCan b c).keeper = s.keeper := rfl
@[simp] theorem setCan_shift (s : State) (b : Bool) (c : CanChannel) : (s.setCan b c).shift = s.shift := rfl
@[simp] theorem setCan_drive (s : State) (b : Bool) (c : CanChannel) : (s.setCan b c).drive = s.drive := rfl
@[simp] theorem setCan_power (s : State) (b : Bool) (c : CanChannel) : (s.setCan b c).power = s.power := rfl
@[simp] theorem setCan_boot (s : State) (b : Bool) (c : CanChannel) : (s.setCan b c).boot = s.boot := rfl
@[simp] theorem setCan_pins (s : State) (b : Bool) (c : CanChannel) : (s.setCan b c).pins = s.pins := rfl
@[simp] theorem setCan_out (s : State) (b : Bool) (c : CanChannel) : (s.setCan b c).out = s.out := rfl

@[simp] theorem setPair_pending (s : State) (k : Nat) (v : DdrPhase) : (s.setPair k v).pending = s.pending := rfl
@[simp] theorem setPair_freeIx (s : State) (k : Nat) (v : DdrPhase) : (s.setPair k v).freeIx = s.freeIx := rfl
@[simp] theorem setPair_now (s : State) (k : Nat) (v : DdrPhase) : (s.setPair k v).now = s.now := rfl
@[simp] theorem setPair_uptime0 (s : State) (k : Nat) (v : DdrPhase) : (s.setPair k v).uptime0 = s.uptime0 := rfl
@[simp] theorem setPair_regs (s : State) (k : Nat) (v : DdrPhase) : (s.setPair k v).regs = s.regs := rfl
@[simp] theorem setPair_blobs (s : State) (k : Nat) (v : DdrPhase) : (s.setPair k v).blobs = s.blobs := rfl
@[simp] theorem setPair_mem (s : State) (k : Nat) (v : DdrPhase) : (s.setPair k v).mem = s.mem := rfl
@[simp] theorem setPair_hostMem (s : State) (k : Nat) (v : DdrPhase) : (s.setPair k v).hostMem = s.hostMem := rfl
@[simp] theorem setPair_stops (s : State) (k : Nat) (v : DdrPhase) : (s.setPair k v).stops = s.stops := rfl
@[simp] theorem setPair_log (s : State) (k : Nat) (v : DdrPhase) : (s.setPair k v).log = s.log := rfl
@[simp] theorem setPair_sundial (s : State) (k : Nat) (v : DdrPhase) : (s.setPair k v).sundial = s.sundial := rfl
@[simp] theorem setPair_disp (s : State) (k : Nat) (v : DdrPhase) : (s.setPair k v).disp = s.disp := rfl
@[simp] theorem setPair_link (s : State) (k : Nat) (v : DdrPhase) : (s.setPair k v).link = s.link := rfl
@[simp] theorem setPair_paths (s : State) (k : Nat) (v : DdrPhase) : (s.setPair k v).paths = s.paths := rfl
@[simp] theorem setPair_lodge (s : State) (k : Nat) (v : DdrPhase) : (s.setPair k v).lodge = s.lodge := rfl
@[simp] theorem setPair_pergola (s : State) (k : Nat) (v : DdrPhase) : (s.setPair k v).pergola = s.pergola := rfl
@[simp] theorem setPair_kv (s : State) (k : Nat) (v : DdrPhase) : (s.setPair k v).kv = s.kv := rfl
@[simp] theorem setPair_keeper (s : State) (k : Nat) (v : DdrPhase) : (s.setPair k v).keeper = s.keeper := rfl
@[simp] theorem setPair_shift (s : State) (k : Nat) (v : DdrPhase) : (s.setPair k v).shift = s.shift := rfl
@[simp] theorem setPair_drive (s : State) (k : Nat) (v : DdrPhase) : (s.setPair k v).drive = s.drive := rfl
@[simp] theorem setPair_power (s : State) (k : Nat) (v : DdrPhase) : (s.setPair k v).power = s.power := rfl
@[simp] theorem setPair_boot (s : State) (k : Nat) (v : DdrPhase) : (s.setPair k v).boot = s.boot := rfl
@[simp] theorem setPair_pins (s : State) (k : Nat) (v : DdrPhase) : (s.setPair k v).pins = s.pins := rfl
@[simp] theorem setPair_out (s : State) (k : Nat) (v : DdrPhase) : (s.setPair k v).out = s.out := rfl

@[simp] theorem draw_pending (s : State) : s.draw.2.pending = s.pending := rfl
@[simp] theorem draw_now (s : State) : s.draw.2.now = s.now := rfl
@[simp] theorem draw_uptime0 (s : State) : s.draw.2.uptime0 = s.uptime0 := rfl
@[simp] theorem draw_regs (s : State) : s.draw.2.regs = s.regs := rfl
@[simp] theorem draw_blobs (s : State) : s.draw.2.blobs = s.blobs := rfl
@[simp] theorem draw_mem (s : State) : s.draw.2.mem = s.mem := rfl
@[simp] theorem draw_hostMem (s : State) : s.draw.2.hostMem = s.hostMem := rfl
@[simp] theorem draw_stops (s : State) : s.draw.2.stops = s.stops := rfl
@[simp] theorem draw_log (s : State) : s.draw.2.log = s.log := rfl
@[simp] theorem draw_sundial (s : State) : s.draw.2.sundial = s.sundial := rfl
@[simp] theorem draw_disp (s : State) : s.draw.2.disp = s.disp := rfl
@[simp] theorem draw_link (s : State) : s.draw.2.link = s.link := rfl
@[simp] theorem draw_ddr (s : State) : s.draw.2.ddr = s.ddr := rfl
@[simp] theorem draw_paths (s : State) : s.draw.2.paths = s.paths := rfl
@[simp] theorem draw_lodge (s : State) : s.draw.2.lodge = s.lodge := rfl
@[simp] theorem draw_pergola (s : State) : s.draw.2.pergola = s.pergola := rfl
@[simp] theorem draw_kv (s : State) : s.draw.2.kv = s.kv := rfl
@[simp] theorem draw_keeper (s : State) : s.draw.2.keeper = s.keeper := rfl
@[simp] theorem draw_shift (s : State) : s.draw.2.shift = s.shift := rfl
@[simp] theorem draw_drive (s : State) : s.draw.2.drive = s.drive := rfl
@[simp] theorem draw_power (s : State) : s.draw.2.power = s.power := rfl
@[simp] theorem draw_boot (s : State) : s.draw.2.boot = s.boot := rfl
@[simp] theorem draw_pins (s : State) : s.draw.2.pins = s.pins := rfl
@[simp] theorem draw_out (s : State) : s.draw.2.out = s.out := rfl
@[simp] theorem draw_freeIx (s : State) : s.draw.2.freeIx = s.freeIx + 1 := rfl

/-- Ordering what a command sends on CAN FD controller 0 changes what was sent and nothing else (R422). -/
theorem canOrdered_cases (t s : State) : ∃ l, t.canOrdered s = { t with out := l } := by
  unfold State.canOrdered
  dsimp only
  split
  · exact ⟨t.out, rfl⟩
  · exact ⟨_, rfl⟩

/-- A read of an array without wrong bits meets nothing (R359). -/
@[simp] theorem touchArray_whole (s : State) (array : SramArray) (h : s.mem.flaws = []) : s.touchArray array = (s, none) := by
  simp [State.touchArray, h]

/-- An item of the KV manager that has not stopped it ends as its work left it (R370). -/
theorem kvEnds_running (s t : State) (i : Item) (h : t.kv.stopped = none) : s.kvEnds t i = t := by
  unfold State.kvEnds
  rw [h]
  split <;> simp_all

end Sys2Proof.Machine
end

