-- ==== Sys2Proof/Laws/Work.lean ====
section
/-! SUPPORT. What running an item, reaching a destination and writing to it can do, once for all work orders (R192, R197, R200). -/

namespace Sys2Proof.Machine

variable {α : Type} {s s1 : State} {l : Lane} {op : Nat} {check : State → Item → Checked α} {run : State → Item → α → State}
  {i : Item} {a : α}

/-- Everything that running a lane's item can do. -/
theorem runItem_cases (s : State) (l : Lane) (op : Nat) (check : State → Item → Checked α) (run : State → Item → α → State) :
    (s.ready l op = none ∧ s.runItem l op check run = s) ∨
    (∃ i s1 f, s.ready l op = some i ∧ check s i = (s1, .error f) ∧ s.runItem l op check run = s1.setFinish i f) ∨
    (∃ i s1 a, s.ready l op = some i ∧ check s i = (s1, .ok a) ∧ s1.leaseRefuses i = true ∧
      s.runItem l op check run = s1.setFinish i (finConflict 3 0)) ∨
    (∃ i s1 a, s.mayRun l op check i s1 a ∧ s.runItem l op check run = run s1 i a) := by
  unfold State.runItem
  cases hr : s.ready l op with
  | none => exact .inl ⟨rfl, rfl⟩
  | some i =>
    rcases hc : check s i with ⟨s1, c⟩
    cases c with
    | error f => exact .inr (.inl ⟨i, s1, f, rfl, hc, by simp only [hc]⟩)
    | ok a =>
      cases hl : s1.leaseRefuses i with
      | true => exact .inr (.inr (.inl ⟨i, s1, a, rfl, hc, hl, by simp [hc, hl]⟩))
      | false => exact .inr (.inr (.inr ⟨i, s1, a, ⟨hr, hc, hl⟩, by simp [hc, hl]⟩))

theorem runItem_mayRun (h : s.mayRun l op check i s1 a) : s.runItem l op check run = run s1 i a := by
  obtain ⟨hr, hc, hl⟩ := h
  simp [State.runItem, hr, hc, hl]

theorem runItem_refused {f : Finish} (hr : s.ready l op = some i) (hc : check s i = (s1, .error f)) :
    s.runItem l op check run = s1.setFinish i f := by
  simp [State.runItem, hr, hc]

theorem runItem_idle (hr : s.ready l op = none) : s.runItem l op check run = s := by simp [State.runItem, hr]

/-- A destination that answers everywhere leaves the state as it is. -/
theorem landing_ok {ag : Agent} {sp : List (Int × Nat)} {t : State} (h : s.landing i ag sp = (t, none)) :
    t = s ∧ ∀ p ∈ sp, s.answer ag p.1.toNat p.2 true = .ok := by
  unfold State.landing at h
  split at h
  · cases h
  · next hf =>
    cases h
    refine ⟨rfl, fun p hp => ?_⟩
    have := List.find?_eq_none.1 hf p hp
    simpa using this

/-- A write of a work order's result changes the two memories and nothing else. -/
theorem put_frame (s : State) (ag : Agent) (x : Nat) (bs : Bytes) :
    s.put ag x bs = { s with mem := (s.put ag x bs).mem, hostMem := (s.put ag x bs).hostMem } := by
  unfold State.put
  obtain ⟨-, h⟩ | ⟨-, -, -, h⟩ | ⟨-, h⟩ := writeMem_cases s ag x bs
  · rw [h]
  · rw [h]
  · rw [h]; exact poke_frame s x bs

theorem put_wf {ag : Agent} (x : Nat) (bs : Bytes) (hm : s.mem.wf = true) (hh : s.hostMem.wf = true) :
    (s.put ag x bs).mem.wf = true ∧ (s.put ag x bs).hostMem.wf = true := writeMem_wf ag x bs hm hh

end Sys2Proof.Machine
end

