-- ==== Sys2Proof/Tests/Slice0.lean ====
section
/-! SUPPORT. Tests: operands that are refused as ill-formed, and for every statement states and operands that meet what it asks. -/

open Sys2Proof.Machine

namespace Sys2Proof.Tests

set_option Elab.async false

/-- A started device: every power domain on, dictionary served, Sundial running, DDR5 trained, in the drive shift. -/
def live : State := { State.reset with
  now := 4000000000
  power := { State.reset.power with domains := (List.range 47).map (fun d => (d, { state := .on })) }
  pins := { State.reset.pins with resetN := true }
  boot := { State.reset.boot with phase := .ready }
  link := { State.reset.link with perst := false }
  shift := { State.reset.shift with phase := .drive }
  paths := { State.reset.paths with serving := true }
  sundial := { State.reset.sundial with running := true }
  ddr := { State.reset.ddr with capacity := 2 ^ 36, pair0 := .trained, pair1 := .trained } }

def pkt : Packet := ⟨0, 47, .dispatcher, .req, .write, 64, 0, 1, none, [1], []⟩

def chan : State := live.setChannel 0 { busy := true }

def smb : State := live.setSmbus { selected := some (0x2010, 0x0B) }

/-- A CAN FD frame of 64 bytes with the identifier of one of the six places of the access path. -/
def canF (place : Nat) (data : Bytes) : CanFrame := ⟨Regs.dictCanBase.dflt + place, false, true, true, false, 15, data⟩

/-- A CAN dictionary request of 64 bytes. -/
def canBytes (op index sub total : Nat) : Bytes :=
  toLe 64 (op + 7 * 2 ^ 8 + index * 2 ^ 16 + sub * 2 ^ 32 + total * 2 ^ 64 + 250 * 2 ^ 96)

def eth : State := (List.range 4).foldl (fun s p => s.setReg (Regs.ethLinkUp p) 1) live

/-- Stream q with a queue of two slots in DDR5. -/
def queue (q : Nat) : State :=
  (((live.setReg (Regs.streamQbase q) 0x1000000).setReg (Regs.streamSlotCount q) 2).setReg (Regs.streamSlotSize q) 256)

/-- Camera stream q enabled on a virtual channel, with the data type of RAW8. -/
def cam (q vc : Nat) : State :=
  ((((queue q).setReg (Regs.streamEnable q) 1).setReg (Regs.camVc q) vc).setReg (Regs.camDt q) 0x2A).setIngest q { live := true }

/-- Inertial or CAN stream q enabled. -/
def imu (q : Nat) : State := ((queue q).setReg (Regs.streamEnable q) 1).setIngest q { live := true }

/-- An Ethernet frame of 60 bytes that carries 18 bytes of UDP to port 7. -/
def udpFrame : Bytes :=
  List.replicate 12 0 ++ [8, 0, 0x45, 0, 0, 46, 0, 0, 0, 0, 64, 17, 0, 0] ++ List.replicate 8 0 ++ [0, 0, 0, 7, 0, 26, 0, 0]
    ++ List.replicate 18 1

def scanner : State :=
  (((eth.setReg (Regs.streamEnable 24) 1).setReg (Regs.scnVlan 0) 65535).setIngest 24 { live := true }).setBlob (Blobs.tplData 0)
    (toLe 640 (64 * 2 ^ 64))

/-- Whether checks pass. -/
def okC {α : Type} (c : Checked α) : Bool :=
  match c.2 with
  | .ok _ => true
  | .error _ => false

/-- What passed checks found. -/
def got {α : Type} : (c : Checked α) → okC c = true → α
  | (_, .ok a), _ => a
  | (_, .error _), h => nomatch h

theorem got_eq {α : Type} : ∀ (c : Checked α) (h : okC c = true), c = (c.1, .ok (got c h))
  | (_, .ok _), _ => rfl
  | (_, .error _), h => nomatch h

/-- How checks that failed ended. -/
def gotError {α : Type} : (c : Checked α) → okC c = false → Finish
  | (_, .error f), _ => f
  | (_, .ok _), h => nomatch h

theorem got_error {α : Type} : ∀ (c : Checked α) (h : okC c = false), c = (c.1, .error (gotError c h))
  | (_, .error _), _ => rfl
  | (_, .ok _), h => nomatch h

theorem runs_of {α : Type} {s : State} {l : Lane} {op : Nat} {check : State → Item → Checked α} {i : Item}
    (h1 : s.ready l op = some i) (h2 : okC (check s i) = true) (h3 : (check s i).1.leaseRefuses i = false) :
    s.mayRun l op check i (check s i).1 (got (check s i) h2) := ⟨h1, got_eq _ h2, h3⟩

theorem fst_none {α β : Type} {x : α × Option β} (h : x.2.isNone = true) : x = (x.1, none) := by
  obtain ⟨a, _ | b⟩ := x
  · rfl
  · cases h

theorem pair_self {α β : Type} {x : α × β} : x = (x.1, x.2) := rfl

theorem quad_self {α β γ δ : Type} {x : α × β × γ × δ} : x = (x.1, x.2.1, x.2.2.1, x.2.2.2) := rfl

theorem pair_snd {α β : Type} {x : α × β} {b : β} (h : x.2 = b) : x = (x.1, b) := h ▸ rfl

/-- An item that executes in lane l, or in its dispatcher, of one record x, on ring 0. -/
def item (l : Option Lane) (x : Nat) : Item := { ring := 0, seq := 0, recs := [x], mask := 1, lane := l, phase := .executing }

/-- s with blocks of memory written and that item the only one in flight. -/
def runs (s : State) (i : Item) (blocks : List (Nat × Bytes)) : State :=
  { s with mem := blocks.foldl (fun m e => m.write e.1 e.2) s.mem, disp := { s.disp with items := [i] } }

/-- A descriptor of 64 bytes: base, format, sizes, and the strides of the dimensions above the first. -/
def desc (base fmt : Nat) (sizes strides : List Nat) : Bytes :=
  toLe 64 (base + fmt * 2 ^ 40 + sizes.length * 2 ^ 48 + 2 ^ 288
    + (sizes.zipIdx.map (fun (e : Nat × Nat) => e.1 * 2 ^ (128 + 32 * e.2))).sum
    + (strides.zipIdx.map (fun (e : Nat × Nat) => e.1 * 2 ^ (320 + 32 * e.2))).sum)

def pad : Nat := 0xF000000000

def ringOn : State :=
  ((((live.setReg (Regs.ringEnable 63) 1).setReg (Regs.ringSize 63) 64).setReg (Regs.cqEnable 63) 1).setReg (Regs.cqSize 63) 64).setReg
    (Regs.ringCq 63) 63

def iqOn : State :=
  (((((live.setReg (Regs.iqOwner 31) 1).setReg (Regs.iqBase 31) pad).setReg (Regs.iqSlotSize 31) 64).setReg (Regs.iqSlotCount 31) 2).setReg
    (Regs.iqEnable 31) 1)

/-- Ring 63 with one published NOP. -/
def dispatchS : State := { ringOn.setReg (Regs.ringTail 63) 1 with mem := live.mem.write 0x1000000 (toLe 64 (2 ^ 8)) }.setReg
  (Regs.ringBase 63) 0x1000000

def copyI : Item := item (some ⟨.unit (.gaffer 0), .copy⟩) (0x08 + pad * 2 ^ 64 + (pad + 64) * 2 ^ 104)

def copyS : State := runs live copyI [(pad, desc (pad + 256) 0x20 [2] []), (pad + 64, desc (pad + 512) 0x20 [2] [])]

def fillI : Item := item (some ⟨.unit (.gaffer 0), .copy⟩) (0x09 + pad * 2 ^ 104)

def fillS : State := runs live fillI [(pad, desc (pad + 256) 0x20 [2] [])]

def pushI : Item := item (some ⟨.kv, .kv⟩) (0x0C + 159 * 2 ^ 32 + (pad + 0x1000) * 2 ^ 64 + 64 * 2 ^ 128)

def pushS : State := runs iqOn pushI []

/-- A push into a full queue, and one of a frame of 60 bytes into a launch queue. -/
def pushF : Item := item (some ⟨.kv, .kv⟩) (0x0C + 159 * 2 ^ 32 + (pad + 0x1000) * 2 ^ 64 + 64 * 2 ^ 128 + 2 ^ 160)

def pushFS : State := (runs iqOn pushF []).setIq 31 { (runs iqOn pushF []).iq 31 with items := [⟨0, 64⟩, ⟨1, 64⟩] }

def pushL : Item := item (some ⟨.kv, .kv⟩) (0x0C + 56 * 2 ^ 32 + (pad + 0x1000) * 2 ^ 64 + 92 * 2 ^ 128)

def pushLS : State := runs (live.setReg (Regs.lqOwner 0) 1) pushL [(pad + 0x1000, toLe 92 (60 * 2 ^ 128))]

def pushing : TxPush := ⟨0, 1, ⟨0, true, [], .plain⟩⟩

/-- A BARRIER that waits for an item of its own ring. -/
def barI : Item := { item none (2 + 2 ^ 32) with seq := 1 }

def barS : State := { live with disp := { live.disp with items := [item none 0, barI] } }

def popI : Item := item (some ⟨.kv, .kv⟩) (0x0D + 159 * 2 ^ 32 + (pad + 0x1000) * 2 ^ 64 + 64 * 2 ^ 128)

def popS2 : State := runs iqOn popI []

def popS : State := popS2.setIq 31 { popS2.iq 31 with items := [⟨0, 64⟩] }

def popI3 : Item := item (some ⟨.unit (.gaffer 0), .copy⟩) (0x0D + 41 * 2 ^ 32 + (pad + 0x1000) * 2 ^ 64 + 256 * 2 ^ 128)

def popS3 : State := (runs (imu 41) popI3 []).setIngest 41 { live := true, items := [⟨0, 64, 0⟩] }

def array : Option Lane := some ⟨.unit (.gaffer 0), .array⟩
def vectors : Option Lane := some ⟨.unit (.gaffer 0), .vector⟩

/-- A MATMUL of one element of INT8 to INT32. -/
def matI : Item := item array (0x10 + pad * 2 ^ 64 + (pad + 64) * 2 ^ 144 + (pad + 128) * 2 ^ 224)

def matS : State := runs live matI [(pad, desc (pad + 0x1000) 0x1001 [1, 1] [0]), (pad + 64, desc (pad + 0x2000) 0x2001 [1, 1] [0]),
  (pad + 128, desc (pad + 0x3000) 0x22 [1, 1] [4])]

/-- A REDUCE to the place of the largest of two elements. -/
def redI : Item := item vectors (0x19 + 4 * 2 ^ 33 + pad * 2 ^ 64 + (pad + 64) * 2 ^ 104)

def redS : State := runs live redI [(pad, desc (pad + 0x1000) 0x12 [2] []), (pad + 64, desc (pad + 0x2000) 0x22 [1] [])]

def vecI : Item := { item vectors (0x18 + 2 ^ 128) with recs := [0x18 + 2 ^ 128, 0] }

/-- Gaffer 0's vector unit at an instruction that one END follows. -/
def vecV (x : Nat) : VectorUnit := { running := true, prog := [x, 0] }

def vecS (x : Nat) : State := (runs live vecI []).setVec (.gaffer 0) (vecV x)

def fenced (cause : Nat) : State := (live.setReg Regs.gafferFence (2 ^ 31)).setReg (Regs.gafferFenceCause 31) cause

/-- What holds of nothing holds of whatever it is. -/
theorem none_all {α : Type} {x : Option α} {P : α → Prop} (h : x.isNone = true) : ∀ a, x = some a → P a := by
  rintro a rfl
  cases h

theorem snd_some {α β : Type} {x : α × Option β} (h : x.2.isSome = true) : x = (x.1, some (x.2.get h)) := by
  obtain ⟨a, _ | b⟩ := x
  · cases h
  · rfl

theorem some_get {α : Type} {x : Option α} {h : x.isSome = true} : x = some (x.get h) := (Option.some_get h).symm

/-- Whether checks pass with a. -/
def okIs {α : Type} [DecidableEq α] (c : Checked α) (a : α) : Bool :=
  match c.2 with
  | .ok b => decide (b = a)
  | .error _ => false

theorem ok_eq {α : Type} [DecidableEq α] {a : α} : ∀ {c : Checked α}, okIs c a = true → c = (c.1, .ok a)
  | (_, .ok _), h => by simp [okIs] at h; simp [h]
  | (_, .error _), h => nomatch h

def marver : Option Lane := some ⟨.marver 3, .marver⟩

/-- Two bytes moved, two gathered from one and one scattered, by Marver 3. -/
def trI : Item := item marver (0x20 + pad * 2 ^ 64 + (pad + 64) * 2 ^ 144)
def gaI : Item := item marver (0x21 + pad * 2 ^ 64 + (pad + 64) * 2 ^ 144 + (pad + 128) * 2 ^ 224)
def scI : Item := item marver (0x22 + (pad + 64) * 2 ^ 64 + pad * 2 ^ 144 + (pad + 128) * 2 ^ 224)

def tensors : List (Nat × Bytes) := [(pad, desc (pad + 0x1000) 0x20 [2] []), (pad + 64, desc (pad + 0x2000) 0x20 [2] []),
  (pad + 128, desc (pad + 0x3000) 0x22 [2] [])]

/-- Pool 0 with a sequence 0 whose page 0 is in state st, in frame 0 with one reference. -/
def kvS (st : Nat) (x : Nat) (blocks : List (Nat × Bytes)) : State :=
  let s := ((((((live.setReg (Regs.kvpEnable 0) 1).setReg (Regs.kvpFormat 0) 0x10).setReg (Regs.kvpDim 0) 32).setReg
    (Regs.kvpLayers 0) 1).setReg (Regs.kvpHeads 0) 1).setReg (Regs.kvpSwapBase 0) 0x8000000).setReg (Regs.kvpSwapSlots 0) 16
  let s := ((s.setReg Regs.kvL2Base 0x2000000).setReg (Regs.kvpBase 0) 0x4000000).setReg (Regs.kvpMetaBase 0) 0x3000000
  { runs s (item (some kvLane) x) ([(seqAt 0, [1]), (dirAt 0 0, [0, 0, 1]), (0x2000000, toLe 1 st), (s.entryAt 0 0, toLe 16 1),
      (nodeAt 0 + 10, [4])] ++ blocks) with
    kv := { live.kv with pools := [(0, { free := 1 })] } }

def tokens : Nat := pad * 2 ^ 160 + (pad + 64) * 2 ^ 200 + 2 ^ 128

/-- An attention item of one entry: sequence 0, one query row at position 0, over token 0, to a final row of BF16. -/
def attX (op : Nat) : Nat :=
  op + 2 ^ 64 + 0x3F800000 * 2 ^ 96 + pad * 2 ^ 128 + (pad + 0x10000) * 2 ^ 192 + 0x8000 * 2 ^ 256

def attBlocks : List (Nat × Bytes) :=
  [(pad, toLe 64 (2 ^ 26 + 2 ^ 31 + 2 ^ 64 + 2 ^ 128 + (pad + 64) * 2 ^ 192 + (pad + 128) * 2 ^ 256)),
    (pad + 64, desc (pad + 0x1000) 0x10 [32, 1] [64]), (pad + 128, desc (pad + 0x2000) 0x10 [32, 1] [64])]

def attS (op : Nat) : State :=
  { kvS 1 0 attBlocks with disp := { live.disp with items := [item array (attX op)] } }

def appendI : Item := item (some ⟨.unit (.gaffer 0), .copy⟩) (0x33 + 2 ^ 32 + pad * 2 ^ 160)

/-- A merge of one partial of 32 columns. -/
def mergeI : Item := item vectors (0x32 + 2 ^ 33 + pad * 2 ^ 64)

def mergeS : State := runs live mergeI [(pad, toLe 32 (1 + 32 * 2 ^ 16 + 2 ^ 32 + (pad + 0x1000) * 2 ^ 64 + (pad + 64) * 2 ^ 128)),
  (pad + 64, desc (pad + 0x2000) 0x12 [32, 1] [128])]

def tableLane : Option Lane := some ⟨.pergola, .table⟩
def outputLane : Option Lane := some ⟨.pergola, .output⟩

/-- Grid 0 of one cell, one pillar and one point, with item i. -/
def pgS (i : Item) (blocks : List (Nat × Bytes)) : State :=
  runs ((((live.setReg (Regs.gridMaxPillars 0) 1).setReg (Regs.gridPointsPerPillar 0) 1).setReg (Regs.gridNx 0) 1).setReg (Regs.gridNy 0) 1)
    i (blocks ++ [(pad, desc (pad + 0x1000) 0x20 [32, 1, 1] [32, 32]), (pad + 64, desc (pad + 0x2000) 0x20 [32, 1] [32])])

def poseI : Item := item outputLane (0x40 + 2 ^ 32 + (pad + 128) * 2 ^ 64)

def binI : Item := item tableLane (0x41 + (pad + 0x4000) * 2 ^ 256 + pad * 2 ^ 296 + (pad + 64) * 2 ^ 336)

def closedI : PgClosed := ⟨[], 0, 0, 0, 0, 0, 0, 0, [], 0⟩

/-- A running PG_BIN. -/
def binS (b : PgBin) : State := { pgS binI [] with pergola := { live.pergola with bin := some b } }

def nearI : Item := item tableLane (0x42 + (pad + 128) * 2 ^ 96)

def bevI : Item := item outputLane (0x43 + 2 ^ 65 + (pad + 64) * 2 ^ 96 + (pad + 128) * 2 ^ 176)

def labelI : Item := item outputLane (0x44 + pad * 2 ^ 96 + (pad + 128) * 2 ^ 136 + (pad + 192) * 2 ^ 176)

theorem answer_ok {s : State} {ag : Agent} {a n : Nat} {w : Bool} (h : ∀ p ∈ probes a n, s.answer1 ag p w = .ok) :
    s.answer ag a n w = .ok := by
  unfold State.answer
  generalize probes a n = l at h
  induction l with
  | nil => rfl
  | cons p t ih => simp [h p (List.mem_cons_self ..), ih (fun q hq => h q (List.mem_cons_of_mem _ hq))]

theorem probes_within {a n p : Nat} (h : p ∈ probes a n) : a ≤ p ∧ p < a + n := by
  simp only [probes] at h
  split at h
  · cases h
  · next hn =>
    obtain rfl | hm := List.mem_cons.1 h
    · omega
    · obtain ⟨i, hi, rfl⟩ := List.mem_map.1 hm
      have := List.mem_range.1 hi
      omega

/-- The hash tables of the Pergola can be read whole. -/
theorem pergola_ok {s : State} {a n : Nat} (lo : 0xF100000000 ≤ a) (hi : a + n ≤ 0xF101800000) (hc : s.shift.closed = false)
    (h0 : s.pdOn 38 = true) (h1 : s.pdOn 39 = true)
    (hr0 : s.keeper.heldReset = false) : s.answer .pergola a n false = .ok := by
  refine answer_ok fun p hp => ?_
  have hw := probes_within hp
  have hr : regionOf p = .pergola := by
    unfold regionOf
    repeat rw [if_neg (by omega)]
    rw [if_pos (by omega)]
  have hh : s.pdOn (38 + pergolaHalf p) = true := by
    have : pergolaHalf p = 0 ∨ pergolaHalf p = 1 := by unfold pergolaHalf; split <;> simp
    rcases this with h | h <;> rw [h] <;> assumption
  simp [State.answer1, hr, mayReach, hc, hh, hr0]

theorem near_touch {s : State} {i : Item} {n : Nat} (hn : n ≤ 0x1800000) (hc : s.shift.closed = false) (h0 : s.pdOn 38 = true) (h1 : s.pdOn 39 = true)
    (hr0 : s.keeper.heldReset = false) (hs : s.mem.suspects 0xF100000000 n = []) :
    ∃ w, w = s.touch i .pergola [((0xF100000000 : Nat), n)] ∧ w.gone = none ∧ w.entry = none ∧ w.s = s := by
  refine ⟨_, rfl, ?_⟩
  have ha : s.answer .pergola 0xF100000000 n false = .ok := pergola_ok (by omega) (by omega) hc h0 h1 hr0
  have hr : regionOf 0xF100000000 = .pergola := by decide
  simp [State.touch, State.readMem, ha, hr, hs, State.meetAll]

def nearS : State :=
  { pgS nearI [(pad + 128, desc (pad + 0x3000) 0x22 [9, 1] [36])] with pergola := { live.pergola with seqUsable := true } }

theorem near_hyps : ∃ (i : Item) (s s1 s2 : State) (d : Tensor) (w : Touched), s.mayRun ⟨.pergola, .table⟩ 0x42 checkNeighbours i s1 d ∧
    w = s1.touch i .pergola [((hashBase (i.field 64 64) : Int), 0x800000)] ∧ w.gone = none ∧ w.entry = none ∧
    w.s.landing i .pergola d.spans = (s2, none) := by
  obtain ⟨w, hw, hg, he, hs⟩ := near_touch (s := (checkNeighbours nearS nearI).1) (i := nearI) (n := 0x800000) (by omega)
    (by decide +kernel) (by decide +kernel) (by decide +kernel) (by decide +kernel) (by decide +kernel)
  have hb : hashBase (nearI.field 64 64) = 0xF100000000 := by decide +kernel
  exact ⟨nearI, nearS, _, _, _, w, runs_of (by decide +kernel) (by decide +kernel) (by decide +kernel), hb ▸ hw, hg, he,
    fst_none (by rw [hs]; decide +kernel)⟩

/-- A rule table without rules. -/
def rules (parked : Nat) : Bytes :=
  toLe 64 (0x4B525554 + 2 ^ 32 + parked * 2 ^ 40 + crc32c (List.replicate 512 0) * 2 ^ 64) ++ List.replicate 512 0

def keeperS (p : KpState) : State :=
  { live.setReg Regs.kpRulesValid 3 with keeper := { live.keeper with phase := p, reference := some 0, faultN := true } }

/-- The Keeper with an open epoch. -/
def epochS (e : Epoch) : State :=
  (keeperS .running |>.setDom false { counter := 2 ^ 80 }).setKeeper { (keeperS .running).keeper with epochs := [e] }

def declareI : Item := item (some ⟨.keeper, .keeper⟩) (0x50 + pad * 2 ^ 192)

def declareS : State :=
  (runs (keeperS .waiting) declareI [(pad, desc (pad + 0x1000) 0x12 [1] [])]).setBlob Blobs.kpRulesDrive
    (List.replicate 64 0 ++ toLe 8 (0x12 + 2 ^ 32))

/-- A golden set of gaffers without a fault that shows gives the signatures of its items. -/
theorem golden_passes {s : State} {gs : List Nat}
    (h : gs.all (fun g => !Gaffer.struck (s.gaffer g).arrayFault && !Gaffer.struck (s.gaffer g).vectorFault) = true) :
    s.goldenFailure gs ((List.range 11).map Config.goldenSignature) = none := by
  simp only [List.all_eq_true, Bool.and_eq_true, Bool.not_eq_true'] at h
  simp only [State.goldenFailure, List.find?_eq_none, List.mem_range]
  intro k hk
  have ha : gs.any (fun g => Gaffer.struck (s.gaffer g).arrayFault) = false := List.any_eq_false.2 fun g hg => by simp [(h g hg).1]
  have hv : gs.any (fun g => Gaffer.struck (s.gaffer g).vectorFault) = false := List.any_eq_false.2 fun g hg => by simp [(h g hg).2]
  simp [ha, hv, hk]

def goldenS (g : Golden) : State := { live.setReg Regs.llEnable 1 with keeper := { live.keeper with golden := [(31, g)] } }

theorem ofLe_zero {bs : Bytes} (h : ∀ b ∈ bs, b = 0) : ofLe bs = 0 := by
  unfold ofLe
  induction bs with
  | nil => rfl
  | cons b t ih =>
    have hb : b = 0 := h b (List.mem_cons_self ..)
    rw [List.foldr_cons, ih fun c hc => h c (List.mem_cons_of_mem _ hc), hb]
    rfl

/-- A memory with nothing listed reads 0. -/
theorem empty_get {m : Memory} (h : m = {}) (a : Nat) : m.get a = blankByte a := by subst h; rfl

theorem no_sequences {s : State} (h : s.mem = {}) (k : Option Nat) : s.activeIn k = 0 := by
  unfold State.activeIn
  rw [List.length_eq_zero_iff, List.filter_eq_nil_iff]
  intro q hq
  have hq := List.mem_range.1 hq
  have hr : ∀ i, i < 64 → regionOf (seqAt q + i) = .kvTables := by
    intro i hi
    unfold regionOf seqAt
    repeat rw [if_neg (by omega)]
    rw [if_pos (by omega)]
  have hz : s.seqEntry q = 0 := by
    refine ofLe_zero fun b hb => ?_
    have h0 := hr 0 (by omega)
    rw [Nat.add_zero] at h0
    simp only [State.peek, h0] at hb
    obtain ⟨i, hi, rfl⟩ := List.mem_map.1 hb
    have hi64 := List.mem_range.1 hi
    have hb := hr i hi64
    simp only [empty_get h, toPhys, hb, blankByte]
    rw [if_neg (by unfold seqAt; omega)]
  simp [State.seqActive, hz, bit]

/-- A debug token for serial number 0 and a challenge of zeros, signed with the private key 1. -/
def token : Bytes :=
  let head := toLe 48 (0x4B444247 + 2 ^ 32 + 3 * 2 ^ 40) ++ beBytes 48 baseG.1 ++ beBytes 48 baseG.2
  let sig := ecdsaSign 1 1 (sha384 head)
  head ++ beBytes 48 sig.1 ++ beBytes 48 sig.2

def fusedS (f : Fuses) : State := { live.setReg Regs.bootSvn 5 with boot := { live.boot with fuses := f } }

def sleepS (p : SleepPhase) : State := { live with power := { live.power with phase := p, comparator := true } }

def shiftS (p : ShiftPhase) : State := { live with shift := { live.shift with phase := p } }

/-- A device that can start a lease. -/
def leaseS : State :=
  { fusedS { lifecycle := 1 } with
    regs := (live.setReg Regs.kpRulesValid 3).regs
    drive := .sealed
    shift := { live.shift with nonceFresh := true } }

/-! ### Words, sums and codes -/

/-- The table gives no row any bits (log 1). -/
theorem test_decode_no_bits : decodeTableWord 32 0x10 = none ∧ decodeTableWord 0 0 = none := ⟨rfl, rfl⟩

/-- A step on an empty queue is one tick of 2 ns (log 3). -/
theorem test_step_idle : (match step State.reset with | .next t => t.now | _ => 0) = 2 := by decide +kernel

/-- The check values that the CRC catalogues give for the nine digits 1 to 9. -/
theorem test_crc32c_digits : crc32c [0x31, 0x32, 0x33, 0x34, 0x35, 0x36, 0x37, 0x38, 0x39] = 0xE3069283 := by decide +kernel

/-- 1 + 2^-24 is a tie and goes to the even 1; one unit more goes up (R170). -/
theorem test_fadd_ties : fadd 0x3F800000 0x33800000 = 0x3F800000 ∧ fadd 0x3F800000 0x33800001 = 0x3F800001 := by decide +kernel

/-- 3 × 5 + 1 is 16, and a fused sum keeps the low product bits (R170). -/
theorem test_ffma : ffma 0x40400000 0x40A00000 0x3F800000 = 0x41800000 ∧
    ffma 0x3F800001 0x3F800001 0xBF800002 = 0x28800000 := by decide +kernel

/-! ### WellFormed refuses an operand one past each bound -/

theorem test_wf_refuses_a : ∀ c ∈ (
    [.dictWrite .bar0 65536 0 [], .dictWrite .bar0 0 256 [],
     .promenadePacket 0 .xPlus [] ({ pkt with payload := List.replicate 257 0 }) 0,
     .promenadePacket 0 .xPlus [] ({ pkt with addr := 2 ^ 40 }) 0, .promenadePacket 0 .xPlus (List.replicate 5 0) pkt 0,
     .promenadePacket 0 .xPlus ([2 ^ 640]) pkt 0, .tapMessage 0 (2 ^ 256), .syncReceived 0 0 65536 false 0 0,
     .followUpReceived 0 0 65536 0, .pdelayReqReceived 0 65536 [] 0, .pdelayReqReceived 0 0 (List.replicate 11 0) 0,
     .pdelayRespReceived 0 65536 false 0 0, .tdSourceWrite .bar0 false (2 ^ 64), .timeActiveDomainWrite .bar0 (2 ^ 64),
     .timeForceSwitch .bar0 (2 ^ 64), .alarmArm .bar0 0 (2 ^ 64), .lqFlush .bar0 0 (2 ^ 64), .ownerWrite .bar0 65536 0,
     .ownerWrite .bar0 0 (2 ^ 64), .csiFrameStart 0 0 0 65536 0, .csiLine 0 0 64 0 false [], .csiLineStart 0 0 0 65536 0,
     .csiLineEnd 0 0 0 65536, .csiFrameEnd 0 0 0 65536 0, .ethTxFlush .bar0 0 (2 ^ 64),
     .imuReadComplete 0 (List.replicate 256 0), .canFrameReceived ⟨2 ^ 29, true, true, true, false, 0, []⟩,
     .canFrameReceived ⟨2 ^ 11, false, true, true, false, 0, []⟩,
     .canFrameReceived ⟨1, false, true, true, false, 15, List.replicate 65 0⟩, .streamEnable .bar0 0 (2 ^ 64)] : List Instr),
    c.wf = false := by
  decide +kernel

theorem test_wf_refuses_b : ∀ c ∈ (
    [.streamFlush .bar0 0 (2 ^ 64), .poseSourceWrite .bar0 (2 ^ 64), .pgSeedWrite .bar0 (2 ^ 64), .sqTailWrite 0 (2 ^ 64),
     .cqHeadWrite 0 (2 ^ 64), .itemCompletion 0 (2 ^ 32), .ringFlush .bar0 0 (2 ^ 64), .ringEnable .bar0 0 (2 ^ 64),
     .cqEnable .bar0 0 (2 ^ 64), .iqFlush .bar0 0 (2 ^ 64), .iqEnable .bar0 0 (2 ^ 64), .chairFormedWrite .bar0 (2 ^ 64),
     .gafferLevelWrite .bar0 0 (2 ^ 64), .srSeedWrite .bar0 0 (2 ^ 64), .startTestComplete 0 (List.replicate 10 0),
     .startTestComplete 0 (2 ^ 32 :: List.replicate 10 0), .goldenSetComplete 0 (List.replicate 10 0),
     .goldenSetComplete 0 (2 ^ 32 :: List.replicate 10 0), .kvpEnable .bar0 0 (2 ^ 64), .kpArmedWrite .bar0 (2 ^ 64),
     .kpForceSafe .bar0 (2 ^ 64), .kpSafeClear .bar0 (2 ^ 64), .lamplighterSlot 0 ([0, 32]),
     .sramPatrolScrub .keeperMem (2 ^ 40), .ddrPatrolScrub (2 ^ 40), .scMarkedWrite .bar0 0 (2 ^ 64), .ddrRetire .bar0 (2 ^ 64),
     .ddrUnretire .bar0 (2 ^ 64), .errLogReadSeq .bar0 (2 ^ 64), .bar2Read (2 ^ 37) 0] : List Instr),
    c.wf = false := by
  decide +kernel

theorem test_wf_refuses_c : ∀ c ∈ (
    [.bar2Read 0 4097, .bar2Write (2 ^ 37) [] false, .bar2Write 0 (List.replicate 4097 0) false, .xlateEntryWrite 16384 0,
     .xlateEntryWrite 0 (2 ^ 64), .hostReadFail 0 (2 ^ 32) 0, .hostReadFail 0 0 (2 ^ 40), .linkUp 0 65,
     .ddrInterleaveWrite .bar0 (2 ^ 64), .directMapWrite (2 ^ 26) [], .directMapWrite 0 (List.replicate 4097 0),
     .directMapRead (2 ^ 26) 0, .directMapRead 0 4097, .channelRead 0 65536 0, .channelRead 0 0 256, .channelWrite 0 65536 0 [],
     .channelWrite 0 0 256 [], .canRead false ⟨2 ^ 29, true, true, true, false, 0, []⟩,
     .canWrite false ⟨2 ^ 29, true, true, true, false, 0, []⟩, .canAbort false ⟨2 ^ 29, true, true, true, false, 0, []⟩,
     .smbSelect 0 false (List.replicate 256 0), .smbWrite false (List.replicate 256 0), .devAttentionClear .bar0 (2 ^ 64),
     .powerCapTick (2 ^ 32), .smbAddressMatch 256, .bootRestart .bar0 (2 ^ 64), .bootCommitSvn .bar0 (2 ^ 64),
     .lcAdvance .bar0 (2 ^ 64), .lcKeyRevoke .bar0 (2 ^ 64), .drSeal .bar0 (2 ^ 64)] : List Instr),
    c.wf = false := by
  decide +kernel

theorem test_wf_refuses_d : ∀ c ∈ (
    [.drUnseal .bar0 (2 ^ 64), .tpinFuncWrite .bar0 0 (2 ^ 64), .obsSelectWrite .bar0 0 (2 ^ 64)] : List Instr),
    c.wf = false := by
  decide +kernel

/-- A list of n bytes, one more than an operand may have. -/
theorem test_wf_refuses_long_data (p : Path) (n : Nat) (h : 131648 < n) : ∀ c ∈ (
    [.dictWrite p 0 0 (List.replicate n 0), .templateWrite p 0 (List.replicate n 0), .rulesWrite p false (List.replicate n 0),
     .channelWrite 0 0 0 (List.replicate n 0), .ifSelectWrite p (List.replicate n 0), .pdRequest p none (List.replicate n 0),
     .pwrSleepEnter p (List.replicate n 0), .lcKeyHashWrite p 0 (List.replicate n 0), .dbgToken p (List.replicate n 0)] : List Instr),
    c.wf = false := by
  have hd : dataOk (List.replicate n 0) = false := by simp [dataOk]; omega
  intro c hc
  simp only [List.mem_cons, List.not_mem_nil, or_false] at hc
  rcases hc with rfl | rfl | rfl | rfl | rfl | rfl | rfl | rfl | rfl <;> simp only [Instr.wf, dictOk, hd, Bool.and_false]

theorem test_wf_refuses_long_frame (n : Nat) (h : 65536 ≤ n) : ∀ c ∈ (
    [.announceReceived 0 (List.replicate n 0), .csiLine 0 0 0 0 false (List.replicate n 0),
     .ethFrameReceived 0 false 0 (List.replicate n 0)] : List Instr),
    c.wf = false := by
  have hd : decide ((List.replicate n (0 : Byte)).length < 65536) = false := by simp; omega
  intro c hc
  simp only [List.mem_cons, List.not_mem_nil, or_false] at hc
  rcases hc with rfl | rfl | rfl <;> simp only [Instr.wf, hd, Bool.and_false]

/-! ### States and operands that meet what the statements ask -/

/-- What StepTakesTheFrontCommand asks before each of its conclusions is met. -/
theorem test_hyps_stepTakesTheFrontCommand :
  (∃ (c : Instr) (rest : List Instr) (s : State), s.pending = c :: rest) ∧
  (∃ (s : State), s.pending = []) :=
  ⟨⟨.powerOn, [.linkDown], { live with pending := [.powerOn, .linkDown] }, by decide +kernel⟩,
   ⟨live, rfl⟩⟩

/-- What StepsKeepSoundness asks before each of its conclusions is met. -/
theorem test_hyps_stepsKeepSoundness :
  (∃ (s : State) (t : State), s.sound = true ∧ step s = .next t) :=
  ⟨live, live.idle, by decide +kernel, rfl⟩

/-- What StepsKeepTheQueueAndTheTime asks before each of its conclusions is met. -/
theorem test_hyps_stepsKeepTheQueueAndTheTime :
  (∃ (c : Instr) (rest : List Instr) (s : State) (t : State), s.pending = c :: rest ∧ step s = .next t) ∧
  (∃ (s : State) (t : State), s.pending = [] ∧ step s = .next t) :=
  ⟨⟨.signalingReceived 0, [], { live with pending := [.signalingReceived 0] }, live, rfl, rfl⟩,
   ⟨live, live.idle, rfl, rfl⟩⟩

/-- What PacketsTravelAlongXThenY asks before each of its conclusions is met. -/
theorem test_hyps_packetsTravelAlongXThenY :
  (∃ (k : Nat) (d : Nat), k < 48 ∧ d < 48 ∧ k % 6 ≠ d % 6) ∧
  (∃ (k : Nat) (d : Nat), k < 48 ∧ d < 48 ∧ k % 6 = d % 6 ∧ k ≠ d) ∧
  (∃ (d : Nat), d < 48) ∧
  (∃ (s : State) (k : Nat) (inp : Nat) (p : Packet), (s.stop k).partial_ inp p.traffic = none) ∧
  (∃ (v : Stop) (o : Nat) (h : Held), h ∈ v.heads o) ∧
  (∃ (k : Nat) (o : Nat) (n : Nat), nextStop k o = some n) :=
  ⟨⟨0, 47, by decide +kernel⟩,
   ⟨5, 47, by decide +kernel⟩,
   ⟨47, by decide +kernel⟩,
   ⟨live, 47, 4, pkt, by decide +kernel⟩,
   ⟨{ held := [⟨0, 4, pkt, 1, 0⟩] }, 4, ⟨0, 4, pkt, 1, 0⟩, by decide +kernel⟩,
   ⟨0, 0, 1, by decide +kernel⟩⟩

/-- What CountersSaturate asks before each of its conclusions is met. -/
theorem test_hyps_countersSaturate :
  (∃ (r : Reg) (q : Reg), q.key ≠ r.key) :=
  ⟨Regs.pwrBrownouts, Regs.kpArmed, by decide +kernel⟩

/-- What ApproximationsGiveTheirSpecialValues asks before each of its conclusions is met. -/
theorem test_hyps_approximationsGiveTheirSpecialValues :
  (∃ (x : Nat), f32 x = .nan) ∧
  (∃ (x : Nat) (m : Nat) (e : Int), ((f32 x = .fin true m e ∧ m ≠ 0) ∨ f32 x = .inf true)) :=
  ⟨⟨0x7FC00000, by decide +kernel⟩,
   ⟨0xBF800000, 0x800000, -23, by decide +kernel⟩⟩

/-- What SealedDriveRegionIsNotWritten asks before each of its conclusions is met. -/
theorem test_hyps_sealedDriveRegionIsNotWritten :
  (∃ (s : State) (a : Nat) (bs : Bytes), s.driveSealed = true ∧ s.driveLo % 2 ^ 28 = 0 ∧ s.driveLo + s.driveLen ≤
    2 ^ 37 ∧ overlaps a bs.length s.driveLo s.driveLen = true) :=
  ⟨{ (live.setReg Regs.drBase 0x10000000).setReg Regs.drSize 1 with drive := .sealed }, 0xFFFFFFF, [1, 2],
    by decide +kernel⟩

/-- What MemoryReadsBackWhatWasWritten asks before each of its conclusions is met. -/
theorem test_hyps_memoryReadsBackWhatWasWritten :
  (∃ (a : Nat) (c : Nat), c ≠ a) ∧
  (∃ (i : Nat) (bs : Bytes) (b : Byte), bs[i]? = some b) ∧
  (∃ (a : Nat) (c : Nat) (bs : Bytes), (c < a ∨ a + bs.length ≤ c)) ∧
  (∃ (m : Memory), m.wf = true) ∧
  (∃ (m : Memory) (lo : Nat) (hi : Nat) (a : Nat), m.wf = true ∧ lo ≤ a ∧ a < hi) ∧
  (∃ (m : Memory), m.wf = true) :=
  ⟨⟨0, 1, by decide +kernel⟩,
   ⟨1, [1, 2], 2, by decide +kernel⟩,
   ⟨2, 1, [1, 2], by decide +kernel⟩,
   ⟨{}, by decide +kernel⟩,
   ⟨{}, 0, 64, 63, by decide +kernel⟩,
   ⟨{}, by decide +kernel⟩⟩

/-- What InterleaveIsOneToOne asks before each of its conclusions is met. -/
theorem test_hyps_interleaveIsOneToOne :
  (∃ (s : State) (a : Nat) (b : Nat), s.subchannel a = s.subchannel b ∧ s.subOffset a = s.subOffset b) :=
  ⟨live, 64, 64, by decide +kernel⟩

/-- What DictionaryWriteStores asks before each of its conclusions is met. -/
theorem test_hyps_dictionaryWriteStores :
  (∃ (p : Path) (index : Nat) (sub : Nat) (data : Bytes) (x : Bytes) (s : State) (o : Obj) (k : Nat), s.offered p
    index sub data = some x ∧ ¬ (index = 0x2101 ∧ sub = 1) ∧ ¬ (index = 0x2B03 ∧ sub = 4) ∧ findObj index sub = some
    (o, k) ∧ o.ty ≠ .domain ∧ hookRows.find? (fun e => decide (e.1 = o.index * 256 + o.sub)) = none ∧ familyHook o
    index sub = storeHook index sub) ∧
  (∃ (p : Path) (index : Nat) (sub : Nat) (data : Bytes) (x : Bytes) (s : State) (t : State), s.offered p index
    sub data = some x ∧ ¬ (index = 0x2101 ∧ sub = 1) ∧ ¬ (index = 0x2B03 ∧ sub = 4) ∧ writeHook index sub s p x =
    .ok t) :=
  ⟨⟨.bar0, 0x2010, 0x0B, toLe 4 100, toLe 4 100, live, ⟨0x2010, 0x0B, 1, .u32, .rw, false, [(100, 1000000)], 1, 0,
    1000, 0⟩, 0, by decide +kernel, by decide +kernel, by decide +kernel, by decide +kernel, by decide +kernel,
    by decide +kernel, rfl⟩,
   ⟨.bar0, 0x2010, 0x0B, toLe 4 1000000, toLe 4 1000000, live,
    { live with regs := kset live.regs (0x2010 * 256 + 0x0B) 1000000 }, by decide +kernel⟩⟩

/-- What OwnersVersionsAndAttention asks before each of its conclusions is met. -/
theorem test_hyps_ownersVersionsAndAttention :
  (∃ (p : Path) (index : Nat) (v : Nat) (x : Bytes) (s : State), ownedIndexes.contains index = true ∧ s.offered p
    index 1 (toLe 1 v) = some x ∧ ofLe x = s.writer p ∧ (s.reg (ownerReg index) = 0 ∨ s.reg (ownerReg index) =
    s.writer p)) ∧
  (∃ (p : Path) (index : Nat) (v : Nat) (x : Bytes) (s : State), ownedIndexes.contains index = true ∧ s.offered p
    index 1 (toLe 1 v) = some x ∧ ofLe x = 0 ∧ s.writer p ≠ 0 ∧ s.reg (ownerReg index) = s.writer p) ∧
  (∃ (index : Nat) (v : Nat) (x : Bytes) (s : State), ownedIndexes.contains index = true ∧ s.offered .keeper index
    1 (toLe 1 v) = some x ∧ ofLe x = 6 ∧ s.reg (ownerReg index) ≠ 0 ∧ s.reg (ownerReg index) ≠ 6) ∧
  (∃ (p : Path) (s : State) (x : Bytes), s.offered p 0x1101 1 (List.replicate 7 1) = some x ∧ s.blob
    Blobs.ifSelect (List.replicate 7 1) = List.replicate 7 1) ∧
  (∃ (p : Path) (v : Nat) (x : Bytes) (s : State), s.offered p 0x2000 5 (toLe 4 v) = some x) :=
  ⟨⟨.bar0, 0x2210, 1, [1], live, by decide +kernel⟩,
   ⟨.bar0, 0x2C21, 0, [0], live.setReg (ownerReg 0x2C21) 1, by decide +kernel⟩,
   ⟨0x2220, 6, [6], live.setReg (ownerReg 0x2220) 1, by decide +kernel⟩,
   ⟨.bar0, live, List.replicate 7 1, by decide +kernel⟩,
   ⟨.bar0, 8, toLe 4 8, live.setReg Regs.devAttention 9, by decide +kernel⟩⟩

/-- What RefusedWriteChangesNothing asks before each of its conclusions is met. -/
theorem test_hyps_refusedWriteChangesNothing :
  (∃ (s : State) (p : Path) (index : Nat) (sub : Nat) (data : Bytes) (h : Hook) (e : Reply), s.served p index =
    true ∧ s.dictTry p index sub data h = .error e) :=
  ⟨live, .bar0, 0x2500, 3, [1], (fun s _ _ => .ok s), ⟨8, 0⟩, by decide +kernel⟩

/-- What AccessCodesGuardObjects asks before each of its conclusions is met. -/
theorem test_hyps_accessCodesGuardObjects :
  (∃ (p : Path) (index : Nat) (sub : Nat) (o : Obj) (k : Nat), findObj index sub = some (o, k) ∧ o.access = .so ∧
    p ≠ .canSafety ∧ p ≠ .keeper) ∧
  (∃ (index : Nat) (sub : Nat) (o : Obj) (k : Nat), findObj index sub = some (o, k) ∧ o.access = .ro) ∧
  (∃ (s : State) (index : Nat) (sub : Nat) (o : Obj) (k : Nat), findObj index sub = some (o, k) ∧ o.leaseLocked =
    true ∧ s.shift.llLocked = true) :=
  ⟨⟨.bar0, 0x2B08, 4, ((findObj 0x2B08 4).get (by decide +kernel)).1, 0, by decide +kernel⟩,
   ⟨0x2900, 6, ((findObj 0x2900 6).get (by decide +kernel)).1, 0, by decide +kernel⟩,
   ⟨{ live with shift := { live.shift with llLocked := true } }, 0x2200, 2, ((findObj 0x2200 2).get
    (by decide +kernel)).1, 0, by decide +kernel⟩⟩

/-- What DirectMapAndChannels asks before each of its conclusions is met. -/
theorem test_hyps_directMapAndChannels :
  (∃ (off : Nat) (n : Nat) (data : Bytes) (s : State), (data.length = 4 ∨ data.length = 8) ∧ off % 16 = 0 ∧ off <
    0x1D00000 ∧ s.barServed = true ∧ slotSize (0x1000 + off / 4096) (off % 4096 / 16) = some n ∧ 0 < n ∧ n ≤
    data.length) ∧
  (∃ (off : Nat) (n : Nat) (size : Nat) (v : Bytes) (s : State), (size = 4 ∨ size = 8) ∧ off % 16 = 0 ∧ off <
    0x1D00000 ∧ s.barServed = true ∧ slotSize (0x1000 + off / 4096) (off % 4096 / 16) = some n ∧ s.dictRead .bar0
    (0x1000 + off / 4096) (off % 4096 / 16) = .ok v ∧ v.length ≤ size) ∧
  (∃ (off : Nat) (data : Bytes) (s : State), s.pdOn 44 = true ∧ ((data.length ≠ 4 ∧ data.length ≠ 8) ∨ off %
    data.length ≠ 0)) ∧
  (∃ (off : Nat) (size : Nat) (s : State), s.pdOn 44 = true ∧ ((size ≠ 4 ∧ size ≠ 8) ∨ off % size ≠ 0)) ∧
  (∃ (s : State), s.pdOn 44 = false) ∧
  (∃ (k : Fin 4) (index : Nat) (sub : Nat) (v : Bytes) (s : State), s.barServed = true ∧ (s.channel k.val).busy =
    false ∧ s.dictRead .bar0 index sub = .ok v) ∧
  (∃ (k : Fin 4) (s : State), s.barServed = true ∧ (s.channel k.val).busy = false) ∧
  (∃ (k : Fin 4) (s : State), s.barServed = true ∧ (s.channel k.val).busy = true) ∧
  (∃ (k : Fin 4) (s : State), s.barServed = true ∧ (s.channel k.val).busy = true) ∧
  (∃ (k : Fin 4) (st : Nat) (d : Nat) (v : Bytes) (s : State), (s.channel k.val).busy = true ∧ (s.channel
    k.val).copy = some (st, d, v)) ∧
  (∃ (k : Fin 4) (t : State) (r : Reply) (s : State), (s.channel k.val).busy = true ∧ (s.channel k.val).copy =
    none ∧ s.commitWrite .bar0 (s.channel k.val).index (s.channel k.val).sub (padTo (s.channel k.val).length
    ((s.channel k.val).data.take (s.channel k.val).length)) = (t, r)) :=
  ⟨⟨0x10100B0, 4, toLe 4 100, live, by decide +kernel⟩,
   ⟨0x10100B0, 4, 4, toLe 4 1000, live, by decide +kernel⟩,
   ⟨2, [0, 0, 0, 0], live, by decide +kernel⟩,
   ⟨4, 8, live, by decide +kernel⟩,
   ⟨live.setPd 44 { state := .off }, by decide +kernel⟩,
   ⟨0, 0x2010, 0x0B, toLe 4 1000, live, by decide +kernel⟩,
   ⟨3, live, by decide +kernel⟩,
   ⟨0, chan, by decide +kernel⟩,
   ⟨0, chan, by decide +kernel⟩,
   ⟨0, 0, 0, [1], live.setChannel 0 { busy := true, copy := some (0, 0, [1]) }, by decide +kernel⟩,
   ⟨0, (chan.commitWrite .bar0 0 0 []).1, (chan.commitWrite .bar0 0 0 []).2, chan, by decide +kernel⟩⟩

/-- What CanAndSmbusTransactions asks before each of its conclusions is met. -/
theorem test_hyps_canAndSmbusTransactions :
  (∃ (f : CanFrame) (v : Bytes) (q : CanRequest) (s : State), q = canRequestOf f.data ∧ s.canSends = true ∧
    s.canPlace f = some 0 ∧ canTaken f = true ∧ q.op = 1 ∧ s.paths.serving = true ∧ q.seg = 0 ∧ s.dictRead .can
    q.index q.sub = .ok v) ∧
  (∃ (f : CanFrame) (q : CanRequest) (o : Obj) (k : Nat) (s : State), q = canRequestOf f.data ∧ s.canSends = true
    ∧ s.canPlace f = some 0 ∧ canTaken f = true ∧ q.op = 2 ∧ s.paths.serving = true ∧ q.seg = 0 ∧ s.dictAccess .can
    q.index q.sub = .ok (o, k) ∧ o.badLength q.total = false ∧ q.total ≤ 44) ∧
  (∃ (f : CanFrame) (q : CanRequest) (s : State), q = canRequestOf f.data ∧ s.canSends = true ∧ s.canPlace f =
    some 0 ∧ canTaken f = true ∧ q.op = 3 ∧ s.paths.serving = true) ∧
  (∃ (f : CanFrame) (s : State), s.canSends = true ∧ (s.canPlace f).isSome = true ∧ canTaken f = false) ∧
  (∃ (f : CanFrame) (s : State), s.canPlace f = none) ∧
  (∃ (f : CanFrame) (q : CanRequest) (s : State), q = canRequestOf f.data ∧ s.canSends = true ∧ s.canPlace f =
    some 2 ∧ canTaken f = true ∧ ofLe (slice f.data 60 4) ≠ crc32c (toLe 4 (s.reg Regs.dictCanDataId) ++ f.data.take
    60)) ∧
  (∃ (b : Bool) (s : State), s.canLive (s.canChannel b) = false) ∧
  (∃ (b : Bool) (s : State), s.canLive (s.canChannel b) = true) ∧
  (∃ (data : Bytes) (s : State), s.pins.io33 = true ∧ s.paths.serving = true ∧ data.length = 7 ∧ s.dictReach
    .smbus (bits (ofLe data) 15 0) (bits (ofLe data) 23 16) = .ok ()) ∧
  (∃ (index : Nat) (sub : Nat) (v : Bytes) (s : State), s.pins.io33 = true ∧ s.paths.serving = true ∧
    s.paths.smbus.selected = some (index, sub) ∧ s.dictReach .smbus index sub = .ok () ∧ s.paths.smbus.offset = 0 ∧
    v = s.readValue .smbus index sub ∧ v.length ≤ 240) ∧
  (∃ (data : Bytes) (s : State), s.pins.io33 = true ∧ s.paths.serving = true ∧ 0 < data.length ∧ data.length ≤ 240
    ∧ s.paths.smbus.offset = s.paths.smbus.staged.length) ∧
  (∃ (data : Bytes) (s : State), s.pins.io33 = true ∧ s.paths.serving = true ∧ 0 < data.length ∧ data.length ≤ 240
    ∧ s.paths.smbus.offset ≠ s.paths.smbus.staged.length) ∧
  (∃ (s : State), s.pins.io33 = true ∧ s.paths.serving = true ∧ (s.paths.smbus.broken = true ∨
    s.paths.smbus.selected = none)) ∧
  (∃ (code : Fin 256) (s : State), s.pins.io33 = true ∧ (code.val < 0x10 ∨ 0x15 < code.val)) ∧
  (∃ (index : Nat) (sub : Nat) (t : State) (r : Reply) (s : State), s.pins.io33 = true ∧ s.paths.serving = true ∧
    s.paths.smbus.broken = false ∧ s.paths.smbus.selected = some (index, sub) ∧ s.commitWrite .smbus index sub
    s.paths.smbus.staged = (t, r)) ∧
  (∃ (s : State), s.pins.io33 = true ∧ s.paths.serving = true) ∧
  (∃ (s : State), s.pins.io33 = true ∧ s.paths.serving = true) :=
  ⟨⟨canF 0 (canBytes 1 0x2010 0x0B 0), toLe 4 1000, canRequestOf (canBytes 1 0x2010 0x0B 0), live, rfl,
    by decide +kernel⟩,
   ⟨canF 0 (canBytes 2 0x2010 0x0B 4), canRequestOf (canBytes 2 0x2010 0x0B 4), ⟨0x2010, 0x0B, 1, .u32, .rw, false,
    [(100, 1000000)], 1, 0, 1000, 0⟩, 0, live, rfl, by decide +kernel⟩,
   ⟨canF 0 (canBytes 3 0 0 0), canRequestOf (canBytes 3 0 0 0), live, rfl, by decide +kernel⟩,
   ⟨{ canF 0 [] with brs := false }, live, by decide +kernel⟩,
   ⟨{ canF 0 [] with ide := true }, live, by decide +kernel⟩,
   ⟨canF 2 (canBytes 1 0 0 0), canRequestOf (canBytes 1 0 0 0), live, rfl, by decide +kernel⟩,
   ⟨false, live, by decide +kernel⟩,
   ⟨false, live.setCan false { latch := some ⟨1, 0, 0, [], live.now⟩ }, by decide +kernel⟩,
   ⟨toLe 7 0x0B2010, live, by decide +kernel⟩,
   ⟨0x2010, 0x0B, toLe 4 1000, live.setSmbus { selected := some (0x2010, 0x0B) }, by decide +kernel⟩,
   ⟨[1], live, by decide +kernel⟩,
   ⟨[1], live.setSmbus { offset := 1 }, by decide +kernel⟩,
   ⟨live, by decide +kernel⟩,
   ⟨0x16, live, by decide +kernel⟩,
   ⟨0x2010, 0x0B, (smb.commitWrite .smbus 0x2010 0x0B []).1, (smb.commitWrite .smbus 0x2010 0x0B []).2, smb,
    by decide +kernel⟩,
   ⟨live, by decide +kernel⟩,
   ⟨live, by decide +kernel⟩⟩

/-- What SundialWrites asks before each of its conclusions is met. -/
theorem test_hyps_sundialWrites :
  (∃ (p : Path) (b : Bool) (v : Nat) (x : Bytes) (s : State), s.offered p (0x2201 + domIx b) 1 (toLe 1 v) = some x
    ∧ ((ofLe x = 1 → s.reg Regs.ppsInOwner = s.writer p))) ∧
  (∃ (p : Path) (v : Nat) (x : Bytes) (s : State), s.offered p 0x2200 2 (toLe 1 v) = some x ∧ (s.dom (decide (ofLe
    x = 1))).servo = .locked ∧ s.sundial.residual = 0 ∧ s.sundial.active ≠ decide (ofLe x = 1) ∧ s.switchNear
    (decide (ofLe x = 1)) = true) ∧
  (∃ (p : Path) (v : Nat) (x : Bytes) (s : State), s.offered p 0x2200 6 (toLe 1 v) = some x ∧ (s.dom (decide (ofLe
    x = 1))).servo ≠ .freeRun) ∧
  (∃ (p : Path) (a : Fin 8) (v : Nat) (x : Bytes) (s : State) (t : State), s.offered p (0x2210 + a.val) 6 (toLe 1
    v) = some x ∧ ofLe x = 1 ∧ s.reg (Regs.alarmOwner a.val) = s.writer p ∧ s.reg (Regs.alarmOwner a.val) ≠ 0 ∧
    s.reg (Regs.alarmArm a.val) = 0 ∧ t =
    { s.setReg (Regs.alarmArm a.val) 1 with sundial := { s.sundial with alarmNext := kset s.sundial.alarmNext a.val 0 } }) ∧
  (∃ (p : Path) (q : Fin 16) (v : Nat) (x : Bytes) (s : State), s.offered p (0x2220 + q.val) 7 (toLe 1 v) = some x
    ∧ ofLe x = 1 ∧ s.reg (Regs.lqOwner q.val) = s.writer p ∧ s.reg (Regs.lqOwner q.val) ≠ 0) ∧
  (∃ (p : Path) (port : Fin 4) (v : Nat) (x : Bytes) (s : State), s.offered p (0x2338 + port.val) 0x0D (toLe 1 v)
    = some x ∧ ofLe x = 1) :=
  ⟨⟨.bar0, true, 2, [2], live, by decide +kernel⟩,
   ⟨.bar0, 1, [1], (live.setDom true { servo := .locked }).setReg Regs.timeSwitchLimit 1, by decide +kernel⟩,
   ⟨.canSafety, 1, [1], live.setDom true { servo := .holdover }, by decide +kernel⟩,
   ⟨.bar0, 7, 1, [1], live.setReg (Regs.alarmOwner 7) 1,
    { (live.setReg (Regs.alarmOwner 7) 1).setReg (Regs.alarmArm 7) 1 with sundial := { live.sundial with alarmNext := kset live.sundial.alarmNext 7 0 } },
    by decide +kernel, by decide +kernel, by decide +kernel, by decide +kernel, by decide +kernel, rfl⟩,
   ⟨.bar0, 15, 1, [1], live.setReg (Regs.lqOwner 15) 1, by decide +kernel⟩,
   ⟨.bar0, 3, 1, [1], live, by decide +kernel⟩⟩

/-- What BroadcastHoldoverAndSlew asks before each of its conclusions is met. -/
theorem test_hyps_broadcastHoldoverAndSlew :
  (∃ (s : State), s.pdOn 1 = true ∧ s.sundial.running = true ∧ ((∀ l, s.sundial.launchedAt = some l → l + 128 ≤
    s.now))) ∧
  (∃ (tap : Fin 24) (errors : Nat) (launch : Nat) (msg : Nat) (s : State), s.sundial.launchedAt = some launch ∧
    s.tapHears tap.val launch = true ∧ msg = s.sundial.message ^^^ errors ∧ crc16 (toLe 22 msg) = bits msg 191 176 ∧
    ((∀ q, (s.tap tap.val).seq = some q → msg % 256 = (q + 1) % 256))) ∧
  (∃ (tap : Fin 24) (errors : Nat) (launch : Nat) (s : State), s.sundial.launchedAt = some launch ∧ s.tapHears
    tap.val launch = true ∧ crc16 (toLe 22 (s.sundial.message ^^^ errors)) ≠ bits (s.sundial.message ^^^ errors) 191
    176) ∧
  (∃ (tap : Fin 24) (s : State), s.pdOn (tapDomain tap.val) = true ∧ s.tapQuiet tap.val = true ∧ (s.tap
    tap.val).silent = false) ∧
  (∃ (s : State), s.pdOn 1 = true ∧ ((∀ l, s.sundial.delayLines = some l → l + 1000000 ≤ s.now))) ∧
  (∃ (b : Bool) (s : State), ((∀ t, (s.dom b).lastSync = some t → t + s.receiptTimeout b ≤ s.now)) ∧ ((s.dom
    b).servo = .locked ∨ (s.dom b).servo = .acquiring)) ∧
  (∃ (s : State), s.sundial.residual.natAbs ≤ s.slewStep) ∧
  (∃ (t : Nat) (s : State), s.sundial.steppedAt = some t ∧ t + 1000000000 ≤ s.now) :=
  ⟨⟨live, by decide +kernel, by decide +kernel, none_all (by decide +kernel)⟩,
   ⟨0, 0, 3999000000, crc16 (toLe 22 0) * 2 ^ 176,
    { live with sundial := { live.sundial with launchedAt := some 3999000000, message := crc16 (toLe 22 0) * 2 ^ 176 } },
    by decide +kernel, by decide +kernel, by decide +kernel, by decide +kernel, none_all (by decide +kernel)⟩,
   ⟨23, 1, 3999000000,
    { live with sundial := { live.sundial with launchedAt := some 3999000000, message := crc16 (toLe 22 0) * 2 ^ 176 } },
    by decide +kernel⟩,
   ⟨23,
    { live with sundial := { live.sundial with launchedAt := some 3999000000, taps := [(23, { takenAt := some 0 })] } },
    by decide +kernel⟩,
   ⟨live, by decide +kernel, none_all (by decide +kernel)⟩,
   ⟨false, live.setDom false { servo := .acquiring }, none_all (by decide +kernel), by decide +kernel⟩,
   ⟨{ live with sundial := { live.sundial with residual := -5 } }, by decide +kernel⟩,
   ⟨1000000000, { live with sundial := { live.sundial with steppedAt := some 1000000000 } }, by decide +kernel⟩⟩

/-- What SyncAndPathDelay asks before each of its conclusions is met. -/
theorem test_hyps_syncAndPathDelay :
  (∃ (n : Fin 256) (b : Bool) (port : Fin 4) (s : State), s.domainOf n.val = some b ∧ s.hearsSync b port.val =
    true) ∧
  (∃ (n : Fin 256) (b : Bool) (port : Fin 4) (dl : Int) (s : State), s.domainOf n.val = some b ∧ s.hearsSync b
    port.val = true ∧ (s.gptpLink port.val).delay = some dl) ∧
  (∃ (n : Fin 256) (s : State), ((∀ b, s.reg (Regs.tdGptpDomain (domIx b)) ≠ n.val))) ∧
  (∃ (n : Fin 256) (b : Bool) (port : Fin 4) (seq : Nat) (dl : Int) (stamp : Int) (s : State), s.domainOf n.val =
    some b ∧ s.hearsSync b port.val = true ∧ (s.dom b).pendingSync = some
    { port := port.val, seq := seq, stamp := stamp } ∧ (s.gptpLink port.val).delay = some dl) ∧
  (∃ (port : Fin 4) (s : State), s.portEnabled port.val = true) ∧
  (∃ (port : Fin 4) (s : State), s.portEnabled port.val = true ∧ ((∀ l, (s.gptpLink port.val).askedAt = some l → l
    + s.pdelayInterval ≤ s.now))) ∧
  (∃ (f : LaunchFrame), f.kind = .pdelayReq) ∧
  (∃ (port : Fin 4) (fine : Fin 16) (t2 : Nat) (s : State), s.portEnabled port.val = true ∧ t2 = t128Time
    (s.stampAt (tapEth port.val) fine.val (-(s.reg (Regs.ethRxLat port.val) : Int)))) ∧
  (∃ (port : Fin 4) (t1 : Int) (s : State), s.portEnabled port.val = true ∧ (s.gptpLink port.val).sentAt = some
    t1) ∧
  (∃ (port : Fin 4) (t1 : Int) (t2 : Int) (t4 : Int) (s : State), s.portEnabled port.val = true ∧ (s.gptpLink
    port.val).sentAt = some t1 ∧ (s.gptpLink port.val).t2 = some t2 ∧ (s.gptpLink port.val).t4 = some t4) :=
  ⟨⟨1, true, 1, eth, by decide +kernel⟩,
   ⟨0, false, 0, -3, eth.setLink 0 { delay := some (-3) }, by decide +kernel⟩,
   ⟨2, live, by decide⟩,
   ⟨0, false, 0, 9, 3, 50, (eth.setLink 0 { delay := some 3 }).setDom false { pendingSync := some ⟨0, 9, 50⟩ },
    by decide +kernel⟩,
   ⟨3, eth, by decide +kernel⟩,
   ⟨0, eth, by decide +kernel, none_all (by decide +kernel)⟩,
   ⟨⟨0, false, [], .pdelayReq⟩, by decide +kernel⟩,
   ⟨3, 0, _, eth, by decide +kernel, rfl⟩,
   ⟨0, 5, eth.setLink 0 { sentAt := some 5 }, by decide +kernel⟩,
   ⟨3, 5, 6, 9, eth.setLink 3 { sentAt := some 5, t2 := some 6, t4 := some 9 }, by decide +kernel⟩⟩

/-- What AlarmsTriggersPpsAndLaunches asks before each of its conclusions is met. -/
theorem test_hyps_alarmsTriggersPpsAndLaunches :
  (∃ (a : Fin 8) (s : State), s.pdOn 1 = true ∧ s.sundial.running = true ∧ s.flag (Regs.alarmArm a.val) = true ∧
    s.alarmTime a.val ≤ s.outTime >>> 24) ∧
  (∃ (edge : Nat) (ns : Nat) (s : State), s.edgeInTick edge = some ns) ∧
  (∃ (k : Fin 4) (ns : Nat) (s : State), s.pdOn 1 = true ∧ s.sundial.running = true ∧ s.flag (Regs.trigEnable
    k.val) = true ∧ s.trigLeft k.val = true ∧ s.edgeInTick (s.trigEdge k.val) = some ns ∧ s.trigActive k.val =
    false) ∧
  (∃ (k : Fin 4) (b : Nat) (e : Nat) (s : State), kfind s.sundial.trigPulse k.val = some (b, e) ∧ e < s.now + 2 ∧
    kfind s.pins.tpinNext k.val = none) ∧
  (∃ (k : Fin 2) (ns : Nat) (s : State), s.pdOn 1 = true ∧ s.sundial.running = true ∧ s.flag (Regs.ppsOutEnable
    k.val) = true ∧ kget s.sundial.ppsSecond k.val 0 < s.nearSecond ∧ s.edgeInTick (s.nearSecond * 1000000000 *
    65536) = some ns ∧ (s.reg (Regs.ppsOutGating k.val) ≠ 1 ∨ s.activeDom.servo = .locked)) ∧
  (∃ (s : State), s.edgeInTick (s.nearSecond * 1000000000 * 65536) = none) ∧
  (∃ (k : Fin 2) (e : Nat) (s : State), kfind s.sundial.ppsPulse k.val = some e ∧ e < s.now + 2) ∧
  (∃ (rising : Bool) (s : State), s.pdOn 1 = true ∧ s.sundial.running = true ∧ rising ≠ s.flag Regs.ppsInPolarity
    ∧ ((∀ t, s.sundial.ppsAccepted = some t → t + 999000000 ≤ s.now ∧ s.now ≤ t + 1001000000)) ∧ s.reg
    (Regs.tdSource 0) ≠ 1 ∧ s.reg (Regs.tdSource 1) ≠ 1) ∧
  (∃ (rising : Bool) (s : State), rising = s.flag Regs.ppsInPolarity) ∧
  (∃ (q : Fin 16) (f : LaunchFrame) (rest : List LaunchFrame) (s : State) (t : State), s.launchQ q.val = f :: rest
    ∧ s.timeCome (q.val / 4) f.time = true ∧ s.launchStamp (q.val / 4) - f.time ≤ s.reg (Regs.lqLateLimit q.val) *
    65536 ∧ s.macFree (q.val / 4) = true ∧ ((∀ i, i < q.val % 4 → s.launchDue (4 * (q.val / 4) + i) = false)) ∧ t =
    ((s.setLaunchQ q.val rest).startFrame (q.val / 4) f).bump (Regs.lqSent q.val)) ∧
  (∃ (q : Fin 16) (f : LaunchFrame) (rest : List LaunchFrame) (s : State), s.launchQ q.val = f :: rest ∧ f.time +
    s.reg (Regs.lqLateLimit q.val) * 65536 < s.launchStamp (q.val / 4)) ∧
  (∃ (q : Fin 16) (f : LaunchFrame) (rest : List LaunchFrame) (s : State), s.launchQ q.val = f :: rest ∧
    s.timeCome (q.val / 4) f.time = false) :=
  ⟨⟨7, live.setReg (Regs.alarmArm 7) 1, by decide +kernel⟩,
   ⟨0, 0, live, by decide +kernel⟩,
   ⟨3, 0, live.setReg (Regs.trigEnable 3) 1, by decide +kernel⟩,
   ⟨3, 0, 4000000001, { live with sundial := { live.sundial with trigPulse := [(3, 0, 4000000001)] } },
    by decide +kernel⟩,
   ⟨1, 0, (live.setReg (Regs.ppsOutEnable 1) 1).setDom false { counter := 10 ^ 9 * 2 ^ 40, servo := .locked },
    by decide +kernel⟩,
   ⟨live.setDom false { counter := 2 ^ 68 }, by decide +kernel⟩,
   ⟨1, 7, { live with sundial := { live.sundial with ppsPulse := [(1, 7)] } }, by decide +kernel⟩,
   ⟨true, (live.setReg (Regs.tdSource 0) 2).setReg (Regs.tdSource 1) 2, by decide +kernel, by decide +kernel,
    by decide +kernel, none_all (by decide +kernel), by decide +kernel⟩,
   ⟨true, live.setReg Regs.ppsInPolarity 1, by decide +kernel⟩,
   ⟨15, ⟨0, true, [1], .plain⟩, [], eth.setLaunchQ 15 [⟨0, true, [1], .plain⟩], _, by decide +kernel,
    by decide +kernel, by decide +kernel, by decide +kernel, by decide +kernel, rfl⟩,
   ⟨0, ⟨0, true, [1], .plain⟩, [], (live.setLaunchQ 0 [⟨0, true, [1], .plain⟩]).setDom false
    { counter := 10 ^ 9 * 2 ^ 40 }, by decide +kernel⟩,
   ⟨0, ⟨2 ^ 64, true, [1], .plain⟩, [], live.setLaunchQ 0 [⟨2 ^ 64, true, [1], .plain⟩], by decide +kernel⟩⟩

/-- What TimeAcrossSleep asks before each of its conclusions is met. -/
theorem test_hyps_timeAcrossSleep :
  (∃ (t0 : Nat) (n0 : Nat) (span : Nat) (measured : Int) (s : State), s.pdOn 1 = true ∧ s.sundial.running = true ∧
    s.activeDom.servo = .locked ∧ s.sundial.window = some (t0, n0) ∧ t0 + 64000000000 * 2 ^ 40 ≤ s.outTime ∧ span =
    s.outTime - t0 ∧ measured = roundDivEven (((s.sleepCount - n0 : Nat) : Int) * (1000000000 * 2 ^ 40) * 1000000000
    - 32768 * span * 1000000000) (32768 * span)) ∧
  (∃ (s : State), s.activeDom.servo ≠ .locked) ∧
  (∃ (s : State), s.sundial.running = true ∧ (s.pd 1).target = some .off ∧ (s.pd 1).begun = true) ∧
  (∃ (v : SavedTime) (s : State), s.sundial.saved = some v ∧ s.sundial.running = false ∧ s.pdOn 1 = true) :=
  ⟨⟨0, 0, _, _,
    { live.setDom false { counter := 64000000000 * 2 ^ 40, servo := .locked } with sundial := { (live.setDom false { counter := 64000000000 * 2 ^ 40, servo := .locked }).sundial with window := some (0, 0) } },
    by decide +kernel, by decide +kernel, by decide +kernel, by decide +kernel, by decide +kernel, rfl, rfl⟩,
   ⟨live, by decide +kernel⟩,
   ⟨live.setPd 1 { state := .on, target := some .off, begun := true }, by decide +kernel⟩,
   ⟨⟨0, 0, none, .locked, 0, false⟩,
    { live with sundial := { live.sundial with running := false, saved := some ⟨0, 0, none, .locked, 0, false⟩ } },
    by decide +kernel⟩⟩

/-- What LodgeAndPergolaWrites asks before each of its conclusions is met. -/
theorem test_hyps_lodgeAndPergolaWrites :
  (∃ (p : Path) (q : Fin 48) (v : Nat) (x : Bytes) (s : State), s.offered p (0x2300 + q.val) 1 (toLe 1 v) = some x
    ∧ ofLe x = 1 ∧ (s.pergolaStream q.val).flag (ingestEnable q.val) = false ∧ (s.pergolaStream q.val).enableCheck
    q.val = none) ∧
  (∃ (p : Path) (q : Fin 48) (v : Nat) (x : Bytes) (s : State) (t : State), s.offered p (0x2300 + q.val) 1 (toLe 1
    v) = some x ∧ ofLe x = 0 ∧ t = (s.pergolaStream q.val).flushQueue q.val) ∧
  (∃ (p : Path) (q : Fin 48) (v : Nat) (x : Bytes) (s : State), s.offered p (0x2300 + q.val) 6 (toLe 1 v) = some x
    ∧ ofLe x = 1) ∧
  (∃ (p : Path) (t : Fin 8) (data : Bytes) (x : Bytes) (s : State), s.offered p (0x2340 + t.val) 1 data = some x ∧
    (List.range 12).any (fun k => s.flag (Regs.streamEnable (24 + k)) && decide (s.reg (Regs.scnTemplate k) =
    t.val)) = false) ∧
  (∃ (p : Path) (v : Nat) (x : Bytes) (s : State), s.offered p 0x2403 1 (toLe 1 v) = some x ∧ s.pergolaUser 0x2403
    1 = none) ∧
  (∃ (p : Path) (v : Nat) (x : Bytes) (s : State), s.offered p 0x2400 4 (toLe 8 v) = some x ∧ s.pergolaUser 0x2400
    4 = none) :=
  ⟨⟨.bar0, 47, 1, [1], queue 47, by decide +kernel⟩,
   ⟨.bar0, 24, 0, [0], live, _, by decide +kernel, by decide +kernel, rfl⟩,
   ⟨.bar0, 0, 1, [1], live, by decide +kernel⟩,
   ⟨.bar0, 7, List.replicate 640 0, List.replicate 640 0, live, by decide +kernel⟩,
   ⟨.bar0, 1, [1], live, by decide +kernel⟩,
   ⟨.bar0, 5, toLe 8 5, live, by decide +kernel⟩⟩

/-- What CameraFramesAreCut asks before each of its conclusions is met. -/
theorem test_hyps_cameraFramesAreCut :
  (∃ (port : Fin 6) (vc : Fin 16) (e : Fin 3) (s : State) (t : State), s.pdOn 40 = true ∧ e.val ≠ 2 ∧ t = s.bumpIf
    (decide (e.val = 1)) (Regs.csiEccCorrected port.val) ∧ t.cameras port.val vc.val ≠ []) ∧
  (∃ (port : Fin 6) (vc : Fin 16) (dt : Nat) (q : Nat) (e : Fin 3) (good : Bool) (f : Frame) (s : State) (t :
    State) (u : State), s.pdOn 40 = true ∧ e.val ≠ 2 ∧ t = s.bumpIf (decide (e.val = 1)) (Regs.csiEccCorrected
    port.val) ∧ t.camera port.val vc.val dt = some q ∧ u = (t.bumpIf (!good) (Regs.csiCrcErrors
    port.val)).fifoDrains q ∧ (s.ingest q).frame = some f) ∧
  (∃ (port : Fin 6) (vc : Fin 16) (e : Fin 3) (s : State) (t : State), s.pdOn 40 = true ∧ e.val ≠ 2 ∧ t = s.bumpIf
    (decide (e.val = 1)) (Regs.csiEccCorrected port.val) ∧ t.cameras port.val vc.val ≠ []) ∧
  (∃ (port : Fin 6) (vc : Fin 16) (e : Fin 3) (s : State) (t : State), s.pdOn 40 = true ∧ e.val ≠ 2 ∧ t = s.bumpIf
    (decide (e.val = 1)) (Regs.csiEccCorrected port.val) ∧ t.cameras port.val vc.val ≠ []) ∧
  (∃ (port : Fin 6) (vc : Fin 16) (e : Fin 3) (s : State) (t : State), s.pdOn 40 = true ∧ e.val ≠ 2 ∧ t = s.bumpIf
    (decide (e.val = 1)) (Regs.csiEccCorrected port.val) ∧ (t.cameras port.val vc.val).filter (fun q => (t.ingest
    q).frame.isSome) ≠ []) ∧
  (∃ (q : Fin 24) (f : Frame) (s : State), (s.ingest q.val).frame = some f ∧ f.lastAt + 100000000 ≤ s.now) ∧
  (∃ (e : Fin 3) (s : State), s.pdOn 40 = true ∧ e.val ≠ 2) ∧
  (∃ (port : Fin 6) (vc : Fin 16) (c : Instr) (s : State), s.pdOn 40 = true ∧ ((∃ n fine, c = .csiFrameStart port
    vc 2 n fine ∨ c = .csiFrameEnd port vc 2 n fine ∨ c = .csiLineStart port vc 2 n fine) ∨ (∃ n, c = .csiLineEnd
    port vc 2 n) ∨ (∃ dt good data, c = .csiLine port vc dt 2 good data) ∨ c = .csiGenericShort port 2)) ∧
  (∃ (port : Fin 6) (vc : Fin 16) (dt : Nat) (s : State), s.pdOn 40 = true ∧ s.camera port.val vc.val dt = none) ∧
  (∃ (port : Fin 6) (s : State), s.pdOn 40 = true ∧ 1500 < s.reg (Regs.csiRate port.val) ∧ port.val ∉
    s.lodge.deskewed) :=
  ⟨⟨5, 15, 1, cam 20 15, _, by decide +kernel, by decide +kernel, rfl, by decide +kernel⟩,
   ⟨0, 0, 0x2A, 0, 1, true, { slot := 0, time := 0, num := 0, lastAt := 0 }, (cam 0 0).setIngest 0
    { live := true, frame := some { slot := 0, time := 0, num := 0, lastAt := 0 } }, _, _, by decide +kernel,
    by decide +kernel, rfl, by decide +kernel, rfl, by decide +kernel⟩,
   ⟨5, 15, 0, cam 20 15, _, by decide +kernel, by decide +kernel, rfl, by decide +kernel⟩,
   ⟨5, 15, 1, cam 20 15, _, by decide +kernel, by decide +kernel, rfl, by decide +kernel⟩,
   ⟨0, 0, 1, (cam 0 0).setIngest 0 { live := true, frame := some { slot := 0, time := 0, num := 0, lastAt := 0 } },
    _, by decide +kernel, by decide +kernel, rfl, by decide +kernel⟩,
   ⟨23, { slot := 0, time := 0, num := 0, lastAt := 0 }, live.setIngest 23
    { frame := some { slot := 0, time := 0, num := 0, lastAt := 0 } }, by decide +kernel⟩,
   ⟨1, live, by decide +kernel⟩,
   ⟨5, 15, .csiGenericShort 5 2, live, by decide +kernel, .inr (.inr (.inr rfl))⟩,
   ⟨5, 15, 0, live, by decide +kernel⟩,
   ⟨5, live.setReg (Regs.csiRate 5) 1501, by decide +kernel⟩⟩

/-- What ItemsAndEthernetFrames asks before each of its conclusions is met. -/
theorem test_hyps_itemsAndEthernetFrames :
  (∃ (q : Fin 52) (s : State), (s.ingest q.val).done ≠ []) ∧
  (∃ (q : Nat) (it : IngestItem) (rest : List IngestItem) (s : State), (s.ingest q).done = it :: rest) ∧
  (∃ (port : Fin 4) (frame : Bytes) (s : State), s.pdOn 40 = true ∧ s.flag (Regs.ethLinkUp port.val) = true ∧ 60 ≤
    frame.length ∧ frame.length ≤ 9212) ∧
  (∃ (port : Fin 4) (frame : Bytes) (q : Nat) (u : Udp) (s : State), s.pdOn 40 = true ∧ s.flag (Regs.ethLinkUp
    port.val) = true ∧ 60 ≤ frame.length ∧ frame.length ≤ 9212 ∧ (etherOf frame).1 ≠ 0x88F7 ∧ (etherOf frame).1 ≠
    0x8808 ∧ carried frame ≠ .fragment ∧ s.scanStream port.val frame = some (q, u) ∧ u.good = true ∧ s.ingestLive q
    = true) ∧
  (∃ (port : Fin 4) (frame : Bytes) (s : State), s.pdOn 40 = true ∧ s.flag (Regs.ethLinkUp port.val) = true ∧ 60 ≤
    frame.length ∧ frame.length ≤ 9212 ∧ (etherOf frame).1 ≠ 0x88F7 ∧ (etherOf frame).1 ≠ 0x8808 ∧ carried frame ≠
    .fragment ∧ s.scanStream port.val frame = none) ∧
  (∃ (port : Fin 4) (rate : Fin 5) (s : State), rate.val ≠ 0 ∧ s.pdOn 40 = true ∧ (s.reg (Regs.ethMode port.val) ≠
    1 ∨ rate.val = 1)) ∧
  (∃ (port : Fin 4) (w : WireFrame) (s : State), kfind s.sundial.onWire port.val = some w ∧ w.endsAt ≤ s.now) ∧
  (∃ (p : Nat) (f : LaunchFrame) (rest : List LaunchFrame) (s : State), kget s.sundial.gptpq p [] = [] ∧
    s.txFrames (52 + p) = f :: rest ∧ s.macFree p = true ∧ s.launchBefore p f.data.length = false) ∧
  (∃ (p : Nat) (s : State), s.macFree p = false) :=
  ⟨⟨51, live.setIngest 51 { done := [⟨0, 1, 2⟩] }, by decide +kernel⟩,
   ⟨51, ⟨0, 1, 2⟩, [], live.setIngest 51 { done := [⟨0, 1, 2⟩] }, by decide +kernel⟩,
   ⟨3, List.replicate 9212 0, eth, by decide +kernel⟩,
   ⟨0, udpFrame, 24, ⟨7, List.replicate 18 1, true⟩, scanner, by decide +kernel⟩,
   ⟨3, udpFrame, eth, by decide +kernel⟩,
   ⟨3, 4, live, by decide +kernel⟩,
   ⟨3, ⟨7, 0, ⟨0, true, [1], .plain⟩⟩,
    { eth with sundial := { eth.sundial with onWire := [(3, ⟨7, 0, ⟨0, true, [1], .plain⟩⟩)] } }, by decide +kernel⟩,
   ⟨3, ⟨0, true, [1], .plain⟩, [], eth.setTxFrames 55 [⟨0, true, [1], .plain⟩], by decide +kernel⟩,
   ⟨0, live, by decide +kernel⟩⟩

/-- What InertialAndCanItems asks before each of its conclusions is met. -/
theorem test_hyps_inertialAndCanItems :
  (∃ (port : Fin 6) (rising : Bool) (k : Option Nat) (s : State) (s1 : State), s.pdOn 40 = true ∧ rising ≠ s.flag
    (Regs.imuDrdyPol port.val) ∧ kfind s.lodge.reading port.val = none ∧ s.ingestLive (36 + port.val) = true ∧
    s.startItem (36 + port.val) = (s1, k)) ∧
  (∃ (port : Fin 6) (rising : Bool) (x : Nat) (s : State), s.pdOn 40 = true ∧ rising ≠ s.flag (Regs.imuDrdyPol
    port.val) ∧ kfind s.lodge.reading port.val = some x) ∧
  (∃ (port : Fin 6) (rising : Bool) (s : State), rising = s.flag (Regs.imuDrdyPol port.val)) ∧
  (∃ (port : Fin 6) (stamp : Nat) (k : Nat) (s : State), kfind s.lodge.reading port.val = some stamp ∧ (s.ingest
    (36 + port.val)).taken = some k) ∧
  (∃ (port : Fin 6) (stamp : Nat) (s : State), kfind s.lodge.reading port.val = some stamp ∧ (s.ingest (36 +
    port.val)).taken = none) ∧
  (∃ (f : CanFrame) (s : State), s.pdOn 40 = true ∧ s.pins.io33 = true ∧ s.lodge.busOff = false ∧ f.remote = false
    ∧ s.canStream f = none) ∧
  (∃ (f : CanFrame) (j : Nat) (s : State), s.pdOn 40 = true ∧ s.pins.io33 = true ∧ s.lodge.busOff = false ∧
    f.remote = false ∧ s.canStream f = some j ∧ s.ingestLive (42 + j) = true) ∧
  (∃ (s : State), s.pins.io33 = false) ∧
  (∃ (s : State), s.pdOn 40 = true ∧ s.pins.io33 = true) ∧
  (∃ (s : State), s.pdOn 40 = true) :=
  ⟨⟨5, true, _, imu 41, _, by decide +kernel, by decide +kernel, by decide +kernel, by decide +kernel, pair_self⟩,
   ⟨5, true, 9, { imu 41 with lodge := { (imu 41).lodge with reading := [(5, 9)] } }, by decide +kernel⟩,
   ⟨5, true, live.setReg (Regs.imuDrdyPol 5) 1, by decide +kernel⟩,
   ⟨5, 9, 0,
    { (imu 41).setIngest 41 { live := true, taken := some 0 } with lodge := { ((imu 41).setIngest 41 { live := true, taken := some 0 }).lodge with reading := [(5, 9)] } },
    by decide +kernel⟩,
   ⟨5, 9, { imu 41 with lodge := { (imu 41).lodge with reading := [(5, 9)] } }, by decide +kernel⟩,
   ⟨⟨2047, false, true, true, false, 0, []⟩, live, by decide +kernel⟩,
   ⟨⟨2047, false, true, true, false, 0, []⟩, 5, (imu 47).setReg (Regs.canfFilter 1280) (2 ^ 30 + 2047),
    by decide +kernel⟩,
   ⟨{ live with pins := { live.pins with io33 := false } }, by decide +kernel⟩,
   ⟨live, by decide +kernel⟩,
   ⟨live, by decide +kernel⟩⟩

/-- What PosesEpochsAndTables asks before each of its conclusions is met. -/
theorem test_hyps_posesEpochsAndTables :
  (∃ (k : Nat) (s : State), s.reg Regs.poseSource = 0 ∧ s.pergolaWorks = true ∧ s.sundial.running = true ∧
    s.tickDue = some k) ∧
  (∃ (i : Item) (s : State) (s1 : State) (w : Touched), s.mayRun ⟨.pergola, .output⟩ 0x40 checkPosePush i s1 () ∧
    w = s1.touch i .pergola [((i.field 103 64 : Nat), 64 * i.field 63 32)] ∧ w.gone = none ∧ w.entry = none ∧
    samplesOk ((w.s.poseSample 0).map sampleTime) ((List.range (i.field 63 32)).map (fun k => ofLe (w.s.peek
    (i.field 103 64 + 64 * k) 64))) = true) ∧
  (∃ (i : Item) (s : State) (s1 : State) (outs : List GridOut), s.mayRun ⟨.pergola, .table⟩ 0x41 checkBin i s1
    outs ∧ s.binOf i = false) ∧
  (∃ (b : PgBin) (i : Item) (s : State), s.openBin = some (b, i) ∧ s.mayClose b i = true) ∧
  (∃ (b : PgBin) (i : Item) (s : State), s.openBin = some (b, i) ∧ s.mayClose b i = false) ∧
  (∃ (b : PgBin) (i : Item) (c : PgClosed) (outs : List GridOut) (s : State) (s1 : State) (ms : List Moved)
    (noPose : Nat) (extrap : Nat) (used : List Nat) (w : Touched) (ws : List (GridOut × GridWork)) (s2 : State),
    s.pergola.bin = some b ∧ s.ready ⟨.pergola, .table⟩ 0x41 = some i ∧ s.binOf i = true ∧ b.closed = some c ∧
    s.checkGrids i s.grids = (s1, .ok outs) ∧ s1.moveAll b.te c.slices = (ms, noPose, extrap, used) ∧ w = s1.touch i
    .pergola (used.map (fun k => ((poseSlot (s1.pergola.poseNext + 4096 - 1 - k) : Int), 64))) ∧ (s2, ws) =
    outs.foldl (fun ((s, ws) : State × List (GridOut × GridWork)) o => ((s.gridWork i o.grid b.te ms).s, ws ++ [(o,
    s.gridWork i o.grid b.te ms)])) (w.s, []) ∧ b.bad = none ∧ w.entry = none ∧ ((∀ x ∈ ws, x.2.bad = none))) ∧
  (∃ (i : Item) (s : State) (s1 : State) (s2 : State) (d : Tensor) (w : Touched), s.mayRun ⟨.pergola, .table⟩ 0x42
    checkNeighbours i s1 d ∧ w = s1.touch i .pergola [((hashBase (i.field 64 64) : Int), 0x800000)] ∧ w.gone = none
    ∧ w.entry = none ∧ w.s.landing i .pergola d.spans = (s2, none)) ∧
  (∃ (i : Item) (s : State) (s1 : State) (s2 : State) (a : BevArgs) (w : Touched), s.mayRun ⟨.pergola, .output⟩
    0x43 checkBev i s1 a ∧ w = s1.touch i .pergola (a.headers.spans ++
    (match a.features with | some t => t.spans | none => [])) ∧ w.gone = none ∧ w.entry = none ∧ w.s.landing i
    .pergola a.out.spans = (s2, none)) ∧
  (∃ (i : Item) (s : State) (s1 : State) (s2 : State) (s3 : State) (a : LabelArgs) (w : Touched) (spans : List
    (Int × Nat)), s.mayRun ⟨.pergola, .output⟩ 0x44 checkLabels i s1 a ∧ spans = labelSpans a.table (a.labels.size 0
    * (a.labels.fmt.bits / 8)) ∧ w = s1.touch i .pergola (a.points.spans ++ a.labels.spans ++ (if bit i.rec0 66 then
    spans else [])) ∧ w.gone = none ∧ w.bad = [] ∧ w.entry = none ∧ w.s.landing i .pergola spans = (s2, none) ∧
    s2.labelsLate a (i.field 63 32) = false ∧ bit i.rec0 65 = false ∧ s3 = (List.range (i.field 63 32)).foldl (fun t
    k => (List.range (a.labels.size 1)).foldl (fun t j => t.labelPoint i a [] j k) t) s2) :=
  ⟨⟨0, live, by decide +kernel⟩,
   ⟨poseI, (pgS poseI [(pad + 128, toLe 64 (2 ^ 320))]).setReg Regs.poseSource 1, _, _, runs_of (by decide +kernel)
    (by decide +kernel) (by decide +kernel), rfl, by decide +kernel⟩,
   ⟨binI, pgS binI [], _, _, runs_of (by decide +kernel) (by decide +kernel) (by decide +kernel),
    by decide +kernel⟩,
   ⟨⟨0, 0, 0, [], 0, 0, none, none, false⟩, binI, binS ⟨0, 0, 0, [], 0, 0, none, none, false⟩, by decide +kernel⟩,
   ⟨⟨0, 0, 1, [], 0, 0, none, none, false⟩, binI, binS ⟨0, 0, 1, [], 0, 0, none, none, false⟩, by decide +kernel⟩,
   ⟨⟨0, 0, 0, [], 0, 0, none, some closedI, false⟩, binI, closedI, _, binS ⟨0, 0, 0, [], 0, 0, none, some closedI,
    false⟩, _, _, _, _, _, _, _, _, rfl, by decide +kernel, by decide +kernel, rfl, got_eq _ (by decide +kernel),
    quad_self, rfl, pair_self.symm, rfl, by decide +kernel⟩,
   near_hyps,
   ⟨bevI, pgS bevI [(pad + 128, desc (pad + 0x3000) 0x12 [1, 1, 4] [4, 4])], _, _, _, _, runs_of
    (by decide +kernel) (by decide +kernel) (by decide +kernel), rfl, by decide +kernel, by decide +kernel, fst_none
    (by decide +kernel)⟩,
   ⟨labelI, pgS labelI [(pad + 128, desc (pad + 0x3000) 0x20 [1, 1, 1] [1, 1])], _, _, _, _, _, _, runs_of
    (by decide +kernel) (by decide +kernel) (by decide +kernel), rfl, rfl, by decide +kernel, by decide +kernel,
    by decide +kernel, fst_none (by decide +kernel), by decide +kernel, by decide +kernel, rfl⟩⟩

/-- What RingAndQueueWrites asks before each of its conclusions is met. -/
theorem test_hyps_ringAndQueueWrites :
  (∃ (p : Path) (r : Fin 64) (v : Nat) (x : Bytes) (s : State), s.offered p (0x2940 + r.val) 2 (toLe 1 v) = some x
    ∧ ofLe x = 1) ∧
  (∃ (p : Path) (r : Fin 64) (v : Nat) (x : Bytes) (s : State), s.offered p (0x2940 + r.val) 0x0A (toLe 1 v) =
    some x ∧ ofLe x = 1 ∧ s.flag (Regs.ringEnable r.val) = false ∧ s.reg (Regs.ringSize r.val) ≠ 0 ∧ s.ringPlace
    (s.reg (Regs.ringBase r.val)) (s.reg (Regs.ringSize r.val) * 64) = true ∧ clash s.allClaims 6 r.val (s.reg
    (Regs.ringBase r.val)) (s.reg (Regs.ringSize r.val) * 64) = none) ∧
  (∃ (p : Path) (c : Fin 64) (v : Nat) (x : Bytes) (s : State), s.offered p (0x29C0 + c.val) 1 (toLe 1 v) = some x
    ∧ ofLe x = 1 ∧ s.flag (Regs.cqEnable c.val) = false ∧ s.reg (Regs.cqSize c.val) ≠ 0 ∧ s.ringPlace (s.reg
    (Regs.cqBase c.val)) (s.reg (Regs.cqSize c.val) * 16) = true ∧ clash s.allClaims 7 c.val (s.reg (Regs.cqBase
    c.val)) (s.reg (Regs.cqSize c.val) * 16) = none) ∧
  (∃ (p : Path) (q : Fin 32) (v : Nat) (x : Bytes) (s : State), s.offered p (0x2980 + q.val) 6 (toLe 1 v) = some x
    ∧ ofLe x = 1 ∧ s.reg (Regs.iqOwner q.val) = s.writer p ∧ s.reg (Regs.iqOwner q.val) ≠ 0) ∧
  (∃ (p : Path) (q : Fin 32) (v : Nat) (x : Bytes) (s : State), s.offered p (0x2980 + q.val) 2 (toLe 1 v) = some x
    ∧ ofLe x = 1 ∧ s.reg (Regs.iqOwner q.val) = s.writer p ∧ s.reg (Regs.iqOwner q.val) ≠ 0 ∧ s.flag (Regs.iqEnable
    q.val) = false ∧ s.iqReady q.val = true ∧ clash (s.iqClaims ++ s.lodgeClaims) 13 (0x200 + 128 + q.val)
    (s.iqExtent q.val).1 (s.iqExtent q.val).2 = none) ∧
  (∃ (p : Path) (q : Fin 32) (v : Nat) (x : Bytes) (s : State), s.offered p (0x2980 + q.val) 2 (toLe 1 v) = some x
    ∧ ofLe x = 0 ∧ s.reg (Regs.iqOwner q.val) = s.writer p ∧ s.reg (Regs.iqOwner q.val) ≠ 0 ∧ s.flag (Regs.iqEnable
    q.val) = true) :=
  ⟨⟨.bar0, 63, 1, [1], live, by decide +kernel⟩,
   ⟨.bar0, 63, 1, [1], (live.setReg (Regs.ringBase 63) 0x1000000).setReg (Regs.ringSize 63) 64, by decide +kernel⟩,
   ⟨.bar0, 63, 1, [1], (live.setReg (Regs.cqBase 63) 0x1000000).setReg (Regs.cqSize 63) 64, by decide +kernel⟩,
   ⟨.bar0, 31, 1, [1], iqOn, by decide +kernel⟩,
   ⟨.bar0, 31, 1, [1], iqOn.setReg (Regs.iqEnable 31) 0, by decide +kernel⟩,
   ⟨.bar0, 31, 0, [0], iqOn, by decide +kernel⟩⟩

/-- What RingsAreDisabledInOrder asks before each of its conclusions is met. -/
theorem test_hyps_ringsAreDisabledInOrder :
  (∃ (p : Path) (c : Fin 64) (v : Nat) (r : Nat) (x : Bytes) (s : State), s.offered p (0x29C0 + c.val) 1 (toLe 1
    v) = some x ∧ ofLe x = 0 ∧ s.ringNaming c.val = some r) ∧
  (∃ (p : Path) (c : Fin 64) (v : Nat) (x : Bytes) (s : State), s.offered p (0x29C0 + c.val) 1 (toLe 1 v) = some x
    ∧ ofLe x = 0 ∧ s.ringNaming c.val = none) ∧
  (∃ (p : Path) (r : Fin 64) (v : Nat) (x : Bytes) (s : State), s.offered p (0x2940 + r.val) 0x0A (toLe 1 v) =
    some x ∧ ofLe x = 0 ∧ s.flag (Regs.ringEnable r.val) = true) :=
  ⟨⟨.bar0, 63, 0, 63, [0], ringOn, by decide +kernel⟩,
   ⟨.bar0, 0, 0, [0], ringOn, by decide +kernel⟩,
   ⟨.bar0, 63, 0, [0], ringOn, by decide +kernel⟩⟩

/-- What DoorbellsAndLanes asks before each of its conclusions is met. -/
theorem test_hyps_doorbellsAndLanes :
  (∃ (s : State), s.pdOn 44 = false) ∧
  (∃ (r : Fin 64) (v : Nat) (s : State), s.pdOn 44 = true ∧ s.doorbellsOpen = true ∧ s.flag (Regs.ringEnable
    r.val) = true ∧ v < s.reg (Regs.ringSize r.val) ∧ ringDistance (s.reg (Regs.ringSize r.val)) (s.reg
    (Regs.ringHead r.val)) (s.reg (Regs.ringTail r.val)) ≤ ringDistance (s.reg (Regs.ringSize r.val)) (s.reg
    (Regs.ringHead r.val)) v) ∧
  (∃ (c : Fin 64) (v : Nat) (s : State), s.pdOn 44 = true ∧ s.doorbellsOpen = true ∧ s.flag (Regs.cqEnable c.val)
    = true ∧ v < s.reg (Regs.cqSize c.val) ∧ ringDistance (s.reg (Regs.cqSize c.val)) (s.reg (Regs.cqHead c.val)) v
    ≤ ringDistance (s.reg (Regs.cqSize c.val)) (s.reg (Regs.cqHead c.val)) (s.reg (Regs.cqTail c.val))) ∧
  (∃ (r : Fin 64) (v : Nat) (s : State), s.pdOn 44 = true ∧ (s.doorbellsOpen = false ∨ s.flag (Regs.ringEnable
    r.val) = false ∨ s.reg (Regs.ringSize r.val) ≤ v ∨ ringDistance (s.reg (Regs.ringSize r.val)) (s.reg
    (Regs.ringHead r.val)) v < ringDistance (s.reg (Regs.ringSize r.val)) (s.reg (Regs.ringHead r.val)) (s.reg
    (Regs.ringTail r.val)))) ∧
  (∃ (c : Fin 64) (v : Nat) (s : State), s.pdOn 44 = true ∧ (s.doorbellsOpen = false ∨ s.flag (Regs.cqEnable
    c.val) = false ∨ s.reg (Regs.cqSize c.val) ≤ v ∨ ringDistance (s.reg (Regs.cqSize c.val)) (s.reg (Regs.cqHead
    c.val)) (s.reg (Regs.cqTail c.val)) < ringDistance (s.reg (Regs.cqSize c.val)) (s.reg (Regs.cqHead c.val)) v)) ∧
  (∃ (r : Fin 64) (s : State) (g : Group) (lane : Option Lane), s.flag (Regs.ringEnable r.val) = true ∧ s.pdOn 41
    = true ∧ g = (s.discardConts r.val (s.published r.val)).group r.val ∧ ((s.discardConts r.val (s.published
    r.val)).ring r.val).dropping = false ∧ g.ends = .whole ∧ g.s.judge r.val g = .ok lane ∧ (s.discardConts r.val
    (s.published r.val)).stalled r.val (g.readable && !isCont (g.recs.headD 0) && bit (g.recs.headD 0) 13) lane =
    false) ∧
  (∃ (l : Lane) (i : Item) (s : State), s.running l = none ∧ s.targetChanging l.target = false ∧ s.nextFor l =
    some i ∧ (i.cls = 0 ∨ s.goldenHolds l = false)) ∧
  (∃ (l : Lane) (i : Item) (s : State), s.yields l ((laneGaffers l).any (fun g => (s.goldenOf g).running &&
    (s.goldenOf g).forced)) = some i) :=
  ⟨⟨live.setPd 44 { state := .off }, by decide +kernel⟩,
   ⟨63, 63, ringOn, by decide +kernel⟩,
   ⟨63, 0, ringOn, by decide +kernel⟩,
   ⟨0, 0, live, by decide +kernel⟩,
   ⟨0, 0, live, by decide +kernel⟩,
   ⟨63, dispatchS, _, none, by decide +kernel, by decide +kernel, rfl, by decide +kernel⟩,
   ⟨⟨.kv, .kv⟩, { item (some ⟨.kv, .kv⟩) 0 with phase := .waiting }, runs live
    { item (some ⟨.kv, .kv⟩) 0 with phase := .waiting } [], by decide +kernel⟩,
   ⟨⟨.unit (.gaffer 0), .array⟩, item (some ⟨.unit (.gaffer 0), .array⟩) (0x10 + 3 * 2 ^ 16),
    { runs live (item (some ⟨.unit (.gaffer 0), .array⟩) (0x10 + 3 * 2 ^ 16)) [] with keeper := { live.keeper with golden := [(0, { running := true, forced := true })] } },
    by decide +kernel⟩⟩

/-- What CompletionsAndDispatcherItems asks before each of its conclusions is met. -/
theorem test_hyps_completionsAndDispatcherItems :
  (∃ (r : Fin 64) (seq : Nat) (i : Item) (f : Finish) (s : State), s.item? r.val seq = some i ∧ i.finish = some f) ∧
  (∃ (c : Fin 64) (since : Nat) (s : State), (s.comp c.val).firstAt = some since ∧ s.reg (Regs.cqVector c.val) <
    64 ∧ s.reg (Regs.cqCoalesceTime c.val) ≠ 0 ∧ since + s.reg (Regs.cqCoalesceTime c.val) * 1000 ≤ s.now) ∧
  (∃ (v : Fin 64) (s : State), s.pdOn 44 = true ∧ v.val ∈ s.link.pendingMsix ∧ s.flag Regs.hifLinkUp = true) ∧
  (∃ (v : Fin 64) (s : State), s.pdOn 44 = true ∧ v.val ∉ s.link.pendingMsix) ∧
  (∃ (r : Fin 64) (i : Item) (s : State), s.dispatcherItem r.val 0 = some i ∧ s.leaseRefuses i = false) ∧
  (∃ (r : Fin 64) (i : Item) (s : State), s.dispatcherItem r.val 2 = some i ∧ i.phase ≠ .pendingWait ∧
    s.leaseRefuses i = false ∧ barrierMet s.disp.items i = true) ∧
  (∃ (r : Fin 64) (i : Item) (s : State), s.dispatcherItem r.val 2 = some i ∧ i.phase ≠ .pendingWait ∧
    s.leaseRefuses i = false ∧ barrierMet s.disp.items i = false) ∧
  (∃ (r : Fin 64) (i : Item) (s : State), s.dispatcherItem r.val 4 = some i ∧ i.field 39 32 ≤ 31 ∧ s.fenced
    (i.field 39 32) = false ∧ s.pdOn (gafferPd (i.field 39 32)) = true ∧ s.leaseRefuses i = false ∧ bit i.rec0 48 =
    false ∧ 2 ^ 32 ≤ s.sem (i.field 39 32) (i.field 44 40) + i.field 95 64) ∧
  (∃ (r : Fin 64) (i : Item) (s : State), s.dispatcherItem r.val 4 = some i ∧ i.field 39 32 ≤ 31 ∧ s.fenced
    (i.field 39 32) = false ∧ s.pdOn (gafferPd (i.field 39 32)) = true ∧ s.leaseRefuses i = false ∧ bit i.rec0 48 =
    true) ∧
  (∃ (r : Fin 64) (i : Item) (s : State), s.dispatcherItem r.val 4 = some i ∧ i.field 39 32 ≤ 31 ∧ s.fenced
    (i.field 39 32) = false ∧ s.pdOn (gafferPd (i.field 39 32)) = true ∧ s.leaseRefuses i = false ∧ bit i.rec0 48 =
    false ∧ s.sem (i.field 39 32) (i.field 44 40) + i.field 95 64 < 2 ^ 32) ∧
  (∃ (r : Fin 64) (i : Item) (s : State), s.dispatcherItem r.val 5 = some i ∧ i.phase ≠ .pendingWait ∧ i.field 39
    32 ≤ 31 ∧ ¬ (bit i.rec0 48 = true ∧ bit i.rec0 49 = true) ∧ s.fenced (i.field 39 32) = false ∧ s.pdOn (gafferPd
    (i.field 39 32)) = true ∧ s.leaseRefuses i = false ∧ semMet (s.sem (i.field 39 32) (i.field 44 40)) (i.field 95
    64) (bit i.rec0 48) = true) ∧
  (∃ (r : Fin 64) (i : Item) (s : State) (t : State), s.dispatcherItem r.val 5 = some i ∧ i.phase ≠ .pendingWait ∧
    i.field 39 32 ≤ 31 ∧ ¬ (bit i.rec0 48 = true ∧ bit i.rec0 49 = true) ∧ s.fenced (i.field 39 32) = false ∧ s.pdOn
    (gafferPd (i.field 39 32)) = true ∧ s.leaseRefuses i = false ∧ semMet (s.sem (i.field 39 32) (i.field 44 40))
    (i.field 95 64) (bit i.rec0 48) = false ∧ t = s.setItem { i with phase := .pendingWait, since := s.now }) ∧
  (∃ (r : Fin 64) (i : Item) (s : State), s.dispatcherItem r.val 5 = some i ∧ i.phase = .pendingWait ∧ ((∀ w ∈
    (s.gaffer (i.field 39 32)).waits, ¬ (w.ring = i.ring ∧ w.seq = i.seq)))) ∧
  (∃ (r : Fin 64) (i : Item) (s : State), s.disp.items.find? (fun i => decide (i.ring = r.val) && i.readable &&
    hasTimeout i.opcode && i.phase == .pendingWait && i.finish.isNone && decide (i.timeout ≠ 0xFFFFFFFF) && decide
    (i.since + i.timeout * 1000 ≤ s.now)) = some i ∧ s.queueReady i = false ∧ s.semReady i = false) :=
  ⟨⟨0, 0, { item none 0 with finish := some ⟨0, 0, 0⟩ }, ⟨0, 0, 0⟩, runs live
    { item none 0 with finish := some ⟨0, 0, 0⟩ } [], by decide +kernel⟩,
   ⟨63, 0, ((live.setReg (Regs.cqVector 63) 63).setReg (Regs.cqCoalesceTime 63) 1).setComp 63
    { firstAt := some 0 }, by decide +kernel⟩,
   ⟨63, { live.setReg Regs.hifLinkUp 1 with link := { live.link with pendingMsix := [63] } }, by decide +kernel⟩,
   ⟨0, live, by decide +kernel⟩,
   ⟨0, (item none (0 + 0)), runs live (item none (0 + 0)) [], by decide +kernel⟩,
   ⟨0, (item none (2 + 0)), runs live (item none (2 + 0)) [], by decide +kernel⟩,
   ⟨0, barI, barS, by decide +kernel⟩,
   ⟨0, item none (4 + 31 * 2 ^ 32 + 0xFFFFFFFF * 2 ^ 64), (runs live (item none (4 + 31 * 2 ^ 32 + 0xFFFFFFFF * 2 ^
    64)) []).setGaffer 31 { sems := [(0, 5)] }, by decide +kernel⟩,
   ⟨0, (item none (4 + 31 * 2 ^ 32 + 2 ^ 48)), runs live (item none (4 + 31 * 2 ^ 32 + 2 ^ 48)) [],
    by decide +kernel⟩,
   ⟨0, (item none (4 + 31 * 2 ^ 32 + 5 * 2 ^ 64)), runs live (item none (4 + 31 * 2 ^ 32 + 5 * 2 ^ 64)) [],
    by decide +kernel⟩,
   ⟨0, (item none (5 + 31 * 2 ^ 32)), runs live (item none (5 + 31 * 2 ^ 32)) [], by decide +kernel⟩,
   ⟨0, (item none (5 + 31 * 2 ^ 32 + 2 ^ 64)), runs live (item none (5 + 31 * 2 ^ 32 + 2 ^ 64)) [], _,
    by decide +kernel, by decide +kernel, by decide +kernel, by decide +kernel, by decide +kernel,
    by decide +kernel, by decide +kernel, by decide +kernel, rfl⟩,
   ⟨0, ({ item none (5 + 31 * 2 ^ 32) with phase := .pendingWait }), runs live
    ({ item none (5 + 31 * 2 ^ 32) with phase := .pendingWait }) [], by decide +kernel⟩,
   ⟨0, ({ item none (5 + 2 ^ 64) with phase := .pendingWait }), runs live
    ({ item none (5 + 2 ^ 64) with phase := .pendingWait }) [], by decide +kernel⟩⟩

/-- What CopiesAndQueueItems asks before each of its conclusions is met. -/
theorem test_hyps_copiesAndQueueItems :
  (∃ (u : CUnit) (i : Item) (s : State) (s1 : State) (s2 : State) (p : Tensor × Tensor) (w : Touched), s.mayRun
    ⟨.unit u, .copy⟩ 0x08 (checkCopy (.servitor u)) i s1 p ∧ w = s1.touch i (.servitor u) p.1.spans ∧ w.gone = none
    ∧ w.entry = none ∧ w.s.landing i (.servitor u) p.2.spans = (s2, none)) ∧
  (∃ (u : CUnit) (i : Item) (s : State) (s1 : State) (s2 : State) (d : Tensor), s.mayRun ⟨.unit u, .copy⟩ 0x09
    (checkFill (.servitor u)) i s1 d ∧ s1.landing i (.servitor u) d.spans = (s2, none)) ∧
  (∃ (l : Lane) (i : Item) (s : State) (s1 : State) (s2 : State), s.mayRun l 0x0C (checkPush (laneAgent l)) i s1
    () ∧ 128 ≤ i.queue ∧ (s1.iq (i.queue - 128)).pushing = none ∧ s1.queueTurn i = true ∧ (s1.iq (i.queue -
    128)).used < s1.reg (Regs.iqSlotCount (i.queue - 128)) ∧ s1.copyBytes i (laneAgent l) (laneAgent l) i.qAddr
    (s1.reg (Regs.iqBase (i.queue - 128)) + (s1.iq (i.queue - 128)).next * s1.reg (Regs.iqSlotSize (i.queue - 128)))
    i.qLength = (s2, finDone (auxBytes i.qLength))) ∧
  (∃ (l : Lane) (i : Item) (j : Item) (full : Bool) (s : State) (s1 : State), s.mayRun l 0x0C (checkPush
    (laneAgent l)) i s1 () ∧ 128 ≤ i.queue ∧ ((s1.iq (i.queue - 128)).pushing.isSome = true ∨ s1.queueTurn i = false
    ∨ s1.reg (Regs.iqSlotCount (i.queue - 128)) ≤ (s1.iq (i.queue - 128)).used) ∧ full = (decide (s1.reg
    (Regs.iqSlotCount (i.queue - 128)) ≤ (s1.iq (i.queue - 128)).used) && (s1.iq (i.queue - 128)).pushing.isNone &&
    !i.counted) ∧ j = (if full then { i with counted := true } else i) ∧ i.phase ≠ .pendingWait ∧ i.timeout ≠ 0) ∧
  (∃ (l : Lane) (i : Item) (s : State) (s1 : State) (w : Touched) (h : Nat), s.mayRun l 0x0C (checkPush (laneAgent
    l)) i s1 () ∧ i.queue < 72 ∧ kfind s1.lodge.pushes i.queue = none ∧ s1.queueTurn i = true ∧ s1.txUsed i.queue <
    32 ∧ w = s1.touch i (laneAgent l) [((i.qAddr : Int), i.qLength)] ∧ w.gone = none ∧ w.entry = none ∧ h = ofLe
    (w.s.peek i.qAddr 32) ∧ ((56 ≤ i.queue → bits h 93 64 ≤ 999999999)) ∧ bits h 143 128 + 32 = i.qLength) ∧
  (∃ (l : Lane) (i : Item) (s : State) (s1 : State), s.mayRun l 0x0C (checkPush (laneAgent l)) i s1 () ∧ i.queue <
    72 ∧ ((kfind s1.lodge.pushes i.queue).isSome = true ∨ s1.queueTurn i = false ∨ 32 ≤ s1.txUsed i.queue)) ∧
  (∃ (l : Lane) (i : Item) (s : State) (s1 : State) (s2 : State) (it : IqItem) (rest : List IqItem) (f : Finish),
    s.mayRun l 0x0D (checkPop (laneAgent l)) i s1 () ∧ 128 ≤ i.queue ∧ (s1.iq (i.queue - 128)).items = it :: rest ∧
    (s1.iq (i.queue - 128)).popping = none ∧ s1.queueTurn i = true ∧ (s1.setIq (i.queue - 128)
    { s1.iq (i.queue - 128) with items := rest, popping := some ⟨i.ring, i.seq, it⟩ }).copyBytes i (laneAgent l)
    (laneAgent l) (s1.reg (Regs.iqBase (i.queue - 128)) + it.slot * s1.reg (Regs.iqSlotSize (i.queue - 128)))
    i.qAddr it.len = (s2, f)) ∧
  (∃ (l : Lane) (i : Item) (s : State) (s1 : State) (s2 : State) (it : IngestItem) (rest : List IngestItem) (f :
    Finish), s.mayRun l 0x0D (checkPop (laneAgent l)) i s1 () ∧ i.queue < 52 ∧ (s1.ingest i.queue).items = it ::
    rest ∧ (s1.ingest i.queue).pop = none ∧ s1.queueTurn i = true ∧ (s1.setIngest i.queue
    { s1.ingest i.queue with items := rest, pop := some ⟨i.ring, i.seq, it⟩ }).copyBytes i .lodge (laneAgent l)
    (s1.ingestBase i.queue + it.slot * s1.ingestSlot i.queue) i.qAddr (s1.ingestSlot i.queue) = (s2, f)) ∧
  (∃ (l : Lane) (i : Item) (s : State) (s1 : State), s.mayRun l 0x0D (checkPop (laneAgent l)) i s1 () ∧ 128 ≤
    i.queue ∧ ((s1.iq (i.queue - 128)).items = [] ∨ (s1.iq (i.queue - 128)).popping.isSome = true ∨ s1.queueTurn i =
    false)) ∧
  (∃ (l : Lane) (i : Item) (s : State) (s1 : State), s.mayRun l 0x0D (checkPop (laneAgent l)) i s1 () ∧ i.queue <
    52 ∧ ((s1.ingest i.queue).items = [] ∨ (s1.ingest i.queue).pop.isSome = true ∨ s1.queueTurn i = false)) :=
  ⟨⟨.gaffer 0, copyI, copyS, _, _, _, _, runs_of (by decide +kernel) (by decide +kernel) (by decide +kernel), rfl,
    by decide +kernel, by decide +kernel, fst_none (by decide +kernel)⟩,
   ⟨.gaffer 0, fillI, fillS, _, _, _, runs_of (by decide +kernel) (by decide +kernel) (by decide +kernel), fst_none
    (by decide +kernel)⟩,
   ⟨⟨.kv, .kv⟩, pushI, pushS, _, _, runs_of (by decide +kernel) (by decide +kernel) (by decide +kernel),
    by decide +kernel, by decide +kernel, by decide +kernel, by decide +kernel, pair_snd (by decide +kernel)⟩,
   ⟨⟨.kv, .kv⟩, pushF, _, _, pushFS, _, runs_of (by decide +kernel) (by decide +kernel) (by decide +kernel),
    by decide +kernel, .inr (.inr (by decide +kernel)), rfl, rfl, by decide +kernel⟩,
   ⟨⟨.kv, .kv⟩, pushL, pushLS, _, _, _, runs_of (by decide +kernel) (by decide +kernel) (by decide +kernel),
    by decide +kernel, by decide +kernel, by decide +kernel, by decide +kernel, rfl, by decide +kernel,
    by decide +kernel, rfl, by decide +kernel⟩,
   ⟨⟨.kv, .kv⟩, pushL, { pushLS with lodge := { pushLS.lodge with pushes := [(56, pushing)] } }, _, runs_of
    (by decide +kernel) (by decide +kernel) (by decide +kernel), by decide +kernel, .inl (by decide +kernel)⟩,
   ⟨⟨.kv, .kv⟩, popI, popS, _, _, ⟨0, 64⟩, [], _, runs_of (by decide +kernel) (by decide +kernel)
    (by decide +kernel), by decide +kernel, by decide +kernel, by decide +kernel, by decide +kernel, pair_self⟩,
   ⟨⟨.unit (.gaffer 0), .copy⟩, popI3, popS3, _, _, ⟨0, 64, 0⟩, [], _, runs_of (by decide +kernel)
    (by decide +kernel) (by decide +kernel), by decide +kernel, by decide +kernel, by decide +kernel,
    by decide +kernel, pair_self⟩,
   ⟨⟨.kv, .kv⟩, popI, popS2, _, runs_of (by decide +kernel) (by decide +kernel) (by decide +kernel),
    by decide +kernel, .inl (by decide +kernel)⟩,
   ⟨⟨.unit (.gaffer 0), .copy⟩, popI3, runs (imu 41) popI3 [], _, runs_of (by decide +kernel) (by decide +kernel)
    (by decide +kernel), by decide +kernel, .inl (by decide +kernel)⟩⟩

/-- What MatmulReduceAndPrograms asks before each of its conclusions is met. -/
theorem test_hyps_matmulReduceAndPrograms :
  (∃ (u : CUnit) (i : Item) (s : State) (s1 : State) (s2 : State) (p : MatPlan), s.mayRun ⟨.unit u, .array⟩ 0x10
    (checkMatmul u) i s1 p ∧ (p.tiles u).foldl (fun (acc : State × Option Finish) t =>
    match acc.2 with | some _ => acc | none => acc.1.matTile u i p t.1 t.2) (s1, none) = (s2, none)) ∧
  (∃ (u : CUnit) (i : Item) (s : State) (s1 : State) (s2 : State) (p : Tensor × Tensor), s.mayRun ⟨.unit u,
    .vector⟩ 0x19 (checkReduce u) i s1 p ∧ p.2.indices.foldl (fun (acc : State × Option Finish) idx =>
    match acc.2 with | some _ => acc | none => acc.1.reduceElem u i p idx) (s1, none) = (s2, none)) ∧
  (∃ (u : CUnit) (i : Item) (s : State) (s1 : State) (prog : List Nat), s.mayRun ⟨.unit u, .vector⟩ 0x18
    (checkVector u) i s1 prog ∧ (s1.vec u).running = false) ∧
  (∃ (u : CUnit) (i : Item) (v : VectorUnit) (x : Nat) (s : State), s.vecAt u 0x00 v i x) ∧
  (∃ (u : CUnit) (i : Item) (v : VectorUnit) (x : Nat) (s : State), s.vecNext u = some (v, i, x) ∧ vecOver u v x =
    true) ∧
  (∃ (u : CUnit) (i : Item) (v : VectorUnit) (x : Nat) (s : State), s.vecAt u 0x40 v i x ∧ 1 ≤ bits (vImm x) 15 0
    ∧ bits (vImm x) 15 0 ≤ 255 ∧ bits (vImm x) 31 16 ≠ 0 ∧ v.index + 1 + bits (vImm x) 15 0 ≤ v.prog.length ∧ ((∀ f
    ∈ v.loops.head?, v.index + 1 + bits (vImm x) 15 0 ≤ f.past)) ∧ v.loops.length < 4) :=
  ⟨⟨.gaffer 0, matI, matS, _, _, _, runs_of (by decide +kernel) (by decide +kernel) (by decide +kernel), fst_none
    (by decide +kernel)⟩,
   ⟨.gaffer 0, redI, redS, _, _, _, runs_of (by decide +kernel) (by decide +kernel) (by decide +kernel), fst_none
    (by decide +kernel)⟩,
   ⟨.gaffer 0, vecI, runs live vecI [], _, _, runs_of (by decide +kernel) (by decide +kernel) (by decide +kernel),
    by decide +kernel⟩,
   ⟨.gaffer 0, vecI, vecV 0, 0, vecS 0, ⟨by decide +kernel, rfl, by decide +kernel⟩⟩,
   ⟨.gaffer 0, vecI, { vecV 0x10 with maxCycles := 1, cycles := 1 }, 0x10, (runs live vecI []).setVec (.gaffer 0)
    { vecV 0x10 with maxCycles := 1, cycles := 1 }, by decide +kernel⟩,
   ⟨.gaffer 0, vecI, vecV (0x40 + (1 + 2 ^ 16) * 2 ^ 32), (0x40 + (1 + 2 ^ 16) * 2 ^ 32), vecS (0x40 + (1 + 2 ^ 16)
    * 2 ^ 32), ⟨by decide +kernel, rfl, by decide +kernel⟩, by decide +kernel⟩⟩

/-- What VectorMemoryInstructions asks before each of its conclusions is met. -/
theorem test_hyps_vectorMemoryInstructions :
  (∃ (u : CUnit) (i : Item) (v : VectorUnit) (x : Nat) (s : State) (s1 : State) (l : List Nat), s.vecAt u 0x01 v i
    x ∧ s.vecLoad u v i x (laneCount u) = (s1, .ok l)) ∧
  (∃ (u : CUnit) (i : Item) (v : VectorUnit) (x : Nat) (s : State) (s1 : State) (l : List Nat), s.vecAt u 0x03 v i
    x ∧ s.vecLoad u v i x 1 = (s1, .ok l)) ∧
  (∃ (u : CUnit) (i : Item) (v : VectorUnit) (x : Nat) (a : Nat) (s : State), s.vecAt u 0x02 v i x ∧ vBf x = false
    ∧ s.vecAddr u v x (laneCount u * vSize x) true = .ok a) ∧
  (∃ (u : CUnit) (i : Item) (v : VectorUnit) (x : Nat) (s : State), s.vecAt u 0x04 v i x) ∧
  (∃ (u : CUnit) (i : Item) (v : VectorUnit) (x : Nat) (s : State), s.vecAt u 0x05 v i x) :=
  ⟨⟨.gaffer 0, vecI, vecV 1, 1, vecS 1, _, _, ⟨by decide +kernel, rfl, by decide +kernel⟩, got_eq _
    (by decide +kernel)⟩,
   ⟨.gaffer 0, vecI, vecV 3, 3, vecS 3, _, _, ⟨by decide +kernel, rfl, by decide +kernel⟩, got_eq _
    (by decide +kernel)⟩,
   ⟨.gaffer 0, vecI, vecV 2, 2, pad, vecS 2, ⟨by decide +kernel, rfl, by decide +kernel⟩, by decide +kernel⟩,
   ⟨.gaffer 0, vecI, vecV 4, 4, vecS 4, ⟨by decide +kernel, rfl, by decide +kernel⟩⟩,
   ⟨.gaffer 0, vecI, vecV 5, 5, vecS 5, ⟨by decide +kernel, rfl, by decide +kernel⟩⟩⟩

/-- What VectorArithmetic asks before each of its conclusions is met. -/
theorem test_hyps_vectorArithmetic :
  (∃ (u : CUnit) (v : VectorUnit) (x : Nat) (a : List Nat) (b : List Nat) (c : List Nat), a = v.reg (laneCount u)
    (vA x) ∧ b = v.reg (laneCount u) (vB x) ∧ c = v.reg (laneCount u) (vC x)) ∧
  (∃ (u : CUnit) (v : VectorUnit) (x : Nat) (a : List Nat), a = v.reg (laneCount u) (vA x)) :=
  ⟨⟨.gaffer 0, vecV 0x10, 0x10, _, _, _, rfl, rfl, rfl⟩,
   ⟨.gaffer 0, vecV 0x18, 0x18, _, rfl⟩⟩

/-- What ResiduesShowFaults asks before each of its conclusions is met. -/
theorem test_hyps_residuesShowFaults :
  (∃ (x : Exact) (sign : Bool) (m : Nat) (e : Int), x.v = .fin sign m e ∧ x.mismatch = none) ∧
  (∃ (g : Fin 32) (i : Item) (v : VectorUnit) (x : Nat) (r : Nat) (f : Strike) (y : Exact) (s : State) (s1 :
    State) (e : Finish), s.vecAt (.gaffer g) 0x10 v i x ∧ (s.gaffer g.val).vectorFault = some f ∧ f.turn = 0 ∧
    (List.zipWith exactAdd (v.reg (laneCount (.gaffer g)) (vA x)) (v.reg (laneCount (.gaffer g)) (vB x)))[f.place %
    64]? = some y ∧ (y.bent
    f.error).mismatch = some r ∧ (s.setGaffer g.val { s.gaffer g.val with vectorFault := none }).residueMismatch i g.val 12 v.index r = (s1, e)) :=
  ⟨⟨exactAdd 0x3F800000 0x3F800000, false, _, _, rfl, by decide +kernel⟩,
   ⟨0, vecI, vecV 0x10, 0x10, _, ⟨0, 0, 0, 1⟩, _, (vecS 0x10).setGaffer 0
    { (vecS 0x10).gaffer 0 with vectorFault := some ⟨0, 0, 0, 1⟩ }, _, _,
    ⟨by decide +kernel, rfl, by decide +kernel⟩, by decide +kernel, by decide +kernel, (some_get (h :=
    (by decide +kernel))), (some_get (h := (by decide +kernel))), pair_self⟩⟩

/-- What ChairLevelAndSeedWrites asks before each of its conclusions is met. -/
theorem test_hyps_chairLevelAndSeedWrites :
  (∃ (p : Path) (v : Nat) (x : Bytes) (s : State), s.offered p 0x2500 3 (toLe 2 v) = some x ∧ ((∀ c, c < 16 → bit
    (ofLe x) c ≠ s.formed c → s.chairCause c (bit (ofLe x) c) = none))) ∧
  (∃ (p : Path) (g : Fin 32) (v : Nat) (x : Bytes) (s : State), s.offered p (0x2520 + g.val) 1 (toLe 1 v) = some x
    ∧ ¬ (g.val % 2 = 1 ∧ s.formed (g.val / 2) = true)) ∧
  (∃ (p : Path) (g : Fin 32) (v : Nat) (x : Bytes) (s : State), s.offered p (0x2520 + g.val) 1 (toLe 1 v) = some x
    ∧ g.val % 2 = 1 ∧ s.formed (g.val / 2) = true) ∧
  (∃ (p : Path) (g : Fin 32) (v : Nat) (x : Bytes) (s : State), s.offered p (0x2540 + g.val) 1 (toLe 8 v) = some x
    ∧ s.stochasticRing g.val = none) :=
  ⟨⟨.bar0, 0x8000, toLe 2 0x8000, live, by decide +kernel⟩,
   ⟨.bar0, 31, 1, [1], live, by decide +kernel⟩,
   ⟨.bar0, 31, 1, [1], live.setReg Regs.chairFormed 0x8000, by decide +kernel⟩,
   ⟨.bar0, 31, 9, toLe 8 9, live, by decide +kernel⟩⟩

/-- What FencesAreSetAndLifted asks before each of its conclusions is met. -/
theorem test_hyps_fencesAreSetAndLifted :
  (∃ (p : Path) (g : Fin 32) (x : Bytes) (s : State), s.offered p 0x2500 2 (toLe 4 (setBit (s.reg
    Regs.gafferFence) g.val true)) = some x ∧ ofLe x = setBit (s.reg Regs.gafferFence) g.val true ∧ s.reg
    Regs.gafferFence < 2 ^ 32 ∧ s.fenced g.val = false) ∧
  (∃ (p : Path) (g : Fin 32) (x : Bytes) (s : State), s.offered p 0x2500 2 (toLe 4 (setBit (s.reg
    Regs.gafferFence) g.val false)) = some x ∧ ofLe x = setBit (s.reg Regs.gafferFence) g.val false ∧ s.reg
    Regs.gafferFence < 2 ^ 32 ∧ s.fenced g.val = true ∧ ((s.reg (Regs.gafferFenceCause g.val) = 3 → p = .canSafety ∨
    p = .keeper)) ∧ (s.gaffer g.val).lift = .none) ∧
  (∃ (p : Path) (g : Fin 32) (x : Bytes) (s : State), s.offered p 0x2500 2 (toLe 4 (setBit (s.reg
    Regs.gafferFence) g.val false)) = some x ∧ ofLe x = setBit (s.reg Regs.gafferFence) g.val false ∧ s.fenced g.val
    = true ∧ s.reg (Regs.gafferFenceCause g.val) = 3 ∧ p ≠ .canSafety ∧ p ≠ .keeper) :=
  ⟨⟨.bar0, 31, toLe 4 (2 ^ 31), live, by decide +kernel⟩,
   ⟨.canSafety, 31, toLe 4 0, fenced 3, by decide +kernel⟩,
   ⟨.bar0, 31, toLe 4 0, fenced 3, by decide +kernel⟩⟩

/-- What GafferChangesComplete asks before each of its conclusions is met. -/
theorem test_hyps_gafferChangesComplete :
  (∃ (c : Fin 16) (s : State), c.val ∈ s.disp.chairsChanging ∧ (s.gaffer (2 * c.val)).drainDue = false ∧ (s.gaffer
    (2 * c.val + 1)).drainDue = false) ∧
  (∃ (g : Fin 32) (s : State), (s.gaffer g.val).levelChanging = true ∧ (s.gaffer g.val).levelAt ≤ s.now ∧ ¬ (g.val
    % 2 = 1 ∧ s.formed (g.val / 2) = true)) ∧
  (∃ (g : Fin 32) (s : State), s.now < (s.gaffer g.val).levelAt) ∧
  (∃ (g : Fin 32) (s : State), g.val % 2 = 1 ∧ s.formed (g.val / 2) = true) ∧
  (∃ (g : Fin 32) (s : State), (s.gaffer g.val).drainDue = true ∧ s.drained (gafferPd g.val) = true) ∧
  (∃ (g : Fin 32) (results : List Nat) (s : State) (u : State), u = s.settlesForced (gafferPd g.val) 3 ∧
    u.keeper.heldReset = false ∧ u.pdOn (gafferPd g.val) = true ∧ (u.gaffer g.val).drainDue = false ∧ (u.gaffer
    g.val).lift = .testing ∧ u.goldenFailure [g.val] results = none) ∧
  (∃ (g : Fin 32) (k : Nat) (results : List Nat) (s : State) (u : State), u = s.settlesForced (gafferPd g.val) 3 ∧
    u.keeper.heldReset = false ∧ u.pdOn (gafferPd g.val) = true ∧ (u.gaffer g.val).drainDue = false ∧ (u.gaffer
    g.val).lift = .testing ∧ u.goldenFailure [g.val] results = some k) ∧
  (∃ (g : Fin 32) (s : State), (s.settlesForced (gafferPd g.val) 3).pdOn (gafferPd g.val) = false) :=
  ⟨⟨15, { live with disp := { live.disp with chairsChanging := [15] } }, by decide +kernel⟩,
   ⟨31, live.setGaffer 31 { levelChanging := true }, by decide +kernel⟩,
   ⟨31, live.setGaffer 31 { levelAt := 2 ^ 63 }, by decide +kernel⟩,
   ⟨31, live.setReg Regs.chairFormed 0x8000, by decide +kernel⟩,
   ⟨31, live.setGaffer 31 { drainDue := true }, by decide +kernel⟩,
   ⟨31, (List.range 11).map Config.goldenSignature, live.setGaffer 31 { lift := .testing }, _, rfl,
    by decide +kernel, by decide +kernel, by decide +kernel, by decide +kernel, (golden_passes (by decide +kernel))⟩,
   ⟨31, 0, [], live.setGaffer 31 { lift := .testing }, _, rfl, by decide +kernel⟩,
   ⟨31, live.setPd 33 { state := .off }, by decide +kernel⟩⟩

/-- What MarverAndKvItems asks before each of its conclusions is met. -/
theorem test_hyps_marverAndKvItems :
  (∃ (m : Fin 4) (i : Item) (s : State) (s1 : State) (a : TransformArgs), s.mayRun ⟨.marver m, .marver⟩ 0x20
    (checkTransform (.marver m.val)) i s1 a) ∧
  (∃ (m : Fin 4) (i : Item) (s : State) (s1 : State) (a : IndexedArgs), s.mayRun ⟨.marver m, .marver⟩ 0x21
    (checkIndexed (.marver m.val) false) i s1 a) ∧
  (∃ (m : Fin 4) (i : Item) (s : State) (s1 : State) (a : IndexedArgs), s.mayRun ⟨.marver m, .marver⟩ 0x22
    (checkIndexed (.marver m.val) true) i s1 a) ∧
  (∃ (s : State) (s1 : State) (s2 : State) (s3 : State) (ag : Agent) (i : Item) (first : List (Int × Nat)) (masks
    : List (Int × Nat)) (elems : State → List (Int × Nat)) (writes : State → List (Int × Nat)) (run : State → List
    (Nat × Nat) → State × Nat) (w : Touched) (aux : Nat), w = s.mvReads i ag first elems ∧ w.gone = none ∧ w.entry =
    none ∧ w.s.landing i ag (writes w.s ++ masks) = (s2, none) ∧ run (s2.heals (writes w.s)) w.bad = (s3, aux) ∧ s1
    = s.mvRun i ag first elems writes masks run) ∧
  (∃ (i : Item) (s : State) (s1 : State), s.mayRun kvLane 0x34 checkOpen i s1 () ∧ i.mapOp = 0) ∧
  (∃ (i : Item) (s : State) (s1 : State) (need : List Nat), s.mayRun kvLane 0x34 checkRange i s1 () ∧ i.mapOp = 1
    ∧ need = i.pageList.filter (fun b => decide ((s1.pte i.sequence b).st = 0)) ∧ need.length ≤ (s1.pool (seqPool
    (s1.seqEntry i.sequence))).free ∧ ((need.map (fun b => b / 256)).eraseDups.filter (fun d => !bit (s1.dir
    i.sequence d) 16)).length ≤ s1.kv.l2Free.length) ∧
  (∃ (i : Item) (s : State) (s1 : State), s.mayRun kvLane 0x34 (fun s i => checkMap i.firstPage 16384 s i) i s1 ()
    ∧ i.mapOp = 2 ∧ bits (s1.seqEntry i.sequence) 63 32 = 0) ∧
  (∃ (i : Item) (s : State) (s1 : State), s.mayRun kvLane 0x34 (checkMap 0 16384) i s1 () ∧ i.mapOp = 3 ∧ bits
    (s1.seqEntry i.sequence) 63 32 = 0) ∧
  (∃ (i : Item) (s : State) (s1 : State) (s2 : State) (bs : Bytes), s.mayRun kvLane 0x34 checkKvRead i s1 () ∧
    i.mapOp = 4 ∧ bs = toLe 64 (s1.seqEntry i.sequence) ++ i.pageList.flatMap (fun b => toLe 8 (s1.pte i.sequence
    b).pack) ∧ s1.landing i .kvm [((i.field 199 160 : Int), bs.length)] = (s2, none)) ∧
  (∃ (s : State) (t : State), (s.kv.stopped ≠ none ∨ t.kv.stopped = none)) ∧
  (∃ (s : State) (t : State) (i : Item) (j : Item) (e : Nat), s.kv.stopped = none ∧ t.kv.stopped = some e ∧
    t.item? i.ring i.seq = some j) :=
  ⟨⟨3, trI, runs live trI tensors, _, _, runs_of (by decide +kernel) (by decide +kernel) (by decide +kernel)⟩,
   ⟨3, gaI, runs live gaI tensors, _, _, runs_of (by decide +kernel) (by decide +kernel) (by decide +kernel)⟩,
   ⟨3, scI, runs live scI tensors, _, _, runs_of (by decide +kernel) (by decide +kernel) (by decide +kernel)⟩,
   ⟨live, _, _, _, .marver 0, trI, [], [], fun _ => [], fun _ => [], fun s _ => (s, 0), _, _, rfl, rfl, rfl,
    fst_none (by decide +kernel), pair_self, rfl⟩,
   ⟨item (some kvLane) (0x34 + 2 ^ 64), kvS 1 (0x34 + 2 ^ 64) [], _, runs_of (by decide +kernel)
    (by decide +kernel) (by decide +kernel), by decide +kernel⟩,
   ⟨item (some kvLane) (0x34 + 2 ^ 32 + 2 ^ 96 + 2 ^ 128), kvS 1 (0x34 + 2 ^ 32 + 2 ^ 96 + 2 ^ 128) [], _, _,
    runs_of (by decide +kernel) (by decide +kernel) (by decide +kernel), by decide +kernel, rfl, by decide +kernel⟩,
   ⟨item (some kvLane) (0x34 + 2 * 2 ^ 32 + 250 * 2 ^ 96), kvS 1 (0x34 + 2 * 2 ^ 32 + 250 * 2 ^ 96) [], _, runs_of
    (by decide +kernel) (by decide +kernel) (by decide +kernel), by decide +kernel⟩,
   ⟨item (some kvLane) (0x34 + 3 * 2 ^ 32), kvS 1 (0x34 + 3 * 2 ^ 32) [], _, runs_of (by decide +kernel)
    (by decide +kernel) (by decide +kernel), by decide +kernel⟩,
   ⟨item (some kvLane) (0x34 + 4 * 2 ^ 32 + 2 ^ 128 + pad * 2 ^ 160), kvS 1 (0x34 + 4 * 2 ^ 32 + 2 ^ 128 + pad * 2
    ^ 160) [], _, _, _, runs_of (by decide +kernel) (by decide +kernel) (by decide +kernel), by decide +kernel, rfl,
    fst_none (by decide +kernel)⟩,
   ⟨live, live, by decide +kernel⟩,
   ⟨live, { runs live (item none 0) [] with kv := { live.kv with stopped := some 7 } }, item none 0, item none 0,
    7, by decide +kernel⟩⟩

/-- What AttentionAndArborItems asks before each of its conclusions is met. -/
theorem test_hyps_attentionAndArborItems :
  (∃ (u : CUnit) (i : Item) (s : State) (s1 : State) (p : AppendPlan), s.mayRun ⟨.unit u, .copy⟩ 0x33 (checkAppend
    u) i s1 p) ∧
  (∃ (u : CUnit) (i : Item) (s : State) (s1 : State) (s2 : State) (ps : List AttPlan), s.mayRun ⟨.unit u, .array⟩
    0x30 (checkAttention u false) i s1 ps ∧ ((ps.foldl (fun t p => t.register i.ring i.seq p.e.sequence)
    s1).forgetRange i.workArea i.workBytes).attTiles u i ps = (s2, none)) ∧
  (∃ (u : CUnit) (i : Item) (s : State) (s1 : State) (s2 : State) (ps : List AttPlan), s.mayRun ⟨.unit u, .array⟩
    0x31 (checkAttention u true) i s1 ps ∧ ((ps.foldl (fun t p => t.register i.ring i.seq p.e.sequence)
    s1).forgetRange i.workArea i.workBytes).attTiles u i ps = (s2, none)) ∧
  (∃ (u : CUnit) (i : Item) (s : State) (s1 : State) (s2 : State) (bs : List MergeEntry), s.mayRun ⟨.unit u,
    .vector⟩ 0x32 (checkMerge u) i s1 bs ∧ bs.foldl (fun (acc : State × Option Finish) b =>
    match acc.2 with | some _ => acc | none => acc.1.mergeBucket u i b) (s1, none) = (s2, none)) ∧
  (∃ (i : Item) (s : State) (s1 : State) (ts : List Nat), s.mayRun kvLane 0x38 (checkBlocks 0) i s1 ts) ∧
  (∃ (i : Item) (s : State) (s1 : State) (ts : List Nat), s.mayRun kvLane 0x39 (checkBlocks 2) i s1 ts) ∧
  (∃ (i : Item) (k : Nat) (s : State) (s1 : State) (s2 : State) (s3 : State), s.mayRun kvLane 0x3A checkUnpin i s1
    [k] ∧ i.mapOp ≠ 1 ∧ s1.readForUnpin i k = (s2, none) ∧ s2.unpinNode k = some s3) ∧
  (∃ (i : Item) (h : FrameEntry) (s : State) (s1 : State) (s2 : State), s.mayRun kvLane 0x3A checkReopen i s1 () ∧
    i.mapOp = 1 ∧ s1.readFrame (seqPool (s1.seqEntry i.sequence)) (s1.pte i.sequence i.firstPage).frame = (s2, some
    h) ∧ h.refs = 1 ∧ bits (s2.seqEntry i.sequence) 63 32 = 0) ∧
  (∃ (i : Item) (s : State) (s1 : State), s.mayRun kvLane 0x3B (checkSwap (fun _ => true)) i s1 () ∧ bits
    ((s1.setSwapping i.sequence true).seqEntry i.sequence) 63 32 = 0) ∧
  (∃ (i : Item) (s : State) (s1 : State), s.mayRun kvLane 0x3C (checkSwap (fun i => bit i.rec0 32)) i s1 ()) :=
  ⟨⟨.gaffer 0, appendI, { kvS 1 0 [] with disp := { live.disp with items := [appendI] } }, _, _, runs_of
    (by decide +kernel) (by decide +kernel) (by decide +kernel)⟩,
   ⟨.gaffer 0, item array (attX 0x30), attS 0x30, _, _, _, runs_of (by decide +kernel) (by decide +kernel)
    (by decide +kernel), fst_none (by decide +kernel)⟩,
   ⟨.gaffer 0, item array (attX 0x31), attS 0x31, _, _, _, runs_of (by decide +kernel) (by decide +kernel)
    (by decide +kernel), fst_none (by decide +kernel)⟩,
   ⟨.gaffer 0, mergeI, mergeS, _, _, _, runs_of (by decide +kernel) (by decide +kernel) (by decide +kernel),
    fst_none (by decide +kernel)⟩,
   ⟨item (some kvLane) (0x38 + 0xFFFF * 2 ^ 80 + tokens), kvS 0 (0x38 + 0xFFFF * 2 ^ 80 + tokens) [], _, _, runs_of
    (by decide +kernel) (by decide +kernel) (by decide +kernel)⟩,
   ⟨item (some kvLane) (0x39 + 0xFFFF * 2 ^ 80 + tokens), kvS 2 (0x39 + 0xFFFF * 2 ^ 80 + tokens) [], _, _, runs_of
    (by decide +kernel) (by decide +kernel) (by decide +kernel)⟩,
   ⟨item (some kvLane) (0x3A + tokens), 0, kvS 2 (0x3A + tokens) [], _, _, _, ⟨(by decide +kernel), ok_eq
    (by decide +kernel), (by decide +kernel)⟩, by decide +kernel, fst_none (by decide +kernel), (some_get (h :=
    (by decide +kernel)))⟩,
   ⟨item (some kvLane) (0x3A + 2 ^ 32), _, kvS 2 (0x3A + 2 ^ 32) [], _, _, runs_of (by decide +kernel)
    (by decide +kernel) (by decide +kernel), by decide +kernel, snd_some (by decide +kernel), by decide +kernel⟩,
   ⟨item (some kvLane) (0x3B + 2 ^ 128), kvS 1 (0x3B + 2 ^ 128) [], _, runs_of (by decide +kernel)
    (by decide +kernel) (by decide +kernel), by decide +kernel⟩,
   ⟨item (some kvLane) (0x3C + 2 ^ 128), kvS 3 (0x3C + 2 ^ 128) [], _, runs_of (by decide +kernel)
    (by decide +kernel) (by decide +kernel)⟩⟩

set_option maxRecDepth 20000 in
/-- What KeeperWrites asks before each of its conclusions is met. -/
theorem test_hyps_keeperWrites :
  (∃ (p : Path) (v : Nat) (x : Bytes) (s : State), s.offered p 0x2800 1 (toLe 1 v) = some x ∧ ofLe x = 1 ∧ bit
    (s.reg Regs.kpRulesValid) 0 = true ∧ s.lifecycle ≠ 2 ∧ s.keeper.phase = .disarmed) ∧
  (∃ (p : Path) (v : Nat) (x : Bytes) (s : State), s.offered p 0x2800 1 (toLe 1 v) = some x ∧ ofLe x = 0 ∧
    (s.keeper.phase = .waiting ∨ s.keeper.phase = .running)) ∧
  (∃ (p : Path) (v : Nat) (x : Bytes) (s : State), s.offered p 0x2800 0x0A (toLe 1 v) = some x ∧ ofLe x = 1 ∧
    (s.keeper.phase = .waiting ∨ s.keeper.phase = .running)) ∧
  (∃ (p : Path) (v : Nat) (x : Bytes) (s : State), s.offered p 0x2800 0x0B (toLe 1 v) = some x ∧ ofLe x = 1 ∧
    s.keeper.phase = .latched) ∧
  (∃ (p : Path) (parked : Bool) (data : Bytes) (x : Bytes) (s : State), s.offered p 0x2810 (if parked then 2 else
    1) data = some x ∧ s.rulesOk parked x = true) ∧
  (∃ (p : Path) (parked : Bool) (data : Bytes) (x : Bytes) (s : State), s.offered p 0x2810 (if parked then 2 else
    1) data = some x ∧ s.rulesOk parked x = false) :=
  ⟨⟨.canSafety, 1, [1], keeperS .disarmed, by decide +kernel⟩,
   ⟨.canSafety, 0, [0], keeperS .running, by decide +kernel⟩,
   ⟨.canSafety, 1, [1], keeperS .waiting, by decide +kernel⟩,
   ⟨.canSafety, 1, [1], keeperS .latched, by decide +kernel⟩,
   ⟨.canSafety, true, rules 1, rules 1, live, by decide +kernel⟩,
   ⟨.canSafety, false, rules 1, rules 1, live, by decide +kernel⟩⟩

/-- What VerdictsAndLatchInputs asks before each of its conclusions is met. -/
theorem test_hyps_verdictsAndLatchInputs :
  (∃ (i : Item) (s : State) (s1 : State) (ts : List Tensor), s.mayRun ⟨.keeper, .keeper⟩ 0x50 (fun s i =>
    s.checkDeclare i) i s1 ts ∧ s.leaseRunning = false ∧ s1.declareCode i ts = none) ∧
  (∃ (e : Epoch) (s : State), s.openEpoch = some e ∧ s.judging = true ∧ requiredIn e = true ∧ s.runsIn e = true ∧
    s.keeperReads.judging = true) ∧
  (∃ (e : Epoch) (s : State), s.openEpoch = some e ∧ s.judging = true ∧ (requiredIn e = false ∨ s.runsIn e =
    false) ∧ s.reached (e.end_ + s.reg Regs.kpDeadline * 65536000) = true ∧ s.keeperReads.judging = true) ∧
  (∃ (r : Nat) (e : Nat) (s : State), s.keeper.reference = some r ∧ s.keeper.lastEnd = some e ∧ s.openEpoch = none
    ∧ s.judging = true ∧ s.reached (e + (s.reg Regs.kpEpochPeriod + s.reg Regs.kpDeadline) * 65536000) = true) ∧
  (∃ (s : State), s.pdOn 1 = true ∧ (s.keeper.phase = .waiting ∨ s.keeper.phase = .running ∨ s.keeper.phase =
    .disarmed)) :=
  ⟨⟨declareI, declareS, _, _, runs_of (by decide +kernel) (by decide +kernel) (by decide +kernel),
    by decide +kernel⟩,
   ⟨⟨0, 0, [], []⟩, epochS ⟨0, 0, [], []⟩, by decide +kernel⟩,
   ⟨⟨0, 0, [], [⟨0, 0, 0, 0, 0, 0, none⟩]⟩, epochS ⟨0, 0, [], [⟨0, 0, 0, 0, 0, 0, none⟩]⟩, by decide +kernel⟩,
   ⟨0, 0, { epochS ⟨1, 0, [], []⟩ with keeper := { (keeperS .waiting).keeper with lastEnd := some 0 } },
    by decide +kernel⟩,
   ⟨keeperS .disarmed, by decide +kernel⟩⟩

/-- What KeeperStartsAndWatches asks before each of its conclusions is met. -/
theorem test_hyps_keeperStartsAndWatches :
  (∃ (s : State) (s1 : State), s.keeper.startDue = true ∧ s.pdOn 1 = true ∧ s.readKeepBank = (s1, false) ∧
    s1.keptSound = true) ∧
  (∃ (s : State), s.keeper.phase = .starting ∧ s.shift.phase = .drive) ∧
  (∃ (passed : Bool) (lost : Bool) (s : State) (s1 : State), s.keeper.startDue = true ∧ s.pdOn 1 = true ∧
    s.readKeepBank = (s1, lost) ∧ (passed = false ∨ lost = true ∨ s1.keptSound = false)) ∧
  (∃ (s : State), s.keeper.phase = .safe ∧ s.keeper.restart = .warm ∧ s.keeper.startDue = false ∧ ((∀ g ∈
    s.keeper.testing, s.fenced g = true ∨ s.pdOn (gafferPd g) = false)) ∧ ((∀ d ∈ List.range 39, s.forcedChange (d +
    2) = none))) ∧
  (∃ (s : State), s.pdOn 1 = true ∧ s.keeper.faultN = true ∧ s.keeper.startDue = false ∧ s.keeper.beatAt + s.reg
    Regs.kpHeartbeatHalf * 1000000 ≤ s.now) ∧
  (∃ (s : State), (s.keeper.faultN = false ∨ s.now < s.keeper.beatAt + s.reg Regs.kpHeartbeatHalf * 1000000)) ∧
  (∃ (s : State) (t : State), s.pdOn 1 = true ∧ s.keeper.phase = .parked ∧ bit (s.reg Regs.kpRulesValid) 1 = true
    ∧ s.keeper.parkedAt ≤ s.now ∧ t = ((s.setKeeper
    { s.keeper with parkedAt := s.keeper.parkedAt + 100000000 }).observes 70).keeperReads ∧ t.keeper.phase =
    .parked) ∧
  (∃ (s : State), s.pdOn 1 = true ∧ s.pdOn 45 = true ∧ s.keeper.gardenerOff = false) ∧
  (∃ (s : State), s.pdOn 1 = true ∧ s.keeper.gardenerOff = false ∧ s.boot.phase = .ready ∧ s.keeper.startDue =
    false ∧ s.keeper.gardenerAt + s.reg Regs.kpGardenerWd * 1000000 ≤ s.now) :=
  ⟨
    ⟨{ live with boot := { live.boot with keeperDigest := sha384 [] }, keeper := { live.keeper with startDue := true, phase := .starting } },
    _, by decide +kernel, by decide +kernel, rfl, by decide +kernel⟩,
   ⟨{ live with keeper := { live.keeper with phase := .starting } }, by decide +kernel⟩,
   ⟨false, false,
    { live with boot := { live.boot with keeperDigest := sha384 [] }, keeper := { live.keeper with startDue := true } },
    _, by decide +kernel, by decide +kernel, rfl, .inl rfl⟩,
   ⟨{ live with keeper := { live.keeper with phase := .safe, restart := .warm } }, by decide +kernel⟩,
   ⟨keeperS .running, by decide +kernel⟩,
   ⟨live, by decide +kernel⟩,
   ⟨keeperS .parked, _, by decide +kernel, by decide +kernel, by decide +kernel, by decide +kernel, rfl,
    by decide +kernel⟩,
   ⟨live, by decide +kernel⟩,
   ⟨(live.setReg Regs.kpGardenerWd 1), by decide +kernel⟩⟩

/-- What LamplighterTestsGaffers asks before each of its conclusions is met. -/
theorem test_hyps_lamplighterTestsGaffers :
  (∃ (g : Fin 32) (s : State), s.flag Regs.llEnable = true ∧ s.pdOn 1 = true ∧ s.keeper.slot = g.val ∧
    s.keeper.slotAt ≤ s.now) ∧
  (∃ (g : Fin 32) (s : State), g.val ≠ 0 ∧ s.slotLive g.val = true ∧ s.gafferIdle g.val = true ∧ (s.goldenOf
    g.val).running = false ∧ s.ddrSkips (g.val % 8) = false) ∧
  (∃ (g : Fin 32) (s : State), s.flag Regs.llEnable = true ∧ s.pdOn 1 = true ∧ s.slotNow g.val = false ∧ 0 <
    (s.goldenOf g.val).deferred ∧ (s.goldenOf g.val).dueAt ≤ s.now) ∧
  (∃ (g : Fin 32) (s : State), (s.goldenOf g.val).running = false ∧ s.slotLive g.val = true ∧ s.gafferIdle g.val =
    false) ∧
  (∃ (g : Fin 32) (results : List Nat) (s : State), (s.goldenOf g.val).running = true ∧ s.goldenWaits g.val =
    false ∧ s.slotLive g.val = true ∧ s.goldenFailure (s.testedWith g.val) results = none) ∧
  (∃ (g : Fin 32) (results : List Nat) (k : Nat) (s : State), (s.goldenOf g.val).running = true ∧ s.goldenWaits
    g.val = false ∧ s.goldenFailure (s.testedWith g.val) results = some k) ∧
  (∃ (g : Fin 32) (t : Nat) (s : State), (s.goldenOf g.val).running = true ∧ (s.goldenOf g.val).since = some t ∧ t
    + 100000000 ≤ s.now) :=
  ⟨⟨31, (goldenS {}).setKeeper { (goldenS {}).keeper with slot := 31 }, by decide +kernel⟩,
   ⟨31, (goldenS {}).setReg Regs.ddrTrainState 1, by decide +kernel⟩,
   ⟨31, goldenS { deferred := 2 }, by decide +kernel⟩,
   ⟨31, { goldenS {} with disp := { live.disp with items := [item (some ⟨.unit (.gaffer 31), .array⟩) 0] } },
    by decide +kernel⟩,
   ⟨31, (List.range 11).map Config.goldenSignature, goldenS { running := true }, by decide +kernel,
    by decide +kernel, by decide +kernel, (golden_passes (by decide +kernel))⟩,
   ⟨31, [], 0, goldenS { running := true }, by decide +kernel⟩,
   ⟨31, 0, goldenS { running := true, since := some 0 }, by decide +kernel⟩⟩

/-- What ScrubsAndHoldoff asks before each of its conclusions is met. -/
theorem test_hyps_scrubsAndHoldoff :
  (∃ (addr : Nat) (d : Nat) (s : State), arrayDomain .mapped (addr / 8 * 8) = some d ∧ s.pdOn d = true ∧ addr / 8
    * 8 ∈ s.mem.suspects (addr / 8 * 8) 8) ∧
  (∃ (addr : Nat) (d : Nat) (s : State), arrayDomain .mapped (addr / 8 * 8) = some d ∧ s.pdOn d = true ∧ addr / 8
    * 8 ∉ s.mem.suspects (addr / 8 * 8) 8) ∧
  (∃ (addr : Nat) (d : Nat) (array : SramArray) (s : State), array ≠ .mapped ∧ arrayDomain array (addr / 8 * 8) =
    some d ∧ s.pdOn d = true) ∧
  (∃ (addr : Nat) (s : State), s.ddrScrubs (addr / 64 * 64) = true ∧ addr / 64 * 64 ∈ s.scrubbed.mem.suspects
    (addr / 64 * 64) 64) ∧
  (∃ (addr : Nat) (s : State), s.ddrScrubs (addr / 64 * 64) = true ∧ addr / 64 * 64 ∉ s.scrubbed.mem.suspects
    (addr / 64 * 64) 64) ∧
  (∃ (t : Nat) (s : State), s.log.holdoffSince = some t ∧ t + s.reg Regs.errCorrectedHoldoff * 1000 ≤ s.now ∧
    s.log.correctedDue = false) ∧
  (∃ (t : Nat) (s : State), s.log.holdoffSince = some t ∧ t + s.reg Regs.errCorrectedHoldoff * 1000 ≤ s.now ∧
    s.log.correctedDue = true) :=
  ⟨⟨0xF000000007, 2, { live with mem := { live.mem with poison := [0xF000000000] } }, by decide +kernel⟩,
   ⟨0xF000000008, 2, { live with mem := { live.mem with poison := [0xF000000000] } }, by decide +kernel⟩,
   ⟨8, 41, .journal, live, by decide +kernel⟩,
   ⟨127, { live with mem := { live.mem with poison := [64] } }, by decide +kernel⟩,
   ⟨0, live, by decide +kernel⟩,
   ⟨0, { live with log := { live.log with holdoffSince := some 0 } }, by decide +kernel⟩,
   ⟨0, { live with log := { live.log with holdoffSince := some 0, correctedDue := true } }, by decide +kernel⟩⟩

/-- What PoolMemoryAndPinWrites asks before each of its conclusions is met. -/
theorem test_hyps_poolMemoryAndPinWrites :
  (∃ (p : Path) (k : Fin 4) (v : Nat) (x : Bytes) (s : State), s.offered p (0x2610 + k.val) 1 (toLe 1 v) = some x
    ∧ ofLe x = 1 ∧ s.flag (Regs.kvpEnable k.val) = false ∧ s.poolPlace k.val = true ∧ s.metaPlace k.val = true ∧
    s.poolClash k.val = none) ∧
  (∃ (p : Path) (k : Fin 4) (v : Nat) (x : Bytes) (s : State), s.offered p (0x2610 + k.val) 1 (toLe 1 v) = some x
    ∧ ofLe x = 0 ∧ s.flag (Regs.kvpEnable k.val) = true ∧ s.activeIn (some k.val) = 0) ∧
  (∃ (p : Path) (sc : Fin 8) (v : Nat) (x : Bytes) (s : State), s.offered p (0x2A28 + sc.val) 1 (toLe 2 v) = some
    x ∧ markOk (ofLe x) 0 = true ∧ markOk (ofLe x) 1 = true ∧ s.reg Regs.ddrWidth ≠ 1) ∧
  (∃ (p : Path) (v : Nat) (x : Bytes) (s : State), s.offered p 0x2A20 6 (toLe 8 v) = some x ∧ ofLe x ∉
    s.ddr.retired ∧ s.ddr.retired.length < 256 ∧ ofLe x % 4096 = 0 ∧ ofLe x < s.ddr.capacity ∧ overlaps (ofLe x)
    4096 s.driveLo s.driveLen = false ∧ clash s.bufferClaims 255 0 (ofLe x) 4096 = none) ∧
  (∃ (p : Path) (v : Nat) (x : Bytes) (s : State), s.offered p 0x2A20 7 (toLe 8 v) = some x ∧ ofLe x ∈
    s.ddr.retired) ∧
  (∃ (p : Path) (v : Nat) (x : Bytes) (s : State), s.offered p 0x2010 2 (toLe 4 v) = some x) ∧
  (∃ (p : Path) (v : Nat) (x : Bytes) (s : State), s.offered p 0x2A00 6 (toLe 1 v) = some x ∧ s.interleaveHeld =
    none) ∧
  (∃ (p : Path) (v : Nat) (x : Bytes) (s : State) (e : Reply), s.offered p 0x2A00 6 (toLe 1 v) = some x ∧
    s.interleaveHeld = some e) ∧
  (∃ (p : Path) (k : Fin 4) (v : Nat) (x : Bytes) (s : State), s.offered p (0x2C10 + k.val) 2 (toLe 1 v) = some x
    ∧ s.reg (Regs.tpinOwner k.val) = s.writer p ∧ s.reg (Regs.tpinOwner k.val) ≠ 0) ∧
  (∃ (p : Path) (m : Fin 2) (v : Nat) (x : Bytes) (s : State), s.offered p (0x2C20 + m.val) 3 (toLe 2 v) = some x
    ∧ obsListed (ofLe x) = true ∧ s.reg (Regs.obsOwner m.val) = s.writer p ∧ s.reg (Regs.obsOwner m.val) ≠ 0) :=
  ⟨⟨.bar0, 3, 1, [1], ((live.setReg (Regs.kvpFrames 3) 1).setReg (Regs.kvpBase 3) 0x4000000).setReg
    (Regs.kvpMetaBase 3) 0x3000000, by decide +kernel⟩,
   ⟨.bar0, 3, 0, [0], live.setReg (Regs.kvpEnable 3) 1, by decide +kernel, by decide +kernel, by decide +kernel,
    no_sequences (by rfl) _⟩,
   ⟨.bar0, 7, 0xFF09, toLe 2 0xFF09, live, by decide +kernel⟩,
   ⟨.bar0, 4096, toLe 8 4096, live, by decide +kernel⟩,
   ⟨.bar0, 4096, toLe 8 4096, { live with ddr := { live.ddr with retired := [4096] } }, by decide +kernel⟩,
   ⟨.bar0, 9, toLe 4 9, live, by decide +kernel⟩,
   ⟨.bar0, 1, [1], live, by decide +kernel⟩,
   ⟨.bar0, 1, [1], { live with drive := .sealed }, conflictKind 13 0, by decide +kernel⟩,
   ⟨.bar0, 3, 1, [1], live.setReg (Regs.tpinOwner 3) 1, by decide +kernel⟩,
   ⟨.bar0, 1, 0x50FF, toLe 2 0x50FF, live.setReg (Regs.obsOwner 1) 1, by decide +kernel⟩⟩

/-- What ApertureAndHostWindow asks before each of its conclusions is met. -/
theorem test_hyps_apertureAndHostWindow :
  (∃ (off : Nat) (len : Nat) (bs : Bytes) (s : State) (s1 : State), s.pdOn 44 = true ∧ off + len ≤ s.reg
    Regs.hifBar2Size ∧ s.readMem .bar2 none (s.reg Regs.hifApertureBase + off) len = (s1, .bytes bs [] none)) ∧
  (∃ (off : Nat) (len : Nat) (s : State) (s1 : State), s.pdOn 44 = true ∧ off + len ≤ s.reg Regs.hifBar2Size ∧
    s.readMem .bar2 none (s.reg Regs.hifApertureBase + off) len = (s1, .absent) ∧ s1.answer .bar2 (s.reg
    Regs.hifApertureBase + off) len false ≠ .off) ∧
  (∃ (off : Nat) (len : Nat) (s : State) (s1 : State), s.pdOn 44 = true ∧ off + len ≤ s.reg Regs.hifBar2Size ∧
    s.readMem .bar2 none (s.reg Regs.hifApertureBase + off) len = (s1, .absent) ∧ s1.answer .bar2 (s.reg
    Regs.hifApertureBase + off) len false = .off) ∧
  (∃ (off : Nat) (len : Nat) (s : State), s.pdOn 44 = true ∧ s.reg Regs.hifBar2Size < off + len) ∧
  (∃ (off : Nat) (data : Bytes) (s : State) (s1 : State), s.pdOn 44 = true ∧ off + data.length ≤ s.reg
    Regs.hifBar2Size ∧ s.writeMem .bar2 (s.reg Regs.hifApertureBase + off) data = (s1, .ok)) ∧
  (∃ (off : Nat) (data : Bytes) (s : State) (s1 : State), s.pdOn 44 = true ∧ off + data.length ≤ s.reg
    Regs.hifBar2Size ∧ (s.aer 12).writeMem .bar2 (s.reg Regs.hifApertureBase + off) data = (s1, .ok)) ∧
  (∃ (off : Nat) (data : Bytes) (ans : Answer) (s : State) (s1 : State), s.pdOn 44 = true ∧ off + data.length ≤
    s.reg Regs.hifBar2Size ∧ s.writeMem .bar2 (s.reg Regs.hifApertureBase + off) data = (s1, ans) ∧ ans ≠ .ok) ∧
  (∃ (s : State), s.pdOn 44 = false) ∧
  (∃ (k : Fin 64) (s : State), s.pdOn 44 = true ∧ 28 ≤ k.val ∧ k.val ≤ 37 ∧ s.reg Regs.hifBar2Size ≠ 2 ^ k.val) ∧
  (∃ (v : Nat) (s : State), s.pdOn 44 = true ∧ v < 2 ^ 64) ∧
  (∃ (r : Fin 64) (seq : Nat) (addr : Nat) (i : Item) (s : State), s.item? r.val seq = some i ∧ regionOf addr =
    .host) ∧
  (∃ (r : Fin 64) (seq : Nat) (addr : Nat) (s : State), s.item? r.val seq = none ∧ s.readsRecords r.val seq = true
    ∧ regionOf addr = .host) ∧
  (∃ (r : Fin 64) (seq : Nat) (addr : Nat) (g : Staging) (s : State), s.item? r.val seq = none ∧ s.readsRecords
    r.val seq = false ∧ s.boot.staging = some g ∧ s.stagingReads addr = true ∧ regionOf addr = .host) :=
  ⟨⟨2 ^ 30 - 1, 1, [0], live, live, by decide +kernel⟩,
   ⟨0, 1, live.setReg Regs.hifApertureBase (2 ^ 36), live.setReg Regs.hifApertureBase (2 ^ 36), by decide +kernel⟩,
   ⟨0, 1, live.setPd 42 { state := .off }, _, by decide +kernel, by decide +kernel, pair_snd (by decide +kernel),
    by decide +kernel⟩,
   ⟨2 ^ 30, 1, live, by decide +kernel⟩,
   ⟨2 ^ 30 - 1, [7], live, _, by decide +kernel, by decide +kernel, pair_snd (by decide +kernel)⟩,
   ⟨2 ^ 30 - 1, [7], live, _, by decide +kernel, by decide +kernel, pair_snd (by decide +kernel)⟩,
   ⟨0, [1], _, live.setReg Regs.hifApertureBase (2 ^ 36), _, by decide +kernel, by decide +kernel, pair_self,
    by decide +kernel⟩,
   ⟨live.setPd 44 { state := .off }, by decide +kernel⟩,
   ⟨37, live, by decide +kernel⟩,
   ⟨5, live, by decide +kernel⟩,
   ⟨0, 0, 0x8000000000, item none 0, runs live (item none 0) [], by decide +kernel⟩,
   ⟨3, 7, 0x8000000000, ((live.setRing 3 { seq := 7 }).setReg (Regs.ringSize 3) 64).setReg (Regs.ringTail 3) 1,
    by decide +kernel⟩,
   ⟨0, 0, 0x8000000000, ⟨1, [], 0, false⟩,
    { (live.setReg Regs.stageSrc 0x8000000000).setReg Regs.stageLen 64 with boot := { live.boot with staging := some ⟨1, [], 0, false⟩ } },
    by decide +kernel⟩⟩

/-- What LinkEventsAndDdrTraining asks before each of its conclusions is met. -/
theorem test_hyps_linkEventsAndDdrTraining :
  (∃ (rate : Fin 6) (width : Nat) (s : State), 3 ≤ rate.val ∧ width ∈ [1, 2, 4, 8] ∧ s.link.perst = false ∧ s.pdOn
    44 = true) ∧
  (∃ (s : State), s.flag Regs.hifLinkUp = true) ∧
  (∃ (s : State), s.pdOn 44 = true) ∧
  (∃ (s : State), s.pdOn 44 = true) ∧
  (∃ (sc : Fin 8) (s : State), (s.ddrPair (sc.val / 4) = .trained ∨ s.ddrPair (sc.val / 4) = .restored) ∧ s.pdOn
    (42 + sc.val / 4) = true) ∧
  (∃ (k : Fin 2) (s : State), s.trainingDue k.val = true) ∧
  (∃ (k : Fin 2) (s : State), s.trainingDue k.val = true) ∧
  (∃ (k : Fin 2) (s : State), s.trainingDue k.val = true ∧ s.trainsInFull k.val = false) ∧
  (∃ (k : Fin 2) (s : State), s.trainingDue k.val = true ∧ s.trainsInFull k.val = false) ∧
  (∃ (k : Fin 2) (s : State), s.trainsInFull k.val = true) ∧
  (∃ (s : State), s.driveSealed = false) ∧
  (∃ (s : State), s.driveSealed = true ∧ s.pdOn 1 = false) :=
  ⟨⟨3, 8, live, by decide +kernel⟩,
   ⟨live.setReg Regs.hifLinkUp 1, by decide +kernel⟩,
   ⟨live, by decide +kernel⟩,
   ⟨live, by decide +kernel⟩,
   ⟨7, live, by decide +kernel⟩,
   ⟨1, { live with ddr := { live.ddr with pair1 := .untrained } }, by decide +kernel⟩,
   ⟨1, { live with ddr := { live.ddr with pair1 := .untrained } }, by decide +kernel⟩,
   ⟨1, { live with ddr := { live.ddr with pair1 := .selfRefresh, restoring := [1] } }, by decide +kernel⟩,
   ⟨1, { live with ddr := { live.ddr with pair1 := .selfRefresh, restoring := [1] } }, by decide +kernel⟩,
   ⟨1, { live with ddr := { live.ddr with pair1 := .untrained } }, by decide +kernel⟩,
   ⟨live, by decide +kernel⟩,
   ⟨{ live.setPd 1 { state := .off } with drive := .sealed }, by decide +kernel⟩⟩

/-- What PacketsEnterAndJtagFollowsAccess asks before each of its conclusions is met. -/
theorem test_hyps_packetsEnterAndJtagFollowsAccess :
  (∃ (k : Fin 48) (port : Port) (e : Nat) (pkt : Packet) (l : Nat × Nat) (s : State), linkInto k.val (portNumber
    port) = some l ∧ kfind (s.stop k.val).retry (portNumber port) = none ∧ copyGood e = true ∧ s.mayEnter k.val
    (portNumber port) pkt 0 = true ∧ (s.stop k.val).partial_ (portNumber port) pkt.traffic = none ∧ (s.lastSecond
    (kget (s.stop l.1).poisons l.2 [])).length < 2 ∧ (s.lastSecond (kget (s.stop l.1).retries l.2 [])).length ≤ 1000
    ∧ pkt.item ≠ none ∧ pkt.poisoned = []) ∧
  (∃ (k : Fin 48) (port : Port) (e : Nat) (pkt : Packet) (n : Fin 4) (l : Nat × Nat) (h : Held) (s : State),
    linkInto k.val (portNumber port) = some l ∧ kfind (s.stop k.val).retry (portNumber port) = none ∧ copyGood e =
    true ∧ s.mayEnter k.val (portNumber port) pkt n.val = true ∧ (s.stop k.val).partial_ (portNumber port)
    pkt.traffic = some h ∧ (s.lastSecond (kget (s.stop l.1).poisons l.2 [])).length < 2 ∧ (s.lastSecond (kget
    (s.stop l.1).retries l.2 [])).length ≤ 1000 ∧ pkt.item ≠ none ∧ pkt.poisoned = [] ∧ h.pkt.poisoned = []) ∧
  (∃ (k : Fin 48) (port : Port) (e : Nat) (pkt : Packet) (n : Fin 4) (l : Nat × Nat) (s : State), linkInto k.val
    (portNumber port) = some l ∧ kfind (s.stop k.val).retry (portNumber port) = none ∧ copyGood e = false ∧
    s.mayEnter k.val (portNumber port) pkt n.val = true ∧ (s.lastSecond (kget (s.stop l.1).poisons l.2 [])).length <
    2 ∧ (s.lastSecond (kget (s.stop l.1).retries l.2 [])).length < 1000 ∧ pkt.item ≠ none ∧ s.mem.flaws = []) ∧
  (∃ (k : Fin 48) (port : Port) (e : Nat) (pkt : Packet) (n : Fin 4) (l : Nat × Nat) (s : State), linkInto k.val
    (portNumber port) = some l ∧ kfind (s.stop k.val).retry (portNumber port) = some ⟨pkt, n.val, 3⟩ ∧ copyGood e =
    false ∧ s.mayEnter k.val (portNumber port) pkt n.val = true ∧ pkt.item ≠ none ∧ s.mem.flaws = []) ∧
  (∃ (k : Fin 48) (port : Port) (pkt : Packet) (s : State), (linkInto k.val (portNumber port) = none ∨ s.pdOn 41 =
    false ∨ packetLawful pkt = false ∨ (s.stop k.val).hasCredit k.val (portNumber port) pkt.traffic = false)) ∧
  (∃ (s : State), s.flag Regs.kpArmed = true ∧ s.pdOn 46 = true) ∧
  (∃ (s : State), s.flag Regs.kpArmed = false ∧ s.lifecycle ≠ 1 ∧ s.lifecycle ≠ 2 ∧ s.pdOn 46 = true) ∧
  (∃ (s : State), s.pdOn 46 = true) :=
  ⟨⟨1, .xMinus, 0, ⟨0, 47, .dispatcher, .req, .write, 64, 0, 1, some (3, 0), List.replicate 65 1, []⟩, (0, 0),
    live, by decide +kernel⟩,
   ⟨47, .xMinus, 0, ⟨0, 47, .dispatcher, .req, .write, 64, 0, 1, some (3, 0), List.replicate 65 1, []⟩, 1, (46, 0),
    ⟨1, 4, ⟨0, 47, .dispatcher, .req, .write, 64, 0, 1, some (3, 0), List.replicate 65 1, []⟩, 1, 1⟩, live.setStop
    47
    { held := [⟨1, 4, ⟨0, 47, .dispatcher, .req, .write, 64, 0, 1, some (3, 0), List.replicate 65 1, []⟩, 1, 1⟩] },
    by decide +kernel⟩,
   ⟨1, .xMinus, 1, ⟨0, 47, .dispatcher, .req, .write, 64, 0, 1, some (3, 0), List.replicate 65 1, []⟩, 0, (0, 0),
    live, by decide +kernel⟩,
   ⟨1, .xMinus, 1, ⟨0, 47, .dispatcher, .req, .write, 64, 0, 1, some (3, 0), List.replicate 65 1, []⟩, 0, (0, 0),
    live.setStop 1
    { retry := [(1, ⟨⟨0, 47, .dispatcher, .req, .write, 64, 0, 1, some (3, 0), List.replicate 65 1, []⟩, 0, 3⟩)] },
    by decide +kernel⟩,
   ⟨0, .xMinus, pkt, live, by decide +kernel⟩,
   ⟨live.setReg Regs.kpArmed 1, by decide +kernel⟩,
   ⟨live, by decide +kernel⟩,
   ⟨live, by decide +kernel⟩⟩

/-- What PinsShowTheirSources asks before each of its conclusions is met. -/
theorem test_hyps_pinsShowTheirSources :
  (∃ (s : State) (m : Nat), (s.flag (Regs.obsEnable m) = false ∨ bits (s.reg (Regs.obsSelect m)) 15 12 = 0 ∨
    s.pdOn 46 = false)) ∧
  (∃ (s : State) (m : Nat) (g : Nat), s.drivesPins 46 = true ∧ s.flag (Regs.obsEnable m) = true ∧ s.lifeLocked
    (0x2C20 + m) 2 = false ∧ bits (s.reg (Regs.obsSelect m)) 15 12 = 1 ∧ bits (s.reg (Regs.obsSelect m)) 11 0 = g) ∧
  (∃ (s : State) (m : Nat) (a : Nat) (b : Nat), s.drivesPins 46 = true ∧ s.flag (Regs.obsEnable m) = true ∧
    s.lifeLocked (0x2C20 + m) 2 = false ∧ bits (s.reg (Regs.obsSelect m)) 15 12 = 2 ∧ bits (s.reg (Regs.obsSelect
    m)) 11 0 = a ∧ b < 8 ∧ 8 * a + b < 47) ∧
  (∃ (s : State), s.drivesPins 1 = true ∧ s.tapNow ≠ .extest ∧ s.tapNow ≠ .clamp ∧ s.tapNow ≠ .highz) ∧
  (∃ (s : State), s.flag Regs.kpArmed = true) ∧
  (∃ (s : State), s.pins.io33 = false) ∧
  (∃ (s : State) (t : Nat), s.drivesPins 1 = true ∧ s.pins.io33 = true ∧ kget s.pins.tpinActive t 0 = 1) :=
  ⟨⟨live, 0, by decide +kernel⟩,
   ⟨(live.setReg (Regs.obsEnable 1) 1).setReg (Regs.obsSelect 1) 0x101F, 1, 31, by decide +kernel⟩,
   ⟨(live.setReg (Regs.obsEnable 0) 1).setReg (Regs.obsSelect 0) 0x2005, 0, 5, 6, by decide +kernel⟩,
   ⟨live, by decide +kernel⟩,
   ⟨live.setReg Regs.kpArmed 1, by decide +kernel⟩,
   ⟨{ live with pins := { live.pins with io33 := false } }, by decide +kernel⟩,
   ⟨{ live with pins := { live.pins with tpinActive := [(0, 1)] } }, 0, by decide +kernel⟩⟩

/-- What PowerChangesAndCap asks before each of its conclusions is met. -/
theorem test_hyps_powerChangesAndCap :
  (∃ (p : Path) (d : Fin 47) (data : Bytes) (x : Bytes) (s : State), s.offered p (0x2110 + d.val) 1 data = some x
    ∧ s.pdRefused (fun k => if k = d.val then some (pdStateOf (ofLe x)) else none) = none) ∧
  (∃ (p : Path) (data : Bytes) (x : Bytes) (s : State), s.offered p 0x2100 5 data = some x ∧ x.all (fun b => [0,
    1, 2, 0xFF].contains b.toNat) = true ∧ s.pdRefused (fun d =>
    match x[d]? with | some b => if b = 0xFF then none else some (pdStateOf b.toNat) | none => none) = none) ∧
  (∃ (p : Path) (data : Bytes) (s : State), s.offered p 0x2101 1 data = some data ∧ data.length = 47 ∧
    s.sleepRefused data = none) ∧
  (∃ (p : Path) (data : Bytes) (x : Bytes) (s : State) (e : Reply), s.offered p 0x2101 1 data = some x ∧
    data.length = 47 ∧ s.sleepRefused data = some e) ∧
  (∃ (p : Path) (v : Nat) (x : Bytes) (s : State), s.offered p 0x2B00 0x0B (toLe 1 v) = some x ∧ ofLe x = 1) ∧
  (∃ (d : Fin 47) (v : PdState) (s : State), (s.pd d.val).target = some v ∧ (s.pd d.val).forced = false ∧ (s.pd
    d.val).begun = true ∧ s.stepMayEnd d.val v = true ∧ (s.pdStepDone d.val).power.phase = .awake) ∧
  (∃ (d : Fin 47) (v : PdState) (s : State), (s.pd d.val).target = some v ∧ (s.pd d.val).forced = false ∧ (s.pd
    d.val).begun = true ∧ s.stepMayEnd d.val v = false) ∧
  (∃ (d : Fin 47) (v : PdState) (s : State), (s.pd d.val).target = some v ∧ (s.pd d.val).forced = false ∧ (s.pd
    d.val).begun = false ∧ s.mayStart d.val v = true ∧ (s.pdStarts d.val).stepMayEnd d.val v = false) ∧
  (∃ (d : Fin 47) (v : PdState) (s : State), (s.pd d.val).target = some v ∧ (s.pd d.val).forced = false ∧ (s.pd
    d.val).begun = false ∧ s.mayStart d.val v = false) ∧
  (∃ (mW : Nat) (g : Nat) (s : State) (t : State), ((∀ l, s.power.capAt = some l → l + 100000 ≤ s.now)) ∧ t =
    s.setPower { s.power with samples := (mW :: s.power.samples).take 10, capAt := some s.now } ∧ t.overCap = true ∧
    highestBy t.capRank (t.plotGroups.filter (fun k => decide (t.reg (Regs.gafferLevelNow k) ≠ 0))) = some g) ∧
  (∃ (mW : Nat) (s : State) (t : State), ((∀ l, s.power.capAt = some l → l + 100000 ≤ s.now)) ∧ t = s.setPower
    { s.power with samples := (mW :: s.power.samples).take 10, capAt := some s.now } ∧ t.overCap = true ∧ highestBy
    t.capRank (t.plotGroups.filter (fun k => decide (t.reg (Regs.gafferLevelNow k) ≠ 0))) = none ∧
    t.power.overrunTick = 9) ∧
  (∃ (l : Nat) (s : State), s.power.capAt = some l ∧ s.now < l + 100000) ∧
  (∃ (g : Nat) (s : State), s.power.samples ≠ [] ∧ s.underCap = true ∧ ((∀ l, s.power.raiseAt = some l → l +
    1000000 ≤ s.now)) ∧ highestBy (fun k => 2000 - s.capRank k) (s.plotGroups.filter (fun k => bit (s.reg
    Regs.pwrCapHeld) k)) = some g) ∧
  (∃ (g : Nat) (v : Nat) (s : State) (t : State), v = min (s.reg (Regs.gafferLevel g)) (s.reg (Regs.gafferLevelNow
    g) + 1) ∧ t = (s.setGaffer g { s.gaffer g with raiseTo := some v }).beginLevel g ∧ (t.gaffer g).levelAt ≤ s.now) ∧
  (∃ (g : Nat) (v : Nat) (s : State) (t : State), v = min (s.reg (Regs.gafferLevel g)) (s.reg (Regs.gafferLevelNow
    g) + 1) ∧ t = (s.setGaffer g { s.gaffer g with raiseTo := some v }).beginLevel g ∧ s.now < (t.gaffer g).levelAt) :=
  ⟨⟨.bar0, 46, [2], [2], live, by decide +kernel⟩,
   ⟨.bar0, List.replicate 47 0xFF, List.replicate 47 0xFF, live, by decide +kernel⟩,
   ⟨.bar0, 0 :: List.replicate 46 2, (live.setReg Regs.pwrSmbWake (2 ^ 15)).setReg Regs.sleepClockSrc 0,
    by decide +kernel⟩,
   ⟨.bar0, List.replicate 47 0, List.replicate 47 0, live, outOfRange, by decide +kernel⟩,
   ⟨.canSafety, 1, [1], live, by decide +kernel⟩,
   ⟨46, .off, live.setPd 46 { state := .on, target := some .off, begun := true }, by decide +kernel⟩,
   ⟨1, .off, live.setPd 1 { state := .on, target := some .off, begun := true }, by decide +kernel⟩,
   ⟨1, .off, live.setPd 1 { state := .on, target := some .off }, by decide +kernel⟩,
   ⟨41, .off, live.setPd 41 { state := .on, target := some .off }, by decide +kernel⟩,
   ⟨10 ^ 9, _, live, _, none_all (by decide +kernel), rfl, by decide +kernel, (some_get (h :=
    (by decide +kernel)))⟩,
   ⟨10 ^ 9, { State.reset with power := { overrunTick := 9 } }, _, none_all (by decide +kernel), rfl,
    by decide +kernel⟩,
   ⟨4000000000, { live with power := { live.power with capAt := some 4000000000 } }, by decide +kernel⟩,
   ⟨_, { live.setReg Regs.pwrCapHeld (2 ^ 31) with power := { live.power with samples := [0] } },
    by decide +kernel, by decide +kernel, none_all (by decide +kernel), (some_get (h := (by decide +kernel)))⟩,
   ⟨0, _, live, _, rfl, rfl, by decide +kernel⟩,
   ⟨0, _,
    { (live.setReg (Regs.gafferLevel 0) 4).setReg (Regs.gafferLevelNow 0) 0 with pins := { live.pins with vcoreSel := 0 } },
    _, rfl, rfl, by decide +kernel⟩⟩

/-- What SleepAndWake asks before each of its conclusions is met. -/
theorem test_hyps_sleepAndWake :
  (∃ (s : State), s.power.phase = .entering 2 ∧ s.power.wakeDue = false ∧ ((∀ d ∈ leavingOrder, (s.pd d).target =
    none))) ∧
  (∃ (s : State), s.power.phase = .entering 3 ∧ s.power.since * 32768 + 4000000000 ≤ s.now * 32768 ∧
    s.power.wakeDue = false ∧ s.levelWake false = false ∧ s.levelWake true = false ∧ s.alarmDue = none) ∧
  (∃ (byte : Nat) (s : State), s.power.comparator = true ∧ s.pins.io33 = true ∧ bit (s.reg Regs.pwrSmbWake) 15 =
    true ∧ (bits byte 7 1 ^^^ bits (s.reg Regs.pwrSmbWake) 6 0) &&& bits (s.reg Regs.pwrSmbWake) 14 8 = 0 ∧
    s.power.phase = .asleep) ∧
  (∃ (level : Bool) (s : State), s.pins.io33 = true ∧ bit (s.reg Regs.wake1Cfg) 1 = level) ∧
  (∃ (level : Bool) (s : State) (t : State), s.pins.io33 = true ∧ bit (s.reg Regs.wake0Cfg) 1 ≠ level ∧
    s.pins.wake0 ≠ level ∧ t = { s with pins := { s.pins with wake0 := level } } ∧ bit (s.reg Regs.wake0Cfg) 0 =
    true ∧ bits (s.reg Regs.wake0Cfg) 4 3 = 0) ∧
  (∃ (a : Fin 8) (n : Nat) (s : State), kfind s.sundial.alarmWake a.val = some n ∧ s.power.phase = .asleep ∧ n ≤
    s.sleepCount) ∧
  (∃ (s : State), s.power.phase = .waking 1 ∧ s.power.tries < 3) ∧
  (∃ (s : State), s.power.phase = .waking 2) ∧
  (∃ (s : State), s.power.phase = .waking 3) ∧
  (∃ (s : State), s.power.phase = .waking 4) ∧
  (∃ (s : State), s.power.phase = .waking 5 ∧ s.power.gatehouseTry = false) ∧
  (∃ (n : Fin 242) (s : State), s.power.phase ≠ .waking 5 ∧ s.calibrationDue n.val = true) ∧
  (∃ (reason : Fin 6) (s : State), s.tryFails reason.val = true ∧ s.power.gatehouseTry = false) ∧
  (∃ (s : State) (t : State), s.power.phase = .ignored ∧ s.power.since + 1000000000 ≤ s.now ∧ t = s.setPower
    { s.power with phase := .asleep, since := s.now, tries := 0, gatehouseTry := false, comparator := true }) :=
  ⟨⟨sleepS (.entering 2), by decide +kernel⟩,
   ⟨sleepS (.entering 3), by decide +kernel⟩,
   ⟨0, (sleepS .asleep).setReg Regs.pwrSmbWake (2 ^ 15), by decide +kernel⟩,
   ⟨false, live, by decide +kernel⟩,
   ⟨true, live.setReg Regs.wake0Cfg 1, _, by decide +kernel, by decide +kernel, by decide +kernel, rfl,
    by decide +kernel⟩,
   ⟨7, 0, { sleepS .asleep with sundial := { live.sundial with alarmWake := [(7, 0)] } }, by decide +kernel⟩,
   ⟨{ live with power := { live.power with phase := .waking 1, tries := 2 } }, by decide +kernel⟩,
   ⟨sleepS (.waking 2), by decide +kernel⟩,
   ⟨sleepS (.waking 3), by decide +kernel⟩,
   ⟨sleepS (.waking 4), by decide +kernel⟩,
   ⟨sleepS (.waking 5), by decide +kernel⟩,
   ⟨241, live, by decide +kernel⟩,
   ⟨1, sleepS (.waking 2), by decide +kernel⟩,
   ⟨sleepS .ignored, _, by decide +kernel, by decide +kernel, rfl⟩⟩

/-- What SuppliesClocksAndResets asks before each of its conclusions is met. -/
theorem test_hyps_suppliesClocksAndResets :
  (∃ (cause : Fin 5) (s : State), cause.val ≠ 0 ∧ ((cause.val = 2 → s.power.lowPower = true)) ∧ ((cause.val = 3 →
    s.power.lowPower = false))) ∧
  (∃ (s : State), s.boot.staging = none ∧ s.boot.fuseJobs = []) ∧
  (∃ (s : State), s.pins.io33 = true) ∧
  (∃ (s : State), s.pins.pgSram = true ∧ s.pins.pmicSleep = false) ∧
  (∃ (s : State), s.pins.pgSram = true ∧ s.pins.pmicSleep = true) ∧
  (∃ (s : State), s.pins.pgCore = true ∧ s.pins.pmicSleep = false) ∧
  (∃ (s : State), s.flag Regs.sleepClockSrc = false) ∧
  (∃ (s : State), s.pins.resetN = false) ∧
  (∃ (s : State), s.boot.phase = .started ∧ s.boot.since + 120000000 ≤ s.now ∧ s.keeper.gardenerOff = false) ∧
  (∃ (s : State), (s.boot.phase ≠ .started ∨ s.now < s.boot.since + 120000000 ∨ s.keeper.gardenerOff = true)) ∧
  (∃ (s : State) (t : State), t = s.settlesForced 45 3 ∧ t.paths.serving = false ∧ t.boot.phase = .started ∧
    (t.pdOn 45 = true ∨ (t.keeper.gardenerOff = true ∧ t.boot.coldRestart = true))) ∧
  (∃ (s : State), (s.settlesForced 45 3).paths.serving = true) :=
  ⟨⟨1, live, by decide +kernel⟩,
   ⟨live, by decide +kernel⟩,
   ⟨live, by decide +kernel⟩,
   ⟨live, by decide +kernel⟩,
   ⟨{ live with pins := { live.pins with pmicSleep := true } }, by decide +kernel⟩,
   ⟨live, by decide +kernel⟩,
   ⟨live, by decide +kernel⟩,
   ⟨State.reset, by decide +kernel⟩,
   ⟨{ live with boot := { live.boot with phase := .started } }, by decide +kernel⟩,
   ⟨live, by decide +kernel⟩,
   ⟨{ live with boot := { live.boot with phase := .started }, paths := { live.paths with serving := false } }, _,
    rfl, by decide +kernel⟩,
   ⟨live, by decide +kernel⟩⟩

/-- What StagingAndEngines asks before each of its conclusions is met. -/
theorem test_hyps_stagingAndEngines :
  (∃ (p : Path) (x : Bytes) (s : State), s.offered p 0x2B01 3 [1] = some x ∧ ofLe x = 1 ∧ s.stageRefused 1 = none) ∧
  (∃ (p : Path) (b : Bool) (x : Bytes) (s : State), s.offered p 0x2B01 3 [if b then 3 else 2] = some x ∧ ofLe x =
    (if b then 3 else 2) ∧ s.stageRefused (if b then 3 else 2) = none) ∧
  (∃ (p : Path) (x : Bytes) (s : State), s.offered p 0x2B01 3 [4] = some x ∧ ofLe x = 4 ∧ s.stageRefused 4 = none) ∧
  (∃ (g : Staging) (s : State), s.boot.staging = some g ∧ g.failed = false ∧ g.reason ≠ 0) ∧
  (∃ (g : Staging) (s : State), s.boot.staging = some g ∧ g.failed = false ∧ g.reason = 0 ∧ g.action = 1) ∧
  (∃ (g : Staging) (s : State), s.boot.staging = some g ∧ g.failed = false ∧ g.reason = 0 ∧ g.action = 4) ∧
  (∃ (g : Staging) (s : State), s.boot.staging = some g ∧ g.failed = false ∧ g.reason = 0 ∧ (g.action = 2 ∨
    g.action = 3)) ∧
  (∃ (g : Staging) (s : State) (t : State), s.boot.staging = some g ∧ g.failed = false ∧ g.reason = 0 ∧ (g.action
    = 2 ∨ g.action = 3) ∧ t = s.programs ((g.action - 2) * 0x1000000) g.image) ∧
  (∃ (g : Staging) (s : State), s.boot.staging = some g ∧ g.failed = true) ∧
  (∃ (j : FuseJob) (rest : List FuseJob) (s : State), s.boot.fuseJobs = j :: rest) ∧
  (∃ (bs : Bytes) (e : Option Nat) (s : State) (s1 : State), s.drive = .sealing ∧ s.readMem .gardener none
    s.driveLo s.driveLen = (s1, .bytes bs [] e)) :=
  ⟨⟨.bar0, [1], live, by decide +kernel⟩,
   ⟨.bar0, true, [3], live, by decide +kernel⟩,
   ⟨.bar0, [4], shiftS .gatehouse, by decide +kernel⟩,
   ⟨⟨1, [], 7, false⟩, { live with boot := { live.boot with staging := some ⟨1, [], 7, false⟩ } },
    by decide +kernel⟩,
   ⟨⟨1, [], 0, false⟩, { live with boot := { live.boot with staging := some ⟨1, [], 0, false⟩ } },
    by decide +kernel⟩,
   ⟨⟨4, [], 0, false⟩, { live with boot := { live.boot with staging := some ⟨4, [], 0, false⟩ } },
    by decide +kernel⟩,
   ⟨⟨2, [], 0, false⟩, { live with boot := { live.boot with staging := some ⟨2, [], 0, false⟩ } },
    by decide +kernel⟩,
   ⟨⟨2, [], 0, false⟩, { live with boot := { live.boot with staging := some ⟨2, [], 0, false⟩ } }, _,
    by decide +kernel, by decide +kernel, by decide +kernel, by decide +kernel, rfl⟩,
   ⟨⟨1, [], 0, true⟩, { live with boot := { live.boot with staging := some ⟨1, [], 0, true⟩ } }, by decide +kernel⟩,
   ⟨.svn 1, [], { live with boot := { live.boot with fuseJobs := [.svn 1] } }, by decide +kernel⟩,
   ⟨[], none, { live with drive := .sealing }, { live with drive := .sealing }, by decide +kernel⟩⟩

/-- What FuseAndTokenCommands asks before each of its conclusions is met. -/
theorem test_hyps_fuseAndTokenCommands :
  (∃ (p : Path) (v : Nat) (x : Bytes) (s : State), s.offered p 0x2B00 0x0C (toLe 1 v) = some x ∧ ofLe x = 1 ∧
    s.boot.fuses.svn < s.reg Regs.bootSvn ∧ s.supplyRefused = none) ∧
  (∃ (p : Path) (v : Nat) (x : Bytes) (s : State), s.offered p 0x2B02 2 (toLe 1 v) = some x ∧ ofLe x = 1 ∧
    s.fusesToBe.lifecycle = 0 ∧ s.boot.fuses.keyHash ≠ [] ∧ s.supplyRefused = none) ∧
  (∃ (p : Path) (v : Nat) (x : Bytes) (s : State), s.offered p 0x2B02 2 (toLe 1 v) = some x ∧ ofLe x = 3 ∧
    (s.fusesToBe.lifecycle = 0 ∨ (s.fusesToBe.lifecycle = 1 ∧ s.boot.unlocked = false)) ∧ s.supplyRefused = none) ∧
  (∃ (p : Path) (v : Nat) (x : Bytes) (s : State), s.offered p 0x2B02 2 (toLe 1 v) = some x ∧ ((ofLe x = 1 ∧
    s.fusesToBe.lifecycle ≠ 0) ∨ 2 ≤ s.fusesToBe.lifecycle)) ∧
  (∃ (p : Path) (v : Nat) (x : Bytes) (s : State), s.offered p 0x2B02 7 (toLe 1 v) = some x ∧ s.runningKey = none
    ∧ (List.range 4).any (fun k => (kfind s.boot.fuses.keyHash k).isSome && !bit (s.fusesToBe.revoked ||| ofLe x) k)
    = true ∧ s.supplyRefused = none) ∧
  (∃ (p : Path) (k : Fin 4) (data : Bytes) (x : Bytes) (s : State), s.offered p 0x2B02 (3 + k.val) data = some x ∧
    s.lifecycle = 0 ∧ s.supplyRefused = none) ∧
  (∃ (p : Path) (data : Bytes) (x : Bytes) (s : State), s.offered p 0x2B02 8 data = some x ∧ s.lifecycle = 0 ∧
    s.supplyRefused = none) ∧
  (∃ (p : Path) (data : Bytes) (x : Bytes) (s : State), s.offered p 0x2B03 2 data = some x ∧ s.lifecycle = 0 ∧
    s.supplyRefused = none) ∧
  (∃ (p : Path) (data : Bytes) (x : Bytes) (s : State), s.offered p 0x2B03 4 data = some x ∧ s.tokenGood x = true
    ∧ s.lifecycle = 1 ∧ s.reg Regs.kpArmed = 0 ∧ s.inLease = false) :=
  ⟨⟨.bar0, 1, [1], fusedS {}, by decide +kernel⟩,
   ⟨.bar0, 1, [1], fusedS { keyHash := [(0, [])] }, by decide +kernel⟩,
   ⟨.bar0, 3, [3], fusedS { lifecycle := 1 }, by decide +kernel⟩,
   ⟨.bar0, 1, [1], fusedS { lifecycle := 1 }, by decide +kernel⟩,
   ⟨.bar0, 1, [1], fusedS { keyHash := [(3, [])] }, by decide +kernel⟩,
   ⟨.bar0, 3, List.replicate 48 7, List.replicate 48 7, live, by decide +kernel⟩,
   ⟨.bar0, List.replicate 48 7, List.replicate 48 7, live, by decide +kernel⟩,
   ⟨.bar0, [], [], live, by decide +kernel⟩,
   ⟨.bar0, token, token, fusedS { lifecycle := 1, debugHash := some (sha384 (slice token 48 96)) },
    by decide +kernel⟩⟩

/-- What LeaseAndSealCommands asks before each of its conclusions is met. -/
theorem test_hyps_leaseAndSealCommands :
  (∃ (p : Path) (x : Bytes) (s : State), s.offered p 0x2B10 1 [1] = some x ∧ ofLe x = 1 ∧ s.leaseRefused = none) ∧
  (∃ (p : Path) (x : Bytes) (s : State) (e : Reply), s.offered p 0x2B10 1 [1] = some x ∧ ofLe x = 1 ∧
    s.leaseRefused = some e) ∧
  (∃ (p : Path) (x : Bytes) (s : State), s.offered p 0x2B10 1 [2] = some x ∧ ofLe x = 2 ∧ s.shift.phase = .lease) ∧
  (∃ (p : Path) (x : Bytes) (s : State), s.offered p 0x2B10 1 [3] = some x ∧ ofLe x = 3 ∧ s.shift.phase = .lease) ∧
  (∃ (p : Path) (x : Bytes) (s : State), s.offered p 0x2B10 5 [1] = some x ∧ ofLe x = 1 ∧ s.shift.phase = .lease ∧
    s.paths.serving = true) ∧
  (∃ (p : Path) (v : Nat) (x : Bytes) (s : State), s.offered p 0x2B08 3 (toLe 1 v) = some x ∧ ofLe x = 1 ∧ s.reg
    Regs.drSize ≠ 0 ∧ s.reg Regs.ddrTrainState ≠ 0 ∧ s.inLease = false ∧ s.driveSealed = false) ∧
  (∃ (p : Path) (v : Nat) (x : Bytes) (s : State), s.offered p 0x2B08 4 (toLe 1 v) = some x ∧ ofLe x = 1 ∧
    s.inLease = false) ∧
  (∃ (p : Path), p ≠ .canSafety ∧ p ≠ .keeper) :=
  ⟨⟨.bar0, [1], leaseS, by decide +kernel⟩,
   ⟨.bar0, [1], live, conflictObject Regs.lcState.key, by decide +kernel⟩,
   ⟨.bar0, [2], shiftS .lease, by decide +kernel⟩,
   ⟨.bar0, [3], shiftS .lease, by decide +kernel⟩,
   ⟨.canSafety, [1], shiftS .lease, by decide +kernel⟩,
   ⟨.bar0, 1, [1], (live.setReg Regs.drSize 1).setReg Regs.ddrTrainState 1, by decide +kernel⟩,
   ⟨.canSafety, 1, [1], live, by decide +kernel⟩,
   ⟨.bar0, by decide +kernel⟩⟩

/-- What LeaseStepsComplete asks before each of its conclusions is met. -/
theorem test_hyps_leaseStepsComplete :
  (∃ (s : State), s.shift.phase = .starting 1 ∧ s.disp.items = []) ∧
  (∃ (s : State), s.shift.phase = .starting 3 ∧ s.paths.serving = true) ∧
  (∃ (code : Fin 7) (s : State), code.val ≠ 0 ∧ s.shift.phase = .lease) ∧
  (∃ (code : Fin 7) (k : Nat) (s : State), code.val ≠ 0 ∧ s.shift.phase = .preempting k ∧ (s.shift.since ≠ s.now ∨
    s.shift.endReason ≤ code.val)) ∧
  (∃ (code : Fin 7) (k : Nat) (s : State), code.val ≠ 0 ∧ s.shift.phase = .preempting k ∧ s.shift.since = s.now ∧
    code.val < s.shift.endReason) ∧
  (∃ (s : State), s.shift.phase = .preempting 1 ∧ s.disp.items = [] ∧ s.shift.budget = 0) ∧
  (∃ (q : Nat) (slot0 : Nat) (t : State) (good : Bool) (s : State), s.shift.phase = .preempting 3 ∧ s.shift.since
    + 5000000 ≤ s.now ∧ s.now < s.shift.since + 5000000 + s.shift.budget * 1000000 ∧ s.exportEntry s.kv.exportAt =
    some (q, slot0) ∧ s.exportSequence q slot0 = (t, good)) ∧
  (∃ (s : State), s.shift.phase = .preempting 3 ∧ s.shift.since + 5000000 + s.shift.budget * 1000000 ≤ s.now) ∧
  (∃ (s : State), s.shift.phase = .preempting 3 ∧ s.shift.since + 5000000 + s.shift.budget * 1000000 ≤ s.now) ∧
  (∃ (s : State), s.now < s.shift.since + 5000000 + s.shift.budget * 1000000) ∧
  (∃ (k : Nat) (s : State), s.shift.phase = .preempting k ∧ k ≠ 4) ∧
  (∃ (s : State), (s.shift.phase = .preempting 4 ∨ s.shift.phase = .closing 3) ∧ (s.keeper.damage = false ∨ s.pdOn
    1 = false ∨ s.keeper.phase ≠ .parked)) ∧
  (∃ (s : State), (s.shift.phase = .preempting 4 ∨ s.shift.phase = .closing 3) ∧ s.keeper.damage = true ∧ s.pdOn 1
    = true ∧ s.keeper.phase = .parked) ∧
  (∃ (s : State), s.shift.quarantine = true ∧ s.ddrScrubbable = true ∧ (s.gardenerServes = true ∨
    s.keeper.gardenerOff = true)) ∧
  (∃ (s : State), s.shift.phase = .closing 1 ∧ (s.disp.items = [] ∨ s.shift.since + 100000000 ≤ s.now)) :=
  ⟨⟨shiftS (.starting 1), by decide +kernel⟩,
   ⟨shiftS (.starting 3), by decide +kernel⟩,
   ⟨6, shiftS .lease, by decide +kernel⟩,
   ⟨1, 4, shiftS (.preempting 4), by decide +kernel⟩,
   ⟨1, 4, { live with shift := { live.shift with phase := .preempting 4, since := 4000000000, endReason := 255 } },
    by decide +kernel⟩,
   ⟨shiftS (.preempting 1), by decide +kernel⟩,
   ⟨0, 0, _, _,
    { (shiftS (.preempting 3)).setBlob Blobs.arbExportList (List.replicate 8 0) with shift := { live.shift with phase := .preempting 3, budget := 5000 } },
    by decide +kernel, by decide +kernel, by decide +kernel, by decide +kernel, pair_self⟩,
   ⟨shiftS (.preempting 3), by decide +kernel⟩,
   ⟨shiftS (.preempting 3), by decide +kernel⟩,
   ⟨{ live with shift := { live.shift with since := 4000000000 } }, by decide +kernel⟩,
   ⟨3, shiftS (.preempting 3), by decide +kernel⟩,
   ⟨shiftS (.closing 3), by decide +kernel⟩,
   ⟨{ shiftS (.closing 3) with keeper := { live.keeper with phase := .parked, damage := true } },
    by decide +kernel⟩,
   ⟨{ live with shift := { live.shift with quarantine := true } }, by decide +kernel⟩,
   ⟨shiftS (.closing 1), by decide +kernel⟩⟩

/-- What VectorArithmetic asks inside its two clauses is met for each of its instructions. -/
theorem test_hyps_vectorOps :
    (∀ op ∈ [0x10, 0x11, 0x12, 0x13, 0x14, 0x15, 0x16, 0x17, 0x18, 0x19, 0x20, 0x21, 0x22, 0x30, 0x31],
      (vecS op).vecAt (.gaffer 0) op (vecV op) vecI op) ∧
    (∀ op ∈ [0x10, 0x11, 0x12, 0x13, 0x30], (vecS op).vecWhole (.gaffer 0)) ∧ ((vecV 0x30).reg 64 (vA 0x30)).length = 64 := by
  simp only [State.vecAt, State.vecWhole]
  decide +kernel

/-- A vector instruction that an injected fault strikes (VectorArithmetic). -/
theorem test_hyps_vectorFault :
    ∃ (s s1 : State) (f : Finish), s.vecAt (.gaffer 0) 0x10 (vecV 0x10) vecI 0x10 ∧
      s.vectorCheck (.gaffer 0) vecI 0 (List.zipWith exactAdd ((vecV 0x10).reg 64 (vA 0x10)) ((vecV 0x10).reg 64 (vB 0x10))) = (s1, .error f) :=
  ⟨(vecS 0x10).setGaffer 0 { (vecS 0x10).gaffer 0 with vectorFault := some { place := 3, error := 5 } }, _, _, by
    simp only [State.vecAt]
    decide +kernel, got_error _ (by decide +kernel)⟩

end Sys2Proof.Tests
end

section
/-! R13: the route of a packet from stop to stop. The output chosen at a stop decides which coordinate the packet nears; the FIFO keeps the
output with the packet, and a grant passes the packet on over that output alone. -/

namespace Sys2Proof.Machine

/-! ### The output that routing chooses -/

theorem routePort_of_column_lt {k d : Nat} (h : k % 6 < d % 6) : routePort k d = 0 := if_pos h

theorem routePort_of_column_gt {k d : Nat} (h : d % 6 < k % 6) : routePort k d = 1 := by
  rw [routePort, if_neg h.not_gt, if_pos h]

theorem routePort_of_row_lt {k d : Nat} (hc : k % 6 = d % 6) (h : k / 6 < d / 6) : routePort k d = 2 := by
  rw [routePort, if_neg hc.not_lt, if_neg hc.not_gt, if_pos h]

theorem routePort_of_row_gt {k d : Nat} (hc : k % 6 = d % 6) (h : d / 6 < k / 6) : routePort k d = 3 := by
  rw [routePort, if_neg hc.not_lt, if_neg hc.not_gt, if_neg h.not_gt, if_pos h]

@[simp] theorem routePort_self (d : Nat) : routePort d d = 4 := by simp [routePort]

/-! ### The stop that an output leads to -/

theorem nextStop_xPlus {k : Nat} (h : k % 6 < 5) : nextStop k 0 = some (k + 1) := if_pos h
theorem nextStop_xMinus {k : Nat} (h : 0 < k % 6) : nextStop k 1 = some (k - 1) := if_pos h
theorem nextStop_yPlus {k : Nat} (h : k / 6 < 7) : nextStop k 2 = some (k + 6) := if_pos h
theorem nextStop_yMinus {k : Nat} (h : 0 < k / 6) : nextStop k 3 = some (k - 6) := if_pos h
@[simp] theorem nextStop_loc (k : Nat) : nextStop k 4 = none := rfl

/-! ### A hop nears the destination -/

theorem hop_nears_column {k d : Nat} (hk : k < 48) (hx : k % 6 ≠ d % 6) :
    ∃ n, nextStop k (routePort k d) = some n ∧ n < 48 ∧ n / 6 = k / 6 ∧
      ((n % 6 : Nat) - (d % 6 : Nat) : Int).natAbs + 1 = ((k % 6 : Nat) - (d % 6 : Nat) : Int).natAbs := by
  rcases hx.lt_or_gt with hlt | hgt
  · rw [routePort_of_column_lt hlt]
    exact ⟨k + 1, nextStop_xPlus (by omega), by omega, by omega, by omega⟩
  · rw [routePort_of_column_gt hgt]
    exact ⟨k - 1, nextStop_xMinus (by omega), by omega, by omega, by omega⟩

theorem hop_nears_row {k d : Nat} (hk : k < 48) (hd : d < 48) (hx : k % 6 = d % 6) (hne : k ≠ d) :
    ∃ n, nextStop k (routePort k d) = some n ∧ n < 48 ∧ n % 6 = k % 6 ∧
      ((n / 6 : Nat) - (d / 6 : Nat) : Int).natAbs + 1 = ((k / 6 : Nat) - (d / 6 : Nat) : Int).natAbs := by
  have hy : k / 6 ≠ d / 6 := by omega
  rcases hy.lt_or_gt with hlt | hgt
  · rw [routePort_of_row_lt hx hlt]
    exact ⟨k + 6, nextStop_yPlus (by omega), by omega, by omega, by omega⟩
  · rw [routePort_of_row_gt hx hgt]
    exact ⟨k - 6, nextStop_yMinus (by omega), by omega, by omega, by omega⟩

/-! ### A FIFO keeps the output with the packet -/

@[simp] theorem stop_setStop_same (s : State) (k : Nat) (v : Stop) : (s.setStop k v).stop k = v := kget_kset_same _ _ _ _

/-- The first transfer of a packet opens its place in the FIFO, with the output that routing chooses at this stop. -/
theorem arrive_first {s : State} {k inp : Nat} {p : Packet} (h : (s.stop k).partial_ inp p.traffic = none) :
    s.arrive k inp p =
      s.setStop k { s.stop k with held := (s.stop k).held ++ [⟨inp, routePort k p.dst.val, p, 1, 0⟩] } := by
  simp only [State.arrive, h]

theorem outp_of_mem_heads {v : Stop} {o : Nat} {h : Held} (hm : h ∈ v.heads o) : h.outp = o := by
  obtain ⟨e, he, rfl⟩ := List.mem_map.mp hm
  have hkept := (List.mem_filter.mp he).2
  simp only [Bool.and_eq_true, decide_eq_true_eq] at hkept
  obtain ⟨⟨⟨hout, -⟩, -⟩, -⟩ := hkept
  exact hout

theorem moves_of_nextStop {s : State} {k o n : Nat} {h : Held} (hn : nextStop k o = some n) :
    s.moves k o h = (s.setStop k ((s.stop k).granted o h)).arrive n (opposite o) h.pkt := by
  simp only [State.moves, hn]

/-- Settles O7: a hop along x, a hop along y, and the FIFO and the grant that keep to the output chosen. -/
theorem packetsTravelAlongXThenY : Obligations.PacketsTravelAlongXThenY :=
  ⟨fun _ _ hk _ => hop_nears_column hk,
   fun _ _ => hop_nears_row,
   fun d _ => ⟨routePort_self d, nextStop_loc d⟩,
   fun s k inp p h => by rw [arrive_first h, stop_setStop_same],
   fun _ _ _ => outp_of_mem_heads,
   fun _ _ _ _ _ => moves_of_nextStop⟩

end Sys2Proof.Machine
end

section
/-! R160: the special values of EXP, RCP and RSQ. What each gives on a NaN, an infinity, a zero or a negative operand follows from the
operand's value alone; the free values of R159 are not asked. -/

namespace Sys2Proof.Machine

/-! ### The values of the special patterns -/

@[simp] theorem f32_posZero : f32 0 = .fin false 0 (-149) := by decide
@[simp] theorem f32_negZero : f32 0x80000000 = .fin true 0 (-149) := by decide
@[simp] theorem f32_posInf : f32 0x7F800000 = .inf false := by decide
@[simp] theorem f32_negInf : f32 0xFF800000 = .inf true := by decide
@[simp] theorem f32_canonicalNan : f32 0x7FC00000 = .nan := by decide

/-! ### The approximations on each kind of special operand -/

section
variable {x m : Nat} {s : Bool} {e : Int}

theorem fexp_of_nan (h : f32 x = .nan) : fexp x = 0x7FC00000 := by rw [fexp, h, expNum]
theorem fexp_of_negInf (h : f32 x = .inf true) : fexp x = 0 := by rw [fexp, h, expNum]
theorem fexp_of_posInf (h : f32 x = .inf false) : fexp x = 0x7F800000 := by rw [fexp, h, expNum]

theorem frcp_of_nan (h : f32 x = .nan) : frcp x = 0x7FC00000 := by rw [frcp, h]
theorem frcp_of_inf (h : f32 x = .inf s) : frcp x = signBit s 8 23 := by rw [frcp, h]
theorem frcp_of_zero (h : f32 x = .fin s 0 e) : frcp x = 0x7F800000 + signBit s 8 23 := by
  simp only [frcp, h, if_pos]

theorem frsq_of_nan (h : f32 x = .nan) : frsq x = 0x7FC00000 := by rw [frsq, h]
theorem frsq_of_posInf (h : f32 x = .inf false) : frsq x = 0 := by simp [frsq, h]
theorem frsq_of_negInf (h : f32 x = .inf true) : frsq x = 0x7FC00000 := by simp [frsq, h]
theorem frsq_of_zero (h : f32 x = .fin s 0 e) : frsq x = 0x7F800000 + signBit s 8 23 := by
  simp only [frsq, h, if_pos]
theorem frsq_of_negative (h : f32 x = .fin true m e) (hm : m ≠ 0) : frsq x = 0x7FC00000 := by
  simp only [frsq, h, if_neg hm, if_pos]

/-! ### The clauses of R160 -/

theorem approximations_of_nan (h : f32 x = .nan) :
    f32 (fexp x) = .nan ∧ f32 (frcp x) = .nan ∧ f32 (frsq x) = .nan := by
  rw [fexp_of_nan h, frcp_of_nan h, frsq_of_nan h]
  exact ⟨f32_canonicalNan, f32_canonicalNan, f32_canonicalNan⟩

theorem frsq_of_lt_zero (h : (f32 x = .fin true m e ∧ m ≠ 0) ∨ f32 x = .inf true) : f32 (frsq x) = .nan := by
  rcases h with ⟨hfin, hm⟩ | hinf
  · rw [frsq_of_negative hfin hm, f32_canonicalNan]
  · rw [frsq_of_negInf hinf, f32_canonicalNan]

end

/-- Settles O9: each clause is the approximation's value on that kind of operand, at the pattern R160 names. -/
theorem approximationsGiveTheirSpecialValues : Obligations.ApproximationsGiveTheirSpecialValues :=
  ⟨fun _ => approximations_of_nan,
   ⟨fexp_of_negInf f32_negInf, fexp_of_posInf f32_posInf⟩,
   ⟨frcp_of_zero f32_posZero, frcp_of_zero f32_negZero, frcp_of_inf f32_posInf, frcp_of_inf f32_negInf⟩,
   ⟨frsq_of_zero f32_posZero, frsq_of_zero f32_negZero, frsq_of_posInf f32_posInf⟩,
   fun _ _ _ => frsq_of_lt_zero⟩

end Sys2Proof.Machine
end

section
/-! R396: clearing CQ_ENABLE or RING_ENABLE. What the owning chapter answers to a 0 depends on the submission rings that are enabled; the
dictionary then turns that answer into the write's outcome. -/

namespace Sys2Proof.Machine

section
variable {s : State} {p : Path} {x : Bytes}

/-! ### What the ring chapter answers to a 0 -/

theorem hookCqEnable_zero_of_named {c r : Nat} (hx : ofLe x = 0) (hn : s.ringNaming c = some r) :
    hookCqEnable c s p x = .error (conflictKind 6 r) := by
  simp only [hookCqEnable, if_pos hx, hn]

theorem hookCqEnable_zero_of_unnamed {c : Nat} (hx : ofLe x = 0) (hn : s.ringNaming c = none) :
    hookCqEnable c s p x = .ok (s.setReg (Regs.cqEnable c) 0) := by
  simp only [hookCqEnable, if_pos hx, hn]

theorem hookRingEnable_zero_of_enabled {r : Nat} (hx : ofLe x = 0) (he : s.flag (Regs.ringEnable r) = true) :
    hookRingEnable r s p x = .ok (s.stopRing r) := by
  simp only [hookRingEnable, if_pos hx, if_pos he]

end

/-! ### The two commands as writes of their objects -/

theorem exec_cqEnable (p : Path) (c : Fin 64) (v : Nat) (s : State) :
    exec (.cqEnable p c v) s = .next (s.writeObject p (0x29C0 + c.val) 1 (toLe 1 v) (hookCqEnable c.val)) := rfl

theorem exec_ringEnable (p : Path) (r : Fin 64) (v : Nat) (s : State) :
    exec (.ringEnable p r v) s = .next (s.writeObject p (0x2940 + r.val) 0x0A (toLe 1 v) (hookRingEnable r.val)) := rfl

/-- Settles O30: a ring that names the completion ring makes the hook refuse with that ring's number; with none, and for an enabled
submission ring, the hook's state is accepted, and State.stopRing is the flush before the enable is cleared. -/
theorem ringsAreDisabledInOrder : Obligations.RingsAreDisabledInOrder := by
  refine ⟨?named, ?unnamed, ?submission⟩
  case named =>
    intro p c v r x s hoffer hx hn
    rw [exec_cqEnable, writeObject_refused hoffer (hookCqEnable_zero_of_named hx hn)]
  case unnamed =>
    intro p c v x s hoffer hx hn
    rw [exec_cqEnable, writeObject_accepted hoffer (hookCqEnable_zero_of_unnamed hx hn)]
  case submission =>
    intro p r v x s hoffer hx he
    rw [exec_ringEnable, writeObject_accepted hoffer (hookRingEnable_zero_of_enabled hx he), State.stopRing]

end Sys2Proof.Machine
end

section
/-! What every command and every tick keeps, as one relation between the state before and a state on the way: the same commands wait, the
local time stands, both memories keep their canonical form and the error log its bound (R372, log 3). Each operation of the model has a rule
of its own here, so that the rule of a larger operation is read off its text: `h.bump.logs` for `(s.bump r).logs e`. -/

namespace Sys2Proof.Machine

/-- A state t that is reached from s by operations that take no time and take nothing from the queue. -/
structure State.Keeps (s t : State) : Prop where
  pending : t.pending = s.pending
  now : t.now = s.now
  mem : s.mem.wf = true → t.mem.wf = true
  hostMem : s.hostMem.wf = true → t.hostMem.wf = true
  log : s.log.entries.length ≤ 512 → t.log.entries.length ≤ 512

/-- A rule of an owning chapter refuses, or leaves a state that is kept. -/
def State.KeepsOk (s : State) (r : Except Reply State) : Prop := ∀ t, r = .ok t → s.Keeps t

/-- There is no state, or one that is kept. -/
def State.KeepsSome (s : State) (o : Option State) : Prop := ∀ t, o = some t → s.Keeps t

/-- A command is taken and leaves a state that is kept. -/
def State.Takes (s : State) (o : Res) : Prop := ∃ t, o = .next t ∧ s.Keeps t

section
variable {s₀ s t u : State} {α β : Type}

theorem State.Keeps.refl (s : State) : s.Keeps s := ⟨rfl, rfl, id, id, id⟩

theorem State.Keeps.trans (h : s.Keeps t) (k : t.Keeps u) : s.Keeps u :=
  ⟨k.pending.trans h.pending, k.now.trans h.now, k.mem ∘ h.mem, k.hostMem ∘ h.hostMem, k.log ∘ h.log⟩

section
variable {freeIx uptime0 : Nat} {regs : KMap Nat} {blobs : KMap Bytes} {stops : KMap Stop} {sundial : Sundial} {disp : Dispatch} {link :
  HostLink} {ddr : Ddr} {paths : Paths} {lodge : Lodge} {pergola : Pergola} {kv : KvManager} {keeper : Keeper} {shift : Shift} {drive :
  DrState} {power : PowerCtl} {boot : Boot} {pins : Pins} {out : List Out}

/-- A change of any other fields. -/
theorem State.Keeps.frame (h : s₀.Keeps s) : s₀.Keeps ⟨s.pending, freeIx, s.now, uptime0, regs, blobs, s.mem, s.hostMem, stops, s.log,
    sundial, disp, link, ddr, paths, lodge, pergola, kv, keeper, shift, drive, power, boot, pins, out⟩ :=
  h.trans ⟨rfl, rfl, id, id, id⟩

/-- A change of device memory that keeps its form, and of any other fields. -/
theorem State.Keeps.frameMem {m : Memory} (h : s₀.Keeps s) (hm : s.mem.wf = true → m.wf = true) : s₀.Keeps ⟨s.pending, freeIx, s.now,
    uptime0, regs, blobs, m, s.hostMem, stops, s.log, sundial, disp, link, ddr, paths, lodge, pergola, kv, keeper, shift, drive, power,
    boot, pins, out⟩ :=
  h.trans ⟨rfl, rfl, hm, id, id⟩

/-- A change of host memory that keeps its form, and of any other fields. -/
theorem State.Keeps.frameHost {m : Memory} (h : s₀.Keeps s) (hm : s.hostMem.wf = true → m.wf = true) : s₀.Keeps ⟨s.pending, freeIx, s.now,
    uptime0, regs, blobs, s.mem, m, stops, s.log, sundial, disp, link, ddr, paths, lodge, pergola, kv, keeper, shift, drive, power, boot,
    pins, out⟩ :=
  h.trans ⟨rfl, rfl, id, hm, id⟩

/-- A change of the error log that keeps its bound, and of any other fields. -/
theorem State.Keeps.frameLog {l : ErrorLog} (h : s₀.Keeps s) (hl : s.log.entries.length ≤ 512 → l.entries.length ≤ 512) : s₀.Keeps
    ⟨s.pending, freeIx, s.now, uptime0, regs, blobs, s.mem, s.hostMem, stops, l, sundial, disp, link, ddr, paths, lodge, pergola, kv,
    keeper, shift, drive, power, boot, pins, out⟩ :=
  h.trans ⟨rfl, rfl, id, id, hl⟩
end

theorem State.Keeps.ite {c : Prop} [Decidable c] (h : s₀.Keeps s) (k : s₀.Keeps t) : s₀.Keeps (if c then s else t) := by
  split
  · exact h
  · exact k

theorem State.Keeps.ite₁ {c : Prop} [Decidable c] {p q : State × α} (h : s₀.Keeps p.1) (k : s₀.Keeps q.1) :
    s₀.Keeps (if c then p else q).1 := by
  split
  · exact h
  · exact k

/-- The state that a pair names. -/
theorem State.Keeps.fst {p : State × α} {x : α} (h : s₀.Keeps p.1) (e : p = (t, x)) : s₀.Keeps t := by
  rw [e] at h; exact h

theorem State.Keeps.foldl {f : State → α → State} {l : List α} (h : s₀.Keeps s)
    (hf : ∀ t x, s₀.Keeps t → s₀.Keeps (f t x)) : s₀.Keeps (l.foldl f s) := by
  induction l generalizing s with
  | nil => exact h
  | cons x l ih => exact ih (hf s x h)

/-- A fold whose accumulator holds a state. -/
theorem State.Keeps.foldlOf {g : β → State} {f : β → α → β} {l : List α} {b : β} (h : s₀.Keeps (g b))
    (hf : ∀ b x, s₀.Keeps (g b) → s₀.Keeps (g (f b x))) : s₀.Keeps (g (l.foldl f b)) := by
  induction l generalizing b with
  | nil => exact h
  | cons x l ih => exact ih (hf b x h)

theorem State.KeepsOk.ok (h : s₀.Keeps t) : s₀.KeepsOk (.ok t) := by rintro _ ⟨⟩; exact h

theorem State.KeepsOk.error {e : Reply} : s₀.KeepsOk (.error e) := by rintro _ ⟨⟩

theorem State.KeepsOk.ite {c : Prop} [Decidable c] {a b : Except Reply State} (h : s₀.KeepsOk a) (k : s₀.KeepsOk b) :
    s₀.KeepsOk (if c then a else b) := by
  split
  · exact h
  · exact k

theorem State.KeepsOk.bind {a : Except Reply α} {f : α → Except Reply State} (hf : ∀ x, s₀.KeepsOk (f x)) : s₀.KeepsOk (a >>= f) := by
  cases a with
  | error e => exact .error
  | ok x => exact hf x

theorem State.KeepsSome.some (h : s₀.Keeps t) : s₀.KeepsSome (some t) := by rintro _ ⟨⟩; exact h

theorem State.KeepsSome.none : s₀.KeepsSome none := by rintro _ ⟨⟩

theorem State.KeepsSome.ite {c : Prop} [Decidable c] {a b : Option State} (h : s₀.KeepsSome a) (k : s₀.KeepsSome b) :
    s₀.KeepsSome (if c then a else b) := by
  split
  · exact h
  · exact k

theorem State.Takes.next (h : s₀.Keeps t) : s₀.Takes (.next t) := ⟨t, rfl, h⟩

theorem State.Takes.ite {c : Prop} [Decidable c] {a b : Res} (h : s₀.Takes a) (k : s₀.Takes b) : s₀.Takes (if c then a else b) := by
  split
  · exact h
  · exact k

end

end Sys2Proof.Machine
end

section
/-! The rules of State.Keeps for the operations of Machine/Ops. -/

namespace Sys2Proof.Machine

variable {s₀ s : State}

theorem State.Keeps.setReg {r : Reg} {v : Nat} (h : s₀.Keeps s) : s₀.Keeps (s.setReg r v) := h.frame

theorem State.Keeps.bumpBy {r : Reg} {k : Nat} (h : s₀.Keeps s) : s₀.Keeps (s.bumpBy r k) := h.setReg

theorem State.Keeps.bump {r : Reg} (h : s₀.Keeps s) : s₀.Keeps (s.bump r) := h.bumpBy

theorem State.Keeps.bumpIf {b : Bool} {r : Reg} (h : s₀.Keeps s) : s₀.Keeps (s.bumpIf b r) := .ite h.bump h

theorem State.Keeps.setBlob {k : Nat} {v : Bytes} (h : s₀.Keeps s) : s₀.Keeps (s.setBlob k v) := h.frame

theorem State.Keeps.emit {o : Out} (h : s₀.Keeps s) : s₀.Keeps (s.emit o) := h.frame

theorem State.Keeps.observes {n : Nat} (h : s₀.Keeps s) : s₀.Keeps (s.observes n) := h.frame

theorem State.Keeps.draw (h : s₀.Keeps s) : s₀.Keeps s.draw.2 := h.frame

theorem State.Keeps.skipFree (h : s₀.Keeps s) : s₀.Keeps s.skipFree := h.frame

theorem State.Keeps.setPd {d : Nat} {v : PowerDomain} (h : s₀.Keeps s) : s₀.Keeps (s.setPd d v) := h.frame

theorem State.Keeps.setGaffer {g : Nat} {v : Gaffer} (h : s₀.Keeps s) : s₀.Keeps (s.setGaffer g v) := h.frame

theorem State.Keeps.calibrates {d : Nat} (h : s₀.Keeps s) : s₀.Keeps (s.calibrates d) := h.frame

theorem State.Keeps.setStop {k : Nat} {v : Stop} (h : s₀.Keeps s) : s₀.Keeps (s.setStop k v) := h.frame

theorem State.Keeps.setDom {b : Bool} {d : TimeDomain} (h : s₀.Keeps s) : s₀.Keeps (s.setDom b d) := h.frame

theorem State.Keeps.setTap {k : Nat} {t : Tap} (h : s₀.Keeps s) : s₀.Keeps (s.setTap k t) := h.frame

theorem State.Keeps.measureBranches {d : Nat} (h : s₀.Keeps s) : s₀.Keeps (s.measureBranches d) := h.frame

theorem State.Keeps.msix {v : Nat} (h : s₀.Keeps s) : s₀.Keeps (s.msix v) := .ite h (.ite h.frame (.ite h.emit h.frame))

theorem State.Keeps.sendSafety {k : Nat} {body : Bytes} (h : s₀.Keeps s) : s₀.Keeps (s.sendSafety k body) := .ite h.emit.frame h

theorem State.Keeps.canOrdered {s₀ s t : State} (h : s₀.Keeps t) : s₀.Keeps (t.canOrdered s) := by
  obtain ⟨l, e⟩ := canOrdered_cases t s
  rw [e]
  exact h.frame

theorem State.Keeps.sendEvent {event : Nat} {payload : Bytes} (h : s₀.Keeps s) : s₀.Keeps (s.sendEvent event payload) := h.sendSafety

theorem State.Keeps.attention {i : Nat} (h : s₀.Keeps s) : s₀.Keeps (s.attention i) := h.setReg

theorem State.Keeps.attendKeeper (h : s₀.Keeps s) : s₀.Keeps s.attendKeeper := .ite h.attention h

/-- Making room takes an entry out of a full log. -/
theorem makeRoom_length {l m : List LogEntry} (h : makeRoom l = some m) (hl : l.length ≤ 512) : m.length ≤ 511 := by
  unfold makeRoom at h
  have shorter {sev : Severity} {i : Nat} (hi : oldestOf sev l = some i) : (removeAt l i).length ≤ 511 := by
    have hlt := (List.findIdx?_eq_some_iff_findIdx_eq.1 hi).1
    simp only [removeAt, List.length_append, List.length_take, List.length_drop]
    omega
  split at h
  · obtain rfl := Option.some.inj h
    omega
  · split at h
    · obtain rfl := Option.some.inj h
      exact shorter ‹_›
    · split at h
      · obtain rfl := Option.some.inj h
        exact shorter ‹_›
      · cases h

theorem State.Keeps.correctedMessage (h : s₀.Keeps s) : s₀.Keeps s.correctedMessage := by
  unfold State.correctedMessage
  split
  · exact h.frameLog id
  · exact { h.msix with log := h.log }

theorem State.Keeps.signalEvent {e : LogEntry} (h : s₀.Keeps s) : s₀.Keeps (s.signalEvent e) := by
  unfold State.signalEvent
  split
  · exact h.correctedMessage
  · exact h.attention.msix
  · exact h.attention.msix.sendEvent

/-- An event adds to an entry, or takes the place that was made for it (R372). -/
theorem State.Keeps.logEvent {v : Event} (h : s₀.Keeps s) : s₀.Keeps (s.logEvent v).1 := by
  unfold State.logEvent
  dsimp only
  split
  · split
    · exact (h.bump.frameLog (fun hl => by simpa using hl)).signalEvent
    · exact h.bump
  · split
    · exact h.bump.bump
    next l hroom =>
      refine (h.bump.frameLog (fun hl => ?_)).signalEvent
      have := makeRoom_length hroom hl
      simp only [List.length_append, List.length_singleton]
      omega

theorem State.Keeps.logs {v : Event} (h : s₀.Keeps s) : s₀.Keeps (s.logs v) := h.logEvent

theorem State.Keeps.sramUncorrectable {ring : Option Nat} {g syndrome : Nat} (h : s₀.Keeps s) : s₀.Keeps (s.sramUncorrectable ring g
    syndrome).1 :=
  .logEvent (.ite h.bump.setGaffer h)

theorem State.Keeps.sramCorrected {ring : Option Nat} {g syndrome : Nat} (h : s₀.Keeps s) : s₀.Keeps (s.sramCorrected ring g syndrome) :=
    by
  unfold State.sramCorrected
  exact .logs (.ite h.bump.setGaffer h)

theorem State.Keeps.sramPoison {ring : Option Nat} {g : Nat} (h : s₀.Keeps s) : s₀.Keeps (s.sramPoison ring g).1 :=
  .logEvent (.ite h.bump h)

theorem State.Keeps.meetSram {ring : Option Nat} {g : Nat} (h : s₀.Keeps s) : s₀.Keeps (s.meetSram ring g).1 := by
  unfold State.meetSram
  refine .ite₁ (.ite₁ h.sramPoison h.sramUncorrectable) ?_
  dsimp only
  split
  · exact h.sramCorrected.frameMem fun w => wf_heal _ w
  · exact .ite₁ (h.frameMem fun w => wf_heal _ w) (.ite₁ (.ite₁ h.sramPoison h.sramUncorrectable) (.ite₁ (.ite₁ h.skipFree.sramPoison
      h.skipFree.sramUncorrectable) ((h.sramCorrected.frameMem fun w => wf_forget _ _ _ (wf_heal _ w)).skipFree)))
  · exact .ite₁ (h.frameMem fun w => wf_heal _ w) (.ite₁ ((h.frameMem fun w => wf_heal _ w).sramPoison) ((h.frameMem fun w => wf_heal _
      w).sramUncorrectable))
  · exact h

theorem State.Keeps.driveDamage {g : Nat} (h : s₀.Keeps s) : s₀.Keeps (s.driveDamage g) := .ite h.setReg.attention.frame h

theorem State.Keeps.markDevice {sc pos byHost : Nat} (h : s₀.Keeps s) : s₀.Keeps (s.markDevice sc pos byHost) := h.frame.setReg.logs

theorem State.Keeps.autoMark {sc pos : Nat} (h : s₀.Keeps s) : s₀.Keeps (s.autoMark sc pos) :=
  .ite h (.ite h.markDevice (.ite h h.frame.logs))

theorem State.Keeps.seenCorrected {g : Nat} {positions : List Nat} (h : s₀.Keeps s) : s₀.Keeps (s.seenCorrected g positions) :=
  h.foldl (fun _ _ h' => h'.frame.autoMark)

theorem State.Keeps.ddrUncorrectable {ring : Option Nat} {g : Nat} (h : s₀.Keeps s) : s₀.Keeps (s.ddrUncorrectable ring g).1 :=
  h.bump.logEvent.driveDamage

theorem State.Keeps.decoded {g : Nat} {e found : SymbolErrors} {keep : Bool} (h : s₀.Keeps s) : s₀.Keeps (s.decoded g e found keep) := by
  refine h.frameMem fun w => ?_
  have corrected := wf_foldl (f := fun m (x : Nat × Nat) => m.set (g + x.1) (m.get (g + x.1) ^^^ BitVec.ofNat 8 x.2))
    (fun m x hm => wf_set _ _ hm) ((errorsOnly (e ++ found)).filter (fun x => decide (x.1 < 64))) (wf_heal g w)
  split
  · exact wf_same corrected rfl rfl
  · exact corrected

theorem State.Keeps.meetDdr {ring : Option Nat} {g : Nat} (h : s₀.Keeps s) : s₀.Keeps (s.meetDdr ring g).1 := by
  unfold State.meetDdr
  refine .ite₁ (h.frameMem fun w => wf_heal _ w) (.ite₁ h.bump.logEvent (.ite₁ h.ddrUncorrectable ?_))
  dsimp only
  split
  · exact h.ddrUncorrectable
  · exact h.decoded
  · exact .ite₁ h.bump.logEvent.driveDamage (.decoded (.seenCorrected (.logs (.ite h.bump.bump h.bump))))

theorem State.Keeps.meet {ring : Option Nat} {g : Nat} (h : s₀.Keeps s) : s₀.Keeps (s.meet ring g).1 := .ite₁ h.meetDdr h.meetSram

theorem State.Keeps.meetWord {array : SramArray} {a : Nat} (h : s₀.Keeps s) : s₀.Keeps (s.meetWord array a).1 := by
  unfold State.meetWord
  extract_lets key
  split
  next t e =>
  have ht : s₀.Keeps t := by
    split at e
    · have hd := h.draw
      rw [e] at hd
      exact hd
    · cases e
      exact h
  have hskip {c : Prop} [Decidable c] : s₀.Keeps (if c then t.skipFree else t) := .ite ht.skipFree ht
  clear e
  simp only
  split
  · split
    · exact ht.frameMem fun w => wf_heal _ w
    · split
      · exact ht.logEvent
      · split
        · exact ht.skipFree.logEvent
        · exact { State.Keeps.logs hskip with mem := fun w => wf_heal _ (hskip.mem w) }
  · split
    · exact ht.frameMem fun w => wf_heal _ w
    · exact State.Keeps.logEvent (ht.frameMem fun w => wf_heal _ w)
  · exact ht

theorem State.Keeps.kvDamaged {bad : Option Nat} (h : s₀.Keeps s) : s₀.Keeps (s.kvDamaged bad) := by
  unfold State.kvDamaged
  dsimp only
  split
  · exact h
  · exact h.frame

theorem State.Keeps.meetArray {array : SramArray} {a : Nat} (h : s₀.Keeps s) : s₀.Keeps (s.meetArray array a).1 := by
  unfold State.meetArray
  cases e : s.meetWord array a with | mk t bad => ?_
  have ht := h.meetWord.fst e
  simp only
  split
  · exact ht.frameMem fun w => wf_heal _ w
  · exact State.Keeps.kvDamaged (bad := some _) (ht.frameMem fun w => wf_heal _ w)
  · exact ht

theorem State.Keeps.touchArray {array : SramArray} (h : s₀.Keeps s) : s₀.Keeps (s.touchArray array).1 := by
  unfold State.touchArray
  dsimp only
  refine .ite₁ h ?_
  split
  · exact h.draw
  · exact h.draw.meetArray

theorem State.Keeps.meetAll {ring : Option Nat} {a : Nat} {gs : List Nat} (h : s₀.Keeps s) : s₀.Keeps (s.meetAll ring a gs).1 := by
  refine h.foldlOf (g := Prod.fst) (fun b x h' => ?_)
  obtain ⟨t, bad, first⟩ := b
  dsimp only
  split
  · exact h'.meet
  · exact h'.meet

theorem State.Keeps.logAbsent {ring : Option Nat} {a stop code : Nat} (h : s₀.Keeps s) : s₀.Keeps (s.logAbsent ring a stop code) := h.logs

theorem State.Keeps.notPresent {ring : Option Nat} {a : Nat} {ans : Answer} (h : s₀.Keeps s) : s₀.Keeps (s.notPresent ring a ans) := by
  unfold State.notPresent
  dsimp only
  split
  · exact .logs (.ite h.bump h)
  · split
    · exact .logAbsent (.ite h.bump h)
    · exact .logAbsent (.draw (.ite h.bump h))

theorem State.Keeps.readMem {ag : Agent} {who : Option (Nat × Nat)} {a n : Nat} (h : s₀.Keeps s) : s₀.Keeps (s.readMem ag who a n).1 := by
  unfold State.readMem
  dsimp only
  split
  · split
    · exact .ite₁ h.bump.logEvent h.frame
    · exact h.meetAll
  · exact h

theorem State.Keeps.poke {a : Nat} {bs : Bytes} (h : s₀.Keeps s) : s₀.Keeps (s.poke a bs) := by
  unfold State.poke
  split
  · refine .frameHost h fun w => wf_foldl (fun m x hm => ?_) _ w
    obtain ⟨b, i⟩ := x
    dsimp only
    split
    · exact wf_set _ _ hm
    · exact hm
  · exact .frameMem h fun w => wf_foldl (fun m x hm => wf_set _ _ hm) _ (wf_healRange _ _ w)
  · exact .frameMem h fun w => wf_write _ _ (wf_healRange _ _ w)

theorem State.Keeps.pokePoison {a n : Nat} (h : s₀.Keeps s) : s₀.Keeps (s.pokePoison a n) := by
  unfold State.pokePoison
  split
  · exact .ite h.bump.emit h
  · exact h.frameMem fun w => wf_foldl (fun m g hm => wf_poisonAt _ hm) _ w

theorem State.Keeps.writeMem {ag : Agent} {a : Nat} {bs : Bytes} (h : s₀.Keeps s) : s₀.Keeps (s.writeMem ag a bs).1 := by
  unfold State.writeMem
  split
  · exact .ite h h.poke
  · exact h

theorem State.Keeps.forgetRange {a n : Nat} (h : s₀.Keeps s) : s₀.Keeps (s.forgetRange a n) := by
  unfold State.forgetRange
  split
  · refine .skipFree (.frameHost h fun w => wf_foldl (fun m i hm => ?_) _ w)
    dsimp only
    split
    · split
      · exact wf_forget _ _ _ hm
      · exact hm
    · exact hm
  · refine .skipFree (.frameMem h fun w => wf_foldl (fun m i hm => ?_) _ w)
    dsimp only
    split
    · exact wf_forget _ _ _ hm
    · exact hm
  · exact .skipFree (.frameMem h fun w => wf_forget _ _ _ w)

end Sys2Proof.Machine
end

section
/-! The rules of State.Keeps for the operations of Machine/Dict. -/

namespace Sys2Proof.Machine

variable {s₀ s : State}

theorem State.Keeps.dictTry {p : Path} {index sub : Nat} {data : Bytes} {hook : Hook} (h : s₀.Keeps s) (hk : ∀ s p x, s₀.Keeps s →
    s₀.KeepsOk (hook s p x)) : s₀.KeepsOk (s.dictTry p index sub data hook) :=
  .bind (fun _ => .ite .error (.ite .error (hk _ _ _ h)))

theorem State.Keeps.bar0Refused {index sub : Nat} {r : Reply} (h : s₀.Keeps s) : s₀.Keeps (s.bar0Refused index sub r) := h.setReg.bump

theorem State.Keeps.countRefusal {index sub : Nat} {r : Reply} (h : s₀.Keeps s) : s₀.Keeps (s.countRefusal index sub r) := h.bumpIf

theorem State.Keeps.finishWrite {p : Path} {index sub : Nat} {r : Except Reply State} (h : s₀.Keeps s) (hr : s₀.KeepsOk r) : s₀.Keeps
    (s.finishWrite p index sub r) := by
  unfold State.finishWrite
  split
  · exact (hr _ rfl).emit
  · refine .emit ?_
    split
    · exact h.countRefusal.bar0Refused
    · exact h.countRefusal

theorem State.Keeps.writeObject {p : Path} {index sub : Nat} {data : Bytes} {hook : Hook} (h : s₀.Keeps s) (hk : ∀ s p x, s₀.Keeps s →
    s₀.KeepsOk (hook s p x)) : s₀.Keeps (s.writeObject p index sub data hook) := by
  unfold State.writeObject
  refine .ite (h.finishWrite (h.dictTry (fun _ _ _ h' => hk _ _ _ h'))) ?_
  split
  · exact h.emit
  · exact .ite h.emit h
  · exact h.emit
  · exact h

theorem State.Keeps.storeHook {index sub : Nat} {p : Path} {x : Bytes} (h : s₀.Keeps s) : s₀.KeepsOk (storeHook index sub s p x) := by
  unfold Machine.storeHook
  split
  · exact .ite (.ok h.setBlob) (.ok h.frame)
  · exact .error

theorem State.Keeps.ownedHook {owner : Reg} {hook : Hook} {p : Path} {x : Bytes} (h : s₀.Keeps s) (hk : ∀ s p x, s₀.Keeps s → s₀.KeepsOk
    (hook s p x)) : s₀.KeepsOk (ownedHook owner hook s p x) :=
  .ite (hk _ _ _ h) .error

theorem State.Keeps.rangeFirst {ok : State → Bytes → Bool} {hook : Hook} {p : Path} {x : Bytes} (h : s₀.Keeps s) (hk : ∀ s p x, s₀.Keeps s
    → s₀.KeepsOk (hook s p x)) : s₀.KeepsOk (rangeFirst ok hook s p x) :=
  .ite (hk _ _ _ h) .error

theorem State.Keeps.actHook {f : State → Path → Except Reply State} {p : Path} {x : Bytes} (h : s₀.Keeps s) (hf : ∀ s p, s₀.Keeps s →
    s₀.KeepsOk (f s p)) : s₀.KeepsOk (actHook f s p x) :=
  .ite (.ok h) (hf _ _ h)

end Sys2Proof.Machine
end

section
/-! The rules of State.Keeps for the operations of Machine/Operands. -/

namespace Sys2Proof.Machine

variable {s₀ s : State}

theorem State.Keeps.badAccess {i : Item} {a : Nat} {ans : Answer} (h : s₀.Keeps s) : s₀.Keeps (s.badAccess i a ans) := h.notPresent

theorem State.Keeps.checkSpans {i : Item} {ag : Agent} {sp : List (Int × Nat)} {write : Bool} {field : Nat} (h : s₀.Keeps s) : s₀.Keeps
    (s.checkSpans i ag sp write field).1 := by
  unfold State.checkSpans
  refine .ite₁ h ?_
  split
  · exact .ite h.badAccess h
  · exact h

theorem State.Keeps.fetchStruct {i : Item} {ag : Agent} {a n field : Nat} (h : s₀.Keeps s) : s₀.Keeps (s.fetchStruct i ag a n field).1 :=
    by
  unfold State.fetchStruct
  split
  · split
    · exact h.readMem.fst ‹_›
    · exact h.readMem.fst ‹_›
    · exact h.readMem.fst ‹_›
  · exact h
  · exact h.badAccess

theorem State.Keeps.descriptor {i : Item} {ag : Agent} {a field : Nat} {write : Bool} (h : s₀.Keeps s) : s₀.Keeps (s.descriptor i ag a
    field write).1 := by
  unfold State.descriptor
  refine .ite₁ h ?_
  split
  · exact h.fetchStruct.fst ‹_›
  · split
    · exact h.fetchStruct.fst ‹_›
    · split
      · exact (h.fetchStruct.fst ‹_›).checkSpans.fst ‹_›
      · exact (h.fetchStruct.fst ‹_›).checkSpans.fst ‹_›

theorem State.Keeps.descriptors {i : Item} {ag : Agent} {l : List Want} (h : s₀.Keeps s) : s₀.Keeps (s.descriptors i ag l).1 := by
  induction l generalizing s with
  | nil => exact h
  | cons w l ih =>
    unfold State.descriptors
    split
    · exact h.descriptor.fst ‹_›
    · split
      · exact (ih (h.descriptor.fst ‹_›)).fst ‹_›
      · exact (ih (h.descriptor.fst ‹_›)).fst ‹_›

theorem State.Keeps.touch {i : Item} {ag : Agent} {sp : List (Int × Nat)} (h : s₀.Keeps s) : s₀.Keeps (s.touch i ag sp).s := by
  unfold State.touch
  refine h.foldlOf (g := Touched.s) (fun _ _ h' => ?_)
  dsimp only
  split
  · exact h'
  · split
    · split
      · exact h'.readMem.fst ‹_›
      · exact h'.readMem.fst ‹_›
    · exact h'.badAccess

theorem State.Keeps.landing {i : Item} {ag : Agent} {sp : List (Int × Nat)} (h : s₀.Keeps s) : s₀.Keeps (s.landing i ag sp).1 := by
  unfold State.landing
  split
  · exact h.badAccess
  · exact h

theorem State.Keeps.put {ag : Agent} {a : Nat} {bs : Bytes} (h : s₀.Keeps s) : s₀.Keeps (s.put ag a bs) := h.writeMem

theorem State.Keeps.setElem {ag : Agent} {t : Tensor} {idx : List Nat} {code : Nat} (h : s₀.Keeps s) : s₀.Keeps (s.setElem ag t idx code)
    :=
  h.put

theorem State.Keeps.setRun {ag : Agent} {t : Tensor} {outer : List Nat} {k : Nat} {codes : List Nat} (h : s₀.Keeps s) : s₀.Keeps (s.setRun
    ag t outer k codes) :=
  .ite h.put (h.foldl (fun _ _ h' => h'.setElem))

end Sys2Proof.Machine
end

section
/-! The rules of State.Keeps for the operations of Machine/Frames. -/

namespace Sys2Proof.Machine

variable {s₀ s : State}

theorem State.Keeps.setFrame {p f : Nat} {e : FrameEntry} (h : s₀.Keeps s) : s₀.Keeps (s.setFrame p f e) := h.poke

theorem State.Keeps.meetTable {a n : Nat} (h : s₀.Keeps s) : s₀.Keeps (s.meetTable a n).1 := h.meetAll.kvDamaged

theorem State.Keeps.readFrame {p f : Nat} (h : s₀.Keeps s) : s₀.Keeps (s.readFrame p f).1 := by
  unfold State.readFrame
  split
  · exact h.meetTable.fst ‹_›
  · exact h.meetTable.fst ‹_›

theorem State.Keeps.setPool {p : Nat} {l : PoolLists} (h : s₀.Keeps s) : s₀.Keeps (s.setPool p l) := h.frame

theorem State.Keeps.setReaders {e n : Nat} (h : s₀.Keeps s) : s₀.Keeps (s.setReaders e n) := h.frame

theorem State.Keeps.ripen {p n : Nat} (h : s₀.Keeps s) : s₀.Keeps (s.ripen p n) := by
  induction n generalizing s with
  | zero => exact h
  | succ n ih =>
    unfold State.ripen
    refine .ite h ?_
    dsimp only
    split
    · exact h.readFrame.fst ‹_›
    · exact .ite (h.readFrame.fst ‹_›) (ih (h.readFrame.fst ‹_›).setFrame.setPool)

theorem State.Keeps.tryAdvance {n : Nat} (h : s₀.Keeps s) : s₀.Keeps (s.tryAdvance n) := by
  induction n generalizing s with
  | zero => exact h
  | succ n ih =>
    unfold State.tryAdvance
    exact .ite (ih (h.frame.foldl (fun _ _ h' => h'.ripen))) h

theorem State.Keeps.dropRef {p f : Nat} (h : s₀.Keeps s) : s₀.Keeps (s.dropRef p f) := by
  unfold State.dropRef
  split
  · exact h.readFrame.fst ‹_›
  replace h := h.readFrame.fst ‹_›
  refine .ite h.setFrame (.tryAdvance (.setPool (.ite h.setFrame ?_)))
  split
  · exact h.setFrame.readFrame.fst ‹_›
  · exact (h.setFrame.readFrame.fst ‹_›).setFrame

theorem State.Keeps.takeFrame {p : Nat} (h : s₀.Keeps s) : s₀.Keeps (s.takeFrame p).1 := by
  unfold State.takeFrame
  refine .ite₁ h ?_
  dsimp only
  split
  · exact h.readFrame.fst ‹_›
  · exact (h.readFrame.fst ‹_›).setFrame.setPool

theorem State.Keeps.addRef {p f : Nat} (h : s₀.Keeps s) : s₀.Keeps (s.addRef p f).1 := by
  unfold State.addRef
  split
  · exact h.readFrame.fst ‹_›
  · exact .ite₁ (h.readFrame.fst ‹_›) (h.readFrame.fst ‹_›).setFrame

theorem State.Keeps.setSeqEntry {q x : Nat} (h : s₀.Keeps s) : s₀.Keeps (s.setSeqEntry q x) := h.poke

theorem State.Keeps.changeSeq {q : Nat} {f : Nat → Nat} (h : s₀.Keeps s) : s₀.Keeps (s.changeSeq q f) := by
  unfold State.changeSeq
  split
  · exact h.meetTable.fst ‹_›
  · exact (h.meetTable.fst ‹_›).setSeqEntry

theorem State.Keeps.setSwapping {q : Nat} {on : Bool} (h : s₀.Keeps s) : s₀.Keeps (s.setSwapping q on) := h.changeSeq

theorem State.Keeps.register {ring seq q : Nat} (h : s₀.Keeps s) : s₀.Keeps (s.register ring seq q) := h.changeSeq.frame.setReaders

theorem State.Keeps.deregister1 {r : Registration} (h : s₀.Keeps s) : s₀.Keeps (s.deregister1 r) := h.changeSeq.setReaders.tryAdvance

theorem State.Keeps.deregister {ring seq : Nat} (h : s₀.Keeps s) : s₀.Keeps (s.deregister ring seq) :=
  h.frame.foldl (fun _ _ h' => h'.deregister1)

end Sys2Proof.Machine
end

section
/-! The rules of State.Keeps for the operations of Machine/Queues. -/

namespace Sys2Proof.Machine

variable {s₀ s : State}

theorem State.Keeps.setIngest {q : Nat} {v : Ingest} (h : s₀.Keeps s) : s₀.Keeps (s.setIngest q v) := h.frame

theorem State.Keeps.setIq {k : Nat} {v : IntQueue} (h : s₀.Keeps s) : s₀.Keeps (s.setIq k v) := h.frame

theorem State.Keeps.setTxFrames {q : Nat} {l : List LaunchFrame} (h : s₀.Keeps s) : s₀.Keeps (s.setTxFrames q l) := .ite h.frame h.frame

theorem State.Keeps.bumpStream {q : Nat} {r : Nat → Reg} {n : Nat} (h : s₀.Keeps s) : s₀.Keeps (s.bumpStream q r n) := .ite h.bumpBy h

theorem State.Keeps.iqEnded {ring seq : Nat} {good : Bool} {k : Nat} (h : s₀.Keeps s) : s₀.Keeps (s.iqEnded ring seq good k) :=
  .ite h h.setIq.bumpIf

theorem State.Keeps.popEnded {ring seq q : Nat} (h : s₀.Keeps s) : s₀.Keeps (s.popEnded ring seq q) := by
  unfold State.popEnded
  dsimp only
  split
  · exact .ite h.setIngest h
  · exact h

theorem State.Keeps.txEnded {ring seq : Nat} {good : Bool} {q : Nat} (h : s₀.Keeps s) : s₀.Keeps (s.txEnded ring seq good q) := by
  unfold State.txEnded
  dsimp only
  split
  · exact .ite (.ite h.frame.setTxFrames h.frame) h
  · exact h

theorem State.Keeps.queuesEnded {ring seq : Nat} {good : Bool} (h : s₀.Keeps s) : s₀.Keeps (s.queuesEnded ring seq good) :=
  ((h.foldl (fun _ _ h' => h'.iqEnded)).foldl (fun _ _ h' => h'.popEnded)).foldl (fun _ _ h' => h'.txEnded)

theorem State.Keeps.emptyIngest {q : Nat} (h : s₀.Keeps s) : s₀.Keeps (s.emptyIngest q) := h.bumpStream.bumpStream.setIngest

theorem State.Keeps.emptyIq {k : Nat} (h : s₀.Keeps s) : s₀.Keeps (s.emptyIq k) := h.bumpBy.bumpIf.setIq

theorem State.Keeps.emptyTx {q : Nat} (h : s₀.Keeps s) : s₀.Keeps (s.emptyTx q) := .setTxFrames (.frame (.ite h h.bumpBy))

theorem State.Keeps.emptyQueue {q : Nat} (h : s₀.Keeps s) : s₀.Keeps (s.emptyQueue q) := .ite h.emptyIngest (.ite h.emptyTx h.emptyIq)

end Sys2Proof.Machine
end

section
/-! The rules of State.Keeps for the operations of Machine/Work. -/

namespace Sys2Proof.Machine

variable {s₀ s : State}

theorem State.Keeps.setItem {i : Item} (h : s₀.Keeps s) : s₀.Keeps (s.setItem i) := h.frame

theorem State.Keeps.setFinish {i : Item} {f : Finish} (h : s₀.Keeps s) : s₀.Keeps (s.setFinish i f) := h.setItem

theorem State.Keeps.setRing {r : Nat} {v : Machine.Ring} (h : s₀.Keeps s) : s₀.Keeps (s.setRing r v) := h.frame

theorem State.Keeps.setComp {c : Nat} {v : CompRing} (h : s₀.Keeps s) : s₀.Keeps (s.setComp c v) := h.frame

theorem State.Keeps.advanceHead {r n : Nat} (h : s₀.Keeps s) : s₀.Keeps (s.advanceHead r n) := h.setReg

theorem State.Keeps.readRecord {r k : Nat} (h : s₀.Keeps s) : s₀.Keeps (s.readRecord r k).1 := by
  unfold State.readRecord
  dsimp only
  split
  · split
    · exact h.readMem.fst ‹_›
    · exact h.readMem.fst ‹_›
    · exact h.readMem.fst ‹_›
  · exact h.notPresent

theorem State.Keeps.absorb {r avail k n : Nat} (h : s₀.Keeps s) : s₀.Keeps (s.absorb r avail k n).1 := by
  induction n generalizing s k with
  | zero => unfold State.absorb; exact h
  | succ n ih =>
    unfold State.absorb
    refine .ite₁ h ?_
    split
    · exact .ite₁ (ih (h.readRecord.fst ‹_›)) h
    · exact h

theorem State.Keeps.continueGroup {r avail version : Nat} {recs : List Nat} {k n : Nat} (h : s₀.Keeps s) : s₀.Keeps (s.continueGroup r
    avail version recs k n).s := by
  induction n generalizing s recs k with
  | zero => unfold State.continueGroup; exact h
  | succ n ih =>
    unfold State.continueGroup
    split
    · exact h
    · split
      · exact (h.readRecord.fst ‹_›).absorb
      · split
        · exact h
        · split
          · exact (h.readRecord.fst ‹_›).absorb
          · split
            · exact ih (h.readRecord.fst ‹_›)
            · exact h.readRecord.fst ‹_›

theorem State.Keeps.group {r : Nat} (h : s₀.Keeps s) : s₀.Keeps (s.group r).s := by
  unfold State.group
  dsimp only
  split
  · exact h
  · split
    · exact (h.readRecord.fst ‹_›).absorb
    · split
      · exact (h.readRecord.fst ‹_›).absorb
      · split
        · exact (h.readRecord.fst ‹_›).continueGroup
        · exact h.readRecord.fst ‹_›

theorem State.Keeps.coverRecords {c : Nat} (h : s₀.Keeps s) : s₀.Keeps (s.coverRecords c) := h.setComp.msix

theorem State.Keeps.writeRecord {c : Nat} {i : Item} {f : Finish} (h : s₀.Keeps s) : s₀.Keeps (s.writeRecord c i f) := by
  unfold State.writeRecord
  refine .ite (.coverRecords (.setComp (.ite (.setReg (.setReg ?_)) (.setReg ?_)))) (.setComp (.ite (.setReg (.setReg ?_)) (.setReg ?_)))
  · split
    · exact h.writeMem
    · exact h.notPresent
  · split
    · exact h.writeMem
    · exact h.notPresent
  · split
    · exact h.writeMem
    · exact h.notPresent
  · split
    · exact h.writeMem
    · exact h.notPresent

theorem State.Keeps.retestBarriers (h : s₀.Keeps s) : s₀.Keeps s.retestBarriers := h.frame

theorem State.Keeps.journalize {i : Item} {f : Finish} (h : s₀.Keeps s) : s₀.Keeps (s.journalize i f) := .ite h h.frame

theorem State.Keeps.dropWait {ring seq : Nat} (h : s₀.Keeps s) : s₀.Keeps (s.dropWait ring seq) :=
  h.foldl (fun _ _ h' => .ite h' h'.setGaffer)

theorem State.Keeps.binCompletes {i : Item} {f : Finish} (h : s₀.Keeps s) : s₀.Keeps (s.binCompletes i f) := by
  unfold State.binCompletes
  dsimp only
  split
  · exact h
  · exact .ite (.ite h.frame ((h.frame.setReg.bump.bumpIf.foldl (fun _ _ h' => h'.bump)).frame)) h

theorem State.Keeps.complete {i : Item} {f : Finish} {good : Bool} (h : s₀.Keeps s) : s₀.Keeps (s.complete i f good) := by
  unfold State.complete
  refine .retestBarriers (.ite (.writeRecord (.setComp ?_)) (.setComp ?_))
  · dsimp only
    split
    · exact .bumpIf (.bump (.journalize (.binCompletes (.ite h.frame.dropWait.queuesEnded.deregister.setSwapping
        h.frame.dropWait.queuesEnded.deregister))))
    · exact .bump (.journalize (.binCompletes (.ite h.frame.dropWait.queuesEnded.deregister.setSwapping
        h.frame.dropWait.queuesEnded.deregister)))
  · dsimp only
    split
    · exact .bumpIf (.bump (.journalize (.binCompletes (.ite h.frame.dropWait.queuesEnded.deregister.setSwapping
        h.frame.dropWait.queuesEnded.deregister))))
    · exact .bump (.journalize (.binCompletes (.ite h.frame.dropWait.queuesEnded.deregister.setSwapping
        h.frame.dropWait.queuesEnded.deregister)))

theorem State.Keeps.forgetItem {i : Item} (h : s₀.Keeps s) : s₀.Keeps (s.forgetItem i) := by
  unfold State.forgetItem
  refine h.foldl (fun _ _ h' => ?_)
  split
  · exact .ite h'.forgetRange h'
  · exact h'

theorem State.Keeps.stopVector {i : Item} (h : s₀.Keeps s) : s₀.Keeps (s.stopVector i) := .ite h.frame h

theorem State.Keeps.abort {i : Item} {f : Finish} (h : s₀.Keeps s) : s₀.Keeps (s.abort i f) := h.forgetItem.stopVector.complete

theorem State.Keeps.abortAll {p : Item → Bool} {f : Finish} (h : s₀.Keeps s) : s₀.Keeps (s.abortAll p f) := by
  unfold State.abortAll
  refine h.foldl (fun _ _ h' => ?_)
  split
  · exact h'.abort
  · exact h'

theorem State.Keeps.flushQueue {q : Nat} (h : s₀.Keeps s) : s₀.Keeps (s.flushQueue q) := h.emptyQueue.abortAll

theorem State.Keeps.discardConts {r n : Nat} (h : s₀.Keeps s) : s₀.Keeps (s.discardConts r n) := by
  induction n generalizing s with
  | zero => exact h
  | succ n ih =>
    unfold State.discardConts
    refine .ite h ?_
    dsimp only
    split
    · exact .ite (ih (h.readRecord.fst ‹_›).advanceHead.bumpIf.setRing) h.setRing
    · exact h.setRing

theorem State.Keeps.skipRecords {r n : Nat} (h : s₀.Keeps s) : s₀.Keeps (s.skipRecords r n) := by
  induction n generalizing s with
  | zero => exact h
  | succ n ih =>
    unfold State.skipRecords
    exact .ite h (ih h.group.advanceHead.bump.setRing)

theorem State.Keeps.flushRing {r detail : Nat} (h : s₀.Keeps s) : s₀.Keeps (s.flushRing r detail) := h.abortAll.discardConts.skipRecords

theorem State.Keeps.stopRing {r : Nat} (h : s₀.Keeps s) : s₀.Keeps (s.stopRing r) := h.flushRing.setReg

theorem State.Keeps.stopAllRings (h : s₀.Keeps s) : s₀.Keeps s.stopAllRings :=
  (h.foldl (fun _ _ h' => .ite h'.stopRing h')).foldl (fun _ _ h' => h'.setReg)

theorem State.Keeps.startWait {i : Item} (h : s₀.Keeps s) : s₀.Keeps (s.startWait i) := .ite h h.setItem

theorem State.Keeps.waitOrFail {i : Item} {detail : Nat} (h : s₀.Keeps s) : s₀.Keeps (s.waitOrFail i detail) := .ite h.setFinish h.startWait

theorem State.Keeps.runItem {α : Type} {l : Lane} {op : Nat} {check : State → Item → Checked α} {run : State → Item → α → State} (h :
    s₀.Keeps s) (hc : ∀ s i, s₀.Keeps s → s₀.Keeps (check s i).1) (hr : ∀ s i a, s₀.Keeps s → s₀.Keeps (run s i a)) : s₀.Keeps (s.runItem
    l op check run) := by
  unfold State.runItem
  split
  · exact h
  · split
    · exact ((hc _ _ h).fst ‹_›).setFinish
    · exact .ite ((hc _ _ h).fst ‹_›).setFinish (hr _ _ _ ((hc _ _ h).fst ‹_›))

theorem State.Keeps.residueMismatch {i : Item} {g kind detail residue : Nat} (h : s₀.Keeps s) : s₀.Keeps (s.residueMismatch i g kind
    detail residue).1 := by
  unfold State.residueMismatch
  exact h.bump.bump.setGaffer.logEvent

theorem State.Keeps.arrayCheck {u : CUnit} {i : Item} {mt nt : Nat} {at_ : Nat → Nat → Watched} (h : s₀.Keeps s) : s₀.Keeps (s.arrayCheck
    u i mt nt at_).1 := by
  unfold State.arrayCheck
  dsimp only
  split
  · exact (h.foldl (fun _ _ h' => h'.setGaffer)).residueMismatch
  · exact h.foldl (fun _ _ h' => h'.setGaffer)

theorem State.Keeps.arrayChecks {u : CUnit} {i : Item} {most mt nt : Nat} {at_ : Nat → Nat → Watched} (h : s₀.Keeps s) : s₀.Keeps
    (s.arrayChecks u i most mt nt at_).1 := by
  refine State.Keeps.foldlOf (g := Prod.fst) h (fun b k h' => ?_)
  split
  · exact h'
  · split
    · exact (State.Keeps.arrayCheck h').fst ‹_›
    · exact (State.Keeps.arrayCheck h').fst ‹_›

theorem State.Keeps.vectorCheck {u : CUnit} {i : Item} {index : Nat} {xs : List Exact} (h : s₀.Keeps s) : s₀.Keeps (s.vectorCheck u i
    index xs).1 := by
  unfold State.vectorCheck
  dsimp only
  split
  · exact (h.foldl (fun _ _ h' => h'.setGaffer)).residueMismatch
  · exact h.foldl (fun _ _ h' => h'.setGaffer)

theorem State.Keeps.vectorRows {u : CUnit} {i : Item} {l : List (List Exact)} (h : s₀.Keeps s) : s₀.Keeps (s.vectorRows u i l).1 := by
  induction l generalizing s with
  | nil => exact h
  | cons r l ih =>
    unfold State.vectorRows
    split
    · exact h.vectorCheck.fst ‹_›
    · split
      · exact (ih (h.vectorCheck.fst ‹_›)).fst ‹_›
      · exact (ih (h.vectorCheck.fst ‹_›)).fst ‹_›

theorem State.Keeps.treeSum {u : CUnit} {i : Item} {index : Nat} {t : List Nat} {n : Nat} (h : s₀.Keeps s) : s₀.Keeps (s.treeSum u i index
    t n).1 := by
  induction n generalizing s t with
  | zero => exact h
  | succ n ih =>
    unfold State.treeSum
    refine .ite₁ h ?_
    split
    · exact h.vectorCheck.fst ‹_›
    · exact ih (h.vectorCheck.fst ‹_›)

theorem State.Keeps.laneSteps {u : CUnit} {i : Item} {op : Nat → Nat → Exact} {acc : List Nat} {l : List (List Nat)} (h : s₀.Keeps s) :
    s₀.Keeps (s.laneSteps u i op acc l).1 := by
  induction l generalizing s acc with
  | nil => exact h
  | cons r l ih =>
    unfold State.laneSteps
    split
    · exact h.vectorCheck.fst ‹_›
    · exact ih (h.vectorCheck.fst ‹_›)

end Sys2Proof.Machine
end

section
/-! The rules of State.Keeps for the operations of Machine/PergolaData. -/

namespace Sys2Proof.Machine

variable {s₀ s : State}

theorem State.Keeps.setPgStream {k : Nat} {v : PgStream} (h : s₀.Keeps s) : s₀.Keeps (s.setPgStream k v) := h.frame

theorem State.Keeps.forgetTables (h : s₀.Keeps s) : s₀.Keeps s.forgetTables :=
  (h.frameMem fun w => wf_forget _ _ _ (wf_zero _ _ w)).skipFree

theorem State.Keeps.emptyCarry {k : Nat} (h : s₀.Keeps s) : s₀.Keeps (s.emptyCarry k) := h.setPgStream

theorem State.Keeps.emptyPoses (h : s₀.Keeps s) : s₀.Keeps s.emptyPoses := h.frame

theorem State.Keeps.pergolaStep (h : s₀.Keeps s) : s₀.Keeps s.pergolaStep := ((h.foldl (fun _ _ h' => h'.emptyCarry)).emptyPoses).frame

theorem State.Keeps.pergolaStream {q : Nat} (h : s₀.Keeps s) : s₀.Keeps (s.pergolaStream q) := .ite h.emptyCarry.setPgStream h

theorem State.Keeps.pergolaRestart (h : s₀.Keeps s) : s₀.Keeps s.pergolaRestart := h.emptyPoses.frame

theorem State.Keeps.pergolaLost (h : s₀.Keeps s) : s₀.Keeps s.pergolaLost := h.frameMem fun w => wf_zero _ _ w

theorem State.Keeps.pushPose {x : Nat} (h : s₀.Keeps s) : s₀.Keeps (s.pushPose x) := h.poke.frame

theorem State.Keeps.poseSees {q : Nat} {it : IngestItem} (h : s₀.Keeps s) : s₀.Keeps (s.poseSees q it) := .ite h.frame (.ite h.frame h)

theorem State.Keeps.receivePoint {p : PgPoint} (h : s₀.Keeps s) : s₀.Keeps (s.receivePoint p).1 := by
  unfold State.receivePoint
  dsimp only
  split
  · exact h
  · exact h.setPgStream.bumpIf

theorem State.Keeps.binTakes {b : PgBin} {i : Item} {k : Nat} {it : IngestItem} (h : s₀.Keeps s) : s₀.Keeps (s.binTakes b i k it) := by
  refine .frame (State.Keeps.foldlOf (g := Prod.fst) h.touch.setPgStream fun r _ h => ?_)
  obtain ⟨t, ps⟩ := r
  exact State.Keeps.receivePoint h

theorem State.Keeps.binPops {k n : Nat} (h : s₀.Keeps s) : s₀.Keeps (s.binPops k n) := by
  induction n generalizing s with
  | zero => exact h
  | succ n ih =>
    unfold State.binPops
    dsimp only
    split
    · exact h
    · split
      · exact h
      · exact .ite (ih h.setIngest.binTakes) h

theorem State.Keeps.pergolaSees {q : Nat} (h : s₀.Keeps s) : s₀.Keeps (s.pergolaSees q) := by
  unfold State.pergolaSees
  refine .ite (.binPops ?_) ?_
  · split
    · exact h.poseSees
    · exact h
  · split
    · exact h.poseSees
    · exact h

end Sys2Proof.Machine
end

section
/-! The rules of State.Keeps for the operations of Machine/Rings. -/

namespace Sys2Proof.Machine

variable {s₀ s : State}

theorem State.Keeps.sqTail {n v : Nat} (h : s₀.Keeps s) : s₀.Keeps (s.sqTail n v) := .ite h.setReg h.bump

theorem State.Keeps.cqHeadTo {n v : Nat} (h : s₀.Keeps s) : s₀.Keeps (s.cqHeadTo n v) := .ite h.setReg h.bump

theorem State.Keeps.execSqTailWrite {r : Fin 64} {v : Nat} (h : s₀.Keeps s) : s₀.Takes (execSqTailWrite r v s) :=
  .ite (.next h.sqTail) (.next h)

theorem State.Keeps.execCqHeadWrite {c : Fin 64} {v : Nat} (h : s₀.Keeps s) : s₀.Takes (execCqHeadWrite c v s) :=
  .ite (.next h.cqHeadTo) (.next h)

theorem State.Keeps.accept {i : Item} {count : Nat} (h : s₀.Keeps s) : s₀.Keeps (s.accept i count) :=
  h.setComp.advanceHead.bump.setRing.frame

theorem State.Keeps.execItemDispatch {r : Fin 64} (h : s₀.Keeps s) : s₀.Takes (execItemDispatch r s) :=
  .ite (.next h) (.ite (.next h.discardConts) (.ite (.next h.discardConts) (.next h.discardConts.group.bumpIf.accept)))

theorem State.Keeps.execRingFlushDiscard {r : Fin 64} (h : s₀.Keeps s) : s₀.Takes (execRingFlushDiscard r s) := .next h.discardConts

theorem State.Keeps.setLastServed {l : Lane} {r : Nat} (h : s₀.Keeps s) : s₀.Keeps (s.setLastServed l r) := h.frame

theorem State.Keeps.execLaneSelect {l : Lane} (h : s₀.Keeps s) : s₀.Takes (execLaneSelect l s) := by
  unfold Machine.execLaneSelect
  refine .ite (.next h) ?_
  dsimp only
  split
  · exact .next h
  · exact .ite (.next h) (.next (.setItem (.ite h h.setLastServed)))

theorem State.Keeps.preempt {l : Lane} {forced : Bool} (h : s₀.Keeps s) : s₀.Keeps (s.preempt l forced) := by
  unfold State.preempt
  split
  · exact h.setItem.bump
  · exact h

theorem State.Keeps.completeItem {r seq : Nat} (h : s₀.Keeps s) : s₀.Keeps (s.completeItem r seq) := by
  unfold State.completeItem
  split
  · split
    · exact h.complete
    · exact h
  · exact h

theorem State.Keeps.execNop {r : Fin 64} (h : s₀.Keeps s) : s₀.Takes (execNop r s) := by
  unfold Machine.execNop
  split
  · exact .next h.setFinish
  · exact .next h

theorem State.Keeps.execBarrier {r : Fin 64} (h : s₀.Keeps s) : s₀.Takes (execBarrier r s) := by
  unfold Machine.execBarrier
  split
  · exact .ite (.next h) (.ite (.next h.setFinish) (.ite (.next h.setFinish) (.next h.waitOrFail)))
  · exact .next h

theorem State.Keeps.setSem {g k v : Nat} (h : s₀.Keeps s) : s₀.Keeps (s.setSem g k v) := h.setGaffer

theorem State.Keeps.testWaits {g n : Nat} (h : s₀.Keeps s) : s₀.Keeps (s.testWaits g n) := by
  induction n generalizing s with
  | zero => exact h
  | succ n ih =>
    unfold State.testWaits
    dsimp only
    split
    · exact h
    · refine ih ?_
      split
      · exact .setFinish (.ite h.setGaffer.setSem h.setGaffer)
      · exact .ite h.setGaffer.setSem h.setGaffer

theorem State.Keeps.semChanged {g : Nat} (h : s₀.Keeps s) : s₀.Keeps (s.semChanged g) := h.testWaits

theorem State.Keeps.signalSem {g k v : Nat} {sets : Bool} (h : s₀.Keeps s) : s₀.Keeps (s.signalSem g k v sets) := h.bumpIf.setSem.semChanged

theorem State.Keeps.execSemSignal {r : Fin 64} (h : s₀.Keeps s) : s₀.Takes (execSemSignal r s) := by
  unfold Machine.execSemSignal
  dsimp only
  split
  · exact .next h
  · exact .ite (.next h.setFinish) (.ite (.next h.logAbsent.setFinish) (.ite (.next h.setFinish) (.next h.setFinish.signalSem)))

theorem State.Keeps.offerWait {i : Item} (h : s₀.Keeps s) : s₀.Keeps (s.offerWait i) :=
  .ite (.semChanged (.setFinish (.ite h.setSem h))) (.ite h.setFinish (.ite h.startWait h.startWait.setGaffer))

theorem State.Keeps.execSemWait {r : Fin 64} (h : s₀.Keeps s) : s₀.Takes (execSemWait r s) := by
  unfold Machine.execSemWait
  dsimp only
  split
  · exact .next h
  · exact .ite (.next h) (.ite (.next h.setFinish) (.ite (.next h.setFinish) (.ite (.next h.logAbsent.setFinish) (.ite (.next h.setFinish)
      (.next h.offerWait)))))

theorem State.Keeps.execSemWaitReoffer {r : Fin 64} (h : s₀.Keeps s) : s₀.Takes (execSemWaitReoffer r s) := by
  unfold Machine.execSemWaitReoffer
  dsimp only
  split
  · exact .next h
  · exact .ite (.next h.offerWait) (.next h)

theorem State.Keeps.execCqCoalesceTimeout {c : Fin 64} (h : s₀.Keeps s) : s₀.Takes (execCqCoalesceTimeout c s) := by
  unfold Machine.execCqCoalesceTimeout
  dsimp only
  split
  · exact .ite (.next h.coverRecords) (.next h)
  · exact .next h

theorem State.Keeps.unmask {v : Nat} (h : s₀.Keeps s) : s₀.Keeps (s.unmask v) := .ite h.frame.msix h.frame

theorem State.Keeps.execMsixUnmask {v : Fin 64} (h : s₀.Keeps s) : s₀.Takes (execMsixUnmask v s) := .ite (.next h.unmask) (.next h)

theorem State.Keeps.hookRingFlush {r : Nat} {p : Path} {x : Bytes} (h : s₀.Keeps s) : s₀.KeepsOk (hookRingFlush r s p x) :=
  h.actHook (fun _ _ h' => .ok h'.flushRing)

theorem State.Keeps.execRingFlush {p : Path} {r : Fin 64} {v : Nat} (h : s₀.Keeps s) : s₀.Takes (execRingFlush p r v s) :=
  .next (h.writeObject (fun _ _ _ h' => h'.hookRingFlush))

theorem State.Keeps.hookRingEnable {r : Nat} {p : Path} {x : Bytes} (h : s₀.Keeps s) : s₀.KeepsOk (hookRingEnable r s p x) := by
  unfold Machine.hookRingEnable
  refine .ite (.ok (.ite h.stopRing h)) (.ite (.ok h) (.ite .error ?_))
  dsimp only
  split
  · exact .error
  · exact .ok h.frame.setReg.setReg.setReg.setRing

theorem State.Keeps.execRingEnable {p : Path} {r : Fin 64} {v : Nat} (h : s₀.Keeps s) : s₀.Takes (execRingEnable p r v s) :=
  .next (h.writeObject (fun _ _ _ h' => h'.hookRingEnable))

theorem State.Keeps.hookCqEnable {c : Nat} {p : Path} {x : Bytes} (h : s₀.Keeps s) : s₀.KeepsOk (hookCqEnable c s p x) := by
  unfold Machine.hookCqEnable
  refine .ite ?_ (.ite (.ok h) (.ite .error ?_))
  · split
    · exact .error
    · exact .ok h.setReg
  · split
    · exact .error
    · exact .ok h.setReg.setReg.setReg.setReg.setComp

theorem State.Keeps.execCqEnable {p : Path} {c : Fin 64} {v : Nat} (h : s₀.Keeps s) : s₀.Takes (execCqEnable p c v s) :=
  .next (h.writeObject (fun _ _ _ h' => h'.hookCqEnable))

theorem State.Keeps.hookRingTarget {r : Nat} {p : Path} {x : Bytes} (h : s₀.Keeps s) : s₀.KeepsOk (hookRingTarget r s p x) :=
  .ite .error (.ok h.setReg)

theorem State.Keeps.heldHook {enable : Reg} {hook : Hook} {p : Path} {x : Bytes} (h : s₀.Keeps s) (hk : ∀ s p x, s₀.Keeps s → s₀.KeepsOk
    (hook s p x)) : s₀.KeepsOk (heldHook enable hook s p x) :=
  .ite .error (hk _ _ _ h)

theorem State.Keeps.regHook {r : Reg} {p : Path} {x : Bytes} (h : s₀.Keeps s) : s₀.KeepsOk (regHook r s p x) := .ok h.setReg

theorem State.Keeps.powerHook {enable r : Reg} {p : Path} {x : Bytes} (h : s₀.Keeps s) : s₀.KeepsOk (powerHook enable r s p x) :=
  h.rangeFirst (fun _ _ _ h' => h'.heldHook (fun _ _ _ h'' => h''.regHook))

end Sys2Proof.Machine
end

section
/-! The rules of State.Keeps for the operations of Machine/Copy. -/

namespace Sys2Proof.Machine

variable {s₀ s : State}

theorem State.Keeps.poisonElems {src dst : Tensor} {bad : List (Nat × Nat)} (h : s₀.Keeps s) : s₀.Keeps (s.poisonElems src dst bad) :=
  .ite h (h.foldl (fun _ _ h' => .ite h'.pokePoison h'))

theorem State.Keeps.copyBytes {i : Item} {rd wr : Agent} {src dst n : Nat} (h : s₀.Keeps s) : s₀.Keeps (s.copyBytes i rd wr src dst n).1
    := by
  unfold State.copyBytes
  dsimp only
  split
  · exact h.touch
  · split
    · exact h.touch.landing.fst ‹_›
    · exact (h.touch.landing.fst ‹_›).put.foldl (fun _ _ h' => .ite h'.pokePoison h')

theorem State.Keeps.checkCopy {ag : Agent} {i : Item} (h : s₀.Keeps s) : s₀.Keeps (checkCopy ag s i).1 := by
  unfold Machine.checkCopy
  split
  · exact .ite₁ (h.descriptors.fst ‹_›) (h.descriptors.fst ‹_›)
  · exact h.descriptors.fst ‹_›
  · exact h.descriptors.fst ‹_›

theorem State.Keeps.copyTensor {ag : Agent} {i : Item} {p : Tensor × Tensor} (h : s₀.Keeps s) : s₀.Keeps (s.copyTensor ag i p) := by
  unfold State.copyTensor
  dsimp only
  split
  · exact h.touch.setFinish
  · split
    · exact (h.touch.landing.fst ‹_›).setFinish
    · exact (((h.touch.landing.fst ‹_›).foldl (fun _ _ h' => h'.setRun)).poisonElems).setFinish

theorem State.Keeps.execCopy {u : CUnit} (h : s₀.Keeps s) : s₀.Takes (execCopy u s) :=
  .next (h.runItem (fun _ _ h' => h'.checkCopy) (fun _ _ _ h' => h'.copyTensor))

theorem State.Keeps.checkFill {ag : Agent} {i : Item} (h : s₀.Keeps s) : s₀.Keeps (checkFill ag s i).1 := h.descriptor

theorem State.Keeps.fillTensor {ag : Agent} {i : Item} {t : Tensor} (h : s₀.Keeps s) : s₀.Keeps (s.fillTensor ag i t) := by
  unfold State.fillTensor
  split
  · exact (h.landing.fst ‹_›).setFinish
  · exact ((h.landing.fst ‹_›).foldl (fun _ _ h' => h'.setRun)).setFinish

theorem State.Keeps.execFill {u : CUnit} (h : s₀.Keeps s) : s₀.Takes (execFill u s) :=
  .next (h.runItem (fun _ _ h' => h'.checkFill) (fun _ _ _ h' => h'.fillTensor))

theorem State.Keeps.checkAddr {i : Item} {ag : Agent} {n : Nat} {write : Bool} (h : s₀.Keeps s) : s₀.Keeps (s.checkAddr i ag n write).1 :=
    by
  unfold State.checkAddr
  refine .ite₁ h ?_
  split
  · exact h.checkSpans.fst ‹_›
  · exact h.checkSpans.fst ‹_›

theorem State.Keeps.checkPush {ag : Agent} {i : Item} (h : s₀.Keeps s) : s₀.Keeps (checkPush ag s i).1 := by
  unfold Machine.checkPush
  refine .ite₁ h (.ite₁ h ?_)
  dsimp only
  split
  · exact h.checkAddr.fst ‹_›
  · exact .ite₁ (h.checkAddr.fst ‹_›) (.ite₁ (h.checkAddr.fst ‹_›) (h.checkAddr.fst ‹_›))

theorem State.Keeps.pushWaits {i : Item} {full : Bool} (h : s₀.Keeps s) : s₀.Keeps (s.pushWaits i full) := h.setItem.bumpIf.waitOrFail

theorem State.Keeps.pushFrame {ag : Agent} {i : Item} (h : s₀.Keeps s) : s₀.Keeps (s.pushFrame ag i) := by
  unfold State.pushFrame
  refine .ite h.pushWaits ?_
  dsimp only
  split
  · exact h.touch.setFinish
  · exact h.touch.setFinish
  · exact .ite h.touch.setFinish (.ite h.touch.setFinish h.touch.frame.setFinish)

theorem State.Keeps.pushSlot {ag : Agent} {i : Item} (h : s₀.Keeps s) : s₀.Keeps (s.pushSlot ag i) :=
  .ite h.pushWaits (.ite h.copyBytes.setFinish h.copyBytes.setIq.setFinish)

theorem State.Keeps.execQueuePush {l : Lane} (h : s₀.Keeps s) : s₀.Takes (execQueuePush l s) :=
  .next (h.runItem (fun _ _ h' => h'.checkPush) (fun _ _ _ h' => .ite h'.pushFrame h'.pushSlot))

theorem State.Keeps.popsRefused {q : Nat} (h : s₀.Keeps s) : s₀.Keeps (s.popsRefused q) := .ite h.frame h

theorem State.Keeps.checkPop {ag : Agent} {i : Item} (h : s₀.Keeps s) : s₀.Keeps (checkPop ag s i).1 := by
  unfold Machine.checkPop
  refine .ite₁ h (.ite₁ h ?_)
  split
  · exact h.checkAddr.fst ‹_›
  · exact .ite₁ (h.checkAddr.fst ‹_›) (.ite₁ (h.checkAddr.fst ‹_›) (.ite₁ (h.checkAddr.fst ‹_›) (h.checkAddr.fst ‹_›)))

theorem State.Keeps.popIngest {ag : Agent} {i : Item} (h : s₀.Keeps s) : s₀.Keeps (s.popIngest ag i) := by
  unfold State.popIngest
  dsimp only
  split
  · exact h.waitOrFail
  · exact .ite h.waitOrFail h.setIngest.copyBytes.setFinish

theorem State.Keeps.popIq {ag : Agent} {i : Item} (h : s₀.Keeps s) : s₀.Keeps (s.popIq ag i) := by
  unfold State.popIq
  dsimp only
  split
  · exact h.waitOrFail
  · exact .ite h.waitOrFail h.setIq.copyBytes.setFinish

theorem State.Keeps.execQueuePop {l : Lane} (h : s₀.Keeps s) : s₀.Takes (execQueuePop l s) :=
  .next (h.runItem (fun _ _ h' => h'.checkPop) (fun _ _ _ h' => .ite h'.popIngest h'.popIq))

theorem State.Keeps.execWaitTimeout {r : Fin 64} (h : s₀.Keeps s) : s₀.Takes (execWaitTimeout r s) := by
  unfold Machine.execWaitTimeout
  dsimp only
  split
  · exact .ite (.next h) (.ite (.next h.offerWait) (.next h.dropWait.setFinish))
  · exact .next h

theorem State.Keeps.hookIqFlush {k : Nat} {p : Path} {x : Bytes} (h : s₀.Keeps s) : s₀.KeepsOk (hookIqFlush k s p x) :=
  h.ownedHook (fun _ _ _ h' => h'.actHook (fun _ _ h'' => .ok h''.flushQueue))

theorem State.Keeps.execIqFlush {p : Path} {q : Fin 32} {v : Nat} (h : s₀.Keeps s) : s₀.Takes (execIqFlush p q v s) :=
  .next (h.writeObject (fun _ _ _ h' => h'.hookIqFlush))

theorem State.Keeps.hookIqEnable {k : Nat} {p : Path} {x : Bytes} (h : s₀.Keeps s) : s₀.KeepsOk (hookIqEnable k s p x) := by
  unfold Machine.hookIqEnable
  refine h.rangeFirst (fun _ _ _ h' => h'.ownedHook (fun _ _ _ h'' => .ite (.ok (.ite h''.flushQueue.setReg h'')) (.ite (.ok h'') ?_)))
  split
  · split
    · exact .error
    · exact .ok h''.setReg.setIq

theorem State.Keeps.execIqEnable {p : Path} {q : Fin 32} {v : Nat} (h : s₀.Keeps s) : s₀.Takes (execIqEnable p q v s) :=
  .next (h.writeObject (fun _ _ _ h' => h'.hookIqEnable))

theorem State.Keeps.hookIqConfig {k : Nat} {r : Reg} {p : Path} {x : Bytes} (h : s₀.Keeps s) : s₀.KeepsOk (hookIqConfig k r s p x) :=
  h.rangeFirst (fun _ _ _ h' => h'.ownedHook (fun _ _ _ h'' => h''.heldHook (fun _ _ _ k' => k'.regHook)))

theorem State.Keeps.hookLqFlush {n : Nat} {p : Path} {x : Bytes} (h : s₀.Keeps s) : s₀.KeepsOk (hookLqFlush n s p x) :=
  h.ownedHook (fun _ _ _ h' => h'.actHook (fun _ _ h'' => .ok h''.flushQueue))

theorem State.Keeps.execLqFlush {p : Path} {q : Fin 16} {v : Nat} (h : s₀.Keeps s) : s₀.Takes (execLqFlush p q v s) :=
  .next (h.writeObject (fun _ _ _ h' => h'.hookLqFlush))

theorem State.Keeps.hookEthTxFlush {n : Nat} {p : Path} {x : Bytes} (h : s₀.Keeps s) : s₀.KeepsOk (hookEthTxFlush n s p x) :=
  h.actHook (fun _ _ h' => .ok h'.flushQueue)

theorem State.Keeps.execEthTxFlush {p : Path} {port : Fin 4} {v : Nat} (h : s₀.Keeps s) : s₀.Takes (execEthTxFlush p port v s) :=
  .next (h.writeObject (fun _ _ _ h' => h'.hookEthTxFlush))

end Sys2Proof.Machine
end

section
/-! The rules of State.Keeps for the operations of Machine/Kv. -/

namespace Sys2Proof.Machine

variable {s₀ s : State}

theorem State.Keeps.setDir {q i x : Nat} (h : s₀.Keeps s) : s₀.Keeps (s.setDir q i x) := h.poke

theorem State.Keeps.setPte {q b : Nat} {e : Pte} (h : s₀.Keeps s) : s₀.Keeps (s.setPte q b e) := by
  unfold State.setPte
  split
  · exact h.poke
  · exact h

theorem State.Keeps.pick {n : Nat} (h : s₀.Keeps s) : s₀.Keeps (s.pick n).1 := h.draw

theorem State.Keeps.takeTable {q i : Nat} (h : s₀.Keeps s) : s₀.KeepsSome (s.takeTable q i) :=
  .ite .none (.some (h.pick (n := s.kv.l2Free.length)).frame.poke.setDir)

theorem State.Keeps.withTable {q b : Nat} (h : s₀.Keeps s) : s₀.KeepsSome (s.withTable q b) := .ite (.some h) h.takeTable

theorem State.Keeps.returnTable {q i : Nat} (h : s₀.Keeps s) : s₀.Keeps (s.returnTable q i) := .ite h.setDir.frame h

theorem State.Keeps.changePage {q b : Nat} {e : Pte} (h : s₀.Keeps s) : s₀.Keeps (s.changePage q b e) := h.setPte.setSeqEntry

theorem State.Keeps.markShared {q b : Nat} {on : Bool} (h : s₀.Keeps s) : s₀.Keeps (s.markShared q b on) := h.frame.setSeqEntry

theorem State.Keeps.releasePage {q b : Nat} (h : s₀.Keeps s) : s₀.Keeps (s.releasePage q b) :=
  .ite h.changePage.markShared.returnTable.dropRef h.changePage.markShared.returnTable

theorem State.Keeps.addSlice {q b : Nat} (h : s₀.Keeps s) : s₀.Keeps (s.addSlice q b) := .ite h.changePage.bump h.changePage

theorem State.Keeps.readTable {i : Item} {a n : Nat} (h : s₀.Keeps s) : s₀.Keeps (s.readTable i a n).1 := by
  unfold State.readTable
  dsimp only
  split
  · exact h.touch
  · exact h.touch.kvDamaged
  · exact h.touch

theorem State.Keeps.readTables {i : Item} {l : List (Nat × Nat)} (h : s₀.Keeps s) : s₀.Keeps (s.readTables i l).1 := by
  induction l generalizing s with
  | nil => exact h
  | cons r l ih =>
    unfold State.readTables
    split
    · exact h.readTable.fst ‹_›
    · exact ih (h.readTable.fst ‹_›)

theorem State.Keeps.kvLook {i : Item} {q lo hi : Nat} (h : s₀.Keeps s) : s₀.Keeps (s.kvLook i q lo hi).1 := by
  unfold State.kvLook
  split
  · exact h
  · exact h.readTables

theorem State.Keeps.translateMiss {i : Item} {q b : Nat} (h : s₀.Keeps s) : s₀.Keeps (s.translateMiss i q b).1 := by
  unfold State.translateMiss
  split
  · exact h.readTable.fst ‹_›
  replace h := h.readTable.fst ‹_›
  split
  · exact h
  split
  · exact h.bump.readTable.fst ‹_›
  next t _ e =>
    replace h := h.bump.readTable.fst e
    exact .frame (.ite₁ h (h.pick (n := cacheLines)))

theorem State.Keeps.translate {i : Item} {q b : Nat} (h : s₀.Keeps s) : s₀.Keeps (s.translate i q b).1 := by
  unfold State.translate
  split
  · exact h
  · refine .ite₁ ?_ h.translateMiss
    split
    · exact h.touchArray.fst ‹_›
    · exact h.touchArray.fst ‹_›

theorem State.Keeps.translateAll {i : Item} {q : Nat} {l : List Nat} (h : s₀.Keeps s) : s₀.Keeps (s.translateAll i q l).1 := by
  induction l generalizing s with
  | nil => exact h
  | cons b l ih =>
    unfold State.translateAll
    split
    · exact h.translate.fst ‹_›
    · split
      · exact (ih (h.translate.fst ‹_›)).fst ‹_›
      · exact (ih (h.translate.fst ‹_›)).fst ‹_›

theorem State.Keeps.kvEnds {t : State} {i : Item} (k : s₀.Keeps t) : s₀.Keeps (s.kvEnds t i) := by
  unfold State.kvEnds
  split
  · exact k.setFinish
  · exact k

theorem State.Keeps.runKv {α : Type} {op : Nat} {sub : Item → Bool} {check : State → Item → Checked α} {run : State → Item → α → State} (h
    : s₀.Keeps s) (hc : ∀ s i, s₀.Keeps s → s₀.Keeps (check s i).1) (hr : ∀ s i a, s₀.Keeps s → s₀.Keeps (run s i a)) : s₀.Keeps (s.runKv
    op sub check run) := by
  unfold State.runKv
  split
  · exact .ite (h.runItem hc hr).kvEnds h
  · exact h

theorem State.Keeps.checkOpen {i : Item} (h : s₀.Keeps s) : s₀.Keeps (checkOpen s i).1 := by
  unfold Machine.checkOpen
  dsimp only
  split
  · exact h.kvLook.fst ‹_›
  · exact .ite₁ (h.kvLook.fst ‹_›) (.ite₁ (h.kvLook.fst ‹_›) (h.kvLook.fst ‹_›))

theorem State.Keeps.forgetBlocks {q : Nat} (h : s₀.Keeps s) : s₀.Keeps (s.forgetBlocks q) := h.frame

theorem State.Keeps.execKvOpen (h : s₀.Keeps s) : s₀.Takes (execKvOpen s) :=
  .next (h.runKv (fun _ _ h' => h'.checkOpen) (fun _ _ _ h' => h'.setSeqEntry.forgetBlocks.setFinish))

theorem State.Keeps.checkMap {lo hi : Nat} {i : Item} (h : s₀.Keeps s) : s₀.Keeps (checkMap lo hi s i).1 := by
  unfold Machine.checkMap
  split
  · exact h.kvLook.fst ‹_›
  · exact .ite₁ (h.kvLook.fst ‹_›) (h.kvLook.fst ‹_›)

theorem State.Keeps.checkRange {i : Item} (h : s₀.Keeps s) : s₀.Keeps (checkRange s i).1 := .ite₁ h (.ite₁ h h.checkMap)

theorem State.Keeps.allocPage {q b : Nat} (h : s₀.Keeps s) : s₀.Keeps (s.allocPage q b) := by
  unfold State.allocPage
  split
  · exact h
  · split
    · exact ((h.withTable _ ‹_›).takeFrame.fst ‹_›).changePage
    · exact (h.withTable _ ‹_›).takeFrame.fst ‹_›

theorem State.Keeps.allocPages {i : Item} (h : s₀.Keeps s) : s₀.Keeps (s.allocPages i) :=
  .ite h.bump.setFinish ((h.foldl (fun _ _ h' => h'.allocPage)).setFinish)

theorem State.Keeps.execKvAlloc (h : s₀.Keeps s) : s₀.Takes (execKvAlloc s) :=
  .next (h.runKv (fun _ _ h' => h'.checkRange) (fun _ _ _ h' => h'.allocPages))

theorem State.Keeps.releaseFrom {i : Item} {lo : Nat} {close : Bool} (h : s₀.Keeps s) : s₀.Keeps (s.releaseFrom i lo close) :=
  .ite h.startWait (.setFinish (.ite (((h.foldl (fun _ _ h' => h'.releasePage)).setSeqEntry).forgetBlocks) (h.foldl (fun _ _ h' =>
    h'.releasePage))))

theorem State.Keeps.execKvTruncate (h : s₀.Keeps s) : s₀.Takes (execKvTruncate s) :=
  .next (h.runKv (fun _ _ h' => h'.checkMap) (fun _ _ _ h' => h'.releaseFrom))

theorem State.Keeps.execKvClose (h : s₀.Keeps s) : s₀.Takes (execKvClose s) :=
  .next (h.runKv (fun _ _ h' => h'.checkMap) (fun _ _ _ h' => h'.releaseFrom))

theorem State.Keeps.checkPlain {i : Item} {ag : Agent} {a n field : Nat} {write : Bool} (h : s₀.Keeps s) : s₀.Keeps (s.checkPlain i ag a n
    field write).1 := by
  unfold State.checkPlain
  refine .ite₁ h ?_
  split
  · exact h.checkSpans.fst ‹_›
  · exact h.checkSpans.fst ‹_›

theorem State.Keeps.checkKvRead {i : Item} (h : s₀.Keeps s) : s₀.Keeps (checkKvRead s i).1 := by
  unfold Machine.checkKvRead
  split
  · exact h.checkRange.fst ‹_›
  · exact (h.checkRange.fst ‹_›).checkPlain

theorem State.Keeps.execKvRead (h : s₀.Keeps s) : s₀.Takes (execKvRead s) := by
  unfold Machine.execKvRead
  refine .next (h.runKv (fun _ _ h' => h'.checkKvRead) (fun _ _ _ h' => ?_))
  dsimp only
  split
  · exact (h'.landing.fst ‹_›).setFinish
  · exact (h'.landing.fst ‹_›).put.setFinish

theorem State.Keeps.freeAll {p : Nat} (h : s₀.Keeps s) : s₀.Keeps (s.freeAll p) := (h.foldl (fun _ _ h' => h'.setFrame)).setPool

theorem State.Keeps.hookKvpEnable {p : Nat} {p' : Path} {x : Bytes} (h : s₀.Keeps s) : s₀.KeepsOk (hookKvpEnable p s p' x) := by
  unfold Machine.hookKvpEnable
  refine h.rangeFirst (fun _ _ _ h' => .ite (.ite .error (.ok h'.setReg.setPool)) (.ite (.ok h') ?_))
  split
  · exact .error
  · exact .ok h'.freeAll.setReg

theorem State.Keeps.execKvpEnable {p : Path} {pool : Fin 4} {v : Nat} (h : s₀.Keeps s) : s₀.Takes (execKvpEnable p pool v s) :=
  .next (h.writeObject (fun _ _ _ h' => h'.hookKvpEnable))

theorem State.Keeps.hookPool {p : Nat} {r : Reg} {ok : State → Bool} {p' : Path} {x : Bytes} (h : s₀.Keeps s) : s₀.KeepsOk (hookPool p r
    ok s p' x) := by
  unfold Machine.hookPool
  refine h.rangeFirst (fun _ _ _ h' => h'.heldHook (fun _ _ _ h'' => ?_))
  dsimp only
  split
  · exact .error
  · exact .ok h''.setReg

theorem State.Keeps.hookPoolPlace {p : Nat} {r : Reg} {ok : State → Bool} {meets : State → Option Reply} {p' : Path} {x : Bytes} (h :
    s₀.Keeps s) : s₀.KeepsOk (hookPoolPlace p r ok meets s p' x) := by
  unfold Machine.hookPoolPlace
  split
  · exact .error
  · split
    · exact .error
    · exact .ok (h.hookPool _ ‹_›)

/-- The hooks of a KV pool's objects. -/
theorem State.Keeps.hookPoolObject {pool sub : Nat} {hook : Hook} (e : hookPoolObject pool sub = some hook) {p : Path} {x : Bytes} (h :
    s₀.Keeps s) : s₀.KeepsOk (hook s p x) := by
  unfold Machine.hookPoolObject at e
  dsimp only at e
  split at e <;> cases e
  · exact h.hookKvpEnable
  · exact h.hookPoolPlace
  · exact h.hookPoolPlace
  · exact h.hookPoolPlace
  · exact h.hookPoolPlace
  · exact h.hookPoolPlace
  · exact h.hookPoolPlace
  · exact h.heldHook fun _ _ _ h => h.regHook
  · exact h.hookPoolPlace
  · exact h.hookPool
  · exact h.hookPool
  · exact h.hookPool

theorem State.Keeps.hookL2 {r : Reg} {p : Path} {x : Bytes} (h : s₀.Keeps s) : s₀.KeepsOk (hookL2 r s p x) := by
  unfold Machine.hookL2
  refine h.rangeFirst (fun _ _ _ h' => .ite .error ?_)
  dsimp only
  split
  · exact .error
  · exact .ok h'.setReg.frame

end Sys2Proof.Machine
end

section
/-! The rules of State.Keeps for the operations of Machine/Matmul. -/

namespace Sys2Proof.Machine

variable {s₀ s : State}

theorem State.Keeps.drawFor {round : Bool} {g : Nat} (h : s₀.Keeps s) : s₀.Keeps (s.drawFor round g).1 := .ite₁ h.setReg h

theorem State.Keeps.drawAll {round : Bool} {l : List Nat} (h : s₀.Keeps s) : s₀.Keeps (s.drawAll round l).1 := by
  induction l generalizing s with
  | nil => exact h
  | cons g l ih => exact ih h.drawFor

theorem State.Keeps.countWritten {ws : List (Nat × Written)} (h : s₀.Keeps s) : s₀.Keeps (s.countWritten ws) :=
  h.foldl (fun _ _ h' => h'.bumpIf.bumpIf)

theorem State.Keeps.writeResults {ag : Agent} {out : Tensor} {scales : Option Tensor} {outer : List Nat} {n0 : Nat} {vs : List
    (Machine.Num × Option Nat)} {gs : List Nat} {fromAcc : Bool} (h : s₀.Keeps s) : s₀.Keeps (s.writeResults ag out scales outer n0 vs gs
    fromAcc) := by
  unfold State.writeResults
  dsimp only
  split
  · exact h.setRun.countWritten
  · exact h.setRun.setRun.countWritten

theorem State.Keeps.descriptorIf {i : Item} {ag : Agent} {used : Bool} {w : Want} (h : s₀.Keeps s) : s₀.Keeps (s.descriptorIf i ag used
    w).1 := by
  unfold State.descriptorIf
  refine .ite₁ ?_ h
  split
  · exact h.descriptor.fst ‹_›
  · exact h.descriptor.fst ‹_›

theorem State.Keeps.padDescriptorIf {u : CUnit} {i : Item} {used : Bool} {w : Want} {f : Finish} (h : s₀.Keeps s) : s₀.Keeps
    (s.padDescriptorIf u i used w f).1 := by
  unfold State.padDescriptorIf
  refine .ite₁ h (.ite₁ h ?_)
  split
  · exact h.fetchStruct.fst ‹_›
  · split
    · exact h.fetchStruct.fst ‹_›
    · refine .ite₁ (h.fetchStruct.fst ‹_›) ?_
      split
      · exact (h.fetchStruct.fst ‹_›).checkSpans.fst ‹_›
      · exact (h.fetchStruct.fst ‹_›).checkSpans.fst ‹_›

theorem State.Keeps.accRecords {u : CUnit} {i : Item} {p : MatPlan} (h : s₀.Keeps s) : s₀.Keeps (s.accRecords u i p).1 := by
  unfold State.accRecords
  dsimp only
  split
  · exact h
  · split
    · exact h.touch
    · exact h.touch
    · exact h.touch

theorem State.Keeps.checkMatmul {u : CUnit} {i : Item} (h : s₀.Keeps s) : s₀.Keeps (checkMatmul u s i).1 := by
  unfold Machine.checkMatmul
  dsimp only
  split
  · exact h
  split
  · exact h.descriptor.fst ‹_›
  replace h := h.descriptor.fst ‹_›
  split
  · exact h.descriptorIf.fst ‹_›
  replace h := h.descriptorIf.fst ‹_›
  split
  · exact h.descriptor.fst ‹_›
  replace h := h.descriptor.fst ‹_›
  split
  · exact h.descriptorIf.fst ‹_›
  replace h := h.descriptorIf.fst ‹_›
  split
  · exact h.descriptorIf.fst ‹_›
  replace h := h.descriptorIf.fst ‹_›
  split
  · exact h.descriptorIf.fst ‹_›
  replace h := h.descriptorIf.fst ‹_›
  split
  · exact h.descriptorIf.fst ‹_›
  replace h := h.descriptorIf.fst ‹_›
  split
  · exact h.descriptorIf.fst ‹_›
  replace h := h.descriptorIf.fst ‹_›
  split
  · exact h.descriptorIf.fst ‹_›
  replace h := h.descriptorIf.fst ‹_›
  split
  · exact h.padDescriptorIf.fst ‹_›
  replace h := h.padDescriptorIf.fst ‹_›
  split
  · exact h
  split
  · exact h.accRecords.fst ‹_›
  replace h := h.accRecords.fst ‹_›
  split
  · exact h
  · exact h

theorem State.Keeps.rowResults {u : CUnit} {i : Item} {p : MatPlan} {n0 : Nat} {accs : List (List Machine.Acc)} (h : s₀.Keeps s) :
    s₀.Keeps (s.rowResults u i p n0 accs).1 := by
  unfold State.rowResults
  refine .ite₁ h ?_
  split
  · exact h.vectorRows.fst ‹_›
  · exact h.vectorRows.fst ‹_›

theorem State.Keeps.drainRow {u : CUnit} {i : Item} {p : MatPlan} {m n0 : Nat} {accs : List Machine.Acc} {vs : List Machine.Num} (h :
    s₀.Keeps s) : s₀.Keeps (s.drainRow u i p m n0 accs vs) := by
  unfold State.drainRow
  dsimp only
  split
  · exact h.foldl (fun _ _ h' => h'.put)
  · exact ((h.foldl (fun _ _ h' => h'.bumpIf)).drawAll).writeResults
  · exact h

theorem State.Keeps.matTile {u : CUnit} {i : Item} {p : MatPlan} {r0 n0 : Nat} (h : s₀.Keeps s) : s₀.Keeps (s.matTile u i p r0 n0).1 := by
  unfold State.matTile
  dsimp only
  split
  · exact h.touch
  · exact h.touch
  · split
    · exact h.touch.arrayCheck.fst ‹_›
    · split
      · exact (h.touch.arrayCheck.fst ‹_›).rowResults.fst ‹_›
      · exact ((h.touch.arrayCheck.fst ‹_›).rowResults.fst ‹_›).foldl (fun _ _ h' => h'.drainRow)

theorem State.Keeps.matmul {u : CUnit} {i : Item} {p : MatPlan} (h : s₀.Keeps s) : s₀.Keeps (s.matmul u i p) := by
  unfold State.matmul
  refine (h.foldlOf (g := Prod.fst) (fun _ _ h' => ?_)).setFinish
  split
  · exact h'
  · exact h'.matTile

theorem State.Keeps.execMatmul {u : CUnit} (h : s₀.Keeps s) : s₀.Takes (execMatmul u s) :=
  .next (h.runItem (fun _ _ h' => h'.checkMatmul) (fun _ _ _ h' => h'.matmul))

end Sys2Proof.Machine
end

section
/-! The rules of State.Keeps for the operations of Machine/Vector. -/

namespace Sys2Proof.Machine

variable {s₀ s : State}

theorem State.Keeps.setVec {u : CUnit} {v : VectorUnit} (h : s₀.Keeps s) : s₀.Keeps (s.setVec u v) := h.frame

theorem State.Keeps.vecStop {u : CUnit} {f : Finish} (h : s₀.Keeps s) : s₀.Keeps (s.vecStop u f) := by
  unfold State.vecStop
  dsimp only
  split
  · exact h.setVec.setFinish
  · exact h.setVec

theorem State.Keeps.vecSettle {u : CUnit} {v : VectorUnit} (h : s₀.Keeps s) : s₀.Keeps (s.vecSettle u v) := by
  unfold State.vecSettle
  dsimp only
  split
  · exact h.setVec.vecStop
  · exact .ite h.setVec h.setVec.vecStop

theorem State.Keeps.vecAdvance {u : CUnit} {v : VectorUnit} {cost : Nat} (h : s₀.Keeps s) : s₀.Keeps (s.vecAdvance u v cost) := h.vecSettle

theorem State.Keeps.vecRun {u : CUnit} {op : Nat} {f : State → VectorUnit → Item → Nat → State × Except Finish VectorUnit} (h : s₀.Keeps
    s) (hf : ∀ s v i x, s₀.Keeps s → s₀.Keeps (f s v i x).1) : s₀.Takes (s.vecRun u op f) := by
  unfold State.vecRun
  split
  · exact .next h
  · refine .ite (.next h) ?_
    split
    · exact .next ((hf _ _ _ _ h).fst ‹_›).vecStop
    · exact .next ((hf _ _ _ _ h).fst ‹_›).vecAdvance

theorem State.Keeps.vecReg {u : CUnit} {op : Nat} {g : (Nat → List Nat) → Nat → List Nat} (h : s₀.Keeps s) : s₀.Takes (s.vecReg u op g) :=
    by
  unfold State.vecReg
  exact h.vecRun (fun _ _ _ _ h' => h')

theorem State.Keeps.vecCalc {u : CUnit} {op : Nat} {g : (Nat → List Nat) → Nat → List Exact} {f : List Nat → List Nat} (h : s₀.Keeps s) :
    s₀.Takes (s.vecCalc u op g f) := by
  unfold State.vecCalc
  refine h.vecRun (fun _ _ _ _ h' => ?_)
  split
  · exact h'.vectorCheck.fst ‹_›
  · exact h'.vectorCheck.fst ‹_›

theorem State.Keeps.checkVector {u : CUnit} {i : Item} (h : s₀.Keeps s) : s₀.Keeps (checkVector u s i).1 := by
  unfold Machine.checkVector
  refine .ite₁ h (.ite₁ h (.ite₁ (.ite₁ h h) (.ite₁ h (.ite₁ h ?_))))
  split
  · exact h.checkSpans.fst ‹_›
  · split
    · exact (h.checkSpans.fst ‹_›).fetchStruct.fst ‹_›
    · exact (h.checkSpans.fst ‹_›).fetchStruct.fst ‹_›

theorem State.Keeps.execVector {u : CUnit} (h : s₀.Keeps s) : s₀.Takes (execVector u s) :=
  .next (h.runItem (fun _ _ h' => h'.checkVector) (fun _ _ _ h' => .ite h' h'.vecSettle))

theorem State.Keeps.execVectorTimeout {u : CUnit} (h : s₀.Keeps s) : s₀.Takes (execVectorTimeout u s) := by
  unfold Machine.execVectorTimeout
  split
  · exact .ite (.next h.vecStop) (.next h)
  · exact .next h

theorem State.Keeps.execVEnd {u : CUnit} (h : s₀.Keeps s) : s₀.Takes (execVEnd u s) := h.vecRun (fun _ _ _ _ h' => h')

theorem State.Keeps.vecLoad {u : CUnit} {v : VectorUnit} {i : Item} {x n : Nat} (h : s₀.Keeps s) : s₀.Keeps (s.vecLoad u v i x n).1 := by
  unfold State.vecLoad
  dsimp only
  split
  · exact h
  · split
    · exact h.touch
    · exact h.touch
    · exact h.touch

theorem State.Keeps.execVLd {u : CUnit} (h : s₀.Keeps s) : s₀.Takes (execVLd u s) := by
  unfold Machine.execVLd
  refine h.vecRun (fun _ _ _ _ h' => ?_)
  split
  · exact h'.vecLoad.fst ‹_›
  · exact h'.vecLoad.fst ‹_›

theorem State.Keeps.execVLdb {u : CUnit} (h : s₀.Keeps s) : s₀.Takes (execVLdb u s) := by
  unfold Machine.execVLdb
  refine h.vecRun (fun _ _ _ _ h' => ?_)
  split
  · exact h'.vecLoad.fst ‹_›
  · exact h'.vecLoad.fst ‹_›

theorem State.Keeps.execVSt {u : CUnit} (h : s₀.Keeps s) : s₀.Takes (execVSt u s) := by
  unfold Machine.execVSt
  refine h.vecRun (fun _ _ _ _ h' => ?_)
  dsimp only
  split
  · exact h'
  · exact h'.drawAll.put.countWritten

theorem State.Keeps.execVPadd {u : CUnit} (h : s₀.Keeps s) : s₀.Takes (execVPadd u s) := h.vecRun (fun _ _ _ _ h' => h')

theorem State.Keeps.execVMovi {u : CUnit} (h : s₀.Keeps s) : s₀.Takes (execVMovi u s) := h.vecReg

theorem State.Keeps.execVAdd {u : CUnit} (h : s₀.Keeps s) : s₀.Takes (execVAdd u s) := h.vecCalc

theorem State.Keeps.execVSub {u : CUnit} (h : s₀.Keeps s) : s₀.Takes (execVSub u s) := h.vecCalc

theorem State.Keeps.execVMul {u : CUnit} (h : s₀.Keeps s) : s₀.Takes (execVMul u s) := h.vecCalc

theorem State.Keeps.execVFma {u : CUnit} (h : s₀.Keeps s) : s₀.Takes (execVFma u s) := h.vecCalc

theorem State.Keeps.execVMin {u : CUnit} (h : s₀.Keeps s) : s₀.Takes (execVMin u s) := h.vecReg

theorem State.Keeps.execVMax {u : CUnit} (h : s₀.Keeps s) : s₀.Takes (execVMax u s) := h.vecReg

theorem State.Keeps.execVClt {u : CUnit} (h : s₀.Keeps s) : s₀.Takes (execVClt u s) := h.vecReg

theorem State.Keeps.execVSel {u : CUnit} (h : s₀.Keeps s) : s₀.Takes (execVSel u s) := h.vecReg

theorem State.Keeps.execVCvti {u : CUnit} (h : s₀.Keeps s) : s₀.Takes (execVCvti u s) := h.vecReg

theorem State.Keeps.execVCvtf {u : CUnit} (h : s₀.Keeps s) : s₀.Takes (execVCvtf u s) := h.vecReg

theorem State.Keeps.execVExp {u : CUnit} (h : s₀.Keeps s) : s₀.Takes (execVExp u s) := h.vecReg

theorem State.Keeps.execVRcp {u : CUnit} (h : s₀.Keeps s) : s₀.Takes (execVRcp u s) := h.vecReg

theorem State.Keeps.execVRsq {u : CUnit} (h : s₀.Keeps s) : s₀.Takes (execVRsq u s) := h.vecReg

theorem State.Keeps.execVRsum {u : CUnit} (h : s₀.Keeps s) : s₀.Takes (execVRsum u s) := by
  unfold Machine.execVRsum
  refine h.vecRun (fun _ _ _ _ h' => ?_)
  split
  · exact h'.treeSum.fst ‹_›
  · exact h'.treeSum.fst ‹_›

theorem State.Keeps.execVRmax {u : CUnit} (h : s₀.Keeps s) : s₀.Takes (execVRmax u s) := h.vecReg

theorem State.Keeps.execVLoop {u : CUnit} (h : s₀.Keeps s) : s₀.Takes (execVLoop u s) := h.vecRun (fun _ _ _ _ h' => .ite₁ h' h')

theorem State.Keeps.checkReduce {u : CUnit} {i : Item} (h : s₀.Keeps s) : s₀.Keeps (checkReduce u s i).1 := by
  unfold Machine.checkReduce
  refine .ite₁ h ?_
  dsimp only
  split
  · exact .ite₁ (h.descriptors.fst ‹_›) (.ite₁ (h.descriptors.fst ‹_›) (.ite₁ (h.descriptors.fst ‹_›) (h.descriptors.fst ‹_›)))
  · exact h.descriptors.fst ‹_›
  · exact h.descriptors.fst ‹_›

theorem State.Keeps.laneSum {u : CUnit} {i : Item} {squares : Bool} {xs : List Nat} (h : s₀.Keeps s) : s₀.Keeps (s.laneSum u i squares
    xs).1 := by
  unfold State.laneSum
  dsimp only
  split
  · exact h.laneSteps.fst ‹_›
  · exact (h.laneSteps.fst ‹_›).treeSum

theorem State.Keeps.reduceElem {u : CUnit} {i : Item} {p : Tensor × Tensor} {idx : List Nat} (h : s₀.Keeps s) : s₀.Keeps (s.reduceElem u i
    p idx).1 := by
  unfold State.reduceElem
  dsimp only
  split
  · refine h.touch.foldlOf (g := Touched.s) (fun _ _ h' => ?_)
    split
    · exact h'.touch
    · exact h'
  · refine h.touch.foldlOf (g := Touched.s) (fun _ _ h' => ?_)
    split
    · exact h'.touch
    · exact h'
  · refine .ite₁ ((h.touch.foldlOf (g := Touched.s) (fun _ _ h' => ?_)).setElem) ?_
    · split
      · exact h'.touch
      · exact h'
    · split
      · refine .fst (.ite₁ (h.touch.foldlOf (g := Touched.s) (fun _ _ h' => ?_)) ((h.touch.foldlOf (g := Touched.s) (fun _ _ h' =>
          ?_)).laneSum)) ‹_›
        · split
          · exact h'.touch
          · exact h'
        · split
          · exact h'.touch
          · exact h'
      · refine .countWritten (.setElem (.drawFor (.fst (.ite₁ (h.touch.foldlOf (g := Touched.s) (fun _ _ h' => ?_)) ((h.touch.foldlOf (g
          := Touched.s) (fun _ _ h' => ?_)).laneSum)) ‹_›)))
        · split
          · exact h'.touch
          · exact h'
        · split
          · exact h'.touch
          · exact h'

theorem State.Keeps.execReduce {u : CUnit} (h : s₀.Keeps s) : s₀.Takes (execReduce u s) := by
  unfold Machine.execReduce
  refine .next (h.runItem (fun _ _ h' => h'.checkReduce) (fun _ _ _ h' => (h'.foldlOf (g := Prod.fst) (fun _ _ h'' => ?_)).setFinish))
  split
  · exact h''
  · exact h''.reduceElem

end Sys2Proof.Machine
end

section
/-! The rules of State.Keeps for the operations of Machine/Attention. -/

namespace Sys2Proof.Machine

variable {s₀ s : State}

theorem State.Keeps.checkTokens {ag : Agent} {g : Geometry} {tag : Tag} {i : Item} (h : s₀.Keeps s) : s₀.Keeps (checkTokens ag g tag s
    i).1 := by
  unfold Machine.checkTokens
  dsimp only
  split
  next e1 => exact h.descriptorIf.fst e1
  next e1 =>
  have h1 := h.descriptorIf.fst e1
  split
  next e2 => exact h1.descriptorIf.fst e2
  next e2 =>
  have h2 := h1.descriptorIf.fst e2
  split
  next e3 => exact h2.descriptorIf.fst e3
  next e3 =>
  have h3 := h2.descriptorIf.fst e3
  split
  next e4 => exact h3.descriptorIf.fst e4
  next e4 =>
  have h4 := h3.descriptorIf.fst e4
  exact .ite₁ h4 h4

theorem State.Keeps.checkTag {u : CUnit} {g : Geometry} {i : Item} (h : s₀.Keeps s) : s₀.Keeps (checkTag u g s i).1 := by
  unfold Machine.checkTag
  refine .ite₁ (.ite₁ h h) ?_
  dsimp only
  split
  · exact h.fetchStruct.fst ‹_›
  · exact .ite₁ (h.fetchStruct.fst ‹_›) (.ite₁ (.ite₁ (h.fetchStruct.fst ‹_›) (h.fetchStruct.fst ‹_›)) (.ite₁ (h.fetchStruct.fst ‹_›)
      (h.fetchStruct.fst ‹_›)))

theorem State.Keeps.checkAppend {u : CUnit} {i : Item} (h : s₀.Keeps s) : s₀.Keeps (checkAppend u s i).1 := by
  unfold Machine.checkAppend
  dsimp only
  split
  next e1 => exact h.kvLook.fst e1
  next e1 =>
  have h1 := h.kvLook.fst e1
  refine .ite₁ h1 (.ite₁ h1 (.ite₁ h1 (.ite₁ h1 ?_)))
  split
  next e2 => exact h1.checkTag.fst e2
  next e2 =>
  have h2 := h1.checkTag.fst e2
  split
  next e3 => exact h2.translateAll.fst e3
  next e3 =>
  have h3 := h2.translateAll.fst e3
  exact .ite₁ h3 h3.checkTokens

theorem State.Keeps.appending_store {x : Appending} {ag : Agent} {i : Item} {p : AppendPlan} (h : s₀.Keeps x.s) : s₀.Keeps (x.store ag i
    p).s :=
  h.put.frame

theorem State.Keeps.appending_row {x : Appending} {ag : Agent} {i : Item} {src : Option Tensor} {dst : Tensor} {from_ onto : Nat} (h :
    s₀.Keeps x.s) : s₀.Keeps (x.row ag i src dst from_ onto).s := by
  unfold Appending.row
  dsimp only
  split
  · split
    · exact h.touch
    · exact .ite h.touch.setRun (h.touch.setRun.foldl (fun _ _ h' => .ite h'.pokePoison h'))
  · exact h

theorem State.Keeps.appending_flush {x : Appending} {u : CUnit} {i : Item} {p : AppendPlan} (h : s₀.Keeps x.s) : s₀.Keeps (x.flush u i
    p).s := by
  unfold Appending.flush
  dsimp only
  split
  · exact h
  · split
    · exact h.translate.fst ‹_›
    · split
      · exact h.translate.fst ‹_›
      · split
        · exact h.translate.fst ‹_›
        · split
          · exact (h.translate.fst ‹_›).touch
          · exact (h.translate.fst ‹_›).touch
          · split
            · exact (h.translate.fst ‹_›).touch.landing.fst ‹_›
            · exact ((h.translate.fst ‹_›).touch.landing.fst ‹_›).put.addSlice.bump.appending_store

theorem State.Keeps.appending_token {x : Appending} {u : CUnit} {i : Item} {p : AppendPlan} {k : Nat} (h : s₀.Keeps x.s) : s₀.Keeps
    (x.token u i p k).s := by
  unfold Appending.token
  extract_lets ag y sc x1 x2 x3 x4
  have hy : s₀.Keeps y.s := by
    unfold y
    split
    · exact h.appending_flush
    · exact h
  have h1 : s₀.Keeps x1.s := hy.appending_row
  have h2 : s₀.Keeps x2.s := h1.appending_row
  have h3 : s₀.Keeps x3.s := h2.appending_row
  have h4 : s₀.Keeps x4.s := h3.appending_row
  clear_value x4
  split
  · exact hy
  · split
    · exact h4
    · exact State.Keeps.appending_store h4

theorem State.Keeps.appending_takeOver {x : Appending} {u : CUnit} {i : Item} {p : AppendPlan} (h : s₀.Keeps x.s) : s₀.Keeps (x.takeOver u
    i p).s := by
  unfold Appending.takeOver
  dsimp only
  split
  · split
    · exact (h.copyBytes.fst ‹_›).put
    · exact (h.copyBytes.fst ‹_›).put
    · exact h.copyBytes.fst ‹_›
  · exact h

theorem State.Keeps.append {u : CUnit} {i : Item} {p : AppendPlan} (h : s₀.Keeps s) : s₀.Keeps (s.append u i p) := by
  unfold State.append
  refine .setFinish ?_
  split
  · split
    · exact (h.register.appending_takeOver.appending_store.foldlOf (g := Appending.s) (fun _ _ h' => h'.appending_token)).appending_flush
    · exact h.register.appending_takeOver.appending_store.foldlOf (g := Appending.s) (fun _ _ h' => h'.appending_token)
  · split
    · exact (h.register.appending_takeOver.foldlOf (g := Appending.s) (fun _ _ h' => h'.appending_token)).appending_flush
    · exact h.register.appending_takeOver.foldlOf (g := Appending.s) (fun _ _ h' => h'.appending_token)

theorem State.Keeps.execKvAppend {u : CUnit} (h : s₀.Keeps s) : s₀.Takes (execKvAppend u s) :=
  .next (h.runItem (fun _ _ h' => h'.checkAppend) (fun _ _ _ h' => h'.append))

theorem State.Keeps.attMask {i : Item} {u : CUnit} {e : AttEntry} (h : s₀.Keeps s) : s₀.Keeps (s.attMask i u e).1 := by
  unfold State.attMask
  refine .ite₁ ?_ (.ite₁ h ?_)
  · dsimp only
    split
    · exact h.fetchStruct.fst ‹_›
    · exact h.fetchStruct.fst ‹_›
  · dsimp only
    split
    · exact h.fetchStruct.fst ‹_›
    · exact .ite₁ (h.fetchStruct.fst ‹_›) (h.fetchStruct.fst ‹_›)

theorem State.Keeps.attTag {i : Item} {u : CUnit} {g : Geometry} {e : AttEntry} (h : s₀.Keeps s) : s₀.Keeps (s.attTag i u g e).1 := by
  unfold State.attTag
  refine .ite₁ ?_ (.ite₁ h ?_)
  · split
    · exact .ite₁ h h
    · exact h
  · dsimp only
    split
    · exact h.fetchStruct.fst ‹_›
    · exact .ite₁ (h.fetchStruct.fst ‹_›) (.ite₁ (h.fetchStruct.fst ‹_›) (h.fetchStruct.fst ‹_›))

theorem State.Keeps.attEntry {i : Item} {u : CUnit} {decoding : Bool} {x : Nat} (h : s₀.Keeps s) : s₀.Keeps (s.attEntry i u decoding x).1
    := by
  unfold State.attEntry
  dsimp only
  split
  next e1 => exact h.kvLook.fst e1
  next e1 =>
  have h1 := h.kvLook.fst e1
  refine .ite₁ h1 ?_
  split
  · exact h1
  split
  next e2 => exact h1.attMask.fst e2
  next e2 =>
  have h2 := h1.attMask.fst e2
  split
  next e3 => exact h2.descriptor.fst e3
  next e3 =>
  have h3 := h2.descriptor.fst e3
  split
  next e4 => exact h3.descriptor.fst e4
  next e4 =>
  have h4 := h3.descriptor.fst e4
  refine .ite₁ h4 (.ite₁ h4 (.ite₁ h4 ?_))
  split
  next e5 => exact h4.attTag.fst e5
  next e5 =>
  have h5 := h4.attTag.fst e5
  split
  next e6 => exact h5.translateAll.fst e6
  next e6 =>
  have h6 := h5.translateAll.fst e6
  exact .ite₁ h6 h6

theorem State.Keeps.attEntries {i : Item} {u : CUnit} {decoding : Bool} {l : List Nat} (h : s₀.Keeps s) : s₀.Keeps (s.attEntries i u
    decoding l).1 := by
  induction l generalizing s with
  | nil => exact h
  | cons x l ih =>
    unfold State.attEntries
    split
    · exact h.attEntry.fst ‹_›
    · split
      · exact (ih (h.attEntry.fst ‹_›)).fst ‹_›
      · exact (ih (h.attEntry.fst ‹_›)).fst ‹_›

theorem State.Keeps.checkAttention {u : CUnit} {decoding : Bool} {i : Item} (h : s₀.Keeps s) : s₀.Keeps (checkAttention u decoding s i).1
    := by
  unfold Machine.checkAttention
  refine .ite₁ h (.ite₁ h (.ite₁ h (.ite₁ h (.ite₁ h (.ite₁ h ?_)))))
  split
  · exact h.fetchStruct.fst ‹_›
  · exact (h.fetchStruct.fst ‹_›).attEntries

theorem State.Keeps.pageFetch_page {x : PageFetch} {i : Item} {u : CUnit} {p : AttPlan} {b : Nat} (h : s₀.Keeps x.s) : s₀.Keeps (x.page i
    u p b).s := by
  unfold PageFetch.page
  dsimp only
  split
  · exact h
  · split
    · exact h.touch
    · split
      · exact h.translate.fst ‹_›
      · exact (h.translate.fst ‹_›).touch

theorem State.Keeps.attRows {u : CUnit} {i : Item} {p : AttPlan} {keys : List KeyRow} {ws : List (Except AttRow (Nat × List Machine.Num))}
    (h : s₀.Keeps s) : s₀.Keeps (s.attRows u i p keys ws).1 := by
  unfold State.attRows
  dsimp only
  split
  · exact h.arrayCheck.fst ‹_›
  · split
    · exact (h.arrayCheck.fst ‹_›).arrayChecks.fst ‹_›
    · exact (h.arrayCheck.fst ‹_›).arrayChecks.fst ‹_›

theorem State.Keeps.normalise {u : CUnit} {i : Item} {rows : List AttRow} (h : s₀.Keeps s) : s₀.Keeps (s.normalise u i rows).1 := by
  unfold State.normalise
  split
  · exact h.vectorRows.fst ‹_›
  · exact h.vectorRows.fst ‹_›

theorem State.Keeps.writeFinal {u : CUnit} {ag : Agent} {out : Tensor} {row : Nat} {r : AttRow} {vs : List Machine.Num} {round : Bool} {gs
    : List Nat} (h : s₀.Keeps s) : s₀.Keeps (s.writeFinal u ag out row r vs round gs) := by
  unfold State.writeFinal
  exact h.bumpIf.drawAll.writeResults

theorem State.Keeps.writePartial {ag : Agent} {out : Tensor} {row : Nat} {r : AttRow} {gs : List Nat} (h : s₀.Keeps s) : s₀.Keeps
    (s.writePartial ag out row r gs) :=
  h.setRun.countWritten

theorem State.Keeps.attTile {u : CUnit} {i : Item} {p : AttPlan} {r0 mt : Nat} (h : s₀.Keeps s) : s₀.Keeps (s.attTile u i p r0 mt).1 := by
  unfold State.attTile
  extract_lets pages s1 t x
  have hx : s₀.Keeps x.s := h.bumpBy.bumpBy.touch.foldlOf (g := PageFetch.s) fun _ _ h => h.pageFetch_page
  clear_value x
  split
  · exact hx
  · exact hx
  split
  · exact hx.landing.fst ‹_›
  have hl := hx.landing.fst ‹_›
  split
  next e => exact hl.arrayChecks.fst e
  next e =>
  have ha := hl.arrayChecks.fst e
  extract_lets accs steps
  split
  · exact ha.vectorRows.fst ‹_›
  have hv := ha.vectorRows.fst ‹_›
  split
  · exact hv.attRows.fst ‹_›
  have hr := hv.attRows.fst ‹_›
  extract_lets
  split
  next e =>
    exact (State.Keeps.ite₁ hr.normalise hr).fst e
  next e =>
    replace hr := (State.Keeps.ite₁ hr.normalise hr).fst e
    exact hr.foldl fun _ _ h => .ite (.writeFinal (h.foldl fun _ _ h => h.bumpIf)) (.writePartial (h.foldl fun _ _ h => h.bumpIf))

theorem State.Keeps.attTiles {u : CUnit} {i : Item} {ps : List AttPlan} (h : s₀.Keeps s) : s₀.Keeps (s.attTiles u i ps).1 := by
  unfold State.attTiles
  refine h.foldlOf (g := Prod.fst) (fun _ _ h' => ?_)
  split
  · exact h'
  · exact h'.attTile

theorem State.Keeps.attention_ {u : CUnit} {i : Item} {ps : List AttPlan} (h : s₀.Keeps s) : s₀.Keeps (s.attention_ u i ps) :=
  (((h.foldl (fun _ _ h' => h'.register)).forgetRange).attTiles).setFinish

theorem State.Keeps.execAttPrefill {u : CUnit} (h : s₀.Keeps s) : s₀.Takes (execAttPrefill u s) :=
  .next (h.runItem (fun _ _ h' => h'.checkAttention) (fun _ _ _ h' => h'.attention_))

theorem State.Keeps.execAttDecode {u : CUnit} (h : s₀.Keeps s) : s₀.Takes (execAttDecode u s) :=
  .next (h.runItem (fun _ _ h' => h'.checkAttention) (fun _ _ _ h' => h'.attention_))

theorem State.Keeps.mergeRows {u : CUnit} {i : Item} {a b : AttRow} (h : s₀.Keeps s) : s₀.Keeps (s.mergeRows u i a b).1 := by
  unfold State.mergeRows
  refine .ite₁ h (.ite₁ h ?_)
  extract_lets m
  split
  next e1 => exact h.vectorCheck.fst e1
  next e1 =>
  have h1 := h.vectorCheck.fst e1
  split
  next e2 => exact h1.vectorCheck.fst e2
  next e2 => exact h1.vectorCheck.fst e2

theorem State.Keeps.mergePairs {u : CUnit} {i : Item} {l : List AttRow} (h : s₀.Keeps s) : s₀.Keeps (s.mergePairs u i l).1 := by
  induction l using List.twoStepInduction generalizing s with
  | nil => exact h
  | singleton a => exact h
  | cons_cons a b l ih =>
    unfold State.mergePairs
    split
    · exact h.mergeRows.fst ‹_›
    · split
      · exact (ih (h.mergeRows.fst ‹_›)).fst ‹_›
      · exact (ih (h.mergeRows.fst ‹_›)).fst ‹_›

theorem State.Keeps.mergeTree {u : CUnit} {i : Item} {l : List AttRow} {n : Nat} (h : s₀.Keeps s) : s₀.Keeps (s.mergeTree u i l n).1 := by
  induction n generalizing s l with
  | zero => exact h
  | succ n ih =>
    unfold State.mergeTree
    split
    · exact h.mergePairs.fst ‹_›
    · exact ih (h.mergePairs.fst ‹_›)

theorem State.Keeps.mergeTrees {u : CUnit} {i : Item} {l : List (List AttRow)} (h : s₀.Keeps s) : s₀.Keeps (s.mergeTrees u i l).1 := by
  induction l generalizing s with
  | nil => exact h
  | cons x l ih =>
    unfold State.mergeTrees
    split
    · exact h.mergeTree.fst ‹_›
    · split
      · exact (ih (h.mergeTree.fst ‹_›)).fst ‹_›
      · exact (ih (h.mergeTree.fst ‹_›)).fst ‹_›

theorem State.Keeps.checkBucket {i : Item} {u : CUnit} {x : Nat} (h : s₀.Keeps s) : s₀.Keeps (s.checkBucket i u x).1 := by
  unfold State.checkBucket
  dsimp only
  split
  · exact h.descriptor.fst ‹_›
  · split
    · exact (h.descriptor.fst ‹_›).descriptorIf.fst ‹_›
    · exact .ite₁ ((h.descriptor.fst ‹_›).descriptorIf.fst ‹_›) ((h.descriptor.fst ‹_›).descriptorIf.fst ‹_›)

theorem State.Keeps.checkBuckets {i : Item} {u : CUnit} {l : List Nat} (h : s₀.Keeps s) : s₀.Keeps (s.checkBuckets i u l).1 := by
  induction l generalizing s with
  | nil => exact h
  | cons x l ih =>
    unfold State.checkBuckets
    split
    · exact h.checkBucket.fst ‹_›
    · split
      · exact (ih (h.checkBucket.fst ‹_›)).fst ‹_›
      · exact (ih (h.checkBucket.fst ‹_›)).fst ‹_›

theorem State.Keeps.checkMerge {u : CUnit} {i : Item} (h : s₀.Keeps s) : s₀.Keeps (checkMerge u s i).1 := by
  unfold Machine.checkMerge
  refine .ite₁ h (.ite₁ h ?_)
  split
  · exact h.fetchStruct.fst ‹_›
  · exact (h.fetchStruct.fst ‹_›).checkBuckets

theorem State.Keeps.mergeBucket {u : CUnit} {i : Item} {b : MergeEntry} (h : s₀.Keeps s) : s₀.Keeps (s.mergeBucket u i b).1 := by
  unfold State.mergeBucket
  dsimp only
  split
  · exact h.touch
  · exact h.touch
  · split
    · exact h.touch.mergeTrees.fst ‹_›
    · split
      · exact (h.touch.mergeTrees.fst ‹_›).normalise.fst ‹_›
      · refine ((h.touch.mergeTrees.fst ‹_›).normalise.fst ‹_›).foldl (fun _ _ h' => ?_)
        split
        · exact h'.writeFinal.setRun.countWritten
        · exact h'.writeFinal

theorem State.Keeps.execAttMerge {u : CUnit} (h : s₀.Keeps s) : s₀.Takes (execAttMerge u s) := by
  unfold Machine.execAttMerge
  refine .next (h.runItem (fun _ _ h' => h'.checkMerge) (fun _ _ _ h' => (h'.foldlOf (g := Prod.fst) (fun _ _ h'' => ?_)).setFinish))
  split
  · exact h''
  · exact h''.mergeBucket

end Sys2Proof.Machine
end

section
/-! The rules of State.Keeps for the operations of Machine/Arbor. -/

namespace Sys2Proof.Machine

variable {s₀ s : State}

theorem State.Keeps.setNode {k : Nat} {n : Node} (h : s₀.Keeps s) : s₀.Keeps (s.setNode k n) := h.poke

theorem State.Keeps.addChild {k : Nat} {up : Bool} (h : s₀.Keeps s) : s₀.Keeps (s.addChild k up) := .ite h h.setNode

theorem State.Keeps.setSlot {key v : Nat} (h : s₀.Keeps s) : s₀.Keeps (s.setSlot key v) := h.poke

theorem State.Keeps.readNode {i : Item} {k : Nat} (h : s₀.Keeps s) : s₀.Keeps (s.readNode i k).1 := .ite₁ h h.readTable

theorem State.Keeps.readSlotOf {i : Item} {key : Nat} (h : s₀.Keeps s) : s₀.Keeps (s.readSlotOf i key).1 := h.readTable

theorem State.Keeps.search_probe {x : Search} {i : Item} {hd : Nat} {fits : Node → Bool} {key : Nat} (h : s₀.Keeps x.s) : s₀.Keeps
    (x.probe i hd fits key).s := by
  unfold Search.probe
  dsimp only
  split
  · exact h
  · split
    · exact h.readSlotOf.fst ‹_›
    · split
      · exact (h.readSlotOf.fst ‹_›).readNode.fst ‹_›
      · split
        · exact (h.readSlotOf.fst ‹_›).readNode.fst ‹_›
        · split
          · exact (h.readSlotOf.fst ‹_›).readNode.fst ‹_›
          · exact ((h.readSlotOf.fst ‹_›).readNode.fst ‹_›).bump

theorem State.Keeps.search {i : Item} {hd : Nat} {fits : Node → Bool} (h : s₀.Keeps s) : s₀.Keeps (s.search i hd fits).s :=
  h.foldlOf (g := Search.s) (fun _ _ h' => h'.search_probe)

theorem State.Keeps.match_ {i : Item} {p parent hash tokens : Nat} (h : s₀.Keeps s) : s₀.Keeps (s.match_ i p parent hash tokens).s :=
  h.search

theorem State.Keeps.freeNode {s₀ s t : State} {k : Nat} (h : s₀.Keeps s) (e : s.freeNode = some (t, k)) : s₀.Keeps t := by
  unfold State.freeNode at e
  dsimp only at e
  split at e
  · cases e
  · cases e
    exact h.pick

theorem State.Keeps.markNode {p f : Nat} {on : Bool} (h : s₀.Keeps s) : s₀.Keeps (s.markNode p f on) := by
  unfold State.markNode
  split
  · exact h.readFrame.fst ‹_›
  · exact (h.readFrame.fst ‹_›).setFrame

theorem State.Keeps.kvData {i : Item} {a n field : Nat} (h : s₀.Keeps s) : s₀.Keeps (s.kvData i a n field).1 := .ite₁ h h.fetchStruct

theorem State.Keeps.checkBlocks {want : Nat} {i : Item} (h : s₀.Keeps s) : s₀.Keeps (checkBlocks want s i).1 := by
  unfold Machine.checkBlocks
  dsimp only
  split
  next e1 => exact h.kvLook.fst e1
  next e1 =>
  have h1 := h.kvLook.fst e1
  refine .ite₁ h1 (.ite₁ h1 (.ite₁ h1 ?_))
  split
  next e2 => exact h1.readNode.fst e2
  next e2 =>
  have h2 := h1.readNode.fst e2
  refine .ite₁ h2 ?_
  split
  next e3 => exact h2.kvData.fst e3
  next e3 =>
  have h3 := h2.kvData.fst e3
  split
  next e4 => exact h3.checkPlain.fst e4
  next e4 => exact h3.checkPlain.fst e4

theorem State.Keeps.walk_result {x : Walk} {node outcome : Nat} {frame : Option Nat} (h : s₀.Keeps x.s) : s₀.Keeps (x.result node outcome
    frame).s := by
  unfold Walk.result
  split
  · exact h
  · exact h.draw

theorem State.Keeps.walk_halt {x : Walk} {node outcome : Nat} {frame : Option Nat} (h : s₀.Keeps x.s) : s₀.Keeps (x.halt node outcome
    frame).s :=
  h.walk_result

theorem State.Keeps.walk_look {x : Walk} {i : Item} {q b tokens : Nat} (h : s₀.Keeps x.s) : s₀.Keeps (x.look i q b tokens).s := by
  unfold Walk.look
  have found := fun p hash => h.match_ (i := i) (p := p) (parent := x.parent) (hash := hash) (tokens := tokens)
  have added := fun s p f (h : s₀.Keeps s) => h.addRef (p := p) (f := f)
  have tabled := fun s q b (h : s₀.Keeps s) => h.withTable (q := q) (b := b)
  obtain ⟨search, hm⟩ := exists_eq (a' := State.match_)
  obtain ⟨addRef, ha⟩ := exists_eq (a' := State.addRef)
  obtain ⟨withTable, ht⟩ := exists_eq (a' := State.withTable)
  simp only [← hm] at found
  simp only [← ha] at added
  simp only [← ht] at tabled
  rw [← hm, ← ha, ← ht]
  split
  · exact h
  · split
    · exact h.walk_result
    · dsimp only
      split
      · exact found _ _
      · split
        · exact (found _ _).walk_halt
        · split
          · exact ((added _ _ _ (found _ _)).fst ‹_›).walk_halt
          · have a := (added _ _ _ (found _ _)).fst ‹_›
            split
            · exact State.Keeps.walk_halt (found _ _)
            · exact State.Keeps.walk_result (tabled _ _ _ a _ ‹_›).changePage.markShared.bump

theorem State.Keeps.walk_insertNew {x : Walk} {q b hd tokens : Nat} (h : s₀.Keeps x.s) : s₀.Keeps (x.insertNew q b hd tokens).s := by
  unfold Walk.insertNew
  extract_lets p e
  split
  · exact h.walk_halt.bump
  have h1 := h.freeNode ‹_›
  split
  · exact h.walk_halt.bump
  split
  · exact State.Keeps.walk_halt (h1.addRef.fst ‹_›)
  · exact State.Keeps.walk_result (h1.addRef.fst ‹_›).markNode.setNode.setSlot.addChild.setPte

theorem State.Keeps.walk_insert {x : Walk} {i : Item} {dedup : Bool} {q b tokens : Nat} (h : s₀.Keeps x.s) : s₀.Keeps (x.insert i dedup q
    b tokens).s := by
  unfold Walk.insert
  have found := fun p hash => h.match_ (i := i) (p := p) (parent := x.parent) (hash := hash) (tokens := tokens)
  have added := fun s p f (h : s₀.Keeps s) => h.addRef (p := p) (f := f)
  have inserted := fun (x : Walk) q b hd tokens (h : s₀.Keeps x.s) => h.walk_insertNew (q := q) (b := b) (hd := hd) (tokens := tokens)
  obtain ⟨search, hm⟩ := exists_eq (a' := State.match_)
  obtain ⟨addRef, ha⟩ := exists_eq (a' := State.addRef)
  obtain ⟨insertNew, hi⟩ := exists_eq (a' := Walk.insertNew)
  simp only [← hm] at found
  simp only [← ha] at added
  simp only [← hi] at inserted
  rw [← hm, ← ha, ← hi]
  split
  · exact h
  · split
    · exact h.walk_result
    · dsimp only
      split
      · exact found _ _
      · split
        · exact inserted _ _ _ _ _ (found _ _)
        · split
          · exact State.Keeps.walk_result (found _ _)
          · split
            · exact State.Keeps.walk_result (found _ _)
            · split
              · exact State.Keeps.walk_halt ((added _ _ _ (found _ _)).fst ‹_›)
              · exact State.Keeps.walk_result ((added _ _ _ (found _ _)).fst ‹_›).setPte.markShared.dropRef

theorem State.Keeps.walk {i : Item} (h : s₀.Keeps s) : s₀.Keeps (s.walk i).s := h

theorem State.Keeps.walk_finish {x : Walk} {i : Item} (h : s₀.Keeps x.s) : s₀.Keeps (x.finish i) := by
  unfold Walk.finish
  split
  · exact h.setFinish
  · split
    · exact (h.landing.fst ‹_›).setFinish
    · exact (h.landing.fst ‹_›).put.setFinish

theorem State.Keeps.execArbLookup (h : s₀.Keeps s) : s₀.Takes (execArbLookup s) :=
  .next (h.runKv (fun _ _ h' => h'.checkBlocks) (fun _ _ _ h' => (h'.walk.foldlOf (g := Walk.s) (fun _ _ h'' =>
    h''.walk_look)).walk_finish))

theorem State.Keeps.execArbInsert (h : s₀.Keeps s) : s₀.Takes (execArbInsert s) :=
  .next (h.runKv (fun _ _ h' => h'.checkBlocks) (fun _ _ _ h' => (h'.walk.foldlOf (g := Walk.s) (fun _ _ h'' =>
    h''.walk_insert)).walk_finish))

theorem State.Keeps.unpinNode {k : Nat} (h : s₀.Keeps s) : s₀.KeepsSome (s.unpinNode k) := by
  unfold State.unpinNode
  refine .ite .none (.some (.dropRef (.markNode (.setNode (.addChild ?_)))))
  split
  · exact h.setSlot
  · exact h

theorem State.Keeps.checkUnpin {i : Item} (h : s₀.Keeps s) : s₀.Keeps (checkUnpin s i).1 := by
  unfold Machine.checkUnpin
  split
  · exact h.kvLook.fst ‹_›
  · refine .ite₁ (h.kvLook.fst ‹_›) (.ite₁ (h.kvLook.fst ‹_›) ?_)
    split
    · exact (h.kvLook.fst ‹_›).kvData.fst ‹_›
    · exact (h.kvLook.fst ‹_›).kvData.fst ‹_›

theorem State.Keeps.readForUnpin {i : Item} {k : Nat} (h : s₀.Keeps s) : s₀.Keeps (s.readForUnpin i k).1 := by
  unfold State.readForUnpin
  split
  · exact h.readNode.fst ‹_›
  · refine .ite₁ (h.readNode.fst ‹_›) ?_
    split
    · exact (h.readNode.fst ‹_›).readNode.fst ‹_›
    · exact ((h.readNode.fst ‹_›).readNode.fst ‹_›).readTables

theorem State.Keeps.execUnpin (h : s₀.Keeps s) : s₀.Takes (execUnpin s) := by
  unfold Machine.execUnpin
  refine .next (h.runKv (fun _ _ h' => h'.checkUnpin) (fun _ _ _ h' => (h'.foldlOf (g := Prod.fst) (fun _ _ h'' => ?_)).setFinish))
  split
  · exact h''
  · split
    · exact h''.readForUnpin.fst ‹_›
    · split
      · exact h''.readForUnpin.fst ‹_›
      · exact (h''.readForUnpin.fst ‹_›).unpinNode _ ‹_›

theorem State.Keeps.checkReopen {i : Item} (h : s₀.Keeps s) : s₀.Keeps (checkReopen s i).1 := by
  unfold Machine.checkReopen
  dsimp only
  split
  · exact h.kvLook.fst ‹_›
  · exact .ite₁ (h.kvLook.fst ‹_›) (.ite₁ (h.kvLook.fst ‹_›) (.ite₁ (h.kvLook.fst ‹_›) (h.kvLook.fst ‹_›)))

theorem State.Keeps.reopenPage {i : Item} (h : s₀.Keeps s) : s₀.Keeps (s.reopenPage i) := by
  unfold State.reopenPage
  dsimp only
  split
  · exact h.readFrame.fst ‹_›
  · refine .ite (h.readFrame.fst ‹_›).changePage.markShared.setFinish (.ite (h.readFrame.fst ‹_›).setFinish ?_)
    split
    · exact (h.readFrame.fst ‹_›).touch.setFinish
    · exact (h.readFrame.fst ‹_›).touch.setFinish
    · split
      · exact (h.readFrame.fst ‹_›).touch.takeFrame.fst ‹_›
      · exact ((h.readFrame.fst ‹_›).touch.takeFrame.fst ‹_›).poke.changePage.markShared.bump.dropRef.setFinish

theorem State.Keeps.execReopen (h : s₀.Keeps s) : s₀.Takes (execReopen s) :=
  .next (h.runKv (fun _ _ h' => h'.checkReopen) (fun _ _ _ h' => h'.reopenPage))

theorem State.Keeps.writePage {i : Item} {p b slot : Nat} {e : Pte} (h : s₀.Keeps s) : s₀.Keeps (s.writePage i p b slot e).1 := by
  unfold State.writePage
  dsimp only
  split
  · exact h.readTable.fst ‹_›
  · split
    · exact (h.readTable.fst ‹_›).touch
    · exact (h.readTable.fst ‹_›).touch
    · split
      · exact (h.readTable.fst ‹_›).touch.readTables.fst ‹_›
      · split
        · exact ((h.readTable.fst ‹_›).touch.readTables.fst ‹_›).landing.fst ‹_›
        · exact (((h.readTable.fst ‹_›).touch.readTables.fst ‹_›).landing.fst ‹_›).put

theorem State.Keeps.checkSwap {slots : Item → Bool} {i : Item} (h : s₀.Keeps s) : s₀.Keeps (checkSwap slots s i).1 := by
  unfold Machine.checkSwap
  dsimp only
  split
  · exact h.kvLook.fst ‹_›
  · exact .ite₁ (h.kvLook.fst ‹_›) (.ite₁ (h.kvLook.fst ‹_›) (.ite₁ (h.kvLook.fst ‹_›) (.ite₁ (h.kvLook.fst ‹_›) (h.kvLook.fst ‹_›))))

theorem State.Keeps.swapOutPage {i : Item} {b slot : Nat} (h : s₀.Keeps s) : s₀.Keeps (s.swapOutPage i b slot).1 := by
  unfold State.swapOutPage
  refine .ite₁ h ?_
  dsimp only
  split
  · exact (h.writePage.fst ‹_›).forgetRange
  · exact (h.writePage.fst ‹_›).changePage.markShared.bump.dropRef

theorem State.Keeps.swapPages {i : Item} {one : State → Nat → State × Option Finish × Bool} (h : s₀.Keeps s) (ho : ∀ s b, s₀.Keeps s →
    s₀.Keeps (one s b).1) : s₀.Keeps (s.swapPages i one) := by
  refine .setFinish (State.Keeps.foldlOf (g := Prod.fst) h (fun b x h' => ?_))
  split
  · exact h'
  · exact ho _ _ h'

theorem State.Keeps.execKvSwapOut (h : s₀.Keeps s) : s₀.Takes (execKvSwapOut s) :=
  .next (h.runKv (fun _ _ h' => h'.checkSwap) (fun _ _ _ h' => .ite h'.setSwapping.startWait ((h'.setSwapping.swapPages (fun _ _ h''
    => h''.swapOutPage)).setSwapping)))

theorem State.Keeps.relink {i : Item} {p : Nat} {hd : Header} (h : s₀.Keeps s) : s₀.Keeps (s.relink i p hd).1 := by
  unfold State.relink
  refine .ite₁ h ?_
  dsimp only
  split
  · exact h.search
  · split
    · exact h.search.readTable.fst ‹_›
    · exact h.search.readTable.fst ‹_›
  · exact h.search

theorem State.Keeps.placePage {q b f : Nat} {hd : Header} {shared : Bool} (h : s₀.Keeps s) : s₀.Keeps (s.placePage q b f hd shared) :=
  h.changePage.bump

theorem State.Keeps.readSlot {i : Item} {a n : Nat} (h : s₀.Keeps s) : s₀.Keeps (s.readSlot i a n).1 := h.touch

theorem State.Keeps.bringPage {i : Item} {b slot : Nat} (h : s₀.Keeps s) : s₀.Keeps (s.bringPage i b slot).1 := by
  unfold State.bringPage
  extract_lets q p a fail
  split
  · exact h.readSlot.fst ‹_›
  replace h := h.readSlot.fst ‹_›
  extract_lets hd
  split
  · exact h.bump
  split
  next e =>
    exact (State.Keeps.ite₁ h.relink h).fst e
  next e =>
  replace h := (State.Keeps.ite₁ h.relink h).fst e
  split
  · exact h
  have ht := h.withTable _ ‹_›
  split
  · exact ht.addRef.placePage
  extract_lets n
  split
  · exact h
  split
  · exact h.readSlot.fst ‹_›
  replace h := h.readSlot.fst ‹_›
  extract_lets body
  split
  · exact h.bump
  split
  next e =>
    obtain ⟨t, e1, e2⟩ := Option.map_eq_some_iff.1 e
    exact ((h.withTable _ e1).takeFrame.fst e2).poke.placePage
  next e =>
    obtain ⟨t, e1, e2⟩ := Option.map_eq_some_iff.1 e
    exact (h.withTable _ e1).takeFrame.fst e2
  · exact h

theorem State.Keeps.swapInPage {i : Item} {b : Nat} (h : s₀.Keeps s) : s₀.Keeps (s.swapInPage i b).1 :=
  .ite₁ (.ite₁ h.bringPage h) (.ite₁ h.bringPage h)

theorem State.Keeps.execKvSwapIn (h : s₀.Keeps s) : s₀.Takes (execKvSwapIn s) :=
  .next (h.runKv (fun _ _ h' => h'.checkSwap) (fun _ _ _ h' => h'.swapPages (fun _ _ h'' => h''.swapInPage)))

theorem State.Keeps.exportSequence {q slot0 : Nat} (h : s₀.Keeps s) : s₀.Keeps (s.exportSequence q slot0).1 := by
  unfold State.exportSequence
  dsimp only
  split
  · exact h.kvLook.fst ‹_›
  · refine .ite₁ (h.kvLook.fst ‹_›) ((h.kvLook.fst ‹_›).foldlOf (g := Prod.fst) (fun _ _ h' => .ite₁ h' (.ite₁ h' ?_)))
    split
    · exact (h'.writePage.fst ‹_›).forgetRange
    · exact (h'.writePage.fst ‹_›).bump

theorem State.Keeps.exportOutcome {n : Nat} {written : Bool} (h : s₀.Keeps s) : s₀.Keeps (s.exportOutcome n written) :=
  .ite h.setReg.setReg.bump h.setReg.setReg

theorem State.Keeps.forgetKv {mine : Nat → Bool} (h : s₀.Keeps s) : s₀.Keeps (s.forgetKv mine) := h.frameMem fun w => wf_zero _ _ w

end Sys2Proof.Machine
end

section
/-! The rules of State.Keeps for the operations of Machine/Gaffers. -/

namespace Sys2Proof.Machine

variable {s₀ s : State}

theorem State.Keeps.wipeGaffer {g : Nat} (h : s₀.Keeps s) : s₀.Keeps (s.wipeGaffer g) :=
  ((h.frameMem fun w => wf_zero _ _ w).setGaffer).semChanged

theorem State.Keeps.beginChair {c : Nat} (h : s₀.Keeps s) : s₀.Keeps (s.beginChair c) := h.frame.wipeGaffer.wipeGaffer

theorem State.Keeps.hookChairFormed {p : Path} {x : Bytes} (h : s₀.Keeps s) : s₀.KeepsOk (hookChairFormed s p x) := by
  unfold Machine.hookChairFormed
  dsimp only
  split
  · exact .ok (h.setReg.foldl (fun _ _ h' => h'.beginChair))
  · exact .error

theorem State.Keeps.execChairFormedWrite {p : Path} {v : Nat} (h : s₀.Keeps s) : s₀.Takes (execChairFormedWrite p v s) :=
  .next (h.writeObject (fun _ _ _ h' => h'.hookChairFormed))

theorem State.Keeps.setVcore (h : s₀.Keeps s) : s₀.Keeps s.setVcore := .ite h.frame.setReg.frame h.frame.setReg

theorem State.Keeps.setCapHeld {g : Nat} {held : Bool} (h : s₀.Keeps s) : s₀.Keeps (s.setCapHeld g held) := h.setReg

theorem State.Keeps.capHeld {g : Nat} (h : s₀.Keeps s) : s₀.Keeps (s.capHeld g) := .ite h h.setCapHeld

theorem State.Keeps.beginLevel {g : Nat} (h : s₀.Keeps s) : s₀.Keeps (s.beginLevel g) := h.setGaffer.setVcore.setGaffer

theorem State.Keeps.endLevel {g : Nat} (h : s₀.Keeps s) : s₀.Keeps (s.endLevel g) :=
  .setVcore (.capHeld (.ite h.setGaffer.setReg.setReg.setReg h.setGaffer.setReg))

theorem State.Keeps.ownLevel {g : Nat} (h : s₀.Keeps s) : s₀.Keeps (s.ownLevel g) := .ite h.beginLevel.endLevel h.beginLevel

theorem State.Keeps.gafferTurnsOn {g : Nat} (h : s₀.Keeps s) : s₀.Keeps (s.gafferTurnsOn g) := h.setVcore.setGaffer

theorem State.Keeps.forces {d : Nat} {target : PdState} {goal : Option PdState} (h : s₀.Keeps s) : s₀.Keeps (s.forces d target goal) :=
  .ite h.setPd.gafferTurnsOn h.setPd

theorem State.Keeps.settlePd {d : Nat} {v : PdState} (h : s₀.Keeps s) : s₀.Keeps (s.settlePd d v) := h.setPd

theorem State.Keeps.execChairChangeComplete {c : Fin 16} (h : s₀.Keeps s) : s₀.Takes (execChairChangeComplete c s) :=
  .ite (.ite (.next h.frame.setReg.setGaffer.setCapHeld.setVcore) (.next h.frame.ownLevel.ownLevel)) (.next h)

theorem State.Keeps.hookGafferLevel {g : Nat} {p : Path} {x : Bytes} (h : s₀.Keeps s) : s₀.KeepsOk (hookGafferLevel g s p x) :=
  .ite .error (.ok h.setReg.beginLevel)

theorem State.Keeps.execGafferLevelWrite {p : Path} {g : Fin 32} {v : Nat} (h : s₀.Keeps s) : s₀.Takes (execGafferLevelWrite p g v s) :=
    by
  unfold Machine.execGafferLevelWrite
  exact .next (h.writeObject (fun _ _ _ h' => h'.hookGafferLevel))

theorem State.Keeps.execLevelChangeComplete {g : Fin 32} (h : s₀.Keeps s) : s₀.Takes (execLevelChangeComplete g s) :=
  .ite (.next h.endLevel) (.next h)

theorem State.Keeps.hookSrSeed {g : Nat} {p : Path} {x : Bytes} (h : s₀.Keeps s) : s₀.KeepsOk (hookSrSeed g s p x) := by
  unfold Machine.hookSrSeed
  split
  · exact .error
  · exact .ok h.setReg.setReg

theorem State.Keeps.execSrSeedWrite {p : Path} {g : Fin 32} {v : Nat} (h : s₀.Keeps s) : s₀.Takes (execSrSeedWrite p g v s) :=
  .next (h.writeObject (fun _ _ _ h' => h'.hookSrSeed))

theorem State.Keeps.pairingChanged (h : s₀.Keeps s) : s₀.Keeps s.pairingChanged := .ite h.logs h

theorem State.Keeps.endGolden {g : Nat} (h : s₀.Keeps s) : s₀.Keeps (s.endGolden g) := h.frame

theorem State.Keeps.drains {g : Nat} (h : s₀.Keeps s) : s₀.Keeps (s.drains g) := .ite h.setGaffer.settlePd h.setGaffer.forces

theorem State.Keeps.fenceNow {g cause : Nat} (h : s₀.Keeps s) : s₀.Keeps (s.fenceNow g cause) :=
  .pairingChanged (.logs (.endGolden (.drains (.setGaffer (.setReg (.ite
    h.setReg.setReg.bump.attention.abortAll.abortAll.setReg.frame h.setReg.setReg.bump.attention.abortAll.abortAll))))))

theorem State.Keeps.fence {g cause : Nat} (h : s₀.Keeps s) : s₀.Keeps (s.fence g cause) :=
  .ite h.fenceNow (.ite h.setReg.drains (.ite h.setReg h))

theorem State.Keeps.liftTurnsOn {g : Nat} (h : s₀.Keeps s) : s₀.Keeps (s.liftTurnsOn g) := h.forces

theorem State.Keeps.fenceOff {g : Nat} (h : s₀.Keeps s) : s₀.Keeps (s.fenceOff g) :=
  .ite (.liftTurnsOn (.ite h.wipeGaffer.setGaffer.bumpIf.settlePd.frame.wipeGaffer.ownLevel h.wipeGaffer.setGaffer.bumpIf.settlePd))
    (.ite h.wipeGaffer.setGaffer.bumpIf.settlePd.frame.wipeGaffer.ownLevel h.wipeGaffer.setGaffer.bumpIf.settlePd)

theorem State.Keeps.beginLift {g : Nat} (h : s₀.Keeps s) : s₀.Keeps (s.beginLift g) := .ite h.setGaffer h.setGaffer.liftTurnsOn

theorem State.Keeps.hookGafferFence {only : Option Nat} {p : Path} {x : Bytes} (h : s₀.Keeps s) : s₀.KeepsOk (hookGafferFence only s p x)
    :=
  .ite .error (.ok ((h.foldl (fun _ _ h' => h'.fence)).foldl (fun _ _ h' => h'.beginLift)))

theorem State.Keeps.execGafferFenceSet {by_ : FenceBy} {g : Fin 32} (h : s₀.Keeps s) : s₀.Takes (execGafferFenceSet by_ g s) := by
  unfold Machine.execGafferFenceSet
  split
  · exact .next (h.writeObject (fun _ _ _ h' => h'.hookGafferFence))
  · exact .next h.fence

theorem State.Keeps.execFencePowerOff {g : Fin 32} (h : s₀.Keeps s) : s₀.Takes (execFencePowerOff g s) :=
  .ite (.next h.fenceOff.setVcore) (.next h)

theorem State.Keeps.execGafferFenceClear {p : Path} {g : Fin 32} (h : s₀.Keeps s) : s₀.Takes (execGafferFenceClear p g s) :=
  .next (h.writeObject (fun _ _ _ h' => h'.hookGafferFence))

theorem State.Keeps.startTestEnds {g : Nat} {failedItem : Option Nat} (h : s₀.Keeps s) : s₀.Keeps (s.startTestEnds g failedItem) := by
  unfold State.startTestEnds
  refine .ite ?_ h
  dsimp only
  split
  · exact h.setReg.setReg.setGaffer.pairingChanged
  · exact h.setReg.bump.logs.drains

theorem State.Keeps.policyFences (h : s₀.Keeps s) : s₀.Keeps s.policyFences := by
  unfold State.policyFences
  refine .ite h (h.foldl (fun _ _ h' => .ite h' ?_))
  split
  · exact h'
  · exact h'.bump.logs.fence

end Sys2Proof.Machine
end

section
/-! The rules of State.Keeps for the operations of Machine/Sundial. -/

namespace Sys2Proof.Machine

variable {s₀ s : State}

theorem State.Keeps.execTimeMessage (h : s₀.Keeps s) : s₀.Takes (execTimeMessage s) := .ite (.next h.frame) (.next h)

theorem State.Keeps.execTapMessage {tap : Fin 24} {errors : Nat} (h : s₀.Keeps s) : s₀.Takes (execTapMessage tap errors s) := by
  unfold Machine.execTapMessage
  dsimp only
  split
  · exact .next h
  · exact .ite (.next h) (.ite (.next h.setTap.skipFree.skipFree) (.next h.bump.setTap))

theorem State.Keeps.execTapSilence {tap : Fin 24} (h : s₀.Keeps s) : s₀.Takes (execTapSilence tap s) :=
  .ite (.next h.draw.setTap.logs) (.next h)

theorem State.Keeps.execDelayLineRecalibration (h : s₀.Keeps s) : s₀.Takes (execDelayLineRecalibration s) := .ite (.next h.frame) (.next h)

theorem State.Keeps.alarmFires {a : Nat} {late skip : Bool} (h : s₀.Keeps s) : s₀.Keeps (s.alarmFires a late skip) :=
  .ite (.setReg (.ite h.observes.bump.bumpIf.msix h.observes.bump.bumpIf)) (.frame (.ite h.observes.bump.bumpIf.msix
    h.observes.bump.bumpIf))

theorem State.Keeps.passedOver {old : Nat} (h : s₀.Keeps s) : s₀.Keeps (s.passedOver old) :=
  (h.foldl (fun _ _ h' => .ite h'.alarmFires h')).frame

theorem State.Keeps.ppsRestart (h : s₀.Keeps s) : s₀.Keeps s.ppsRestart := h.frame

theorem State.Keeps.stepped {old : Nat} (h : s₀.Keeps s) : s₀.Keeps (s.stepped old) :=
  .ite h.setReg.frame.ppsRestart.pergolaStep h.setReg.frame.ppsRestart.pergolaStep.passedOver

theorem State.Keeps.stepDomain {b : Bool} {o : Int} (h : s₀.Keeps s) : s₀.Keeps (s.stepDomain b o) := .ite h.setDom.stepped h.setDom

theorem State.Keeps.activate {b : Bool} {r : Int} (h : s₀.Keeps s) : s₀.Keeps (s.activate b r) := h.frame.setReg

theorem State.Keeps.autoSwitch (h : s₀.Keeps s) : s₀.Keeps s.autoSwitch := .ite h (.ite h.activate h.bump)

theorem State.Keeps.enterServo {b : Bool} {d : TimeDomain} {v : Servo} (h : s₀.Keeps s) : s₀.Keeps (s.enterServo b d v) :=
  .ite (.ite h.setDom.bump.autoSwitch h.setDom.bump) h.setDom

theorem State.Keeps.enterHoldover {b : Bool} (h : s₀.Keeps s) : s₀.Keeps (s.enterHoldover b) := h.enterServo

theorem State.Keeps.notedOffset {b : Bool} {o : Int} (h : s₀.Keeps s) : s₀.Keeps (s.notedOffset b o) := h.setReg.setDom

theorem State.Keeps.steer {b : Bool} {o : Int} (h : s₀.Keeps s) : s₀.Keeps (s.steer b o) := h.setDom

theorem State.Keeps.acquire {b : Bool} {o : Int} (h : s₀.Keeps s) : s₀.Keeps (s.acquire b o) :=
  .ite (.enterServo (.ite h.stepDomain h.steer)) (.setDom (.ite h.stepDomain h.steer))

theorem State.Keeps.feed {b : Bool} {o : Int} (h : s₀.Keeps s) : s₀.Keeps (s.feed b o) := by
  unfold State.feed
  dsimp only
  split
  · exact h.notedOffset.enterServo.steer
  · exact h.notedOffset.enterServo.steer
  · exact .enterServo (.stepDomain (.ite h.notedOffset.setReg.bump.logs h.notedOffset.setReg))
  · exact h.notedOffset.acquire
  · exact .ite h.notedOffset.steer.enterServo h.notedOffset.steer.setDom

theorem State.Keeps.setLink {port : Nat} {l : LinkDelay} (h : s₀.Keeps s) : s₀.Keeps (s.setLink port l) := h.frame

theorem State.Keeps.syncOffset {b : Bool} {port : Nat} {origin stamp : Int} (h : s₀.Keeps s) : s₀.Keeps (s.syncOffset b port origin stamp)
    := by
  unfold State.syncOffset
  dsimp only
  split
  · exact h.feed
  · exact h.setDom

theorem State.Keeps.execSyncReceived {domainNumber : Fin 256} {port : Fin 4} {seq : Nat} {twoStep : Bool} {origin : Int} {fine : Fin 16}
    (h : s₀.Keeps s) : s₀.Takes (execSyncReceived domainNumber port seq twoStep origin fine s) := by
  unfold Machine.execSyncReceived
  dsimp only
  split
  · exact .next h
  · exact .ite (.next h) (.ite (.next h.setDom) (.next h.syncOffset))

theorem State.Keeps.execFollowUpReceived {domainNumber : Fin 256} {port : Fin 4} {seq : Nat} {origin : Int} (h : s₀.Keeps s) : s₀.Takes
    (execFollowUpReceived domainNumber port seq origin s) := by
  unfold Machine.execFollowUpReceived
  split
  · exact .next h
  · split
    · exact .ite (.next h.syncOffset) (.next h)
    · exact .next h

theorem State.Keeps.execAnnounceReceived {port : Fin 4} {msg : Bytes} (h : s₀.Keeps s) : s₀.Takes (execAnnounceReceived port msg s) :=
  .ite (.next h.setLink) (.next h)

theorem State.Keeps.execSignalingReceived {port : Fin 4} (h : s₀.Keeps s) : s₀.Takes (execSignalingReceived port s) := .next h

theorem State.Keeps.execSyncReceiptTimeout {dom : Bool} (h : s₀.Keeps s) : s₀.Takes (execSyncReceiptTimeout dom s) :=
  .ite (.next h.bump.enterHoldover) (.next h)

theorem State.Keeps.queueGptp {p : Nat} {f : LaunchFrame} (h : s₀.Keeps s) : s₀.Keeps (s.queueGptp p f) := h.frame

theorem State.Keeps.execPdelayReqTimer {port : Fin 4} (h : s₀.Keeps s) : s₀.Takes (execPdelayReqTimer port s) :=
  .ite (.next h.setLink.queueGptp) (.next h)

theorem State.Keeps.execPdelayReqReceived {port : Fin 4} {seq : Nat} {requester : Bytes} {fine : Fin 16} (h : s₀.Keeps s) : s₀.Takes
    (execPdelayReqReceived port seq requester fine s) :=
  .ite (.next h.queueGptp) (.next h)

theorem State.Keeps.execPdelayRespReceived {port : Fin 4} {seq : Nat} {followUp : Bool} {time : Int} {fine : Fin 16} (h : s₀.Keeps s) :
    s₀.Takes (execPdelayRespReceived port seq followUp time fine s) := by
  unfold Machine.execPdelayRespReceived
  refine .ite (.next h) ?_
  split
  · exact .next h
  · exact .next h.setLink
  · split
    · exact .next h.setLink
    · exact .next h

theorem State.Keeps.setSource {b : Bool} {v : Nat} (h : s₀.Keeps s) : s₀.Keeps (s.setSource b v) := .ite h.setReg.enterHoldover h.setReg

theorem State.Keeps.hookTdSource {b : Bool} {p : Path} {x : Bytes} (h : s₀.Keeps s) : s₀.KeepsOk (hookTdSource b s p x) :=
  .ite .error (.ok h.setSource)

theorem State.Keeps.execTdSourceWrite {p : Path} {dom : Bool} {v : Nat} (h : s₀.Keeps s) : s₀.Takes (execTdSourceWrite p dom v s) :=
  .next (h.writeObject (fun _ _ _ h' => h'.hookTdSource))

theorem State.Keeps.hookActiveDomain {p : Path} {x : Bytes} (h : s₀.Keeps s) : s₀.KeepsOk (hookActiveDomain s p x) :=
  .ite .error (.ite .error (.ite .error (.ite (.ok h) (.ok h.activate))))

theorem State.Keeps.execTimeActiveDomainWrite {p : Path} {v : Nat} (h : s₀.Keeps s) : s₀.Takes (execTimeActiveDomainWrite p v s) :=
  .next (h.writeObject (fun _ _ _ h' => h'.hookActiveDomain))

theorem State.Keeps.hookForceSwitch {p : Path} {x : Bytes} (h : s₀.Keeps s) : s₀.KeepsOk (hookForceSwitch s p x) :=
  .ite .error (.ok h.activate.stepped)

theorem State.Keeps.execTimeForceSwitch {p : Path} {v : Nat} (h : s₀.Keeps s) : s₀.Takes (execTimeForceSwitch p v s) :=
  .next (h.writeObject (fun _ _ _ h' => h'.hookForceSwitch))

theorem State.Keeps.execSlewComplete (h : s₀.Keeps s) : s₀.Takes (execSlewComplete s) := .ite (.next h.frame) (.next h)

theorem State.Keeps.execSteppedExpiry (h : s₀.Keeps s) : s₀.Takes (execSteppedExpiry s) := by
  unfold Machine.execSteppedExpiry
  dsimp only
  split
  · exact .ite (.next h.frame) (.next h)
  · exact .next h

theorem State.Keeps.hookGptpDomain {b : Bool} {p : Path} {x : Bytes} (h : s₀.Keeps s) : s₀.KeepsOk (hookGptpDomain b s p x) :=
  .ite .error (.ok h.setReg)

theorem State.Keeps.hookPdelayInterval {p : Path} {x : Bytes} (h : s₀.Keeps s) : s₀.KeepsOk (hookPdelayInterval s p x) :=
  .ok h.setReg.setReg

theorem State.Keeps.execAlarmFire {a : Fin 8} (h : s₀.Keeps s) : s₀.Takes (execAlarmFire a s) := .ite (.next h.alarmFires) (.next h)

theorem State.Keeps.hookAlarmArm {a : Nat} {p : Path} {x : Bytes} (h : s₀.Keeps s) : s₀.KeepsOk (hookAlarmArm a s p x) :=
  h.ownedHook (fun _ _ _ h' => .ite (.ok h'.setReg) (.ite (.ok h') (.ite (.ok h'.setReg.frame.alarmFires) (.ok h'.setReg.frame))))

theorem State.Keeps.execAlarmArm {p : Path} {a : Fin 8} {v : Nat} (h : s₀.Keeps s) : s₀.Takes (execAlarmArm p a v s) :=
  .next (h.writeObject (fun _ _ _ h' => h'.hookAlarmArm))

theorem State.Keeps.hookAlarmSeries {a : Nat} {r : Reg} {p : Path} {x : Bytes} (h : s₀.Keeps s) : s₀.KeepsOk (hookAlarmSeries a r s p x)
    :=
  h.ownedHook (fun _ _ _ h' => .ok h'.frame.setReg)

theorem State.Keeps.driveTrig {t ns : Nat} (h : s₀.Keeps s) : s₀.Keeps (s.driveTrig t ns) := .ite h.emit h

theorem State.Keeps.execTriggerPulse {t : Fin 4} (h : s₀.Keeps s) : s₀.Takes (execTriggerPulse t s) := by
  unfold Machine.execTriggerPulse
  refine .ite (.next h) ?_
  dsimp only
  split
  · exact .next h.frame.bump.driveTrig
  · exact .ite (.next h) (.next h.frame)

theorem State.Keeps.tpinTakes {t : Nat} (h : s₀.Keeps s) : s₀.Keeps (s.tpinTakes t) := by
  unfold State.tpinTakes
  dsimp only
  split
  · exact h.frame
  · exact h

theorem State.Keeps.execTriggerPulseEnd {t : Fin 4} (h : s₀.Keeps s) : s₀.Takes (execTriggerPulseEnd t s) := by
  unfold Machine.execTriggerPulseEnd
  dsimp only
  split
  · exact .ite (.next h.frame.driveTrig.tpinTakes) (.next h)
  · exact .next h

theorem State.Keeps.hookTrigEnable {t : Nat} {p : Path} {x : Bytes} (h : s₀.Keeps s) : s₀.KeepsOk (hookTrigEnable t s p x) :=
  h.ownedHook (fun _ _ _ h' => .ite (.ok h'.setReg.frame) (.ok h'.setReg))

theorem State.Keeps.hookTrigWidth {t : Nat} {p : Path} {x : Bytes} (h : s₀.Keeps s) : s₀.KeepsOk (hookTrigWidth t s p x) :=
  .ite .error (h.ownedHook (fun _ _ _ h' => .ok h'.setReg))

theorem State.Keeps.hookTrigSeries {t : Nat} {r : Reg} {p : Path} {x : Bytes} (h : s₀.Keeps s) : s₀.KeepsOk (hookTrigSeries t r s p x) :=
    by
  unfold Machine.hookTrigSeries
  exact h.ownedHook (fun _ _ _ h' => .ok h'.setReg.frame)

theorem State.Keeps.execPpsOutPulse {k : Fin 2} (h : s₀.Keeps s) : s₀.Takes (execPpsOutPulse k s) := by
  unfold Machine.execPpsOutPulse
  refine .ite (.next h) ?_
  dsimp only
  split
  · exact .next h
  · exact .ite (.next h.frame) (.next h.frame.emit)

theorem State.Keeps.execPpsOutPulseEnd {k : Fin 2} (h : s₀.Keeps s) : s₀.Takes (execPpsOutPulseEnd k s) := by
  unfold Machine.execPpsOutPulseEnd
  dsimp only
  split
  · exact .ite (.next h.frame.emit) (.next h)
  · exact .next h

theorem State.Keeps.hookPpsEnable {k : Nat} {p : Path} {x : Bytes} (h : s₀.Keeps s) : s₀.KeepsOk (hookPpsEnable k s p x) :=
  h.ownedHook (fun _ _ _ h' => .ok h'.setReg.frame)

theorem State.Keeps.execPpsInEdge {rising : Bool} {fine : Fin 16} (h : s₀.Keeps s) : s₀.Takes (execPpsInEdge rising fine s) :=
  .ite (.next h) (.ite (.next h.setReg.bump.bump) (.next (h.setReg.bump.frame.foldl (fun _ _ h' => .ite h'.feed h'))))

theorem State.Keeps.setLaunchQ {n : Nat} {q : List LaunchFrame} (h : s₀.Keeps s) : s₀.Keeps (s.setLaunchQ n q) := h.frame

theorem State.Keeps.startTold {p fine : Nat} {f : LaunchFrame} {stamp : Nat} (h : s₀.Keeps s) : s₀.Keeps (s.startTold p fine f stamp) :=
    by
  unfold State.startTold
  dsimp only
  split
  · exact h
  · exact h.setLink
  · exact h.queueGptp

theorem State.Keeps.startFrame {p : Nat} {f : LaunchFrame} (h : s₀.Keeps s) : s₀.Keeps (s.startFrame p f) := h.frame.skipFree.startTold

theorem State.Keeps.execLaunchRelease {q : Fin 16} (h : s₀.Keeps s) : s₀.Takes (execLaunchRelease q s) := by
  unfold Machine.execLaunchRelease
  dsimp only
  split
  · exact .next h
  · exact .ite (.next h) (.ite (.next h.setLaunchQ.bump) (.ite (.next h) (.next h.setLaunchQ.startFrame.bump.bumpIf)))

theorem State.Keeps.execSleepCorrWindow (h : s₀.Keeps s) : s₀.Takes (execSleepCorrWindow s) := by
  unfold Machine.execSleepCorrWindow
  dsimp only
  split
  · exact .next h
  · exact .ite (.next h.setReg.setReg.frame) (.next h)

theorem State.Keeps.execTimeSave (h : s₀.Keeps s) : s₀.Takes (execTimeSave s) := .ite (.next h.setReg.setReg.frame) (.next h)

theorem State.Keeps.lockLost {v : SavedTime} (h : s₀.Keeps s) : s₀.Keeps (s.lockLost v) := .ite h.bumpIf.bumpIf.autoSwitch h.bumpIf.bumpIf

theorem State.Keeps.execTimeReconstruct (h : s₀.Keeps s) : s₀.Takes (execTimeReconstruct s) := by
  unfold Machine.execTimeReconstruct
  dsimp only
  split
  · exact .next h
  · exact .ite (.next h) (.next h.setReg.frame.lockLost.ppsRestart.passedOver)

end Sys2Proof.Machine
end

section
/-! The rules of State.Keeps for the operations of Machine/Lodge. -/

namespace Sys2Proof.Machine

variable {s₀ s : State}

theorem State.Keeps.fifoSettles {q top : Nat} (h : s₀.Keeps s) : s₀.Keeps (s.fifoSettles q top) := .ite h h.frame

theorem State.Keeps.fifoDrains {q : Nat} (h : s₀.Keeps s) : s₀.Keeps (s.fifoDrains q) := h.fifoSettles

theorem State.Keeps.fifoTakes {q n : Nat} (h : s₀.Keeps s) : s₀.Keeps (s.fifoTakes q n) := h.fifoSettles

theorem State.Keeps.countCongested {q : Nat} (h : s₀.Keeps s) : s₀.Keeps (s.countCongested q) := .ite h.bump h.bump

theorem State.Keeps.cutShort {q : Nat} (h : s₀.Keeps s) : s₀.Keeps (s.cutShort q) := h.setIngest.countCongested

theorem State.Keeps.makeVisible {q : Nat} (h : s₀.Keeps s) : s₀.Keeps (s.makeVisible q) := by
  unfold State.makeVisible
  dsimp only
  split
  · exact h
  · exact .ite h.setIngest.bumpStream.setReg h.setIngest.bumpStream

theorem State.Keeps.countLost {q : Nat} (h : s₀.Keeps s) : s₀.Keeps (s.countLost q) := .ite h.bump h.bump

theorem State.Keeps.stealSlot {q : Nat} (h : s₀.Keeps s) : s₀.Keeps (s.stealSlot q).1 := by
  unfold State.stealSlot
  dsimp only
  split
  · exact .ite h.makeVisible h
  · exact .countLost (.setIngest (.ite h.makeVisible h))

theorem State.Keeps.takeSlot {q : Nat} (h : s₀.Keeps s) : s₀.Keeps (s.takeSlot q).1 := by
  unfold State.takeSlot
  dsimp only
  split
  · exact h.setIngest
  · exact h.stealSlot

theorem State.Keeps.startItem {q : Nat} (h : s₀.Keeps s) : s₀.Keeps (s.startItem q).1 :=
  .ite₁ h.fifoDrains.setIngest.countCongested h.fifoDrains.setIngest.takeSlot

theorem State.Keeps.followItem {q : Nat} (h : s₀.Keeps s) : s₀.Keeps (s.followItem q).1 := .ite₁ h.countCongested h.takeSlot

theorem State.Keeps.closeItem {q slot len time : Nat} (h : s₀.Keeps s) : s₀.Keeps (s.closeItem q slot len time) := h.setIngest

theorem State.Keeps.throughFifo {q a n : Nat} (h : s₀.Keeps s) : s₀.Keeps (s.throughFifo q a n) := by
  unfold State.throughFifo
  split
  · exact h.touchArray.fst ‹_›
  · exact (h.touchArray.fst ‹_›).draw.pokePoison

theorem State.Keeps.fillItem {q k time : Nat} {bs : Bytes} (h : s₀.Keeps s) : s₀.Keeps (s.fillItem q k time bs) :=
  .ite h.fifoTakes.cutShort h.fifoTakes.put.throughFifo.closeItem

theorem State.Keeps.fillAny {a : State × Option Nat} {q time : Nat} {bs : Bytes} (h : s₀.Keeps a.1) : s₀.Keeps (State.fillAny a q time bs)
    := by
  obtain ⟨s, _ | k⟩ := a
  · exact h
  · exact h.fillItem

theorem State.Keeps.wholeItem {q time : Nat} {bs : Bytes} (h : s₀.Keeps s) : s₀.Keeps (s.wholeItem q time bs) := h.startItem.fillAny

theorem State.Keeps.servePop {q : Nat} (h : s₀.Keeps s) : s₀.Keeps (s.servePop q) := by
  unfold State.servePop
  dsimp only
  split
  · split
    · exact h.popsRefused.popIngest
    · exact h.popsRefused
  · exact h.popsRefused

theorem State.Keeps.execItemVisible {q : Fin 52} (h : s₀.Keeps s) : s₀.Takes (execItemVisible q s) :=
  .ite (.next h) (.next h.makeVisible.pergolaSees.servePop)

theorem State.Keeps.hookIngestEnable {q : Nat} {p : Path} {x : Bytes} (h : s₀.Keeps s) : s₀.KeepsOk (hookIngestEnable q s p x) := by
  unfold Machine.hookIngestEnable
  refine .ite (.ok h.pergolaStream.flushQueue.setIngest.setReg) (.ite (.ok h) ?_)
  dsimp only
  split
  · exact .error
  · exact .ok h.pergolaStream.setIngest.setReg

theorem State.Keeps.execStreamEnable {p : Path} {q : Fin 48} {v : Nat} (h : s₀.Keeps s) : s₀.Takes (execStreamEnable p q v s) :=
  .next (h.writeObject (fun _ _ _ h' => h'.hookIngestEnable))

theorem State.Keeps.hookStreamFlush {q : Nat} {p : Path} {x : Bytes} (h : s₀.Keeps s) : s₀.KeepsOk (hookStreamFlush q s p x) :=
  h.actHook (fun _ _ h' => .ok h'.flushQueue)

theorem State.Keeps.execStreamFlush {p : Path} {q : Fin 48} {v : Nat} (h : s₀.Keeps s) : s₀.Takes (execStreamFlush p q v s) :=
  .next (h.writeObject (fun _ _ _ h' => h'.hookStreamFlush))

theorem State.Keeps.hookStreamConfig {q : Nat} {hook : Hook} {p : Path} {x : Bytes} (h : s₀.Keeps s) (hk : ∀ s p x, s₀.Keeps s →
    s₀.KeepsOk (hook s p x)) : s₀.KeepsOk (hookStreamConfig q hook s p x) :=
  h.heldHook (fun _ _ _ h' => hk _ _ _ h')

theorem State.Keeps.hookIngestGeometry {q : Nat} {r : Reg} {p : Path} {x : Bytes} (h : s₀.Keeps s) : s₀.KeepsOk (hookIngestGeometry q r s
    p x) :=
  h.rangeFirst (fun _ _ _ h' => h'.hookStreamConfig (fun _ _ _ h'' => h''.regHook))

theorem State.Keeps.hookCamDt {q : Nat} {p : Path} {x : Bytes} (h : s₀.Keeps s) : s₀.KeepsOk (hookCamDt q s p x) :=
  h.rangeFirst (fun _ _ _ h' => h'.hookStreamConfig (fun _ _ _ h'' => h''.regHook))

theorem State.Keeps.stopStreams (h : s₀.Keeps s) : s₀.Keeps s.stopStreams := h.foldl (fun _ _ h' => .ite h'.flushQueue.setIngest h')

theorem State.Keeps.restartStreams (h : s₀.Keeps s) : s₀.Keeps s.restartStreams := h.foldl (fun _ _ h' => .ite h'.setIngest h')

theorem State.Keeps.lodgeLeavesOn (h : s₀.Keeps s) : s₀.Keeps s.lodgeLeavesOn :=
  (h.foldl (fun _ _ h' => .ite h'.bumpStream.setIngest h')).frame

theorem State.Keeps.closeFrame {q : Nat} {fe : Option Nat} (h : s₀.Keeps s) : s₀.Keeps (s.closeFrame q fe) := by
  unfold State.closeFrame
  dsimp only
  split
  · exact h
  · exact h.put.setIngest.closeItem

theorem State.Keeps.csiUnmatched {port : Nat} (h : s₀.Keeps s) : s₀.Keeps (s.csiUnmatched port) := h.bump

theorem State.Keeps.csiPacket {port headerErrors : Nat} {f : State → State} (h : s₀.Keeps s) (hf : ∀ s, s₀.Keeps s → s₀.Keeps (f s)) :
    s₀.Keeps (s.csiPacket port headerErrors f) :=
  .ite h (.ite h.bump (hf _ h.bumpIf))

theorem State.Keeps.csiShort {port vc headerErrors : Nat} {f : State → Nat → State} (h : s₀.Keeps s) (hf : ∀ s q, s₀.Keeps s → s₀.Keeps (f
    s q)) : s₀.Keeps (s.csiShort port vc headerErrors f) := by
  refine h.csiPacket fun s h => ?_
  split
  · exact h.csiUnmatched
  · exact h.foldl hf

theorem State.Keeps.openFrame {q frame stamp : Nat} (h : s₀.Keeps s) : s₀.Keeps (s.openFrame q frame stamp) := by
  unfold State.openFrame
  dsimp only
  split
  · exact (h.closeFrame.startItem.fst ‹_›).setIngest
  · exact (h.closeFrame.startItem.fst ‹_›).setIngest

theorem State.Keeps.execCsiFrameStart {port : Fin 6} {vc : Fin 16} {headerErrors : Fin 3} {frame : Nat} {fine : Fin 16} (h : s₀.Keeps s) :
    s₀.Takes (execCsiFrameStart port vc headerErrors frame fine s) :=
  .next (h.csiShort (fun _ _ h' => h'.openFrame))

theorem State.Keeps.storeLine {q : Nat} {f : Frame} {crcGood : Bool} {bs : Bytes} (h : s₀.Keeps s) : s₀.Keeps (s.storeLine q f crcGood bs)
    :=
  .ite h.setIngest (.setIngest (.ite h.put.throughFifo.put h.put.throughFifo))

theorem State.Keeps.takeLine {q : Nat} {crcGood : Bool} {data : Bytes} (h : s₀.Keeps s) : s₀.Keeps (s.takeLine q crcGood data) := by
  unfold State.takeLine
  dsimp only
  split
  · exact h
  · exact .ite h.fifoDrains.cutShort h.fifoDrains.storeLine.fifoTakes

theorem State.Keeps.execCsiLine {port : Fin 6} {vc : Fin 16} {dt : Nat} {headerErrors : Fin 3} {crcGood : Bool} {data : Bytes} (h :
    s₀.Keeps s) : s₀.Takes (execCsiLine port vc dt headerErrors crcGood data s) := by
  unfold Machine.execCsiLine
  refine .next (h.csiPacket (fun _ h' => ?_))
  split
  · exact h'.csiUnmatched
  · exact h'.bumpIf.takeLine

theorem State.Keeps.lineStart {q line stamp : Nat} (h : s₀.Keeps s) : s₀.Keeps (s.lineStart q line stamp) := by
  unfold State.lineStart
  dsimp only
  split
  · exact h
  · exact h.setIngest

theorem State.Keeps.execCsiLineStart {port : Fin 6} {vc : Fin 16} {headerErrors : Fin 3} {line : Nat} {fine : Fin 16} (h : s₀.Keeps s) :
    s₀.Takes (execCsiLineStart port vc headerErrors line fine s) :=
  .next (h.csiShort (fun _ _ h' => h'.lineStart))

theorem State.Keeps.lineEnd {q line : Nat} (h : s₀.Keeps s) : s₀.Keeps (s.lineEnd q line) := by
  unfold State.lineEnd
  dsimp only
  split
  · exact h
  · exact h.setIngest

theorem State.Keeps.execCsiLineEnd {port : Fin 6} {vc : Fin 16} {headerErrors : Fin 3} {line : Nat} (h : s₀.Keeps s) : s₀.Takes
    (execCsiLineEnd port vc headerErrors line s) :=
  .next (h.csiShort (fun _ _ h' => h'.lineEnd))

theorem State.Keeps.execCsiFrameEnd {port : Fin 6} {vc : Fin 16} {headerErrors : Fin 3} {frame : Nat} {fine : Fin 16} (h : s₀.Keeps s) :
    s₀.Takes (execCsiFrameEnd port vc headerErrors frame fine s) := by
  unfold Machine.execCsiFrameEnd
  refine .next (h.csiPacket (fun _ h' => ?_))
  split
  · exact h'.csiUnmatched
  · exact h'.foldl (fun _ _ h'' => h''.closeFrame)

theorem State.Keeps.execCsiGenericShort {port : Fin 6} {headerErrors : Fin 3} (h : s₀.Keeps s) : s₀.Takes (execCsiGenericShort port
    headerErrors s) :=
  .next (h.csiPacket (fun _ h' => h'.csiUnmatched))

theorem State.Keeps.execCsiFrameTimeout {q : Fin 24} (h : s₀.Keeps s) : s₀.Takes (execCsiFrameTimeout q s) := by
  unfold Machine.execCsiFrameTimeout
  split
  · exact .ite (.next h.closeFrame) (.next h)
  · exact .next h

theorem State.Keeps.execDeskewCalibration {port : Fin 6} (h : s₀.Keeps s) : s₀.Takes (execDeskewCalibration port s) :=
  .ite (.next h.frame) (.next h)

theorem State.Keeps.execDrdyEdge {port : Fin 6} {rising : Bool} {fine : Fin 16} (h : s₀.Keeps s) : s₀.Takes (execDrdyEdge port rising fine
    s) :=
  .ite (.next h) (.ite (.next h.bump) (.ite (.next h) (.next h.startItem.setIngest.frame.emit)))

theorem State.Keeps.execImuReadComplete {port : Fin 6} {data : Bytes} (h : s₀.Keeps s) : s₀.Takes (execImuReadComplete port data s) := by
  unfold Machine.execImuReadComplete
  dsimp only
  split
  · exact .next h
  · split
    · exact .next h.frame
    · exact .next h.frame.setIngest.frame.fillItem

theorem State.Keeps.execCanFrameReceived {f : CanFrame} (h : s₀.Keeps s) : s₀.Takes (execCanFrameReceived f s) := by
  unfold Machine.execCanFrameReceived
  refine .ite (.next h) ?_
  dsimp only
  split
  · exact .next h.bump
  · exact .ite (.next h) (.next h.frame.wholeItem)

theorem State.Keeps.execCanErrorFrame {ctrl : Fin 2} (h : s₀.Keeps s) : s₀.Takes (execCanErrorFrame ctrl s) := .next h.bumpIf

theorem State.Keeps.execCanBusOffEntry {ctrl : Fin 2} (h : s₀.Keeps s) : s₀.Takes (execCanBusOffEntry ctrl s) :=
  .ite (.ite (.next h.frame.bump) (.next h)) (.next h.frame.bump)

theorem State.Keeps.execBusOffRecovery {ctrl : Fin 2} (h : s₀.Keeps s) : s₀.Takes (execBusOffRecovery ctrl s) :=
  .ite (.next h.frame) (.next h.frame)

theorem State.Keeps.execEthLinkChange {port : Fin 4} {rate : Fin 5} (h : s₀.Keeps s) : s₀.Takes (execEthLinkChange port rate s) :=
  .ite (.next h.setReg.setReg.frame) (.ite (.next h) (.next h.setReg.setReg))

theorem State.Keeps.macStarts {p : Nat} (h : s₀.Keeps s) : s₀.Keeps (s.macStarts p) := by
  unfold State.macStarts
  dsimp only
  split
  · exact .ite h h.frame.startFrame
  · exact .ite h h.setTxFrames.startFrame
  · exact h

theorem State.Keeps.macTick (h : s₀.Keeps s) : s₀.Keeps s.macTick := h.foldl (fun _ _ h' => h'.macStarts)

theorem State.Keeps.execEthFrameSent {port : Fin 4} (h : s₀.Keeps s) : s₀.Takes (execEthFrameSent port s) := by
  unfold Machine.execEthFrameSent
  dsimp only
  split
  · exact .ite (.next (.emit (.ite h.frame.setReg h.frame))) (.next h)
  · exact .next h

end Sys2Proof.Machine
end

section
/-! The rules of State.Keeps for the operations of Machine/Pergola. -/

namespace Sys2Proof.Machine

variable {s₀ s : State}

theorem State.Keeps.hookPergola {index sub : Nat} {hook : Hook} {p : Path} {x : Bytes} (h : s₀.Keeps s) (hk : ∀ s p x, s₀.Keeps s →
    s₀.KeepsOk (hook s p x)) : s₀.KeepsOk (hookPergola index sub hook s p x) := by
  unfold Machine.hookPergola
  dsimp only
  split
  · exact .error
  · exact hk _ _ _ (.ite h.frame h)

theorem State.Keeps.hookSlicing {index sub : Nat} {r : Reg} {p : Path} {x : Bytes} (h : s₀.Keeps s) : s₀.KeepsOk (hookSlicing index sub r
    s p x) :=
  h.rangeFirst (fun _ _ _ h' => h'.hookPergola (fun _ _ _ h'' => h''.regHook))

theorem State.Keeps.hookPoseSource {p : Path} {x : Bytes} (h : s₀.Keeps s) : s₀.KeepsOk (hookPoseSource s p x) :=
  h.hookPergola (fun _ _ _ h' => .ok h'.emptyPoses.setReg)

theorem State.Keeps.execPoseSourceWrite {p : Path} {v : Nat} (h : s₀.Keeps s) : s₀.Takes (execPoseSourceWrite p v s) :=
  .next (h.writeObject (fun _ _ _ h' => h'.hookPoseSource))

theorem State.Keeps.hookPgSeed {p : Path} {x : Bytes} (h : s₀.Keeps s) : s₀.KeepsOk (hookPgSeed s p x) :=
  h.hookPergola (fun _ _ _ h' => .ok h'.setReg.frame)

theorem State.Keeps.execPgSeedWrite {p : Path} {v : Nat} (h : s₀.Keeps s) : s₀.Takes (execPgSeedWrite p v s) :=
  .next (h.writeObject (fun _ _ _ h' => h'.hookPgSeed))

theorem State.Keeps.integrate {k : Nat} (h : s₀.Keeps s) : s₀.Keeps (s.integrate k) := h.pushPose.frame.bumpIf.bumpIf

theorem State.Keeps.execPoseTick (h : s₀.Keeps s) : s₀.Takes (execPoseTick s) := by
  unfold Machine.execPoseTick
  refine .ite (.next h) ?_
  split
  · exact .next h.integrate
  · exact .next h

theorem State.Keeps.checkStruct {i : Item} {a n field : Nat} {write : Bool} (h : s₀.Keeps s) : s₀.Keeps (s.checkStruct i a n field
    write).1 :=
  .ite₁ h h.checkSpans

theorem State.Keeps.checkPosePush {i : Item} (h : s₀.Keeps s) : s₀.Keeps (checkPosePush s i).1 := by
  unfold Machine.checkPosePush
  refine .ite₁ h (.ite₁ h ?_)
  split
  · exact h.checkStruct.fst ‹_›
  · exact .ite₁ (h.checkStruct.fst ‹_›) (h.checkStruct.fst ‹_›)

theorem State.Keeps.execPgPosePush (h : s₀.Keeps s) : s₀.Takes (execPgPosePush s) := by
  unfold Machine.execPgPosePush
  refine .next (h.runItem (fun _ _ h' => h'.checkPosePush) (fun _ _ _ h' => ?_))
  dsimp only
  split
  · exact h'.touch.setFinish
  · exact h'.touch.setFinish
  · exact .ite ((h'.touch.foldl (fun _ _ h'' => h''.pushPose)).setFinish) h'.touch.setFinish

theorem State.Keeps.checkGrid {i : Item} {g : Nat} (h : s₀.Keeps s) : s₀.Keeps (s.checkGrid i g).1 := by
  unfold State.checkGrid
  dsimp only
  split
  · exact .ite₁ (h.descriptors.fst ‹_›) (.ite₁ (h.descriptors.fst ‹_›) (h.descriptors.fst ‹_›))
  · exact h.descriptors.fst ‹_›
  · exact h.descriptors.fst ‹_›

theorem State.Keeps.checkGrids {i : Item} {l : List Nat} (h : s₀.Keeps s) : s₀.Keeps (s.checkGrids i l).1 := by
  induction l generalizing s with
  | nil => exact h
  | cons g l ih =>
    unfold State.checkGrids
    split
    · exact h.checkGrid.fst ‹_›
    · split
      · exact (ih (h.checkGrid.fst ‹_›)).fst ‹_›
      · exact (ih (h.checkGrid.fst ‹_›)).fst ‹_›

theorem State.Keeps.checkBin {i : Item} (h : s₀.Keeps s) : s₀.Keeps (checkBin s i).1 := by
  unfold Machine.checkBin
  refine .ite₁ h (.ite₁ h (.ite₁ h ?_))
  split
  · exact h.checkStruct.fst ‹_›
  · exact (h.checkStruct.fst ‹_›).checkGrids

theorem State.Keeps.startBin {i : Item} (h : s₀.Keeps s) : s₀.Keeps (s.startBin i) :=
  (((h.foldl (fun _ _ h' => h'.setPgStream)).frame).foldl (fun _ _ h' => h'.popsRefused)).foldl (fun _ _ h' => h'.binPops)

theorem State.Keeps.execPgBin (h : s₀.Keeps s) : s₀.Takes (execPgBin s) := by
  unfold Machine.execPgBin
  split
  · exact .ite (.next h) (.next (h.runItem (fun _ _ h' => h'.checkBin) (fun _ _ _ h' => h'.startBin)))
  · exact .next h

theorem State.Keeps.advanceTag {g : Nat} (h : s₀.Keeps s) : s₀.Keeps (s.advanceTag g) :=
  .ite (h.frame.frameMem fun w => wf_zero _ _ w) h.frame

theorem State.Keeps.closeEpoch {b : PgBin} {i : Item} (h : s₀.Keeps s) : s₀.Keeps (s.closeEpoch b i) :=
  (((h.foldlOf (g := Prod.fst) (fun _ _ h' => h'.setPgStream)).frame).advanceTag).advanceTag

theorem State.Keeps.execEpochClose (h : s₀.Keeps s) : s₀.Takes (execEpochClose s) := by
  unfold Machine.execEpochClose
  split
  · exact .ite (.next h.closeEpoch) (.next h)
  · exact .next h

theorem State.Keeps.setBucket {g b : Nat} {v : Bucket} (h : s₀.Keeps s) : s₀.Keeps (s.setBucket g b v) := h.poke

theorem State.Keeps.gridWork_offer {w : GridWork} {g te b k : Nat} {m : Moved} (h : s₀.Keeps w.s) : s₀.Keeps (w.offer g te b k m).s :=
  .setBucket (.ite₁ h h.frame)

theorem State.Keeps.gridWork_meet {w : GridWork} {i : Item} {g cx cy b n : Nat} (h : s₀.Keeps w.s) : s₀.Keeps (w.meet i g cx cy b n).s :=
    by
  delta GridWork.meet GridWork.meet._f
  have touched := fun s sp (h : s₀.Keeps s) => h.touch (i := i) (ag := .pergola) (sp := sp)
  obtain ⟨probe, hp⟩ := exists_eq (a' := State.probe)
  obtain ⟨touch, ht⟩ := exists_eq (a' := State.touch)
  rw [← ht] at touched
  rw [← hp, ← ht]
  induction n generalizing w b with
  | zero => exact h
  | succ n ih =>
    cases e : probe (touch w.s i .pergola [((bucketAt g b : Int), 16)]).s g cx cy b 1 with
    | spill =>
      dsimp only [Nat.brecOn, Nat.brecOn.go]
      simp only [e]
      exact ih (touched _ _ h)
    | _ =>
      dsimp only [Nat.brecOn, Nat.brecOn.go]
      simp only [e]
      exact touched _ _ h

theorem State.Keeps.gridWork_insert {w : GridWork} {i : Item} {g te : Nat} {m : Moved} (h : s₀.Keeps w.s) : s₀.Keeps (w.insert i g te m).s
    := by
  unfold GridWork.insert
  have met := fun cx cy b => h.gridWork_meet (i := i) (g := g) (cx := cx) (cy := cy) (b := b) (n := 16)
  obtain ⟨probe, hp⟩ := exists_eq (a' := State.probe)
  obtain ⟨meet, hm⟩ := exists_eq (a' := GridWork.meet)
  rw [← hm] at met
  rw [← hp, ← hm]
  split
  · exact h
  · dsimp only
    split
    · exact met _ _ _
    · split
      · exact (met _ _ _).setBucket
      · exact (met _ _ _).gridWork_offer
    · split
      · exact (met _ _ _).setBucket.gridWork_offer
      · exact (met _ _ _).setBucket

theorem State.Keeps.gridWork_write {w : GridWork} {o : GridOut} (h : s₀.Keeps w.s) : s₀.Keeps (w.write o) :=
  h.foldl (fun _ _ h' => (h'.foldl (fun _ _ h'' => h''.put)).put)

theorem State.Keeps.gridWork {i : Item} {g te : Nat} {ms : List Moved} (h : s₀.Keeps s) : s₀.Keeps (s.gridWork i g te ms).s :=
  h.foldlOf (g := GridWork.s) (fun _ _ h' => h'.gridWork_insert)

theorem State.Keeps.finishBin {i : Item} {b : PgBin} {c : PgClosed} {noPose extrap : Nat} {ws : List (GridOut × GridWork)} (h : s₀.Keeps
    s) : s₀.Keeps (s.finishBin i b c noPose extrap ws) := by
  unfold State.finishBin
  dsimp only
  split
  · exact (h.landing.fst ‹_›).setFinish
  · exact (((((h.landing.fst ‹_›).foldl (fun _ _ h' => h'.gridWork_write)).put).frame).forgetTables).setFinish

theorem State.Keeps.execPgBinComplete (h : s₀.Keeps s) : s₀.Takes (execPgBinComplete s) := by
  unfold Machine.execPgBinComplete
  dsimp only
  split
  · split
    · exact .next h
    · split
      · exact .next (h.checkGrids.fst ‹_›).setFinish
      · split
        · exact .next (((h.checkGrids.fst ‹_›).touch.foldlOf (g := Prod.fst) (fun _ _ h' => h'.gridWork)).setFinish)
        · exact .next (((h.checkGrids.fst ‹_›).touch.foldlOf (g := Prod.fst) (fun _ _ h' => h'.gridWork)).finishBin)
  · exact .next h

theorem State.Keeps.checkNeighbours {i : Item} (h : s₀.Keeps s) : s₀.Keeps (checkNeighbours s i).1 := by
  unfold Machine.checkNeighbours
  refine .ite₁ h (.ite₁ h ?_)
  split
  · exact h.descriptor.fst ‹_›
  · exact .ite₁ (h.descriptor.fst ‹_›) (h.descriptor.fst ‹_›)

theorem State.Keeps.execPgNeighbours (h : s₀.Keeps s) : s₀.Takes (execPgNeighbours s) := by
  refine .next (h.runItem (fun _ _ h => h.checkNeighbours) fun s i t h => ?_)
  extract_lets g r
  clear_value (hr : r = _)
  have touched : s₀.Keeps r.s := by rw [hr]; exact h.touch
  clear hr
  split
  · exact touched.setFinish
  · exact touched.setFinish
  · split
    · exact (touched.landing.fst ‹_›).setFinish
    · exact ((touched.landing.fst ‹_›).foldl fun _ _ h => h.setRun).setFinish

theorem State.Keeps.checkBev {i : Item} (h : s₀.Keeps s) : s₀.Keeps (checkBev s i).1 := by
  unfold Machine.checkBev
  refine .ite₁ h (.ite₁ h ?_)
  dsimp only
  split
  · exact h.descriptors.fst ‹_›
  · exact .ite₁ (h.descriptors.fst ‹_›) (.ite₁ (h.descriptors.fst ‹_›) (.ite₁ (h.descriptors.fst ‹_›) (h.descriptors.fst ‹_›)))
  · exact h.descriptors.fst ‹_›

theorem State.Keeps.bevPillar {i : Item} {a : BevArgs} {k : Nat} (h : s₀.Keeps s) : s₀.Keeps (s.bevPillar i a k) :=
  .ite h (h.foldl (fun _ _ h' => h'.setElem))

theorem State.Keeps.execPgBev (h : s₀.Keeps s) : s₀.Takes (execPgBev s) := by
  unfold Machine.execPgBev
  refine .next (h.runItem (fun _ _ h' => h'.checkBev) (fun _ _ _ h' => ?_))
  dsimp only
  split
  · exact h'.touch.setFinish
  · exact h'.touch.setFinish
  · split
    · exact (h'.touch.landing.fst ‹_›).setFinish
    · exact (((h'.touch.landing.fst ‹_›).foldl (fun _ _ h'' => h''.setRun)).foldl (fun _ _ h'' => h''.bevPillar)).setFinish

theorem State.Keeps.checkLabels {i : Item} (h : s₀.Keeps s) : s₀.Keeps (checkLabels s i).1 := by
  unfold Machine.checkLabels
  refine .ite₁ h (.ite₁ h ?_)
  dsimp only
  split
  next e1 =>
    have h1 := h.descriptors.fst e1
    refine .ite₁ h1 (.ite₁ h1 (.ite₁ h1 ?_))
    split
    next e2 => exact h1.fetchStruct.fst e2
    next e2 =>
    have h2 := h1.fetchStruct.fst e2
    split
    · exact h2
    · exact h2
  next e1 => exact h.descriptors.fst e1
  next e1 => exact h.descriptors.fst e1

theorem State.Keeps.labelPoint {i : Item} {a : LabelArgs} {bad : List (Nat × Nat)} {j k : Nat} (h : s₀.Keeps s) : s₀.Keeps (s.labelPoint i
    a bad j k) := by
  unfold State.labelPoint
  dsimp only
  split
  · exact h.bumpIf
  · exact .ite h.bumpIf.put.pokePoison h.bumpIf.put

theorem State.Keeps.execPgLabels (h : s₀.Keeps s) : s₀.Takes (execPgLabels s) := by
  unfold Machine.execPgLabels
  refine .next (h.runItem (fun _ _ h' => h'.checkLabels) (fun _ _ _ h' => ?_))
  dsimp only
  split
  · exact h'.touch.setFinish
  · split
    · exact (h'.touch.landing.fst ‹_›).setFinish
    · exact .setFinish (.foldl (.ite ((h'.touch.landing.fst ‹_›).foldl (fun _ _ h'' => h''.put)) (h'.touch.landing.fst ‹_›)) (fun _ _ h''
        => h''.foldl (fun _ _ k => .ite k.labelPoint k)))

end Sys2Proof.Machine
end

section
/-! The rules of State.Keeps for the operations of Machine/Resets. -/

namespace Sys2Proof.Machine

variable {s₀ s : State}

theorem State.Keeps.dropObjects {p : Nat → Bool} (h : s₀.Keeps s) : s₀.Keeps (s.dropObjects p) := h.frame

theorem State.Keeps.setHostLink {v : HostLink} (h : s₀.Keeps s) : s₀.Keeps (s.setHostLink v) := h.frame

theorem State.Keeps.configReset (h : s₀.Keeps s) : s₀.Keeps s.configReset := .setHostLink (.ite h h.setReg.setReg)

theorem State.Keeps.tapReset (h : s₀.Keeps s) : s₀.Keeps s.tapReset := h.frame

theorem State.Keeps.losesTime (h : s₀.Keeps s) : s₀.Keeps s.losesTime := h.frame.foldl (fun _ _ h' => h'.tpinTakes)

theorem State.Keeps.loses {d : Nat} (h : s₀.Keeps s) : s₀.Keeps (s.loses d) :=
  .ite ((((h.frameMem fun w => wf_zero _ _ w).endGolden).setReg).setGaffer) (.ite h.frame (.ite h.pergolaLost (.ite (((h.frameMem
    fun w => wf_zero _ _ w).frame).foldl (fun _ _ h' => .ite h' h'.setIngest)) (.ite (h.frameMem fun w => wf_zero _ _ w) (.ite h.frame
    (.ite h.frame (.ite h.configReset (.ite h.tapReset (.ite h.frame.losesTime h)))))))))

theorem State.Keeps.turnsOn {d : Nat} {fromOff : Bool} (h : s₀.Keeps s) : s₀.Keeps (s.turnsOn d fromOff) :=
  .ite (.setVcore (.ite (.measureBranches (.ite (.attendKeeper (.frame (.setReg (.ite h.setPd.setReg.calibrates.wipeGaffer.setReg
    h.setPd.setReg.calibrates)))) (.ite h.setPd.setReg.calibrates.wipeGaffer.setReg h.setPd.setReg.calibrates))) (.ite (.attendKeeper
    (.frame (.setReg (.ite h.setPd.setReg.calibrates.wipeGaffer.setReg h.setPd.setReg.calibrates)))) (.ite
    h.setPd.setReg.calibrates.wipeGaffer.setReg h.setPd.setReg.calibrates)))) (.ite (.measureBranches (.ite (.attendKeeper (.frame
    (.setReg (.ite h.setPd.setReg.calibrates.wipeGaffer.setReg h.setPd.setReg.calibrates)))) (.ite
    h.setPd.setReg.calibrates.wipeGaffer.setReg h.setPd.setReg.calibrates))) (.ite (.attendKeeper (.frame (.setReg (.ite
    h.setPd.setReg.calibrates.wipeGaffer.setReg h.setPd.setReg.calibrates)))) (.ite h.setPd.setReg.calibrates.wipeGaffer.setReg
    h.setPd.setReg.calibrates)))

theorem State.Keeps.retentionLost (h : s₀.Keeps s) : s₀.Keeps s.retentionLost := h.foldl (fun _ _ h' => .ite h'.loses.setReg h')

/-- A start empties device memory and, with the keep banks, the log (R468, R376). -/
theorem State.Keeps.resetFor {e : StartEvent} (h : s₀.Keeps s) : s₀.Keeps (s.resetFor e) := by
  refine h.trans ⟨rfl, rfl, fun _ => wf_resetMemory _, id, fun hl => ?_⟩
  show (if _ then ({} : ErrorLog) else _).entries.length ≤ 512
  split
  · exact Nat.zero_le _
  · exact hl

end Sys2Proof.Machine
end

section
/-! The rules of State.Keeps for the operations of Machine/Domains. -/

namespace Sys2Proof.Machine

variable {s₀ s : State}

theorem State.Keeps.linkFalls (h : s₀.Keeps s) : s₀.Keeps s.linkFalls := h.setReg.setReg.setReg.setReg.attention

theorem State.Keeps.linkDown (h : s₀.Keeps s) : s₀.Keeps s.linkDown := .ite (h.linkFalls.bump.foldl (fun _ _ h' => .ite h'.stopRing h')) h

theorem State.Keeps.setDdr {v : Ddr} (h : s₀.Keeps s) : s₀.Keeps (s.setDdr v) := h.frame

theorem State.Keeps.setPair {k : Nat} {v : DdrPhase} (h : s₀.Keeps s) : s₀.Keeps (s.setPair k v) := h.setDdr

theorem State.Keeps.entersSelfRefresh {k : Nat} (h : s₀.Keeps s) : s₀.Keeps (s.entersSelfRefresh k) := .ite h.bump h.bump.setPair

theorem State.Keeps.requestPd {d : Nat} {v : PdState} {batch : Nat} (h : s₀.Keeps s) : s₀.Keeps (s.requestPd d v batch) := by
  unfold State.requestPd
  dsimp only
  split
  · exact h.setPd
  · exact h.setPd

theorem State.Keeps.leaves {d : Nat} (h : s₀.Keeps s) : s₀.Keeps (s.leaves d) :=
  .ite h.endGolden (.ite h.lodgeLeavesOn (.ite h.linkDown (.ite h.frame h)))

theorem State.Keeps.pdStarts {d : Nat} (h : s₀.Keeps s) : s₀.Keeps (s.pdStarts d) :=
  .ite (.gafferTurnsOn (.setPd (.ite h.leaves h))) (.setPd (.ite h.leaves h))

theorem State.Keeps.startsPds (h : s₀.Keeps s) : s₀.Keeps s.startsPds := by
  unfold State.startsPds
  refine h.foldl (fun _ _ h' => ?_)
  split
  · exact .ite h'.pdStarts h'
  · exact h'

theorem State.Keeps.stepEnds {d : Nat} {t : PdState} (h : s₀.Keeps s) : s₀.Keeps (s.stepEnds d t) := by
  unfold State.stepEnds
  dsimp only
  split
  · exact .ite (.setVcore (.settlePd (.loses (.ite h.entersSelfRefresh h)))) (.settlePd (.loses (.ite h.entersSelfRefresh h)))
  · exact .ite (.setVcore (.settlePd (.ite (.tapReset (.ite h.entersSelfRefresh h)) (.ite h.entersSelfRefresh h)))) (.settlePd (.ite
      (.tapReset (.ite h.entersSelfRefresh h)) (.ite h.entersSelfRefresh h)))
  · exact .ite (.setDdr (.turnsOn (.ite h.entersSelfRefresh h))) (.ite (.frame (.turnsOn (.ite h.entersSelfRefresh h))) (.turnsOn (.ite
      h.entersSelfRefresh h)))

theorem State.Keeps.pdStepDone {d : Nat} (h : s₀.Keeps s) : s₀.Keeps (s.pdStepDone d) := by
  unfold State.pdStepDone
  dsimp only
  split
  · exact h
  · split
    · exact h.stepEnds.bump
    · exact .ite h.stepEnds.bump h.stepEnds.bumpIf.setPd.pdStarts

theorem State.Keeps.cyclesPd {d : Nat} (h : s₀.Keeps s) : s₀.Keeps (s.cyclesPd d) := by
  unfold State.cyclesPd
  split
  · exact h
  · exact h.forces

theorem State.Keeps.settlesForced {d n : Nat} (h : s₀.Keeps s) : s₀.Keeps (s.settlesForced d n) := by
  induction n generalizing s with
  | zero => exact h
  | succ n ih =>
    unfold State.settlesForced
    split
    · exact .ite (ih h.pdStepDone) h
    · exact h

end Sys2Proof.Machine
end

section
/-! The rules of State.Keeps for the operations of Machine/Start. -/

namespace Sys2Proof.Machine

variable {s₀ s : State}

theorem State.Keeps.trySlots {last : Nat} {l : List Nat} (h : s₀.Keeps s) : s₀.Keeps (s.trySlots last l).1 := by
  induction l generalizing s last with
  | nil => exact h
  | cons k l ih =>
    unfold State.trySlots
    exact .ite₁ h.setReg (ih h.setReg)

theorem State.Keeps.trustDraw (h : s₀.Keeps s) : s₀.Keeps s.trustDraw.2 := h.frame

theorem State.Keeps.newChallenge (h : s₀.Keeps s) : s₀.Keeps s.newChallenge := h.trustDraw.setBlob

theorem State.Keeps.drawSecret (h : s₀.Keeps s) : s₀.Keeps s.drawSecret := .ite h.trustDraw.frame h

theorem State.Keeps.startPowers (h : s₀.Keeps s) : s₀.Keeps s.startPowers :=
  .ite (((h.foldl (fun _ _ h' => .ite h' h'.turnsOn)).foldl (fun _ _ h' => h'.setReg)).foldl (fun _ _ h' => h'.setReg)) ((((h.foldl
    (fun _ _ h' => .ite h' h'.turnsOn)).foldl (fun _ _ h' => h'.setReg)).foldl (fun _ _ h' => h'.setReg)).foldl (fun _ _ h' => h'.setReg))

theorem State.Keeps.acceptImage {slot : Nat} {m : BootImage} (h : s₀.Keeps s) : s₀.Keeps (s.acceptImage slot m) :=
  h.setReg.setReg.setReg.setBlob.setReg.setReg.frame

theorem State.Keeps.attempt (h : s₀.Keeps s) : s₀.Keeps s.attempt.1 := by
  unfold State.attempt
  refine .ite₁ h.startPowers.drawSecret.newChallenge.setReg.setReg ?_
  split
  · exact (h.startPowers.drawSecret.newChallenge.setReg.setReg.trySlots.fst ‹_›).acceptImage
  · exact h.startPowers.drawSecret.newChallenge.setReg.setReg.trySlots.fst ‹_›

theorem State.Keeps.startFails {reason : Nat} (h : s₀.Keeps s) : s₀.Keeps (s.startFails reason) :=
  .resetFor (.ite (.frame (.ite h.bump.setReg.setReg h.bump.setReg)) (.ite h.bump.setReg.setReg h.bump.setReg))

theorem State.Keeps.gatehouseStart (h : s₀.Keeps s) : s₀.Keeps s.gatehouseStart := h.startPowers.drawSecret.newChallenge.setReg.setReg.frame

theorem State.Keeps.begins {n : Nat} (h : s₀.Keeps s) : s₀.Keeps (s.begins n) := by
  induction n generalizing s with
  | zero => unfold State.begins; exact h.gatehouseStart
  | succ n ih =>
    unfold State.begins
    exact .ite h.gatehouseStart (.ite h.attempt (ih h.attempt.startFails))

theorem State.Keeps.beginStart (h : s₀.Keeps s) : s₀.Keeps s.beginStart := h.frame.begins

theorem State.Keeps.applyMemory (h : s₀.Keeps s) : s₀.Keeps s.applyMemory :=
  (((((h.foldl (fun _ _ h' => .setReg (.ite h' h'.turnsOn))).setReg).setReg).setReg).setReg).frame

theorem State.Keeps.bringBack (h : s₀.Keeps s) : s₀.Keeps s.bringBack := (h.foldl (fun _ _ h' => h'.forces)).frame

theorem State.Keeps.startReady (h : s₀.Keeps s) : s₀.Keeps s.startReady :=
  .ite h.applyMemory.setReg.setReg.frame.attendKeeper.bringBack h.applyMemory.setReg.setReg.frame.attendKeeper

theorem State.Keeps.gatehouseReady (h : s₀.Keeps s) : s₀.Keeps s.gatehouseReady := h.frame.attention

theorem State.Keeps.readStaged (h : s₀.Keeps s) : s₀.Keeps s.readStaged.1 := by
  unfold State.readStaged
  dsimp only
  split
  · exact h.readMem.fst ‹_›
  · exact h.readMem.fst ‹_›
  · exact (h.readMem.fst ‹_›).notPresent

theorem State.Keeps.gardenerReady (h : s₀.Keeps s) : s₀.Keeps s.gardenerReady := by
  unfold State.gardenerReady
  refine .ite ?_ (.ite h.frame h)
  dsimp only
  split
  · exact .ite (h.readStaged.fst ‹_›).frame (h.readStaged.fst ‹_›)
  · exact h.readStaged.fst ‹_›

end Sys2Proof.Machine
end

section
/-! The rules of State.Keeps for the operations of Machine/Owners. -/

namespace Sys2Proof.Machine

variable {s₀ s : State}

theorem State.Keeps.tpinChange {t f : Nat} (h : s₀.Keeps s) : s₀.Keeps (s.tpinChange t f) :=
  .ite h.setReg.frame (.ite h.setReg.frame.driveTrig h.setReg.frame)

theorem State.Keeps.leavePpsIn (h : s₀.Keeps s) : s₀.Keeps s.leavePpsIn := h.foldl (fun _ _ h' => .ite h'.setSource h')

theorem State.Keeps.leaveResource {index : Nat} (h : s₀.Keeps s) : s₀.Keeps (s.leaveResource index) :=
  .ite h.setReg (.ite h.setReg (.ite h.setReg (.ite h.leavePpsIn (.ite h.flushQueue (.ite h.tpinChange h)))))

theorem State.Keeps.notifyTaken {index o : Nat} (h : s₀.Keeps s) : s₀.Keeps (s.notifyTaken index o) :=
  .ite h.logs.sendEvent (.ite h.logs.attention h.logs)

theorem State.Keeps.hookOwner {index : Nat} {p : Path} {x : Bytes} (h : s₀.Keeps s) : s₀.KeepsOk (hookOwner index s p x) :=
  .ite (.ite (.ok h.setReg) (.ite (.ok h.leaveResource.setReg.notifyTaken) .error)) (.ite (.ite (.ok h.leaveResource.setReg) .error)
    .error)

theorem State.Keeps.releaseClaims (h : s₀.Keeps s) : s₀.Keeps s.releaseClaims := h.foldl (fun _ _ h' => .ite h'.leaveResource.setReg h')

end Sys2Proof.Machine
end

section
/-! The rules of State.Keeps for the operations of Machine/Leases. -/

namespace Sys2Proof.Machine

variable {s₀ s : State}

theorem State.Keeps.setShift {v : Shift} (h : s₀.Keeps s) : s₀.Keeps (s.setShift v) := h.frame

theorem State.Keeps.issueReport {fields : Nat} (h : s₀.Keeps s) : s₀.Keeps (s.issueReport fields) := by
  unfold State.issueReport
  dsimp only
  split
  · exact h
  · exact h.frame.setBlob.setReg.setShift.msix

theorem State.Keeps.openingReport (h : s₀.Keeps s) : s₀.Keeps s.openingReport := h.issueReport.setShift

theorem State.Keeps.closingReports (h : s₀.Keeps s) : s₀.Keeps s.closingReports :=
  .ite (h.setShift.foldl (fun _ _ h' => h'.issueReport)) h.setShift.setShift

theorem State.Keeps.heldReports (h : s₀.Keeps s) : s₀.Keeps s.heldReports := .ite (h.setShift.foldl (fun _ _ h' => h'.issueReport)) h

theorem State.Keeps.liftQuarantine (h : s₀.Keeps s) : s₀.Keeps s.liftQuarantine := h.closingReports.setShift

theorem State.Keeps.keeperEnters {ph : KpState} (h : s₀.Keeps s) : s₀.Keeps (s.keeperEnters ph) := h.frame.attendKeeper

theorem State.Keeps.keeperWaits (h : s₀.Keeps s) : s₀.Keeps s.keeperWaits := h.keeperEnters

theorem State.Keeps.keeperParks (h : s₀.Keeps s) : s₀.Keeps s.keeperParks := by
  unfold State.keeperParks
  split
  · exact h.keeperEnters
  · exact h.keeperEnters
  · exact h.keeperEnters
  · exact h

theorem State.Keeps.keeperUnparks (h : s₀.Keeps s) : s₀.Keeps s.keeperUnparks := .ite h.keeperWaits h

theorem State.Keeps.scrubDdr (h : s₀.Keeps s) : s₀.Keeps s.scrubDdr := h.frameMem fun w => wf_zeros _ w

theorem State.Keeps.scrubPads (h : s₀.Keeps s) : s₀.Keeps s.scrubPads := h.frameMem fun w => wf_foldl (fun _ _ hm => wf_zero _ _ hm) _ w

theorem State.Keeps.reseed (h : s₀.Keeps s) : s₀.Keeps s.reseed := h.foldl (fun _ _ h' => h'.setReg)

theorem State.Keeps.beginLease (h : s₀.Keeps s) : s₀.Keeps s.beginLease := h.bump.setShift

theorem State.Keeps.flushLease (h : s₀.Keeps s) : s₀.Keeps s.flushLease := h.foldl (fun _ _ h' => .ite h'.flushRing h')

theorem State.Keeps.preemptAt {k code b : Nat} (h : s₀.Keeps s) : s₀.Keeps (s.preemptAt k code b) := h.bump.setShift

theorem State.Keeps.extraTrigger {code b : Nat} (h : s₀.Keeps s) : s₀.Keeps (s.extraTrigger code b) := .ite h.bump.setShift h.bump

theorem State.Keeps.trigger {code b : Nat} (h : s₀.Keeps s) : s₀.Keeps (s.trigger code b) := by
  unfold State.trigger
  split
  · exact h.preemptAt
  · exact h.preemptAt.flushLease
  · exact .ite h.preemptAt.flushLease h.bump
  · exact h.extraTrigger
  · exact .ite h.bump h
  · exact h
  · exact h

theorem State.Keeps.execPreemptionTrigger {code : Fin 7} (h : s₀.Keeps s) : s₀.Takes (execPreemptionTrigger code s) :=
  .ite (.next h) (.next h.trigger)

theorem State.Keeps.hookLeaseCmd {p : Path} {x : Bytes} (h : s₀.Keeps s) : s₀.KeepsOk (hookLeaseCmd s p x) := by
  unfold Machine.hookLeaseCmd
  dsimp only
  split
  · split
    · exact .error
    · exact .ok h.beginLease
  · split
    · exact .ok h.setShift
    · exact .ok h.draw.trigger
    · exact .error
  · split
    · exact .error
    · exact .error
    · exact .error
    · exact .ok h.trigger

theorem State.Keeps.execLeaseStart {p : Path} (h : s₀.Keeps s) : s₀.Takes (execLeaseStart p s) :=
  .next (h.writeObject (fun _ _ _ h' => h'.hookLeaseCmd))

theorem State.Keeps.execLeaseClose {p : Path} (h : s₀.Keeps s) : s₀.Takes (execLeaseClose p s) :=
  .next (h.writeObject (fun _ _ _ h' => h'.hookLeaseCmd))

theorem State.Keeps.hookLeasePreempt {p : Path} {x : Bytes} (h : s₀.Keeps s) : s₀.KeepsOk (hookLeasePreempt s p x) := by
  unfold Machine.hookLeasePreempt
  refine h.actHook (fun _ _ h' => ?_)
  split
  · exact .error
  · exact .error
  · exact .error
  · exact .ok h'.trigger

theorem State.Keeps.execLeasePreemptCmd {p : Path} {bySafetyObject : Bool} (h : s₀.Keeps s) : s₀.Takes (execLeasePreemptCmd p
    bySafetyObject s) :=
  .ite (.next (h.writeObject (fun _ _ _ h' => h'.hookLeasePreempt))) (.next (h.writeObject (fun _ _ _ h' => h'.hookLeaseCmd)))

theorem State.Keeps.execDriveWorkDrained (h : s₀.Keeps s) : s₀.Takes (execDriveWorkDrained s) :=
  .ite (.next h.keeperParks.stopStreams.setShift) (.next h)

theorem State.Keeps.execLeaseScrubComplete (h : s₀.Keeps s) : s₀.Takes (execLeaseScrubComplete s) :=
  .ite (.next (.setShift (.openingReport (.ite ((h.scrubDdr.scrubPads.reseed.forgetKv.foldl (fun _ _ h' =>
    h'.emptyIq)).liftQuarantine) (h.scrubDdr.scrubPads.reseed.forgetKv.foldl (fun _ _ h' => h'.emptyIq)))))) (.next h)

theorem State.Keeps.execLeaseWorkDrained (h : s₀.Keeps s) : s₀.Takes (execLeaseWorkDrained s) :=
  .ite (.ite (.next h.frame.setShift) (.next h.setShift)) (.next h)

theorem State.Keeps.exportExpires (h : s₀.Keeps s) : s₀.Keeps s.exportExpires := .setShift (.ite h.exportOutcome h)

theorem State.Keeps.execExportEntryDone (h : s₀.Keeps s) : s₀.Takes (execExportEntryDone s) := by
  unfold Machine.execExportEntryDone
  refine .ite (.next h) (.ite (.next h.exportExpires) ?_)
  dsimp only
  split
  · exact .next h.setShift
  · exact .ite (.next h.exportSequence.exportOutcome.frame) (.next h.exportSequence.exportOutcome.frame.setShift)

theorem State.Keeps.execExportBudgetExpiry (h : s₀.Keeps s) : s₀.Takes (execExportBudgetExpiry s) := .ite (.next h.exportExpires) (.next h)

theorem State.Keeps.execLeaseCloseDrained (h : s₀.Keeps s) : s₀.Takes (execLeaseCloseDrained s) :=
  .ite (.next h.flushLease.setShift) (.next h)

theorem State.Keeps.release (h : s₀.Keeps s) : s₀.Keeps s.release :=
  (((((h.scrubPads.reseed.forgetKv.releaseClaims.foldl (fun _ _ h' =>
    h'.emptyIq)).setShift).keeperUnparks).attendKeeper).pergolaRestart).restartStreams

theorem State.Keeps.execQuarantineLift (h : s₀.Keeps s) : s₀.Takes (execQuarantineLift s) :=
  .ite (.next h.scrubDdr.liftQuarantine) (.next h)

end Sys2Proof.Machine
end

section
/-! The rules of State.Keeps for the operations of Machine/Rules. -/

namespace Sys2Proof.Machine

variable {s₀ s : State}

theorem State.Keeps.hookRules {parked : Bool} {p : Path} {x : Bytes} (h : s₀.Keeps s) : s₀.KeepsOk (hookRules parked s p x) :=
  .ite (.ok h.setBlob.setReg.setReg) .error

theorem State.Keeps.execRulesWrite {p : Path} {parked : Bool} {data : Bytes} (h : s₀.Keeps s) : s₀.Takes (execRulesWrite p parked data s)
    :=
  .next (h.writeObject (fun _ _ _ h' => h'.hookRules))

end Sys2Proof.Machine
end

section
/-! The rules of State.Keeps for the operations of Machine/Keeper. -/

namespace Sys2Proof.Machine

variable {s₀ s : State}

theorem State.Keeps.setKeeper {k : Keeper} (h : s₀.Keeps s) : s₀.Keeps (s.setKeeper k) := h.frame

theorem State.Keeps.hostVerdict {epoch : Nat} {rec : Bytes} (h : s₀.Keeps s) : s₀.Keeps (s.hostVerdict epoch rec) := by
  unfold State.hostVerdict
  refine .ite h ?_
  dsimp only
  split
  · exact (h.writeMem.fst ‹_›).msix
  · exact (h.writeMem.fst ‹_›).notPresent.msix

theorem State.Keeps.publish {epoch : Nat} {rec : Bytes} (h : s₀.Keeps s) : s₀.Keeps (s.publish epoch rec) :=
  h.observes.sendSafety.setBlob.hostVerdict

theorem State.Keeps.latchSets {code : Nat} (h : s₀.Keeps s) : s₀.Keeps (s.latchSets code) := h.setReg.bumpIf.setKeeper

theorem State.Keeps.flushEvery (h : s₀.Keeps s) : s₀.Keeps s.flushEvery := (h.foldl (fun _ _ h' => .ite h'.flushRing h')).frame

theorem State.Keeps.cycleGaffer {g : Nat} (h : s₀.Keeps s) : s₀.Keeps (s.cycleGaffer g) :=
  .ite (.ite h.setGaffer.forces h.setGaffer) (.ite h h.dropObjects.setGaffer.setReg.cyclesPd)

theorem State.Keeps.cycleUnits (h : s₀.Keeps s) : s₀.Keeps s.cycleUnits := by
  unfold State.cycleUnits
  exact .setVcore (.setKeeper (.ite (.forgetKv (.ite ((h.setReg.frame.foldl (fun _ _ h' => h'.cycleGaffer)).foldl (fun _ _ h' => .ite h'
    h'.dropObjects.cyclesPd)) (((((h.setReg.frame.foldl (fun _ _ h' => h'.cycleGaffer)).foldl (fun _ _ h' => .ite h'
    h'.dropObjects.cyclesPd)).dropObjects).cyclesPd).cyclesPd))) (.ite ((h.setReg.frame.foldl (fun _ _ h' => h'.cycleGaffer)).foldl (fun _
    _ h' => .ite h' h'.dropObjects.cyclesPd)) (((((h.setReg.frame.foldl (fun _ _ h' => h'.cycleGaffer)).foldl (fun _ _ h' => .ite h'
    h'.dropObjects.cyclesPd)).dropObjects).cyclesPd).cyclesPd))))

theorem State.Keeps.warmRestart (h : s₀.Keeps s) : s₀.Keeps s.warmRestart := h.cycleUnits.setKeeper

theorem State.Keeps.coldRestart (h : s₀.Keeps s) : s₀.Keeps s.coldRestart :=
  .ite h.resetFor.beginStart.setReg.frame.setKeeper h.resetFor.beginStart

theorem State.Keeps.keeperLatches (h : s₀.Keeps s) : s₀.Keeps s.keeperLatches := h.keeperEnters.setKeeper.sendEvent

theorem State.Keeps.safeEntry {code : Nat} {cold : Bool} (h : s₀.Keeps s) : s₀.Keeps (s.safeEntry code cold) := by
  unfold State.safeEntry
  exact .ite h.latchSets.bump.setKeeper.attendKeeper.publish.sendEvent.flushEvery.cycleUnits.keeperLatches.setKeeper (.ite
    h.latchSets.bump.setKeeper.attendKeeper.publish.sendEvent.flushEvery.coldRestart
    h.latchSets.bump.setKeeper.attendKeeper.publish.sendEvent.flushEvery.warmRestart)

theorem State.Keeps.safeTrigger {code : Nat} {cold : Bool} (h : s₀.Keeps s) : s₀.Keeps (s.safeTrigger code cold) := by
  unfold State.safeTrigger
  dsimp only
  split
  · exact h.safeEntry
  · exact h.safeEntry
  · exact .ite h.safeEntry h
  · exact .ite (.coldRestart (.ite h.latchSets.bump.setKeeper h.latchSets.bump)) (.ite h.latchSets.bump.setKeeper h.latchSets.bump)
  · exact .ite h.latchSets.trigger.keeperEnters.setKeeper h
  · exact .ite h.latchSets h
  · exact .ite h.latchSets h

theorem State.Keeps.execLockstepMismatch (h : s₀.Keeps s) : s₀.Takes (execLockstepMismatch s) := .ite (.next h.safeTrigger) (.next h)

theorem State.Keeps.execKeeperClockLoss (h : s₀.Keeps s) : s₀.Takes (execKeeperClockLoss s) := .ite (.next h.safeTrigger) (.next h)

theorem State.Keeps.execKeeperWatchdog (h : s₀.Keeps s) : s₀.Takes (execKeeperWatchdog s) := .ite (.next h.safeTrigger) (.next h)

theorem State.Keeps.hookForceSafe {p : Path} {x : Bytes} (h : s₀.Keeps s) : s₀.KeepsOk (hookForceSafe s p x) :=
  h.actHook (fun _ _ h' => .ok h'.safeTrigger)

theorem State.Keeps.execKpForceSafe {p : Path} {v : Nat} (h : s₀.Keeps s) : s₀.Takes (execKpForceSafe p v s) :=
  .next (h.writeObject (fun _ _ _ h' => h'.hookForceSafe))

theorem State.Keeps.keeperDamaged {bad : Option Nat} (h : s₀.Keeps s) : s₀.Keeps (s.keeperDamaged bad) := .ite h.safeTrigger h

theorem State.Keeps.keeperReads (h : s₀.Keeps s) : s₀.Keeps s.keeperReads := h.touchArray.keeperDamaged

theorem State.Keeps.takeDamage (h : s₀.Keeps s) : s₀.Keeps s.takeDamage := .ite h.setKeeper.safeTrigger h

theorem State.Keeps.hookSafeClear {p : Path} {x : Bytes} (h : s₀.Keeps s) : s₀.KeepsOk (hookSafeClear s p x) :=
  h.actHook (fun _ _ h' => .ite (.ok h'.setKeeper.flushEvery.warmRestart.takeDamage) (.ok h'))

theorem State.Keeps.execKpSafeClear {p : Path} {v : Nat} (h : s₀.Keeps s) : s₀.Takes (execKpSafeClear p v s) :=
  .next (h.writeObject (fun _ _ _ h' => h'.hookSafeClear))

theorem State.Keeps.execRestartReady (h : s₀.Keeps s) : s₀.Takes (execRestartReady s) :=
  .ite (.next (.sendEvent (.msix (.frame (.setKeeper (.keeperWaits (.ite h.setReg h))))))) (.next h)

theorem State.Keeps.readKeepBank (h : s₀.Keeps s) : s₀.Keeps s.readKeepBank.1 := h.foldlOf (g := Prod.fst) (fun _ _ h' => h'.meetArray)

theorem State.Keeps.keeperStarts (h : s₀.Keeps s) : s₀.Keeps s.keeperStarts := by
  unfold State.keeperStarts
  refine .ite h.setKeeper.frame ?_
  dsimp only
  split
  · exact h.setKeeper.frame.keeperEnters
  · exact h.setKeeper.frame.keeperEnters
  · exact h.setKeeper.frame.keeperEnters
  · exact h.setKeeper.frame.keeperEnters
  · exact h.setKeeper.frame.keeperWaits

theorem State.Keeps.execKeeperStartComplete {passed : Bool} (h : s₀.Keeps s) : s₀.Takes (execKeeperStartComplete passed s) :=
  .ite (.next h) (.ite (.next h.readKeepBank.keeperStarts.takeDamage) (.next h.readKeepBank.setKeeper.keeperLatches))

theorem State.Keeps.execHeartbeatToggle (h : s₀.Keeps s) : s₀.Takes (execHeartbeatToggle s) := .ite (.next h.setKeeper) (.next h)

theorem State.Keeps.execDriveShiftRelease (h : s₀.Keeps s) : s₀.Takes (execDriveShiftRelease s) :=
  .ite (.next h) (.ite (.next h.setKeeper.safeEntry) (.next h.release.takeDamage))

theorem State.Keeps.hookKpArmed {p : Path} {x : Bytes} (h : s₀.Keeps s) : s₀.KeepsOk (hookKpArmed s p x) := by
  unfold Machine.hookKpArmed
  refine .ite ?_ (.ite .error (.ite .error (.ite (.ok h.setReg.keeperEnters) (.ok h.setReg))))
  dsimp only
  split
  · exact .ok h.setReg.keeperEnters
  · exact .ok h.setReg.keeperEnters
  · exact .ok h.setReg

theorem State.Keeps.execKpArmedWrite {p : Path} {v : Nat} (h : s₀.Keeps s) : s₀.Takes (execKpArmedWrite p v s) :=
  .next (h.writeObject (fun _ _ _ h' => h'.hookKpArmed))

theorem State.Keeps.declareRun {i : Item} (h : s₀.Keeps s) : s₀.Keeps (s.declareRun i) := h.setKeeper

theorem State.Keeps.checkDeclare {i : Item} (h : s₀.Keeps s) : s₀.Keeps (s.checkDeclare i).1 := .ite₁ h h.descriptors

theorem State.Keeps.execKpDeclare (h : s₀.Keeps s) : s₀.Takes (execKpDeclare s) := by
  unfold Machine.execKpDeclare
  split
  · exact .next h
  · refine .ite (.next h.setFinish) ?_
    split
    · exact .next (h.checkDeclare.fst ‹_›).setFinish
    · split
      · exact .next (h.checkDeclare.fst ‹_›).setFinish
      · exact .next (h.checkDeclare.fst ‹_›).declareRun.setFinish

theorem State.Keeps.readRun {t : Tensor} (h : s₀.Keeps s) : s₀.Keeps (s.readRun t).1 := by
  unfold State.readRun
  refine h.foldlOf (g := Prod.fst) (fun _ _ h' => ?_)
  split
  · split
    · exact h'.readMem.fst ‹_›
    · exact h'.readMem.fst ‹_›
  · exact h'.notPresent

theorem State.Keeps.runRead {ring seq desc : Nat} (h : s₀.Keeps s) : s₀.Keeps (s.runRead ring seq desc).1 := by
  unfold State.runRead
  split
  · split
    · exact h.touchArray.fst ‹_›
    · exact h.touchArray.fst ‹_›
    · refine .ite₁ (h.touchArray.fst ‹_›) ?_
      split
      · exact h.touchArray.fst ‹_›
      · exact (h.touchArray.fst ‹_›).readRun

theorem State.Keeps.readSlots {e : Epoch} (h : s₀.Keeps s) : s₀.Keeps (s.readSlots e).1 := by
  unfold State.readSlots
  refine h.foldlOf (g := Prod.fst) (fun _ _ h' => ?_)
  split
  · split
    · exact h'.runRead.fst ‹_›
    · exact (h'.runRead.fst ‹_›).runRead

theorem State.Keeps.judged_rule {j : Judged} {reads : List SlotRead} {end_ : Nat} {table : Bytes} {k : Nat} (h : s₀.Keeps j.s) : s₀.Keeps
    (j.rule reads end_ table k).s := by
  unfold Judged.rule
  dsimp only
  split
  · split
    · exact h
    · exact h
  · split
    · refine .logs (.bump ?_)
      split
      · exact h
      · exact h
    · split
      · exact h
      · exact h

theorem State.Keeps.judgeEpoch {e : Epoch} (h : s₀.Keeps s) : s₀.Keeps (s.judgeEpoch e).s :=
  h.readSlots.foldlOf (g := Judged.s) (fun _ _ h' => h'.judged_rule)

theorem State.Keeps.forceGolden {g : Nat} (h : s₀.Keeps s) : s₀.Keeps (s.forceGolden g) := .ite h h.setKeeper.bump

theorem State.Keeps.keeperReleases (h : s₀.Keeps s) : s₀.Keeps s.keeperReleases := h.setKeeper

theorem State.Keeps.giveVerdict {number end_ : Nat} {j : Judged} (k : s₀.Keeps j.s) : s₀.Keeps (s.giveVerdict number end_
    j) :=
  .ite k.publish.setKeeper (.ite ((k.publish.bumpIf.setKeeper.foldl (fun _ _ h' => h'.forceGolden)).safeTrigger) (.ite
    ((k.publish.bumpIf.setKeeper.foldl (fun _ _ h' => h'.forceGolden)).keeperReleases) (k.publish.bumpIf.setKeeper.foldl (fun _ _ h' =>
    h'.forceGolden))))

theorem State.Keeps.judgeIf {e : Epoch} (h : s₀.Keeps s) : s₀.Keeps (s.judgeIf e).s := by
  unfold State.judgeIf
  split
  · exact h
  · exact h.observes.judgeEpoch

theorem State.Keeps.verdictOf {e : Epoch} (h : s₀.Keeps s) : s₀.Keeps (s.verdictOf e) :=
  .ite (State.Keeps.giveVerdict h.keeperReads.judgeIf).takeDamage.canOrdered h.keeperReads

theorem State.Keeps.execVerdict (h : s₀.Keeps s) : s₀.Takes (execVerdict s) := by
  unfold Machine.execVerdict
  split
  · exact .ite (.next h.verdictOf) (.next h)
  · exact .next h

theorem State.Keeps.execVerdictDeadline (h : s₀.Keeps s) : s₀.Takes (execVerdictDeadline s) := by
  unfold Machine.execVerdictDeadline
  split
  · exact .ite (.next h.verdictOf) (.next h)
  · exact .next h

theorem State.Keeps.execEpochMissing (h : s₀.Keeps s) : s₀.Takes (execEpochMissing s) := by
  unfold Machine.execEpochMissing
  split
  · exact .ite (.next (State.Keeps.giveVerdict h).canOrdered) (.next h)
  · exact .next h

theorem State.Keeps.parkedRule {table : Bytes} {k : Nat} (h : s₀.Keeps s) : s₀.Keeps (s.parkedRule table k) :=
  .ite (.ite h.trigger h.bumpIf.logs) h

theorem State.Keeps.execParkedRuleEval (h : s₀.Keeps s) : s₀.Takes (execParkedRuleEval s) :=
  .ite (.next (.ite (h.setKeeper.observes.keeperReads.foldl (fun _ _ h' => h'.parkedRule)) h.setKeeper.observes.keeperReads)) (.next
    h)

theorem State.Keeps.execGardenerHeartbeat (h : s₀.Keeps s) : s₀.Takes (execGardenerHeartbeat s) := .ite (.next h.setKeeper) (.next h)

theorem State.Keeps.gardenerRestarts (h : s₀.Keeps s) : s₀.Keeps s.gardenerRestarts :=
  .ite (.ite (.trigger (.setKeeper (.logs (.ite h h.leaves.forces)))) (.setKeeper (.logs (.ite h h.leaves.forces)))) (.setKeeper
    (.bump (.ite h h.leaves.forces)))

theorem State.Keeps.execGardenerWatchdog (h : s₀.Keeps s) : s₀.Takes (execGardenerWatchdog s) := .ite (.next h.gardenerRestarts) (.next h)

end Sys2Proof.Machine
end

section
/-! The rules of State.Keeps for the operations of Machine/Lamplighter. -/

namespace Sys2Proof.Machine

variable {s₀ s : State}

theorem State.Keeps.setGolden {g : Nat} {v : Golden} (h : s₀.Keeps s) : s₀.Keeps (s.setGolden g v) := h.setKeeper

theorem State.Keeps.checkerMissed {i checker : Nat} (h : s₀.Keeps s) : s₀.Keeps (s.checkerMissed i checker) :=
  .ite (.ite h h.bump.safeTrigger) (.ite h.bump.fence (.ite h.bump.safeTrigger h))

theorem State.Keeps.inject {i : Nat} {missed : List Nat} (h : s₀.Keeps s) : s₀.Keeps (s.inject i missed) :=
  h.bumpIf.foldl (fun _ _ h' => h'.checkerMissed)

theorem State.Keeps.slotDue {g : Nat} (h : s₀.Keeps s) : s₀.Keeps (s.slotDue g) :=
  .ite h (.ite h.setGolden (.ite h.setGolden.bump h.forceGolden))

theorem State.Keeps.rotationStarts (h : s₀.Keeps s) : s₀.Keeps s.rotationStarts := h.setKeeper

theorem State.Keeps.hookLlEnable {p : Path} {x : Bytes} (h : s₀.Keeps s) : s₀.KeepsOk (hookLlEnable s p x) :=
  .ok (.ite h.setReg.rotationStarts h.setReg)

theorem State.Keeps.slotStarts {i : Nat} {missed : List Nat} (h : s₀.Keeps s) : s₀.Keeps (s.slotStarts i missed) :=
  .slotDue (.setGolden (.inject (.ite h.setKeeper.setReg h.setKeeper)))

theorem State.Keeps.execLamplighterSlot {i : Fin 32} {missed : List Nat} (h : s₀.Keeps s) : s₀.Takes (execLamplighterSlot i missed s) :=
    by
  unfold Machine.execLamplighterSlot
  exact .ite (.next h) (.ite (.next h.slotStarts) (.ite (.next h.slotDue) (.next h)))

theorem State.Keeps.goldenPassed {g : Nat} (h : s₀.Keeps s) : s₀.Keeps (s.goldenPassed g) := h.foldl (fun _ _ h' => h'.setGolden)

theorem State.Keeps.forgetArea {g : Nat} (h : s₀.Keeps s) : s₀.Keeps (s.forgetArea g) := .ite h.forgetRange h.forgetRange

theorem State.Keeps.spendStrikes {gs : List Nat} (h : s₀.Keeps s) : s₀.Keeps (s.spendStrikes gs) := h.foldl (fun _ _ h' => h'.setGaffer)

theorem State.Keeps.execGoldenSetComplete {g : Fin 32} {results : List Nat} (h : s₀.Keeps s) : s₀.Takes (execGoldenSetComplete g results
    s) := by
  unfold Machine.execGoldenSetComplete
  refine .ite (.next h) ?_
  dsimp only
  split
  · exact .next (.goldenPassed (.spendStrikes (.ite h.forgetArea h)))
  · exact .next (.fence (.bump (.setGolden (.spendStrikes (.ite h.forgetArea h)))))

theorem State.Keeps.execSetMissed {g : Fin 32} (h : s₀.Keeps s) : s₀.Takes (execSetMissed g s) := by
  unfold Machine.execSetMissed
  dsimp only
  split
  · exact .ite (.next h.bump.logs.forceGolden) (.next h)
  · exact .next h

theorem State.Keeps.execStartTestComplete {g : Fin 32} {results : List Nat} {before : State} (h : s₀.Keeps before) : s₀.Takes
    (execStartTestComplete g results before) := by
  unfold Machine.execStartTestComplete
  refine .ite (.next h) (.ite (.next (.ite h.settlesForced.spendStrikes.startTestEnds.goldenPassed
    h.settlesForced.spendStrikes.startTestEnds)) (.ite ?_ (.next h)))
  dsimp only
  split
  · exact .next h.settlesForced.spendStrikes.setKeeper.goldenPassed
  · exact .next h.settlesForced.spendStrikes.setKeeper.bump.logs.fence

theorem State.Keeps.execPreemptionPoint {l : Lane} (h : s₀.Keeps s) : s₀.Takes (execPreemptionPoint l s) := .next h.preempt

end Sys2Proof.Machine
end

section
/-! The rules of State.Keeps for the operations of Machine/Integrity. -/

namespace Sys2Proof.Machine

variable {s₀ s : State}

theorem State.Keeps.execItemCompletion {r : Fin 64} {seq : Nat} (h : s₀.Keeps s) : s₀.Takes (execItemCompletion r seq s) :=
  .next h.completeItem.policyFences.takeDamage

theorem State.Keeps.execSramPatrolScrub {array : SramArray} {addr : Nat} (h : s₀.Keeps s) : s₀.Takes (execSramPatrolScrub array addr s) :=
    by
  unfold Machine.execSramPatrolScrub
  dsimp only
  split
  · exact .next h
  · refine .ite (.next h) ?_
    split
    · exact .ite (.next (.ite h.meetSram.kvDamaged.policyFences h.meetSram.policyFences)) (.next h)
    · exact .next (.ite h.meetArray.keeperDamaged h.meetArray)

theorem State.Keeps.scrubbed (h : s₀.Keeps s) : s₀.Keeps s.scrubbed := .ite h.bump.frame h.frame

theorem State.Keeps.execDdrPatrolScrub {addr : Nat} (h : s₀.Keeps s) : s₀.Takes (execDdrPatrolScrub addr s) :=
  .ite (.next (.ite h.scrubbed.meetDdr.takeDamage h.scrubbed)) (.next h)

theorem State.Keeps.writeMark {sc v r : Nat} (h : s₀.Keeps s) : s₀.Keeps (s.writeMark sc v r) := .ite h (.ite h.setReg h.markDevice)

theorem State.Keeps.hookScMarked {sc : Nat} {p : Path} {x : Bytes} (h : s₀.Keeps s) : s₀.KeepsOk (hookScMarked sc s p x) :=
  .ite .error (.ite .error (.ok h.writeMark.writeMark))

theorem State.Keeps.execScMarkedWrite {p : Path} {sc : Fin 8} {v : Nat} (h : s₀.Keeps s) : s₀.Takes (execScMarkedWrite p sc v s) :=
  .next (h.writeObject (fun _ _ _ h' => h'.hookScMarked))

theorem State.Keeps.pageLogged {a detail : Nat} {list : List Nat} (h : s₀.Keeps s) : s₀.Keeps (s.pageLogged a detail list) := h.frame.logs

theorem State.Keeps.hookDdrRetire {p : Path} {x : Bytes} (h : s₀.Keeps s) : s₀.KeepsOk (hookDdrRetire s p x) := by
  unfold Machine.hookDdrRetire
  refine .ite (.ok h) (.ite .error (.ite .error ?_))
  split
  · exact .error
  · exact .ok h.pageLogged

theorem State.Keeps.execDdrRetire {p : Path} {v : Nat} (h : s₀.Keeps s) : s₀.Takes (execDdrRetire p v s) :=
  .next (h.writeObject (fun _ _ _ h' => h'.hookDdrRetire))

theorem State.Keeps.hookDdrUnretire {p : Path} {x : Bytes} (h : s₀.Keeps s) : s₀.KeepsOk (hookDdrUnretire s p x) :=
  .ite (.ok h.pageLogged) (.ok h)

theorem State.Keeps.execDdrUnretire {p : Path} {v : Nat} (h : s₀.Keeps s) : s₀.Takes (execDdrUnretire p v s) :=
  .next (h.writeObject (fun _ _ _ h' => h'.hookDdrUnretire))

theorem State.Keeps.hookReadSeq {p : Path} {x : Bytes} (h : s₀.Keeps s) : s₀.KeepsOk (hookReadSeq s p x) := .ok (h.frameLog id)

theorem State.Keeps.execErrLogReadSeq {p : Path} {v : Nat} (h : s₀.Keeps s) : s₀.Takes (execErrLogReadSeq p v s) :=
  .next (h.writeObject (fun _ _ _ h' => h'.hookReadSeq))

theorem State.Keeps.execErrCorrectedHoldoff (h : s₀.Keeps s) : s₀.Takes (execErrCorrectedHoldoff s) := by
  unfold Machine.execErrCorrectedHoldoff
  split
  · exact .ite (.next h) (.ite (.next { h.msix with log := h.log }) (.next (h.frameLog id)))
  · exact .next h

end Sys2Proof.Machine
end

section
/-! The rules of State.Keeps for the operations of Machine/HostLink. -/

namespace Sys2Proof.Machine

variable {s₀ s : State}

theorem State.Keeps.clearXlate (h : s₀.Keeps s) : s₀.Keeps s.clearXlate := h.setHostLink

theorem State.Keeps.aer {b : Nat} (h : s₀.Keeps s) : s₀.Keeps (s.aer b) := h.setHostLink

theorem State.Keeps.execLinkUp {rate : Fin 6} {width : Nat} (h : s₀.Keeps s) : s₀.Takes (execLinkUp rate width s) :=
  .ite (.next h) (.ite (.next ((((h.setReg.setReg.setReg.setReg.setHostLink.foldl (fun _ _ h' => h'.msix)).draw).logs).attention))
    (.next (h.setReg.setReg.setReg.setReg.setHostLink.foldl (fun _ _ h' => h'.msix))))

theorem State.Keeps.execLinkDown (h : s₀.Keeps s) : s₀.Takes (execLinkDown s) := .next h.linkDown

theorem State.Keeps.execHotReset (h : s₀.Keeps s) : s₀.Takes (execHotReset s) := .ite (.next h.linkFalls.stopAllRings.configReset) (.next h)

theorem State.Keeps.execFlr (h : s₀.Keeps s) : s₀.Takes (execFlr s) := .ite (.next h.stopAllRings.configReset.clearXlate) (.next h)

theorem State.Keeps.perstFalls (h : s₀.Keeps s) : s₀.Keeps s.perstFalls := h.linkFalls.stopAllRings.configReset.clearXlate.setHostLink

theorem State.Keeps.execPerstAssert (h : s₀.Keeps s) : s₀.Takes (execPerstAssert s) := .next h.perstFalls

theorem State.Keeps.execPerstRelease (h : s₀.Keeps s) : s₀.Takes (execPerstRelease s) := .next h.setHostLink

theorem State.Keeps.execBar2Read {off len : Nat} (h : s₀.Keeps s) : s₀.Takes (execBar2Read off len s) := by
  unfold Machine.execBar2Read
  refine .ite (.next h) (.ite (.next h.aer.emit) ?_)
  dsimp only
  split
  · exact .next (h.readMem.fst ‹_›).emit.takeDamage
  · exact .next (h.readMem.fst ‹_›).bump.emit.takeDamage
  · exact .next (.emit (.aer (.ite (h.readMem.fst ‹_›).notPresent (h.readMem.fst ‹_›))))

theorem State.Keeps.execBar2Write {off : Nat} {data : Bytes} {poisoned : Bool} (h : s₀.Keeps s) : s₀.Takes (execBar2Write off data
    poisoned s) := by
  unfold Machine.execBar2Write
  refine .ite (.next h) ?_
  dsimp only
  split
  · exact .next (.ite (.pokePoison (.fst (.writeMem (.ite h.aer h)) ‹_›)) (.fst (.writeMem (.ite h.aer h)) ‹_›))
  · exact .next (.notPresent (.fst (.writeMem (.ite h.aer h)) ‹_›))

theorem State.Keeps.execBar2Resize {sizeBits : Fin 64} (h : s₀.Keeps s) : s₀.Takes (execBar2Resize sizeBits s) :=
  .ite (.next h.setReg.setReg) (.next h)

theorem State.Keeps.hookAperture {p : Path} {x : Bytes} (h : s₀.Keeps s) : s₀.KeepsOk (hookAperture s p x) := .ite .error (.ok h.setReg)

theorem State.Keeps.setXlate {i v : Nat} (h : s₀.Keeps s) : s₀.Keeps (s.setXlate i v) := h.setHostLink

theorem State.Keeps.execXlateEntryWrite {i v : Nat} (h : s₀.Keeps s) : s₀.Takes (execXlateEntryWrite i v s) :=
  .ite (.next h.setXlate) (.next h)

theorem State.Keeps.execHostReadFail {r : Fin 64} {seq addr : Nat} (h : s₀.Keeps s) : s₀.Takes (execHostReadFail r seq addr s) := by
  unfold Machine.execHostReadFail
  refine .ite (.next h) (.ite ?_ ?_)
  · split
    · exact .ite (.next h.bump.logs.frame) (.next h)
    · exact .next h
  · split
    exact .next (h.bump.logEvent.fst ‹_›).setHostLink

theorem State.Keeps.forgetDdr (h : s₀.Keeps s) : s₀.Keeps s.forgetDdr :=
  .skipFree (.frameMem h fun w => wf_same (wf_forget 0 0x2000000000 s.freeIx w) rfl rfl)

theorem State.Keeps.execDdrRetrain {sc : Fin 8} (h : s₀.Keeps s) : s₀.Takes (execDdrRetrain sc s) := .ite (.next h.bump) (.next h)

theorem State.Keeps.restoreFails {k : Nat} (h : s₀.Keeps s) : s₀.Keeps (s.restoreFails k) := h.setPair.setDdr

theorem State.Keeps.execDdrTrainingComplete {pair : Fin 2} {passed full : Bool} (h : s₀.Keeps s) : s₀.Takes (execDdrTrainingComplete pair
    passed full s) :=
  .ite (.next h) (.ite (.next h.restoreFails) (.ite (.next h.draw.setPair.setReg.setReg) (.next h.draw.setPair.setReg.logs)))

theorem State.Keeps.hookInterleave {p : Path} {x : Bytes} (h : s₀.Keeps s) : s₀.KeepsOk (hookInterleave s p x) := by
  unfold Machine.hookInterleave
  split
  · exact .error
  · exact .ok h.setReg.forgetDdr

theorem State.Keeps.execDdrInterleaveWrite {p : Path} {v : Nat} (h : s₀.Keeps s) : s₀.Takes (execDdrInterleaveWrite p v s) :=
  .next (h.writeObject (fun _ _ _ h' => h'.hookInterleave))

theorem State.Keeps.execVddqDdrLoss (h : s₀.Keeps s) : s₀.Takes (execVddqDdrLoss s) :=
  .ite (.next h.forgetDdr.setDdr.setReg.setReg.attention.setKeeper.takeDamage) (.next h.forgetDdr.setDdr.setReg)

end Sys2Proof.Machine
end

section
/-! The rules of State.Keeps for the operations of Machine/Marver. -/

namespace Sys2Proof.Machine

variable {s₀ s : State}

theorem State.Keeps.scaledOperand {i : Item} {ag : Agent} {lo field : Nat} {write : Bool} (h : s₀.Keeps s) : s₀.Keeps (s.scaledOperand i
    ag lo field write).1 := by
  unfold State.scaledOperand
  split
  · exact h.descriptor.fst ‹_›
  · refine .ite₁ (h.descriptor.fst ‹_›) ?_
    split
    · exact (h.descriptor.fst ‹_›).descriptor.fst ‹_›
    · exact .ite₁ ((h.descriptor.fst ‹_›).descriptor.fst ‹_›) ((h.descriptor.fst ‹_›).descriptor.fst ‹_›)

theorem State.Keeps.mvElements {m n : Nat} (h : s₀.Keeps s) : s₀.Keeps (s.mvElements m n) := h.frame.bumpBy

theorem State.Keeps.mvLines {m : Nat} {fs : List Fetch} (h : s₀.Keeps s) : s₀.Keeps (s.mvLines m fs) := h.bumpBy.bumpBy

theorem State.Keeps.mvResults {m : Nat} {ws : List Written} (h : s₀.Keeps s) : s₀.Keeps (s.mvResults m ws) := h.bumpBy.bumpBy

theorem State.Keeps.poisonElem {t : Tensor} {idx : List Nat} (h : s₀.Keeps s) : s₀.Keeps (s.poisonElem t idx) := h.pokePoison

theorem State.Keeps.zeroBeyond {ag : Agent} {t : Tensor} (h : s₀.Keeps s) : s₀.Keeps (s.zeroBeyond ag t) :=
  .ite h (.ite ((h.foldl (fun _ _ h' => h'.foldl (fun _ _ h'' => .ite h'' h''.setElem))).foldl (fun _ _ h' => h'.put)) (h.foldl (fun
    _ _ h' => h'.foldl (fun _ _ h'' => .ite h'' h''.setElem))))

theorem State.Keeps.setMask {ag : Agent} {t : Tensor} {idx : List Nat} (h : s₀.Keeps s) : s₀.Keeps (s.setMask ag t idx) := by
  unfold State.setMask
  dsimp only
  exact h.put

theorem State.Keeps.maskRow {ag : Agent} {t : Tensor} {outer : List Nat} {k : Nat} {fs : List Fetch} (h : s₀.Keeps s) : s₀.Keeps
    (s.maskRow ag t outer k fs) :=
  h.foldl (fun _ _ h' => .ite h' h'.setMask)

theorem State.Keeps.writeMxRow {ag : Agent} {m : Nat} {src : Fmt} {d : Scaled} {outer : List Nat} {fs : List Fetch} {masks keep : Bool} (h
    : s₀.Keeps s) : s₀.Keeps (s.writeMxRow ag m src d outer fs masks keep) := by
  unfold State.writeMxRow
  refine h.foldl (fun _ _ h' => .mvResults (.ite (.maskRow (.ite ?_ ?_)) (.ite ?_ ?_)))
  · dsimp only
    split
    · refine .poisonElem (.foldl ?_ (fun _ _ h'' => h''.poisonElem))
      split
      · exact h'.setRun.setElem
      · exact h'.setRun
    · refine .foldl ?_ (fun _ _ h'' => h''.poisonElem)
      split
      · exact h'.setRun.setElem
      · exact h'.setRun
  · split
    · exact h'.setRun.setElem
    · exact h'.setRun
  · dsimp only
    split
    · refine .poisonElem (.foldl ?_ (fun _ _ h'' => h''.poisonElem))
      split
      · exact h'.setRun.setElem
      · exact h'.setRun
    · refine .foldl ?_ (fun _ _ h'' => h''.poisonElem)
      split
      · exact h'.setRun.setElem
      · exact h'.setRun
  · split
    · exact h'.setRun.setElem
    · exact h'.setRun

theorem State.Keeps.mvDone_write {x : MvDone} {ag : Agent} {m : Nat} {src : Fmt} {t : Tensor} {masks : Bool} {idx : List Nat} {f : Fetch}
    (h : s₀.Keeps x.s) : s₀.Keeps (x.write ag m src t masks idx f).s := by
  unfold MvDone.write
  dsimp only
  split
  · exact h
  · exact .ite (.setMask (.ite h.setElem.mvResults.poisonElem h.setElem.mvResults)) (.ite h.setElem.mvResults.poisonElem
      h.setElem.mvResults)

theorem State.Keeps.mvWrite {ag : Agent} {m : Nat} {src : Fmt} {d : Scaled} {masks keep : Bool} {fetch : List Nat → Fetch} (h : s₀.Keeps
    s) : s₀.Keeps (s.mvWrite ag m src d masks keep fetch).s := by
  unfold State.mvWrite
  dsimp only
  split
  · exact h.zeroBeyond.foldl (fun _ _ h' => h'.writeMxRow)
  · exact h.zeroBeyond.foldlOf (g := MvDone.s) (fun _ _ h' => h'.mvDone_write)

theorem State.Keeps.mvGone {i : Item} {f : Finish} (h : s₀.Keeps s) : s₀.Keeps (s.mvGone i f) := h.forgetItem.setFinish

theorem State.Keeps.touched_buffered {t : Touched} {ag : Agent} {read : List (Int × Nat)} (h : s₀.Keeps t.s) : s₀.Keeps (t.buffered ag
    read).s := by
  unfold Touched.buffered
  dsimp only
  split
  · split
    · exact h.touchArray.fst ‹_›
    · exact (h.touchArray.fst ‹_›).draw
  · exact h

theorem State.Keeps.mvReads {i : Item} {ag : Agent} {first : List (Int × Nat)} {elems : State → List (Int × Nat)} (h : s₀.Keeps s) :
    s₀.Keeps (s.mvReads i ag first elems).s := by
  unfold State.mvReads
  dsimp only
  split
  · exact h.touch
  · exact h.touch.touch.touched_buffered

theorem State.Keeps.heals {written : List (Int × Nat)} (h : s₀.Keeps s) : s₀.Keeps (s.heals written) :=
  h.frameMem fun w => wf_foldl (fun _ _ hm => wf_heal _ hm) _ w

theorem State.Keeps.mvRun {i : Item} {ag : Agent} {first masks : List (Int × Nat)} {elems writes : State → List (Int × Nat)} {run : State
    → List (Nat × Nat) → State × Nat} (h : s₀.Keeps s) (hr : ∀ s bad, s₀.Keeps s → s₀.Keeps (run s bad).1) : s₀.Keeps (s.mvRun i ag first
    elems writes masks run) := by
  unfold State.mvRun
  dsimp only
  split
  · exact h.mvReads.mvGone
  · split
    · exact (h.mvReads.landing.fst ‹_›).mvGone
    · exact (hr _ _ (h.mvReads.landing.fst ‹_›).heals).setFinish

theorem State.Keeps.checkPads {i : Item} {ag : Agent} {src dst : Tensor} (h : s₀.Keeps s) : s₀.Keeps (s.checkPads i ag src dst).1 := by
  unfold State.checkPads
  refine .ite₁ h (.ite₁ h (.ite₁ h ?_))
  split
  · exact h.checkSpans.fst ‹_›
  · exact h.checkSpans.fst ‹_›

theorem State.Keeps.checkTransform {ag : Agent} {i : Item} (h : s₀.Keeps s) : s₀.Keeps (checkTransform ag s i).1 := by
  unfold Machine.checkTransform
  dsimp only
  split
  next e1 => exact h.scaledOperand.fst e1
  next e1 =>
  have h1 := h.scaledOperand.fst e1
  split
  next e2 => exact h1.scaledOperand.fst e2
  next e2 =>
  have h2 := h1.scaledOperand.fst e2
  refine .ite₁ h2 (.ite₁ h2 (.ite₁ h2 ?_))
  split
  next e3 => exact h2.checkPads.fst e3
  next e3 =>
  have h3 := h2.checkPads.fst e3
  exact .ite₁ h3 (.ite₁ h3 h3)

theorem State.Keeps.transform {m : Nat} {ag : Agent} {i : Item} {a : TransformArgs} (h : s₀.Keeps s) : s₀.Keeps (s.transform m ag i a) :=
    by
  unfold State.transform
  exact h.mvRun (fun _ _ h' => h'.mvWrite.mvElements.mvLines.bumpBy.bumpBy)

theorem State.Keeps.execMvTransform {m : Fin 4} (h : s₀.Keeps s) : s₀.Takes (execMvTransform m s) :=
  .next (h.runItem (fun _ _ h' => h'.checkTransform) (fun _ _ _ h' => h'.transform))

theorem State.Keeps.checkIndexed {ag : Agent} {scatter : Bool} {i : Item} (h : s₀.Keeps s) : s₀.Keeps (checkIndexed ag scatter s i).1 :=
    by
  unfold Machine.checkIndexed
  dsimp only
  split
  next e1 => exact h.scaledOperand.fst e1
  next t _ e1 =>
  have h1 : s₀.Keeps t := h.scaledOperand.fst e1
  have destination : s₀.Keeps (if scatter = true then
      (match t.descriptor i ag (i.field 183 144) 3 true with
        | (t, .ok d) => ((t, .ok ⟨d, none⟩) : Checked Scaled)
        | (t, .error f) => (t, .error f))
    else t.scaledOperand i ag 144 3 true).1 := by
    refine .ite₁ ?_ h1.scaledOperand
    split
    next e => exact h1.descriptor.fst e
    next e => exact h1.descriptor.fst e
  split
  next e2 => exact destination.fst e2
  next e2 =>
  have h2 := destination.fst e2
  split
  next e3 => exact h2.descriptor.fst e3
  next e3 =>
  have h3 := h2.descriptor.fst e3
  exact .ite₁ h3 (.ite₁ h3 (.ite₁ h3 (.ite₁ h3 (.ite₁ h3 (.ite₁ h3 (.ite₁ h3 h3))))))

theorem State.Keeps.gather {m : Nat} {ag : Agent} {i : Item} {a : IndexedArgs} (h : s₀.Keeps s) : s₀.Keeps (s.gather m ag i a) := by
  unfold State.gather
  exact h.mvRun (fun _ _ h' => h'.mvWrite.mvElements.mvLines.bumpBy)

theorem State.Keeps.execMvGather {m : Fin 4} (h : s₀.Keeps s) : s₀.Takes (execMvGather m s) :=
  .next (h.runItem (fun _ _ h' => h'.checkIndexed) (fun _ _ _ h' => h'.gather))

theorem State.Keeps.scatter_apply {x : Scatter} {ag : Agent} {m comb : Nat} {src : Fmt} {t : Tensor} {idx : List Nat} {f : Fetch} (h :
    s₀.Keeps x.s) : s₀.Keeps (x.apply ag m comb src t idx f).s := by
  unfold Scatter.apply
  dsimp only
  split
  · exact h
  · exact .ite h.setElem.mvResults.poisonElem h.setElem.mvResults

theorem State.Keeps.scatter {m : Nat} {ag : Agent} {i : Item} {a : IndexedArgs} (h : s₀.Keeps s) : s₀.Keeps (s.scatter m ag i a) := by
  unfold State.scatter
  refine h.mvRun fun t bad ht => ?_
  refine State.Keeps.bumpBy (.bumpBy (.mvLines (.mvElements (State.Keeps.foldlOf (g := Scatter.s) ht.zeroBeyond fun x idx hx => ?_))))
  split
  · exact hx
  · exact hx.scatter_apply

theorem State.Keeps.execMvScatter {m : Fin 4} (h : s₀.Keeps s) : s₀.Takes (execMvScatter m s) :=
  .next (h.runItem (fun _ _ h' => h'.checkIndexed) (fun _ _ _ h' => h'.scatter))

end Sys2Proof.Machine
end

section
/-! The rules of State.Keeps for the operations of Machine/Power. -/

namespace Sys2Proof.Machine

variable {s₀ s : State}

theorem State.Keeps.setPower {v : PowerCtl} (h : s₀.Keeps s) : s₀.Keeps (s.setPower v) := h.frame

theorem State.Keeps.requestPds {want : Nat → Option PdState} (h : s₀.Keeps s) : s₀.Keeps (s.requestPds want) := by
  unfold State.requestPds
  refine h.setPower.foldl (fun _ _ h' => ?_)
  split
  · exact h'.requestPd
  · exact h'

theorem State.Keeps.hostRequests {want : Nat → Option PdState} (h : s₀.Keeps s) : s₀.KeepsOk (s.hostRequests want) := by
  unfold State.hostRequests
  dsimp only
  split
  · exact .error
  · refine .ok ((h.foldl (fun _ _ h' => ?_)).requestPds)
    split
    · exact h'.setReg
    · exact h'

theorem State.Keeps.hookPdRequest {d : Nat} {p : Path} {x : Bytes} (h : s₀.Keeps s) : s₀.KeepsOk (hookPdRequest d s p x) := h.hostRequests

theorem State.Keeps.hookDomainSet {p : Path} {x : Bytes} (h : s₀.Keeps s) : s₀.KeepsOk (hookDomainSet s p x) := .ite .error h.hostRequests

theorem State.Keeps.execPdRequest {p : Path} {one : Option (Fin 47)} {data : Bytes} (h : s₀.Keeps s) : s₀.Takes (execPdRequest p one data
    s) := by
  unfold Machine.execPdRequest
  split
  · exact .next (h.writeObject (fun _ _ _ h' => h'.hookPdRequest))
  · exact .next (h.writeObject (fun _ _ _ h' => h'.hookDomainSet))

theorem State.Keeps.wakeField {hi lo v : Nat} (h : s₀.Keeps s) : s₀.Keeps (s.wakeField hi lo v) := h.setBlob

theorem State.Keeps.recordWake {smb : Option Nat} {edge : Option Bool} (h : s₀.Keeps s) : s₀.Keeps (s.recordWake smb edge) := h.setBlob

theorem State.Keeps.hookWakeSet {p : Path} {x : Bytes} (h : s₀.Keeps s) : s₀.KeepsOk (hookWakeSet s p x) :=
  h.rangeFirst (fun _ _ _ h' => .ite .error h'.storeHook)

theorem State.Keeps.wakeDomains (h : s₀.Keeps s) : s₀.Keeps s.wakeDomains := .ite h.setPower.setPower.beginStart h.setPower.requestPds

theorem State.Keeps.cutEntry (h : s₀.Keeps s) : s₀.Keeps s.cutEntry :=
  .ite ((h.foldl (fun _ _ h' => h'.settlePd)).setPower) (((h.foldl (fun _ _ h' => h'.settlePd)).setPower).wakeDomains)

theorem State.Keeps.wakeEvent {smb : Option Nat} {edge : Option Bool} (h : s₀.Keeps s) : s₀.Keeps (s.wakeEvent smb edge) := by
  unfold State.wakeEvent
  dsimp only
  split
  · exact .ite h.recordWake.setPower h
  · exact .ite h h.recordWake.cutEntry
  · exact h.recordWake.setPower
  · exact h

theorem State.Keeps.pinActive {one : Bool} (h : s₀.Keeps s) : s₀.Keeps (s.pinActive one) :=
  .ite (.wakeEvent (.ite h.trigger h)) (.ite h.trigger h)

theorem State.Keeps.execPdTransitionComplete {d : Fin 47} (h : s₀.Keeps s) : s₀.Takes (execPdTransitionComplete d s) := by
  unfold Machine.execPdTransitionComplete
  dsimp only
  split
  · exact .ite (.next (.ite h.pdStarts h)) (.ite (.next (.wakeDomains (.pdStepDone (.ite h.pdStarts h)))) (.next (.pdStepDone (.ite
      h.pdStarts h))))
  · exact .next h

theorem State.Keeps.setLevelNow {g v : Nat} (h : s₀.Keeps s) : s₀.Keeps (s.setLevelNow g v) :=
  .setVcore (.setCapHeld (.ite h.setGaffer.setReg.setReg h.setGaffer.setReg))

theorem State.Keeps.execPowerCapTick {mW : Nat} (h : s₀.Keeps s) : s₀.Takes (execPowerCapTick mW s) := by
  unfold Machine.execPowerCapTick
  refine .ite (.next (.ite h.setPower h)) (.ite ?_ (.next (.setPower (.ite h.setPower h))))
  dsimp only
  split
  · exact .next (.setPower (.setLevelNow (.ite h.setPower h)))
  · exact .next (.bumpIf (.setPower (.ite h.setPower h)))

theorem State.Keeps.raiseLevel {g : Nat} (h : s₀.Keeps s) : s₀.Keeps (s.raiseLevel g) := .ite h.setLevelNow h.setGaffer.beginLevel

theorem State.Keeps.execPowerRaiseTick (h : s₀.Keeps s) : s₀.Takes (execPowerRaiseTick s) := by
  unfold Machine.execPowerRaiseTick
  refine .ite ?_ (.next h)
  dsimp only
  split
  · exact .next h.raiseLevel.setPower
  · exact .next h

theorem State.Keeps.hookVcoreMode {p : Path} {x : Bytes} (h : s₀.Keeps s) : s₀.KeepsOk (hookVcoreMode s p x) := .ok h.setReg.setVcore

theorem State.Keeps.noteEstimate {set_ : Bytes} (h : s₀.Keeps s) : s₀.Keeps (s.noteEstimate set_) := h.setReg.skipFree.skipFree

theorem State.Keeps.hookSleep {p : Path} {x : Bytes} (h : s₀.Keeps s) : s₀.KeepsOk (hookSleep s p x) := by
  unfold Machine.hookSleep
  dsimp only
  split
  · exact .error
  · exact .ok h.noteEstimate.setPower.requestPds

theorem State.Keeps.writeSleepSet {p : Path} {data : Bytes} (h : s₀.Keeps s) : s₀.Keeps (s.writeSleepSet p data) := by
  unfold State.writeSleepSet
  refine .ite (h.writeObject (fun _ _ _ h' => h'.hookSleep)) ?_
  dsimp only
  split
  · exact .finishWrite (.bump (.ite h h.noteEstimate)) .error
  · exact h.writeObject (fun _ _ _ h' => h'.hookSleep)

theorem State.Keeps.execPwrSleepEnter {p : Path} {data : Bytes} (h : s₀.Keeps s) : s₀.Takes (execPwrSleepEnter p data s) :=
  .next h.writeSleepSet

theorem State.Keeps.execSleepClockHandover (h : s₀.Keeps s) : s₀.Takes (execSleepClockHandover s) := .ite (.next h.setPower) (.next h)

theorem State.Keeps.execWakeDetectorArm (h : s₀.Keeps s) : s₀.Takes (execWakeDetectorArm s) :=
  .ite (.ite (.next h.setPower) (.ite (.next h.recordWake.setPower) (.next h.setPower.bump.frame))) (.next h)

theorem State.Keeps.execSmbAddressMatch {byte : Nat} (h : s₀.Keeps s) : s₀.Takes (execSmbAddressMatch byte s) :=
  .ite (.next h.wakeEvent.emit) (.next h)

theorem State.Keeps.execWakePin {pin level : Bool} (h : s₀.Keeps s) : s₀.Takes (execWakePin pin level s) :=
  .ite (.next h.frame.pinActive) (.next h.frame)

theorem State.Keeps.execSleepAlarm {a : Fin 8} (h : s₀.Keeps s) : s₀.Takes (execSleepAlarm a s) := by
  unfold Machine.execSleepAlarm
  split
  · exact .ite (.next h.wakeEvent) (.next h)
  · exact .next h

theorem State.Keeps.execWakeTry (h : s₀.Keeps s) : s₀.Takes (execWakeTry s) :=
  .ite (.next (.frame (.setPower (.wakeField (.ite h.resetFor h))))) (.next h)

theorem State.Keeps.execRegulatorReady (h : s₀.Keeps s) : s₀.Takes (execRegulatorReady s) := .ite (.next h.setPower) (.next h)

theorem State.Keeps.released (h : s₀.Keeps s) : s₀.Keeps s.released := .ite h.beginStart h

theorem State.Keeps.execPgHigh (h : s₀.Keeps s) : s₀.Takes (execPgHigh s) := .ite (.next h.frame.setPower) (.next h.frame.released)

theorem State.Keeps.execRefclkSysPresent (h : s₀.Keeps s) : s₀.Takes (execRefclkSysPresent s) :=
  .ite (.next h.frame.setPower) (.next h.frame)

theorem State.Keeps.execPlotCalibration {plot : Fin 242} (h : s₀.Keeps s) : s₀.Takes (execPlotCalibration plot s) :=
  .ite (.ite (.next h.calibrates.setPower.setReg.gatehouseStart) (.next h.calibrates.wakeDomains)) (.ite (.next h.setPower) (.next
    h))

theorem State.Keeps.execWakeTryFail {reason : Fin 6} (h : s₀.Keeps s) : s₀.Takes (execWakeTryFail reason s) :=
  .ite (.next h.wakeField.setReg.bump.setPower.frame) (.next h)

theorem State.Keeps.execWakeIgnoreExpiry (h : s₀.Keeps s) : s₀.Takes (execWakeIgnoreExpiry s) :=
  .ite (.next (.ite h.setPower.wakeEvent h.setPower)) (.next h)

theorem State.Keeps.servesNow (h : s₀.Keeps s) : s₀.Keeps s.servesNow := h.setPower.heldReports

theorem State.Keeps.execDictionaryReady {before : State} (h : s₀.Keeps before) : s₀.Takes (execDictionaryReady before) := by
  unfold Machine.execDictionaryReady
  refine .ite (.next h) ?_
  dsimp only
  split
  · exact .next h.settlesForced.startReady.servesNow
  · exact .next h.settlesForced.gatehouseReady.servesNow
  · exact .ite (.next (.ite h.settlesForced.gardenerReady h.settlesForced.frame)) (.next (.servesNow (.setPower (.ite
      h.settlesForced.gardenerReady h.settlesForced.frame))))
  · exact .next h

theorem State.Keeps.pgFalls {sram : Bool} (h : s₀.Keeps s) : s₀.Keeps (s.pgFalls sram) :=
  .ite h.frame (.ite h.frame.resetFor (.ite h.frame.retentionLost h.frame))

theorem State.Keeps.execPgSramLoss (h : s₀.Keeps s) : s₀.Takes (execPgSramLoss s) := .next h.pgFalls

theorem State.Keeps.execPgCoreFall {sram : Bool} (h : s₀.Keeps s) : s₀.Takes (execPgCoreFall sram s) := .next h.pgFalls

theorem State.Keeps.execAlwaysOnBrownOut {cause : Fin 5} (h : s₀.Keeps s) : s₀.Takes (execAlwaysOnBrownOut cause s) :=
  .ite (.next h) (.next (.released (.ite h.resetFor.setReg.setReg.setReg.frame h.resetFor.setReg.setReg)))

theorem State.Keeps.execIo33Low {good : Bool} (h : s₀.Keeps s) : s₀.Takes (execIo33Low good s) :=
  .next (.ite (.pinActive (.ite h.frame.pinActive h.frame)) (.ite h.frame.pinActive h.frame))

theorem State.Keeps.execClk32kLoss (h : s₀.Keeps s) : s₀.Takes (execClk32kLoss s) :=
  .ite (.next h.frame) (.next h.frame.setReg.setReg.bump.draw.logs)

theorem State.Keeps.execPowerOn (h : s₀.Keeps s) : s₀.Takes (execPowerOn s) := .next h.resetFor.draw.setReg.setPower.perstFalls.frame

theorem State.Keeps.execResetAssert (h : s₀.Keeps s) : s₀.Takes (execResetAssert s) := .next h.resetFor.frame

theorem State.Keeps.execResetRelease (h : s₀.Keeps s) : s₀.Takes (execResetRelease s) := .ite (.next h) (.next h.frame.released)

theorem State.Keeps.execStartWatchdog (h : s₀.Keeps s) : s₀.Takes (execStartWatchdog s) := .ite (.next h.startFails.beginStart) (.next h)

theorem State.Keeps.hookBootRestart {p : Path} {x : Bytes} (h : s₀.Keeps s) : s₀.KeepsOk (hookBootRestart s p x) :=
  h.actHook (fun _ _ h' => .ok h'.setReg.resetFor.beginStart)

theorem State.Keeps.execBootRestart {p : Path} {v : Nat} (h : s₀.Keeps s) : s₀.Takes (execBootRestart p v s) :=
  .next (h.writeObject (fun _ _ _ h' => h'.hookBootRestart))

end Sys2Proof.Machine
end

section
/-! The rules of State.Keeps for the operations of Machine/Trust. -/

namespace Sys2Proof.Machine

variable {s₀ s : State}

theorem State.Keeps.setBoot {v : Boot} (h : s₀.Keeps s) : s₀.Keeps (s.setBoot v) := h.frame

theorem State.Keeps.erasesSlot {slot : Nat} (h : s₀.Keeps s) : s₀.Keeps (s.erasesSlot slot) := h.setBoot

theorem State.Keeps.beginStage {a : Nat} (h : s₀.Keeps s) : s₀.Keeps (s.beginStage a) :=
  .ite h.setReg.setReg.setReg.readStaged.setBoot.erasesSlot h.setReg.setReg.setReg.readStaged.setBoot

theorem State.Keeps.programs {a : Nat} {bs : Bytes} (h : s₀.Keeps s) : s₀.Keeps (s.programs a bs) := h.setBoot

theorem State.Keeps.hookStage {p : Path} {x : Bytes} (h : s₀.Keeps s) : s₀.KeepsOk (hookStage s p x) := by
  unfold Machine.hookStage
  split
  · exact .error
  · exact .ok h.beginStage

theorem State.Keeps.execStageVerify {p : Path} (h : s₀.Keeps s) : s₀.Takes (execStageVerify p s) :=
  .next (h.writeObject (fun _ _ _ h' => h'.hookStage))

theorem State.Keeps.execStageProgram {p : Path} {slotB : Bool} (h : s₀.Keeps s) : s₀.Takes (execStageProgram p slotB s) :=
  .next (h.writeObject (fun _ _ _ h' => h'.hookStage))

theorem State.Keeps.execStageBoot {p : Path} (h : s₀.Keeps s) : s₀.Takes (execStageBoot p s) :=
  .next (h.writeObject (fun _ _ _ h' => h'.hookStage))

theorem State.Keeps.stageEnds {g : Staging} {state : Nat} (h : s₀.Keeps s) : s₀.Keeps (s.stageEnds g state) :=
  .ite h.setBoot.setReg.setReg h.setBoot.setReg.draw.setReg

theorem State.Keeps.stageBoots {m : BootImage} (h : s₀.Keeps s) : s₀.Keeps (s.stageBoots m) := h.acceptImage.frame

theorem State.Keeps.execStageComplete {flashGood : Bool} (h : s₀.Keeps s) : s₀.Takes (execStageComplete flashGood s) := by
  unfold Machine.execStageComplete
  dsimp only
  split
  · exact .next h
  · exact .ite (.next h.stageEnds) (.ite (.next h.stageEnds.setReg) (.ite (.next h.stageEnds.stageBoots) (.ite (.next h.stageEnds) (.ite
      (.next h.stageEnds) (.next h.programs.stageEnds)))))

theorem State.Keeps.fuse {j : FuseJob} (h : s₀.Keeps s) : s₀.KeepsOk (s.fuse j) := by
  unfold State.fuse
  dsimp only
  split
  · exact .error
  · exact .ok h.setBoot

theorem State.Keeps.hookCommitSvn {p : Path} {x : Bytes} (h : s₀.Keeps s) : s₀.KeepsOk (hookCommitSvn s p x) :=
  h.actHook (fun _ _ h' => .ite (.ok h') h'.fuse)

theorem State.Keeps.execBootCommitSvn {p : Path} {v : Nat} (h : s₀.Keeps s) : s₀.Takes (execBootCommitSvn p v s) :=
  .next (h.writeObject (fun _ _ _ h' => h'.hookCommitSvn))

theorem State.Keeps.hookLcAdvance {p : Path} {x : Bytes} (h : s₀.Keeps s) : s₀.KeepsOk (hookLcAdvance s p x) := by
  unfold Machine.hookLcAdvance
  dsimp only
  split
  · exact .ite .error h.fuse
  · exact h.fuse
  · exact h.fuse
  · exact .error

theorem State.Keeps.execLcAdvance {p : Path} {v : Nat} (h : s₀.Keeps s) : s₀.Takes (execLcAdvance p v s) :=
  .next (h.writeObject (fun _ _ _ h' => h'.hookLcAdvance))

theorem State.Keeps.hookKeyRevoke {p : Path} {x : Bytes} (h : s₀.Keeps s) : s₀.KeepsOk (hookKeyRevoke s p x) := .ite .error h.fuse

theorem State.Keeps.execLcKeyRevoke {p : Path} {v : Nat} (h : s₀.Keeps s) : s₀.Takes (execLcKeyRevoke p v s) :=
  .next (h.writeObject (fun _ _ _ h' => h'.hookKeyRevoke))

theorem State.Keeps.hookProvision {j : Bytes → FuseJob} {p : Path} {x : Bytes} (h : s₀.Keeps s) : s₀.KeepsOk (hookProvision j s p x) :=
  .ite .error h.fuse

theorem State.Keeps.execLcKeyHashWrite {p : Path} {what : Fin 6} {data : Bytes} (h : s₀.Keeps s) : s₀.Takes (execLcKeyHashWrite p what
    data s) :=
  .ite (.next (h.writeObject (fun _ _ _ h' => h'.hookProvision))) (.ite (.next (h.writeObject (fun _ _ _ h' => h'.hookProvision)))
    (.next (h.writeObject (fun _ _ _ h' => h'.hookProvision))))

theorem State.Keeps.execFuseCommandComplete {readBackGood : Bool} (h : s₀.Keeps s) : s₀.Takes (execFuseCommandComplete readBackGood s) :=
    by
  unfold Machine.execFuseCommandComplete
  dsimp only
  split
  · exact .next h
  · exact .next h.skipFree.setBoot.setReg

theorem State.Keeps.execIo18Low (h : s₀.Keeps s) : s₀.Takes (execIo18Low s) := by
  unfold Machine.execIo18Low
  dsimp only
  split
  · refine .next ?_
    split
    · exact .ite h.setReg.stageEnds h.setReg
    · exact h.setReg
  · refine .next (.setReg (.setBoot (.skipFree ?_)))
    split
    · exact .ite h.setReg.stageEnds h.setReg
    · exact h.setReg

theorem State.Keeps.execIo18Restored (h : s₀.Keeps s) : s₀.Takes (execIo18Restored s) := .next h.setReg.frame.released

theorem State.Keeps.hookToken {p : Path} {x : Bytes} (h : s₀.Keeps s) : s₀.KeepsOk (hookToken s p x) :=
  .ite .error (.ite .error (.ite .error (.ite .error (.ok h.setBoot.setReg))))

theorem State.Keeps.writeToken {p : Path} {data : Bytes} (h : s₀.Keeps s) : s₀.Keeps (s.writeToken p data) := by
  unfold State.writeToken
  refine .ite ?_ (h.writeObject (fun _ _ _ h' => h'.hookToken))
  split
  · exact (h.writeObject (fun _ _ _ h' => h'.hookToken)).newChallenge
  · exact h.writeObject (fun _ _ _ h' => h'.hookToken)

theorem State.Keeps.execDbgToken {p : Path} {data : Bytes} (h : s₀.Keeps s) : s₀.Takes (execDbgToken p data s) := .next h.writeToken

theorem State.Keeps.hookDrive {lo len : State → Nat → Nat} {r : Reg} {p : Path} {x : Bytes} (h : s₀.Keeps s) : s₀.KeepsOk (hookDrive lo
    len r s p x) := by
  unfold Machine.hookDrive
  refine .ite .error (.ite .error (.ite .error ?_))
  split
  · exact .error
  · split
    · exact .error
    · exact .ite .error (.ok h.setReg)

theorem State.Keeps.hookDrBase {p : Path} {x : Bytes} (h : s₀.Keeps s) : s₀.KeepsOk (hookDrBase s p x) := h.hookDrive

theorem State.Keeps.hookDrSize {p : Path} {x : Bytes} (h : s₀.Keeps s) : s₀.KeepsOk (hookDrSize s p x) := h.hookDrive

theorem State.Keeps.hookWork {lo len : State → Nat → Nat} {r : Reg} {p : Path} {x : Bytes} (h : s₀.Keeps s) : s₀.KeepsOk (hookWork lo len
    r s p x) := by
  unfold Machine.hookWork
  refine .ite .error (.ite .error (.ite .error ?_))
  split
  · exact .error
  · split
    · exact .error
    · exact .ok h.setReg

theorem State.Keeps.hookDwBase {p : Path} {x : Bytes} (h : s₀.Keeps s) : s₀.KeepsOk (hookDwBase s p x) := h.hookWork

theorem State.Keeps.hookDwSize {p : Path} {x : Bytes} (h : s₀.Keeps s) : s₀.KeepsOk (hookDwSize s p x) := h.hookWork

theorem State.Keeps.hookSeal {p : Path} {x : Bytes} (h : s₀.Keeps s) : s₀.KeepsOk (hookSeal s p x) :=
  h.actHook (fun _ _ h' => .ite .error (.ite .error (.ite .error (.ok (.ite h' h'.frame)))))

theorem State.Keeps.execDrSeal {p : Path} {v : Nat} (h : s₀.Keeps s) : s₀.Takes (execDrSeal p v s) :=
  .next (h.writeObject (fun _ _ _ h' => h'.hookSeal))

theorem State.Keeps.execDrSealComplete (h : s₀.Keeps s) : s₀.Takes (execDrSealComplete s) := by
  unfold Machine.execDrSealComplete
  generalize s.driveLo = lo
  generalize s.driveLen = len
  refine .ite (.next h) ?_
  split
  · exact .next (h.readMem.fst ‹_›).setBlob.setReg.frame
  · exact .next (h.readMem.fst ‹_›).frame.takeDamage
  · exact .next (h.readMem.fst ‹_›)

theorem State.Keeps.hookUnseal {p : Path} {x : Bytes} (h : s₀.Keeps s) : s₀.KeepsOk (hookUnseal s p x) :=
  h.actHook (fun _ _ h' => .ite .error (.ok h'.frame.setBlob))

theorem State.Keeps.execDrUnseal {p : Path} {v : Nat} (h : s₀.Keeps s) : s₀.Takes (execDrUnseal p v s) :=
  .next (h.writeObject (fun _ _ _ h' => h'.hookUnseal))

theorem State.Keeps.hookNonce {p : Path} {x : Bytes} (h : s₀.Keeps s) : s₀.KeepsOk (hookNonce s p x) := .ok h.setBlob.setShift

end Sys2Proof.Machine
end

section
/-! The rules of State.Keeps for the operations of Machine/Pins. -/

namespace Sys2Proof.Machine

variable {s₀ s : State}

theorem State.Keeps.setPins {v : Pins} (h : s₀.Keeps s) : s₀.Keeps (s.setPins v) := h.frame

theorem State.Keeps.hookTpinFunc {t : Nat} {p : Path} {x : Bytes} (h : s₀.Keeps s) : s₀.KeepsOk (hookTpinFunc t s p x) :=
  h.ownedHook (fun _ _ _ h' => .ok h'.tpinChange)

theorem State.Keeps.execTpinFuncWrite {p : Path} {t : Fin 4} {v : Nat} (h : s₀.Keeps s) : s₀.Takes (execTpinFuncWrite p t v s) :=
  .next (h.writeObject (fun _ _ _ h' => h'.hookTpinFunc))

theorem State.Keeps.hookObsSelect {m : Nat} {p : Path} {x : Bytes} (h : s₀.Keeps s) : s₀.KeepsOk (hookObsSelect m s p x) :=
  h.rangeFirst (fun _ _ _ h' => h'.ownedHook (fun _ _ _ h'' => h''.regHook))

theorem State.Keeps.execObsSelectWrite {p : Path} {m : Fin 2} {v : Nat} (h : s₀.Keeps s) : s₀.Takes (execObsSelectWrite p m v s) :=
  .next (h.writeObject (fun _ _ _ h' => h'.hookObsSelect))

theorem State.Keeps.tapTakes {j : Jtag} (h : s₀.Keeps s) : s₀.Keeps (s.tapTakes j) := .ite h.setPins h

theorem State.Keeps.tapLocked {j : Jtag} (h : s₀.Keeps s) : s₀.Keeps (s.tapLocked j) := h.tapTakes

theorem State.Keeps.execBypass {code : Fin 256} (h : s₀.Keeps s) : s₀.Takes (execBypass code s) := by
  unfold Machine.execBypass
  split
  · exact .next h.tapTakes
  · exact .next h.tapLocked
  · exact .next h

theorem State.Keeps.execIdcode (h : s₀.Keeps s) : s₀.Takes (execIdcode s) := .next (.ite h.tapTakes.emit h)

theorem State.Keeps.execExtest (h : s₀.Keeps s) : s₀.Takes (execExtest s) := .next h.tapLocked

theorem State.Keeps.execClamp (h : s₀.Keeps s) : s₀.Takes (execClamp s) := .next h.tapLocked

theorem State.Keeps.execHighz (h : s₀.Keeps s) : s₀.Takes (execHighz s) := .next h.tapLocked

theorem State.Keeps.execSamplePreload {data : List Bool} (h : s₀.Keeps s) : s₀.Takes (execSamplePreload data s) :=
  .ite (.next h.tapTakes.emit.setPins) (.next h)

theorem State.Keeps.execTapReset (h : s₀.Keeps s) : s₀.Takes (execTapReset s) := .next h.setPins

end Sys2Proof.Machine
end

section
/-! The rules of State.Keeps for the operations of Machine/Scanner. -/

namespace Sys2Proof.Machine

variable {s₀ s : State}

theorem State.Keeps.hookTemplate {t : Nat} {p : Path} {x : Bytes} (h : s₀.Keeps s) : s₀.KeepsOk (hookTemplate t s p x) :=
  .ite .error (.ok h.setBlob.setReg)

theorem State.Keeps.execTemplateWrite {p : Path} {t : Fin 8} {data : Bytes} (h : s₀.Keeps s) : s₀.Takes (execTemplateWrite p t data s) :=
    by
  unfold Machine.execTemplateWrite
  exact .next (h.writeObject (fun _ _ _ h' => h'.hookTemplate))

theorem State.Keeps.scanItem {q tplNo ref arrival seq : Nat} {payloadTime : Bool} {place : Nat} {g : Segment} (h : s₀.Keeps s) : s₀.Keeps
    (s.scanItem q tplNo ref arrival seq payloadTime place g) :=
  .fillAny (.ite₁ h.followItem h.startItem)

theorem State.Keeps.scanPacket {q arrival : Nat} {payload : Bytes} (h : s₀.Keeps s) : s₀.Keeps (s.scanPacket q arrival payload) :=
  .ite h.bump (h.setIngest.frame.foldl (fun _ _ h' => h'.scanItem))

theorem State.Keeps.hostReceive {p arrival : Nat} {f : Bytes} (h : s₀.Keeps s) : s₀.Keeps (s.hostReceive p arrival f) :=
  .ite h.bump (.ite h h.wholeItem)

theorem State.Keeps.execEthFrameReceived {port : Fin 4} {fcsGood : Bool} {fine : Fin 16} {frame : Bytes} (h : s₀.Keeps s) : s₀.Takes
    (execEthFrameReceived port fcsGood fine frame s) := by
  unfold Machine.execEthFrameReceived
  refine .ite (.next h) (.ite (.next h.bump) (.ite (.next h) (.ite (.next h.bump) (.ite (.next h.bump) ?_))))
  split
  · exact .ite (.next h.bump) (.ite (.next h) (.next h.scanPacket))
  · exact .next h.hostReceive

end Sys2Proof.Machine
end

section
/-! The rules of State.Keeps for the operations of Machine/Objects. -/

namespace Sys2Proof.Machine

variable {s₀ s : State}

theorem State.Keeps.pergolaIn {index sub : Nat} {ok : State → Nat → Bool} {p : Path} {x : Bytes} (h : s₀.Keeps s) : s₀.KeepsOk (pergolaIn
    index sub ok s p x) :=
  h.rangeFirst (fun _ _ _ h' => h'.hookPergola (fun _ _ _ h'' => h''.storeHook))

theorem State.Keeps.hookIfSelect {p : Path} {x : Bytes} (h : s₀.Keeps s) : s₀.KeepsOk (hookIfSelect s p x) := by
  unfold Machine.hookIfSelect
  dsimp only
  split
  · exact .error
  · exact .ite .error (.ok h.setBlob)

theorem State.Keeps.hookAttention {p : Path} {x : Bytes} (h : s₀.Keeps s) : s₀.KeepsOk (hookAttention s p x) := .ok h.setReg

theorem State.Keeps.hookCanBase {p : Path} {x : Bytes} (h : s₀.Keeps s) : s₀.KeepsOk (hookCanBase s p x) :=
  h.rangeFirst (fun _ _ _ h' => h'.regHook)

theorem State.Keeps.hookExportList {p : Path} {x : Bytes} (h : s₀.Keeps s) : s₀.KeepsOk (hookExportList s p x) := .ok h.setBlob

/-- Every rule of an object of its own keeps the state. -/
theorem hookRows_keeps : ∀ e ∈ hookRows, ∀ k s p x, s₀.Keeps s → s₀.KeepsOk (e.2 k s p x) := by
  unfold hookRows
  simp only [List.forall_mem_cons]
  exact ⟨fun _ _ _ _ h => h.hookActiveDomain, fun _ _ _ _ h => h.hookForceSwitch, fun _ _ _ _ h => h.hookTdSource,
    fun _ _ _ _ h => h.hookGptpDomain, fun _ _ _ _ h => h.hookPdelayInterval, fun _ _ _ _ h => h.hookAlarmSeries,
    fun _ _ _ _ h => h.hookAlarmSeries, fun _ _ _ _ h => h.hookAlarmArm, fun _ _ _ _ h => h.hookTrigSeries,
    fun _ _ _ _ h => h.rangeFirst fun _ _ _ h => h.hookTrigSeries, fun _ _ _ _ h => h.hookTrigWidth, fun _ _ _ _ h => h.hookTrigSeries,
    fun _ _ _ _ h => h.hookTrigEnable, fun _ _ _ _ h => h.hookPpsEnable, fun _ _ _ _ h => h.hookLqFlush,
    fun _ _ _ _ h => h.hookIngestEnable, fun _ _ _ _ h => h.hookIngestGeometry, fun _ _ _ _ h => h.hookIngestGeometry,
    fun _ _ _ _ h => h.hookIngestGeometry, fun _ _ _ _ h => h.hookStreamFlush, fun _ _ _ _ h => h.hookCamDt,
    fun _ _ _ _ h => h.hookIngestEnable, fun _ _ _ _ h => h.hookIngestGeometry, fun _ _ _ _ h => h.hookIngestGeometry,
    fun _ _ _ _ h => h.hookEthTxFlush, fun _ _ _ _ h => h.hookTemplate, fun _ _ _ _ h => h.hookSlicing, fun _ _ _ _ h => h.hookPgSeed,
    fun _ _ _ _ h => h.pergolaIn, fun _ _ _ _ h => h.pergolaIn, fun _ _ _ _ h => h.pergolaIn, fun _ _ _ _ h => h.pergolaIn,
    fun _ _ _ _ h => h.pergolaIn, fun _ _ _ _ h => h.hookPoseSource, fun _ _ _ _ h => h.hookSlicing, fun _ _ _ _ h => h.hookSlicing,
    fun _ _ _ _ h => h.hookGafferFence, fun _ _ _ _ h => h.hookChairFormed, fun _ _ _ _ h => h.hookGafferLevel,
    fun _ _ _ _ h => h.hookSrSeed, fun _ _ _ _ h => h.hookL2, fun _ _ _ _ h => h.hookL2, fun _ _ _ _ h => h.hookExportList,
    fun _ _ _ _ h => h.hookKpArmed, fun _ _ _ _ h => h.hookLlEnable, fun _ _ _ _ h => h.rangeFirst fun _ _ _ h => h.regHook,
    fun _ _ _ _ h => h.rangeFirst fun _ _ _ h => h.regHook, fun _ _ _ _ h => h.hookForceSafe, fun _ _ _ _ h => h.hookSafeClear,
    fun _ _ _ _ h => h.hookRules, fun _ _ _ _ h => h.hookRules, fun _ _ _ _ h => h.hookReadSeq, fun _ _ _ _ h => h.hookDdrRetire,
    fun _ _ _ _ h => h.hookDdrUnretire, fun _ _ _ _ h => h.hookScMarked, fun _ _ _ _ h => h.hookAperture,
    fun _ _ _ _ h => h.hookRingTarget, fun _ _ _ _ h => h.hookRingFlush, fun _ _ _ _ h => h.hookRingEnable,
    fun _ _ _ _ h => h.heldHook fun _ _ _ h => h.regHook, fun _ _ _ _ h => h.powerHook,
    fun _ _ _ _ h => h.heldHook fun _ _ _ h => h.regHook, fun _ _ _ _ h => h.hookIqEnable, fun _ _ _ _ h => h.hookIqConfig,
    fun _ _ _ _ h => h.hookIqConfig, fun _ _ _ _ h => h.hookIqConfig, fun _ _ _ _ h => h.hookIqFlush, fun _ _ _ _ h => h.hookCqEnable,
    fun _ _ _ _ h => h.heldHook fun _ _ _ h => h.regHook, fun _ _ _ _ h => h.powerHook, fun _ _ _ _ h => h.hookInterleave,
    fun _ _ _ _ h => h.hookIfSelect, fun _ _ _ _ h => h.hookAttention, fun _ _ _ _ h => h.hookCanBase, fun _ _ _ _ h => h.hookVcoreMode,
    fun _ _ _ _ h => h.hookDomainSet, fun _ _ _ _ h => h.hookSleep, fun _ _ _ _ h => h.hookWakeSet, fun _ _ _ _ h => h.hookPdRequest,
    fun _ _ _ _ h => h.hookBootRestart, fun _ _ _ _ h => h.hookCommitSvn, fun _ _ _ _ h => h.hookStage, fun _ _ _ _ h => h.hookLcAdvance,
    fun _ _ _ _ h => h.hookProvision, fun _ _ _ _ h => h.hookProvision, fun _ _ _ _ h => h.hookProvision,
    fun _ _ _ _ h => h.hookProvision, fun _ _ _ _ h => h.hookKeyRevoke, fun _ _ _ _ h => h.hookProvision,
    fun _ _ _ _ h => h.hookProvision, fun _ _ _ _ h => h.hookToken, fun _ _ _ _ h => h.hookDrBase, fun _ _ _ _ h => h.hookDrSize,
    fun _ _ _ _ h => h.hookSeal, fun _ _ _ _ h => h.hookUnseal, fun _ _ _ _ h => h.hookDwBase, fun _ _ _ _ h => h.hookDwSize,
    fun _ _ _ _ h => h.hookLeaseCmd, fun _ _ _ _ h => h.hookNonce, fun _ _ _ _ h => h.hookLeasePreempt, fun _ _ _ _ h => h.hookTpinFunc,
    fun _ _ _ _ h => h.hookObsSelect, nofun⟩

theorem State.Keeps.familyHook {o : Obj} {index sub : Nat} {p : Path} {x : Bytes} (h : s₀.Keeps s) : s₀.KeepsOk (familyHook o index sub s
    p x) := by
  unfold Machine.familyHook
  split
  · cases e : Machine.hookPoolObject (index - 0x2610) sub with
    | none => exact h.storeHook (p := p)
    | some hook => exact State.Keeps.hookPoolObject e h
  · split
    · exact h.hookPergola fun _ _ _ h => h.storeHook
    · split
      · exact h.storeHook
      · split
        · exact h.hookStreamConfig fun _ _ _ h => h.storeHook
        · split
          · split
            · exact h.hookOwner
            · exact h.ownedHook fun _ _ _ h => h.storeHook
          · exact h.storeHook

theorem State.Keeps.writeHook {index sub : Nat} {p : Path} {x : Bytes} (h : s₀.Keeps s) : s₀.KeepsOk (writeHook index sub s p x) := by
  unfold Machine.writeHook
  cases findObj index sub with
  | none => exact h.storeHook
  | some r =>
    obtain ⟨o, k⟩ := r
    dsimp only
    cases e : hookRows.find? (fun e => decide (e.1 = o.index * 256 + o.sub)) with
    | none => exact h.familyHook
    | some r => exact hookRows_keeps r (List.mem_of_find?_eq_some e) _ _ _ _ h

theorem State.Keeps.writeAny {p : Path} {index sub : Nat} {data : Bytes} (h : s₀.Keeps s) : s₀.Keeps (s.writeAny p index sub data) :=
  .ite h.writeSleepSet (.ite h.writeToken (h.writeObject (fun _ _ _ h' => h'.writeHook)))

theorem State.Keeps.commitWrite {p : Path} {index sub : Nat} {data : Bytes} (h : s₀.Keeps s) : s₀.Keeps (s.commitWrite p index sub data).1
    := by
  unfold State.commitWrite
  dsimp only
  split
  · exact h.writeAny.frame
  · exact h.writeAny.frame
  · exact h.writeAny

theorem State.Keeps.execDictWrite {p : Path} {index sub : Nat} {data : Bytes} (h : s₀.Keeps s) : s₀.Takes (execDictWrite p index sub data
    s) :=
  .next h.writeAny

theorem State.Keeps.execOwnerWrite {p : Path} {index v : Nat} (h : s₀.Keeps s) : s₀.Takes (execOwnerWrite p index v s) := .next h.writeAny

theorem State.Keeps.execIfSelectWrite {p : Path} {data : Bytes} (h : s₀.Keeps s) : s₀.Takes (execIfSelectWrite p data s) :=
  .next (h.writeObject (fun _ _ _ h' => h'.hookIfSelect))

theorem State.Keeps.execDevAttentionClear {p : Path} {v : Nat} (h : s₀.Keeps s) : s₀.Takes (execDevAttentionClear p v s) :=
  .next (h.writeObject (fun _ _ _ h' => h'.hookAttention))

end Sys2Proof.Machine
end

section
/-! The rules of State.Keeps for the operations of Machine/Promenade. -/

namespace Sys2Proof.Machine

variable {s₀ s : State}

theorem State.Keeps.copyRefused {k o n : Nat} (h : s₀.Keeps s) : s₀.Keeps (s.copyRefused k o n) := .ite h.bump.logs h.bump.logs.setStop

theorem State.Keeps.copyPoisoned {k o : Nat} (h : s₀.Keeps s) : s₀.Keeps (s.copyPoisoned k o) := by
  unfold State.copyPoisoned
  dsimp only
  split
  · exact h.setStop.bump.logs.setGaffer
  · exact h.setStop.bump.logs

theorem State.Keeps.linkCopies {k o before : Nat} {c : Copies} (h : s₀.Keeps s) : s₀.Keeps (s.linkCopies k o before c).1 := by
  have refused := h.foldl (l := List.range (c.count - before)) (f := fun s i => s.copyRefused k o (before + i + 1)) fun _ _ h =>
    h.copyRefused
  unfold State.linkCopies
  dsimp only
  generalize List.foldl _ s _ = t at refused ⊢
  cases e : (if 0 < c.count then (if h : k < 48 then t.touchArray (.retry ⟨k, h⟩) else (t, none)) else (t, none) : State × Option Nat)
    with
  | mk u bad =>
  have hu : s₀.Keeps u := by
    refine State.Keeps.fst (.ite₁ ?_ refused) e
    split
    · exact refused.touchArray
    · exact refused
  dsimp only
  split
  · exact hu.copyPoisoned
  · exact hu

theorem State.Keeps.linkPersistent {k o : Nat} (h : s₀.Keeps s) : s₀.Keeps (s.linkPersistent k o) := by
  unfold State.linkPersistent
  refine .ite ?_ h
  dsimp only
  split
  · exact h.setStop.setGaffer
  · exact h.setStop.logs

theorem State.Keeps.arrive {k inp : Nat} {p : Packet} (h : s₀.Keeps s) : s₀.Keeps (s.arrive k inp p) := by
  unfold State.arrive
  dsimp only
  split
  · exact h.setStop
  · exact h.setStop

theorem State.Keeps.execPromenadePacket {stop : Fin 48} {port : Port} {copies : List Nat} {pkt : Packet} {transfer : Fin 4} (h : s₀.Keeps
    s) : s₀.Takes (execPromenadePacket stop port copies pkt transfer s) := by
  unfold Machine.execPromenadePacket
  dsimp only
  split
  · refine .ite (.next h) (.next (.ite (.policyFences ?_) ?_))
    · split
      · exact h.linkCopies.linkPersistent.setStop
      · exact h.linkCopies.linkPersistent.setStop.arrive
      · exact h.linkCopies.linkPersistent.setStop.arrive
    · split
      · exact h.linkCopies.linkPersistent.setStop
      · exact h.linkCopies.linkPersistent.setStop.arrive
      · exact h.linkCopies.linkPersistent.setStop.arrive
  · exact .next h

theorem State.Keeps.post {k : Nat} {p : Packet} (h : s₀.Keeps s) : s₀.Keeps (s.post k p) := h.setStop

theorem State.Keeps.failCause {p : Packet} (h : s₀.Keeps s) : s₀.Keeps (s.failCause p) := by
  unfold State.failCause
  split
  · split
    · exact .ite h.setFinish h
    · exact h
  · exact h

theorem State.Keeps.poisonCause {p : Packet} (h : s₀.Keeps s) : s₀.Keeps (s.poisonCause p) := by
  unfold State.poisonCause
  split
  · split
    · exact .ite h.setFinish h
    · exact h
  · exact h

theorem State.Keeps.deliverRsp {k : Nat} {p : Packet} (h : s₀.Keeps s) : s₀.Keeps (s.deliverRsp k p) :=
  .emit (.ite h.failCause (.ite h h.poisonCause))

theorem State.Keeps.answerAbsent {k : Nat} {p : Packet} (h : s₀.Keeps s) : s₀.Keeps (s.answerAbsent k p) := h.post

theorem State.Keeps.takeAccess {k : Nat} {p : Packet} (h : s₀.Keeps s) : s₀.Keeps (s.takeAccess k p) := by
  unfold State.takeAccess
  dsimp only
  split
  · exact h.notPresent.answerAbsent
  · refine .ite h.notPresent.answerAbsent (.ite ?_ ?_)
    · split
      · split
        · exact (h.readMem.fst ‹_›).post.emit
        · exact (h.readMem.fst ‹_›).answerAbsent
      · exact h.notPresent.answerAbsent
    · split
      · exact ((h.writeMem.foldl (fun _ _ h' => h'.pokePoison)).post).emit
      · exact h.notPresent.answerAbsent

theorem State.Keeps.deliver {k : Nat} {p : Packet} (h : s₀.Keeps s) : s₀.Keeps (s.deliver k p) := by
  unfold State.deliver
  refine .ite h.deliverRsp (.ite h.logAbsent.answerAbsent ?_)
  split
  · split
    · exact h.signalSem.post.emit
    · exact h.notPresent.answerAbsent
  · exact h.emit
  · exact h.takeAccess

theorem State.Keeps.moves {k o : Nat} {hd : Held} (h : s₀.Keeps s) : s₀.Keeps (s.moves k o hd) := by
  unfold State.moves
  dsimp only
  split
  · exact h.setStop.arrive
  · exact .ite h.setStop.deliver h.setStop

theorem State.Keeps.issues {k : Nat} (h : s₀.Keeps s) : s₀.Keeps (s.issues k) := by
  unfold State.issues
  dsimp only
  split
  · exact h
  · exact .ite h.setStop.arrive h

theorem State.Keeps.promenadeTick (h : s₀.Keeps s) : s₀.Keeps s.promenadeTick :=
  .ite h ((h.frame.foldl (fun _ _ h' => h'.moves)).foldl (fun _ _ h' => h'.issues))

end Sys2Proof.Machine
end

section
/-! The rules of State.Keeps for the operations of Machine/Access. -/

namespace Sys2Proof.Machine

variable {s₀ s : State}

theorem State.Keeps.setPaths {v : Paths} (h : s₀.Keeps s) : s₀.Keeps (s.setPaths v) := h.frame

theorem State.Keeps.directWrite {off : Nat} {data : Bytes} (h : s₀.Keeps s) : s₀.Keeps (s.directWrite off data) := by
  unfold State.directWrite
  dsimp only
  split
  · exact h
  · exact h.writeAny
  · exact .ite h (.ite h.setPaths (.writeAny (.setPaths (.ite h h.skipFree))))

theorem State.Keeps.directRead {off size : Nat} (h : s₀.Keeps s) : s₀.Keeps (s.directRead off size).1 := .ite₁ (.ite h.setPaths h) h

theorem State.Keeps.setChannel {k : Nat} {c : Channel} (h : s₀.Keeps s) : s₀.Keeps (s.setChannel k c) := h.setPaths

theorem State.Keeps.channelEnds {k : Nat} {c : Channel} {st detail : Nat} (h : s₀.Keeps s) : s₀.Keeps (s.channelEnds k c st detail) :=
  h.setChannel.msix

theorem State.Keeps.channelControl {k index sub op length : Nat} (h : s₀.Keeps s) : s₀.Keeps (s.channelControl k index sub op length) :=
    by
  unfold State.channelControl
  exact .ite (.ite h.channelEnds h.bump) (.ite h.setChannel (.ite h.setChannel (.ite h.setChannel h.skipFree.skipFree.setChannel)))

theorem State.Keeps.execChannelRead {k : Fin 4} {index sub : Nat} (h : s₀.Keeps s) : s₀.Takes (execChannelRead k index sub s) :=
  .next (.ite h.channelControl h)

theorem State.Keeps.execChannelWrite {k : Fin 4} {index sub : Nat} {data : Bytes} (h : s₀.Keeps s) : s₀.Takes (execChannelWrite k index
    sub data s) :=
  .ite (.next h) (.next (.channelControl (.ite h h.setChannel)))

theorem State.Keeps.execChannelAbort {k : Fin 4} (h : s₀.Keeps s) : s₀.Takes (execChannelAbort k s) := .next (.ite h.channelControl h)

theorem State.Keeps.execChannelComplete {k : Fin 4} (h : s₀.Keeps s) : s₀.Takes (execChannelComplete k s) := by
  unfold Machine.execChannelComplete
  refine .ite (.next h) ?_
  split
  · exact .next h.channelEnds
  · exact .next h.commitWrite.channelEnds

theorem State.Keeps.barHole (h : s₀.Keeps s) : s₀.Keeps s.barHole := h.bump

theorem State.Keeps.channelWritten {k o : Nat} {data : Bytes} (h : s₀.Keeps s) : s₀.Keeps (s.channelWritten k o data) :=
  .ite (.ite h.channelControl h.bump) (.ite h.bump (.ite h.setChannel (.ite h h.barHole)))

theorem State.Keeps.channelRead {k o size : Nat} (h : s₀.Keeps s) : s₀.Keeps (s.channelRead k o size).1 := .ite₁ h (.ite₁ h h.barHole)

theorem State.Keeps.setMsixWord {w v : Nat} (h : s₀.Keeps s) : s₀.Keeps (s.setMsixWord w v) :=
  .ite h.setHostLink (.ite h.unmask h.setHostLink)

theorem State.Keeps.setDoorbellWord {w v : Nat} (h : s₀.Keeps s) : s₀.Keeps (s.setDoorbellWord w v) := .ite h.sqTail (.ite h.cqHeadTo h)

theorem State.Keeps.eachWord {off : Nat} {data : Bytes} {f : State → Nat → Nat → State} (h : s₀.Keeps s) (hf : ∀ s k v, s₀.Keeps s →
    s₀.Keeps (f s k v)) : s₀.Keeps (s.eachWord off data f) :=
  h.foldl fun _ _ h => hf _ _ _ h

theorem State.Keeps.barWrite {off : Nat} {data : Bytes} (h : s₀.Keeps s) : s₀.Keeps (s.barWrite off data) :=
  .ite h.barHole (.ite (.ite h.directWrite h) (.ite (.ite h.channelWritten h) (.ite (h.eachWord (fun _ _ _ h' =>
    h'.setDoorbellWord)) (.ite (h.eachWord (fun _ _ _ h' => h'.setMsixWord)) (.ite h (.ite h.setXlate h.barHole))))))

theorem State.Keeps.barRead {off size : Nat} (h : s₀.Keeps s) : s₀.Keeps (s.barRead off size).1 :=
  .ite₁ h.barHole (.ite₁ (.ite₁ h.directRead h) (.ite₁ (.ite₁ h.channelRead h) (.ite₁ h (.ite₁ h (.ite₁ h (.ite₁ h h.barHole))))))

theorem State.Keeps.execDirectMapWrite {off : Nat} {data : Bytes} (h : s₀.Keeps s) : s₀.Takes (execDirectMapWrite off data s) :=
  .ite (.next h.barWrite) (.next h)

theorem State.Keeps.execDirectMapRead {off size : Nat} (h : s₀.Keeps s) : s₀.Takes (execDirectMapRead off size s) :=
  .ite (.next h.barRead.emit) (.next h)

theorem State.Keeps.setCan {safety : Bool} {c : CanChannel} (h : s₀.Keeps s) : s₀.Keeps (s.setCan safety c) := h.setPaths

theorem State.Keeps.canAnswer {safety : Bool} {base : Nat} {q : CanRequest} {status total : Nat} {data : Bytes} (h : s₀.Keeps s) :
    s₀.Keeps (s.canAnswer safety base q status total data) :=
  .ite h.setReg.sendSafety.setReg (.ite h.emit h)

theorem State.Keeps.canCommit {safety : Bool} {q : CanRequest} {data : Bytes} (h : s₀.Keeps s) : s₀.Keeps (s.canCommit safety q data) :=
    by
  unfold State.canCommit
  exact h.setCan.commitWrite.canAnswer

theorem State.Keeps.canReads {safety : Bool} {q : CanRequest} (h : s₀.Keeps s) : s₀.Keeps (s.canReads safety q) := by
  unfold State.canReads
  refine .ite ?_ ?_
  · dsimp only
    split
    · exact h.setCan.canAnswer
    · exact h.setCan.canAnswer
  · split
    · exact h.canAnswer
    · exact .ite h.setCan.canAnswer h.setCan.canAnswer
    · exact h.setCan.canAnswer

theorem State.Keeps.canWrites {safety : Bool} {q : CanRequest} (h : s₀.Keeps s) : s₀.Keeps (s.canWrites safety q) := by
  unfold State.canWrites
  refine .ite ?_ ?_
  · dsimp only
    split
    · exact h.setCan.canAnswer
    · exact .ite h.setCan.canAnswer (.ite h.canCommit h.setCan.canAnswer)
  · dsimp only
    split
    · exact .ite (.ite h.canCommit h.setCan.canAnswer) h.setCan.canAnswer
    · exact h.setCan.canAnswer

theorem State.Keeps.canAborts {safety : Bool} {q : CanRequest} (h : s₀.Keeps s) : s₀.Keeps (s.canAborts safety q) := h.setCan.canAnswer

theorem State.Keeps.canRequest {safety : Bool} {frame : CanFrame} {op : Nat} {effect : State → Bool → CanRequest → State} (h : s₀.Keeps s)
    (he : ∀ s b q, s₀.Keeps s → s₀.Keeps (effect s b q)) : s₀.Keeps (s.canRequest safety frame op effect) := by
  unfold State.canRequest
  refine .ite h (.ite h.bump (.ite h ?_))
  dsimp only
  split
  · exact h.bump.canAnswer
  · exact .ite (.canAnswer (.ite h.setPaths h)) (.ite (.canAnswer (.skipFree (.ite h.setPaths h))) (he _ _ _ (.ite h.setPaths
      h)).canOrdered)

theorem State.Keeps.execCanRead {safety : Bool} {frame : CanFrame} (h : s₀.Keeps s) : s₀.Takes (execCanRead safety frame s) :=
  .next (h.canRequest (fun _ _ _ h' => h'.canReads))

theorem State.Keeps.execCanWrite {safety : Bool} {frame : CanFrame} (h : s₀.Keeps s) : s₀.Takes (execCanWrite safety frame s) :=
  .next (h.canRequest (fun _ _ _ h' => h'.canWrites))

theorem State.Keeps.execCanAbort {safety : Bool} {frame : CanFrame} (h : s₀.Keeps s) : s₀.Takes (execCanAbort safety frame s) :=
  .next (h.canRequest (fun _ _ _ h' => h'.canAborts))

theorem State.Keeps.execCanTransferTimeout {safety : Bool} (h : s₀.Keeps s) : s₀.Takes (execCanTransferTimeout safety s) :=
  .ite (.next h) (.next h.setCan)

theorem State.Keeps.setSmbus {v : Smbus} (h : s₀.Keeps s) : s₀.Keeps (s.setSmbus v) := h.setPaths

theorem State.Keeps.smbAnswer {code : Nat} {bs : Bytes} (h : s₀.Keeps s) : s₀.Keeps (s.smbAnswer code bs) := h.emit

theorem State.Keeps.smbus {pecGood : Bool} {effect : State → State} (h : s₀.Keeps s) (he : ∀ s, s₀.Keeps s → s₀.Keeps (effect s)) :
    s₀.Keeps (s.smbus pecGood effect) :=
  .ite h (.ite h.emit (.ite h.bump (he _ h)))

theorem State.Keeps.smbCode {code mine : Nat} {pecGood : Bool} {effect : State → State} (h : s₀.Keeps s) (he : ∀ s, s₀.Keeps s → s₀.Keeps
    (effect s)) : s₀.Keeps (s.smbCode code mine pecGood effect) :=
  .ite (h.smbus he) (.ite h (h.smbus fun _ h => h.emit))

theorem State.Keeps.execSmbSelect {code : Fin 256} {pecGood : Bool} {data : Bytes} (h : s₀.Keeps s) : s₀.Takes (execSmbSelect code pecGood
    data s) :=
  .next (h.smbCode (fun _ h' => .ite h'.emit h'.setSmbus))

theorem State.Keeps.execSmbRead {code : Fin 256} (h : s₀.Keeps s) : s₀.Takes (execSmbRead code s) := by
  unfold Machine.execSmbRead
  refine .next (h.smbCode (fun _ h' => ?_))
  dsimp only
  split
  · exact h'.smbAnswer
  · split
    · exact h'.smbAnswer
    · split
      · exact h'.smbAnswer
      · exact h'.setSmbus.smbAnswer

theorem State.Keeps.execSmbWrite {pecGood : Bool} {data : Bytes} (h : s₀.Keeps s) : s₀.Takes (execSmbWrite pecGood data s) :=
  .next (h.smbus (fun _ h' => .ite h'.emit (.ite h'.setSmbus h'.setSmbus)))

theorem State.Keeps.execSmbCommit {pecGood : Bool} (h : s₀.Keeps s) : s₀.Takes (execSmbCommit pecGood s) := by
  unfold Machine.execSmbCommit
  refine .next (h.smbus (fun _ h' => ?_))
  dsimp only
  split
  · exact h'.setSmbus
  · exact h'.commitWrite.setSmbus

theorem State.Keeps.execSmbResult (h : s₀.Keeps s) : s₀.Takes (execSmbResult s) := .next (h.smbus (fun _ h' => h'.smbAnswer))

theorem State.Keeps.execSmbAbort {pecGood : Bool} (h : s₀.Keeps s) : s₀.Takes (execSmbAbort pecGood s) :=
  .next (h.smbus (fun _ h' => h'.setSmbus))

theorem State.Keeps.execSmbTimeout (h : s₀.Keeps s) : s₀.Takes (execSmbTimeout s) := .next (h.smbus (fun _ h' => h'.bump))

end Sys2Proof.Machine
end

section
/-! The rules of State.Keeps for the operations of Machine/Dispatch. -/

namespace Sys2Proof.Machine

variable {s₀ s : State}

theorem State.Keeps.exec {i : Instr} (h : s₀.Keeps s) : s₀.Takes (exec i s) := by
  unfold Machine.exec
  split
  · exact h.execDictWrite
  · exact h.execPlotCalibration
  · exact h.execPromenadePacket
  · exact h.execLeaseStart
  · exact h.execDriveWorkDrained
  · exact h.execLeaseScrubComplete
  · exact h.execPreemptionTrigger
  · exact h.execLeaseWorkDrained
  · exact h.execExportEntryDone
  · exact h.execExportBudgetExpiry
  · exact h.execDriveShiftRelease
  · exact h.execQuarantineLift
  · exact h.execLeaseClose
  · exact h.execLeaseCloseDrained
  · exact h.execLeasePreemptCmd
  · exact h.execTimeMessage
  · exact h.execTapMessage
  · exact h.execTapSilence
  · exact h.execDelayLineRecalibration
  · exact h.execSyncReceived
  · exact h.execFollowUpReceived
  · exact h.execAnnounceReceived
  · exact h.execSignalingReceived
  · exact h.execPdelayReqTimer
  · exact h.execPdelayReqReceived
  · exact h.execPdelayRespReceived
  · exact h.execSyncReceiptTimeout
  · exact h.execTdSourceWrite
  · exact h.execTimeActiveDomainWrite
  · exact h.execTimeForceSwitch
  · exact h.execSlewComplete
  · exact h.execSteppedExpiry
  · exact h.execAlarmFire
  · exact h.execAlarmArm
  · exact h.execTriggerPulse
  · exact h.execTriggerPulseEnd
  · exact h.execPpsOutPulse
  · exact h.execPpsOutPulseEnd
  · exact h.execPpsInEdge
  · exact h.execLaunchRelease
  · exact h.execLqFlush
  · exact h.execSleepCorrWindow
  · exact h.execTimeSave
  · exact h.execTimeReconstruct
  · exact h.execOwnerWrite
  · exact h.execCsiFrameStart
  · exact h.execCsiLine
  · exact h.execCsiLineStart
  · exact h.execCsiLineEnd
  · exact h.execCsiFrameEnd
  · exact h.execCsiGenericShort
  · exact h.execCsiFrameTimeout
  · exact h.execItemVisible
  · exact h.execEthFrameReceived
  · exact h.execEthLinkChange
  · exact h.execEthFrameSent
  · exact h.execEthTxFlush
  · exact h.execDrdyEdge
  · exact h.execImuReadComplete
  · exact h.execCanFrameReceived
  · exact h.execStreamEnable
  · exact h.execStreamFlush
  · exact h.execTemplateWrite
  · exact h.execPoseTick
  · exact h.execPoseSourceWrite
  · exact h.execPgPosePush
  · exact h.execPgBin
  · exact h.execEpochClose
  · exact h.execPgBinComplete
  · exact h.execPgNeighbours
  · exact h.execPgBev
  · exact h.execPgLabels
  · exact h.execPgSeedWrite
  · exact h.execSqTailWrite
  · exact h.execCqHeadWrite
  · exact h.execItemDispatch
  · exact h.execLaneSelect
  · exact h.execPreemptionPoint
  · exact h.execItemCompletion
  · exact h.execCqCoalesceTimeout
  · exact h.execMsixUnmask
  · exact h.execNop
  · exact h.execBarrier
  · exact h.execSemSignal
  · exact h.execSemWait
  · exact h.execSemWaitReoffer
  · exact h.execWaitTimeout
  · exact h.execCopy
  · exact h.execFill
  · exact h.execQueuePush
  · exact h.execQueuePop
  · exact h.execMatmul
  · exact h.execVector
  · exact h.execVectorTimeout
  · exact h.execVEnd
  · exact h.execVLd
  · exact h.execVSt
  · exact h.execVLdb
  · exact h.execVPadd
  · exact h.execVMovi
  · exact h.execVAdd
  · exact h.execVSub
  · exact h.execVMul
  · exact h.execVFma
  · exact h.execVMin
  · exact h.execVMax
  · exact h.execVClt
  · exact h.execVSel
  · exact h.execVCvti
  · exact h.execVCvtf
  · exact h.execVExp
  · exact h.execVRcp
  · exact h.execVRsq
  · exact h.execVRsum
  · exact h.execVRmax
  · exact h.execVLoop
  · exact h.execReduce
  · exact h.execRingFlush
  · exact h.execRingFlushDiscard
  · exact h.execRingEnable
  · exact h.execCqEnable
  · exact h.execIqFlush
  · exact h.execIqEnable
  · exact h.execChairFormedWrite
  · exact h.execChairChangeComplete
  · exact h.execGafferLevelWrite
  · exact h.execLevelChangeComplete
  · exact h.execSrSeedWrite
  · exact h.execGafferFenceSet
  · exact h.execFencePowerOff
  · exact h.execGafferFenceClear
  · exact h.execStartTestComplete
  · exact h.execMvTransform
  · exact h.execMvGather
  · exact h.execMvScatter
  · exact h.execKvAppend
  · exact h.execKvOpen
  · exact h.execKvAlloc
  · exact h.execKvTruncate
  · exact h.execKvClose
  · exact h.execKvRead
  · exact h.execKvpEnable
  · exact h.execAttPrefill
  · exact h.execAttDecode
  · exact h.execAttMerge
  · exact h.execArbLookup
  · exact h.execArbInsert
  · exact h.execUnpin
  · exact h.execReopen
  · exact h.execKvSwapOut
  · exact h.execKvSwapIn
  · exact h.execKpDeclare
  · exact h.execVerdict
  · exact h.execVerdictDeadline
  · exact h.execEpochMissing
  · exact h.execKpArmedWrite
  · exact h.execKpForceSafe
  · exact h.execKpSafeClear
  · exact h.execRulesWrite
  · exact h.execLockstepMismatch
  · exact h.execKeeperClockLoss
  · exact h.execKeeperWatchdog
  · exact h.execKeeperStartComplete
  · exact h.execRestartReady
  · exact h.execHeartbeatToggle
  · exact h.execParkedRuleEval
  · exact h.execGardenerHeartbeat
  · exact h.execGardenerWatchdog
  · exact h.execLamplighterSlot
  · exact h.execGoldenSetComplete
  · exact h.execSetMissed
  · exact h.execSramPatrolScrub
  · exact h.execDdrPatrolScrub
  · exact h.execScMarkedWrite
  · exact h.execDdrRetire
  · exact h.execDdrUnretire
  · exact h.execErrLogReadSeq
  · exact h.execErrCorrectedHoldoff
  · exact h.execBar2Read
  · exact h.execBar2Write
  · exact h.execBar2Resize
  · exact h.execXlateEntryWrite
  · exact h.execHostReadFail
  · exact h.execLinkUp
  · exact h.execLinkDown
  · exact h.execHotReset
  · exact h.execFlr
  · exact h.execPerstAssert
  · exact h.execDdrRetrain
  · exact h.execDdrTrainingComplete
  · exact h.execDdrInterleaveWrite
  · exact h.execDirectMapWrite
  · exact h.execDirectMapRead
  · exact h.execChannelRead
  · exact h.execChannelWrite
  · exact h.execChannelAbort
  · exact h.execChannelComplete
  · exact h.execCanRead
  · exact h.execCanWrite
  · exact h.execCanAbort
  · exact h.execCanTransferTimeout
  · exact h.execSmbSelect
  · exact h.execSmbRead
  · exact h.execSmbWrite
  · exact h.execSmbCommit
  · exact h.execSmbResult
  · exact h.execSmbAbort
  · exact h.execSmbTimeout
  · exact h.execIfSelectWrite
  · exact h.execDevAttentionClear
  · exact h.execPdRequest
  · exact h.execPdTransitionComplete
  · exact h.execPowerCapTick
  · exact h.execPowerRaiseTick
  · exact h.execPwrSleepEnter
  · exact h.execSleepClockHandover
  · exact h.execWakeDetectorArm
  · exact h.execSmbAddressMatch
  · exact h.execWakePin
  · exact h.execSleepAlarm
  · exact h.execWakeTry
  · exact h.execWakeTryFail
  · exact h.execDictionaryReady
  · exact h.execAlwaysOnBrownOut
  · exact h.execIo18Low
  · exact h.execIo18Restored
  · exact h.execIo33Low
  · exact h.execPgSramLoss
  · exact h.execPgCoreFall
  · exact h.execClk32kLoss
  · exact h.execPowerOn
  · exact h.execResetAssert
  · exact h.execResetRelease
  · exact h.execStartWatchdog
  · exact h.execBootRestart
  · exact h.execStageVerify
  · exact h.execStageProgram
  · exact h.execStageBoot
  · exact h.execStageComplete
  · exact h.execBootCommitSvn
  · exact h.execLcAdvance
  · exact h.execLcKeyRevoke
  · exact h.execLcKeyHashWrite
  · exact h.execFuseCommandComplete
  · exact h.execDbgToken
  · exact h.execDrSeal
  · exact h.execDrSealComplete
  · exact h.execDrUnseal
  · exact h.execTpinFuncWrite
  · exact h.execObsSelectWrite
  · exact h.execBypass
  · exact h.execIdcode
  · exact h.execSamplePreload
  · exact h.execExtest
  · exact h.execClamp
  · exact h.execHighz
  · exact h.execCanErrorFrame
  · exact h.execCanBusOffEntry
  · exact h.execBusOffRecovery
  · exact h.execDeskewCalibration
  · exact h.execVddqDdrLoss
  · exact h.execPerstRelease
  · exact h.execRegulatorReady
  · exact h.execPgHigh
  · exact h.execRefclkSysPresent
  · exact h.execWakeIgnoreExpiry
  · exact h.execTapReset

end Sys2Proof.Machine
end

section
/-! What every command and every tick keeps, and the statements about steps. -/

namespace Sys2Proof.Machine

/-- Every command is taken, in no time, and keeps what every step keeps. -/
theorem exec_takes (c : Instr) (s : State) : s.Takes (exec c s) := by
  have h := State.Keeps.refl s
  cases c with
  | dictWrite => exact h.execDictWrite
  | plotCalibration => exact h.execPlotCalibration
  | promenadePacket => exact h.execPromenadePacket
  | leaseStart => exact h.execLeaseStart
  | driveWorkDrained => exact h.execDriveWorkDrained
  | leaseScrubComplete => exact h.execLeaseScrubComplete
  | preemptionTrigger => exact h.execPreemptionTrigger
  | leaseWorkDrained => exact h.execLeaseWorkDrained
  | exportEntryDone => exact h.execExportEntryDone
  | exportBudgetExpiry => exact h.execExportBudgetExpiry
  | driveShiftRelease => exact h.execDriveShiftRelease
  | quarantineLift => exact h.execQuarantineLift
  | leaseClose => exact h.execLeaseClose
  | leaseCloseDrained => exact h.execLeaseCloseDrained
  | leasePreemptCmd => exact h.execLeasePreemptCmd
  | timeMessage => exact h.execTimeMessage
  | tapMessage => exact h.execTapMessage
  | tapSilence => exact h.execTapSilence
  | delayLineRecalibration => exact h.execDelayLineRecalibration
  | syncReceived => exact h.execSyncReceived
  | followUpReceived => exact h.execFollowUpReceived
  | announceReceived => exact h.execAnnounceReceived
  | signalingReceived port => exact h.execSignalingReceived (port := port)
  | pdelayReqTimer => exact h.execPdelayReqTimer
  | pdelayReqReceived => exact h.execPdelayReqReceived
  | pdelayRespReceived => exact h.execPdelayRespReceived
  | syncReceiptTimeout => exact h.execSyncReceiptTimeout
  | tdSourceWrite => exact h.execTdSourceWrite
  | timeActiveDomainWrite => exact h.execTimeActiveDomainWrite
  | timeForceSwitch => exact h.execTimeForceSwitch
  | slewComplete => exact h.execSlewComplete
  | steppedExpiry => exact h.execSteppedExpiry
  | alarmFire => exact h.execAlarmFire
  | alarmArm => exact h.execAlarmArm
  | triggerPulse => exact h.execTriggerPulse
  | triggerPulseEnd => exact h.execTriggerPulseEnd
  | ppsOutPulse => exact h.execPpsOutPulse
  | ppsOutPulseEnd => exact h.execPpsOutPulseEnd
  | ppsInEdge => exact h.execPpsInEdge
  | launchRelease => exact h.execLaunchRelease
  | lqFlush => exact h.execLqFlush
  | sleepCorrWindow => exact h.execSleepCorrWindow
  | timeSave => exact h.execTimeSave
  | timeReconstruct => exact h.execTimeReconstruct
  | ownerWrite => exact h.execOwnerWrite
  | csiFrameStart => exact h.execCsiFrameStart
  | csiLine => exact h.execCsiLine
  | csiLineStart => exact h.execCsiLineStart
  | csiLineEnd => exact h.execCsiLineEnd
  | csiFrameEnd _ _ _ frame _ => exact h.execCsiFrameEnd (frame := frame)
  | csiGenericShort => exact h.execCsiGenericShort
  | csiFrameTimeout => exact h.execCsiFrameTimeout
  | itemVisible => exact h.execItemVisible
  | ethFrameReceived => exact h.execEthFrameReceived
  | ethLinkChange => exact h.execEthLinkChange
  | ethFrameSent => exact h.execEthFrameSent
  | ethTxFlush => exact h.execEthTxFlush
  | drdyEdge => exact h.execDrdyEdge
  | imuReadComplete => exact h.execImuReadComplete
  | canFrameReceived => exact h.execCanFrameReceived
  | streamEnable => exact h.execStreamEnable
  | streamFlush => exact h.execStreamFlush
  | templateWrite => exact h.execTemplateWrite
  | poseTick => exact h.execPoseTick
  | poseSourceWrite => exact h.execPoseSourceWrite
  | pgPosePush => exact h.execPgPosePush
  | pgBin => exact h.execPgBin
  | epochClose => exact h.execEpochClose
  | pgBinComplete => exact h.execPgBinComplete
  | pgNeighbours => exact h.execPgNeighbours
  | pgBev => exact h.execPgBev
  | pgLabels => exact h.execPgLabels
  | pgSeedWrite => exact h.execPgSeedWrite
  | sqTailWrite => exact h.execSqTailWrite
  | cqHeadWrite => exact h.execCqHeadWrite
  | itemDispatch => exact h.execItemDispatch
  | laneSelect => exact h.execLaneSelect
  | preemptionPoint => exact h.execPreemptionPoint
  | itemCompletion => exact h.execItemCompletion
  | cqCoalesceTimeout => exact h.execCqCoalesceTimeout
  | msixUnmask => exact h.execMsixUnmask
  | nop => exact h.execNop
  | barrier => exact h.execBarrier
  | semSignal => exact h.execSemSignal
  | semWait => exact h.execSemWait
  | semWaitReoffer => exact h.execSemWaitReoffer
  | waitTimeout => exact h.execWaitTimeout
  | copy => exact h.execCopy
  | fill => exact h.execFill
  | queuePush => exact h.execQueuePush
  | queuePop => exact h.execQueuePop
  | matmul => exact h.execMatmul
  | vector => exact h.execVector
  | vectorTimeout => exact h.execVectorTimeout
  | vEnd => exact h.execVEnd
  | vLd => exact h.execVLd
  | vSt => exact h.execVSt
  | vLdb => exact h.execVLdb
  | vPadd => exact h.execVPadd
  | vMovi => exact h.execVMovi
  | vAdd => exact h.execVAdd
  | vSub => exact h.execVSub
  | vMul => exact h.execVMul
  | vFma => exact h.execVFma
  | vMin => exact h.execVMin
  | vMax => exact h.execVMax
  | vClt => exact h.execVClt
  | vSel => exact h.execVSel
  | vCvti => exact h.execVCvti
  | vCvtf => exact h.execVCvtf
  | vExp => exact h.execVExp
  | vRcp => exact h.execVRcp
  | vRsq => exact h.execVRsq
  | vRsum => exact h.execVRsum
  | vRmax => exact h.execVRmax
  | vLoop => exact h.execVLoop
  | reduce => exact h.execReduce
  | ringFlush => exact h.execRingFlush
  | ringFlushDiscard => exact h.execRingFlushDiscard
  | ringEnable => exact h.execRingEnable
  | cqEnable => exact h.execCqEnable
  | iqFlush => exact h.execIqFlush
  | iqEnable => exact h.execIqEnable
  | chairFormedWrite => exact h.execChairFormedWrite
  | chairChangeComplete => exact h.execChairChangeComplete
  | gafferLevelWrite => exact h.execGafferLevelWrite
  | levelChangeComplete => exact h.execLevelChangeComplete
  | srSeedWrite => exact h.execSrSeedWrite
  | gafferFenceSet => exact h.execGafferFenceSet
  | fencePowerOff => exact h.execFencePowerOff
  | gafferFenceClear => exact h.execGafferFenceClear
  | startTestComplete => exact h.execStartTestComplete
  | mvTransform => exact h.execMvTransform
  | mvGather => exact h.execMvGather
  | mvScatter => exact h.execMvScatter
  | kvAppend => exact h.execKvAppend
  | kvOpen => exact h.execKvOpen
  | kvAlloc => exact h.execKvAlloc
  | kvTruncate => exact h.execKvTruncate
  | kvClose => exact h.execKvClose
  | kvRead => exact h.execKvRead
  | kvpEnable => exact h.execKvpEnable
  | attPrefill => exact h.execAttPrefill
  | attDecode => exact h.execAttDecode
  | attMerge => exact h.execAttMerge
  | arbLookup => exact h.execArbLookup
  | arbInsert => exact h.execArbInsert
  | unpin => exact h.execUnpin
  | reopen => exact h.execReopen
  | kvSwapOut => exact h.execKvSwapOut
  | kvSwapIn => exact h.execKvSwapIn
  | kpDeclare => exact h.execKpDeclare
  | verdict => exact h.execVerdict
  | verdictDeadline => exact h.execVerdictDeadline
  | epochMissing => exact h.execEpochMissing
  | kpArmedWrite => exact h.execKpArmedWrite
  | kpForceSafe => exact h.execKpForceSafe
  | kpSafeClear => exact h.execKpSafeClear
  | rulesWrite => exact h.execRulesWrite
  | lockstepMismatch => exact h.execLockstepMismatch
  | keeperClockLoss => exact h.execKeeperClockLoss
  | keeperWatchdog => exact h.execKeeperWatchdog
  | keeperStartComplete => exact h.execKeeperStartComplete
  | restartReady => exact h.execRestartReady
  | heartbeatToggle => exact h.execHeartbeatToggle
  | parkedRuleEval => exact h.execParkedRuleEval
  | gardenerHeartbeat => exact h.execGardenerHeartbeat
  | gardenerWatchdog => exact h.execGardenerWatchdog
  | lamplighterSlot => exact h.execLamplighterSlot
  | goldenSetComplete => exact h.execGoldenSetComplete
  | setMissed => exact h.execSetMissed
  | sramPatrolScrub => exact h.execSramPatrolScrub
  | ddrPatrolScrub => exact h.execDdrPatrolScrub
  | scMarkedWrite => exact h.execScMarkedWrite
  | ddrRetire => exact h.execDdrRetire
  | ddrUnretire => exact h.execDdrUnretire
  | errLogReadSeq => exact h.execErrLogReadSeq
  | errCorrectedHoldoff => exact h.execErrCorrectedHoldoff
  | bar2Read => exact h.execBar2Read
  | bar2Write => exact h.execBar2Write
  | bar2Resize => exact h.execBar2Resize
  | xlateEntryWrite => exact h.execXlateEntryWrite
  | hostReadFail => exact h.execHostReadFail
  | linkUp => exact h.execLinkUp
  | linkDown => exact h.execLinkDown
  | hotReset => exact h.execHotReset
  | flr => exact h.execFlr
  | perstAssert => exact h.execPerstAssert
  | ddrRetrain => exact h.execDdrRetrain
  | ddrTrainingComplete => exact h.execDdrTrainingComplete
  | ddrInterleaveWrite => exact h.execDdrInterleaveWrite
  | directMapWrite => exact h.execDirectMapWrite
  | directMapRead => exact h.execDirectMapRead
  | channelRead => exact h.execChannelRead
  | channelWrite => exact h.execChannelWrite
  | channelAbort => exact h.execChannelAbort
  | channelComplete => exact h.execChannelComplete
  | canRead => exact h.execCanRead
  | canWrite => exact h.execCanWrite
  | canAbort => exact h.execCanAbort
  | canTransferTimeout => exact h.execCanTransferTimeout
  | smbSelect => exact h.execSmbSelect
  | smbRead => exact h.execSmbRead
  | smbWrite => exact h.execSmbWrite
  | smbCommit => exact h.execSmbCommit
  | smbResult => exact h.execSmbResult
  | smbAbort => exact h.execSmbAbort
  | smbTimeout => exact h.execSmbTimeout
  | ifSelectWrite => exact h.execIfSelectWrite
  | devAttentionClear => exact h.execDevAttentionClear
  | pdRequest => exact h.execPdRequest
  | pdTransitionComplete => exact h.execPdTransitionComplete
  | powerCapTick => exact h.execPowerCapTick
  | powerRaiseTick => exact h.execPowerRaiseTick
  | pwrSleepEnter => exact h.execPwrSleepEnter
  | sleepClockHandover => exact h.execSleepClockHandover
  | wakeDetectorArm => exact h.execWakeDetectorArm
  | smbAddressMatch => exact h.execSmbAddressMatch
  | wakePin => exact h.execWakePin
  | sleepAlarm => exact h.execSleepAlarm
  | wakeTry => exact h.execWakeTry
  | wakeTryFail => exact h.execWakeTryFail
  | dictionaryReady => exact h.execDictionaryReady
  | alwaysOnBrownOut => exact h.execAlwaysOnBrownOut
  | io18Low => exact h.execIo18Low
  | io18Restored => exact h.execIo18Restored
  | io33Low => exact h.execIo33Low
  | pgSramLoss => exact h.execPgSramLoss
  | pgCoreFall => exact h.execPgCoreFall
  | clk32kLoss => exact h.execClk32kLoss
  | powerOn => exact h.execPowerOn
  | resetAssert => exact h.execResetAssert
  | resetRelease => exact h.execResetRelease
  | startWatchdog => exact h.execStartWatchdog
  | bootRestart => exact h.execBootRestart
  | stageVerify => exact h.execStageVerify
  | stageProgram => exact h.execStageProgram
  | stageBoot => exact h.execStageBoot
  | stageComplete => exact h.execStageComplete
  | bootCommitSvn => exact h.execBootCommitSvn
  | lcAdvance => exact h.execLcAdvance
  | lcKeyRevoke => exact h.execLcKeyRevoke
  | lcKeyHashWrite => exact h.execLcKeyHashWrite
  | fuseCommandComplete => exact h.execFuseCommandComplete
  | dbgToken => exact h.execDbgToken
  | drSeal => exact h.execDrSeal
  | drSealComplete => exact h.execDrSealComplete
  | drUnseal => exact h.execDrUnseal
  | tpinFuncWrite => exact h.execTpinFuncWrite
  | obsSelectWrite => exact h.execObsSelectWrite
  | bypass => exact h.execBypass
  | idcode => exact h.execIdcode
  | samplePreload => exact h.execSamplePreload
  | extest => exact h.execExtest
  | clamp => exact h.execClamp
  | highz => exact h.execHighz
  | canErrorFrame => exact h.execCanErrorFrame
  | canBusOffEntry => exact h.execCanBusOffEntry
  | busOffRecovery => exact h.execBusOffRecovery
  | deskewCalibration => exact h.execDeskewCalibration
  | vddqDdrLoss => exact h.execVddqDdrLoss
  | perstRelease => exact h.execPerstRelease
  | regulatorReady => exact h.execRegulatorReady
  | pgHigh => exact h.execPgHigh
  | refclkSysPresent => exact h.execRefclkSysPresent
  | wakeIgnoreExpiry => exact h.execWakeIgnoreExpiry
  | tapReset => exact h.execTapReset

/-- The end of a tick is 2 ns later (log 3). -/
def State.ticked (s : State) : State := { s with now := s.now + 2 }

theorem State.Keeps.tick {s : State} : s.ticked.Keeps s.tick := by
  unfold State.tick
  split
  · exact ⟨rfl, rfl, id, id, id⟩
  · exact ⟨rfl, rfl, id, id, id⟩

theorem State.Keeps.idle (s : State) : s.promenadeTick.ticked.Keeps s.idle := State.Keeps.tick.macTick.startsPds.takeDamage

theorem step_of_pending {s : State} {c : Instr} {rest : List Instr} (h : s.pending = c :: rest) :
    step s = exec c { s with pending := rest } := by
  rw [step, h]

theorem step_of_idle {s : State} (h : s.pending = []) : step s = .next s.idle := by
  rw [step, h]

theorem State.Keeps.sound {s t : State} (h : s.Keeps t) (hs : s.sound = true) : t.sound = true := by
  simp only [State.sound, Bool.and_eq_true, decide_eq_true_eq] at hs ⊢
  obtain ⟨⟨hmem, hhost⟩, hlog⟩ := hs
  exact ⟨⟨h.mem hmem, h.hostMem hhost⟩, h.log hlog⟩

/-- Settles O1. -/
theorem stepTakesTheFrontCommand : Obligations.StepTakesTheFrontCommand :=
  ⟨fun _ _ _ => step_of_pending, fun _ => step_of_idle⟩

/-- Settles O3. -/
theorem resetIsSound : Obligations.ResetIsSound := by
  unfold Obligations.ResetIsSound
  decide

/-- Settles O5: every arm of exec answers with a next state. -/
theorem everyCommandIsTaken : Obligations.EveryCommandIsTaken := by
  intro c s
  obtain ⟨t, e, -⟩ := exec_takes c s
  exact ⟨t, e⟩

/-- Settles O6: a command keeps the rest of the queue and the time, and the tick is 2 ns. -/
theorem stepsKeepTheQueueAndTheTime : Obligations.StepsKeepTheQueueAndTheTime := by
  constructor
  · intro c rest s t hp e
    obtain ⟨t', e', kept⟩ := exec_takes c { s with pending := rest }
    rw [step_of_pending hp, e'] at e
    obtain rfl := Host.Outcome.next.inj e
    exact ⟨kept.pending, kept.now⟩
  · intro s t hp e
    rw [step_of_idle hp] at e
    obtain rfl := Host.Outcome.next.inj e
    have before := (State.Keeps.refl s).promenadeTick
    exact ⟨((State.Keeps.idle s).pending.trans before.pending).trans hp,
      (State.Keeps.idle s).now.trans (congrArg (· + 2) before.now)⟩

/-- Settles O4: each command, and each part of a tick, keeps both memories' form and the log's bound. -/
theorem stepsKeepSoundness : Obligations.StepsKeepSoundness := by
  intro s t hs e
  cases hp : s.pending with
  | nil =>
    rw [step_of_idle hp] at e
    obtain rfl := Host.Outcome.next.inj e
    have ticked : s.promenadeTick.ticked.sound = true := (State.Keeps.refl s).promenadeTick.sound hs
    exact (State.Keeps.idle s).sound ticked
  | cons c rest =>
    obtain ⟨t', e', kept⟩ := exec_takes c { s with pending := rest }
    rw [step_of_pending hp, e'] at e
    obtain rfl := Host.Outcome.next.inj e
    exact kept.sound hs

end Sys2Proof.Machine
end

section
/-! R5, R25, R400: the counters, the sealed drive region and the DDR5 interleave. -/

namespace Sys2Proof.Machine

/-! ### Counters -/

theorem satAdd_one (m x : Nat) : satAdd m x 1 = min m (x + 1) := rfl

/-- Settles O8. -/
theorem countersSaturate : Obligations.CountersSaturate :=
  ⟨fun s r => (reg_bump_same s r).trans (satAdd_one ..), fun _ _ _ => reg_bump_ne _, fun _ _ => rfl⟩

/-! ### An access that is answered OK is answered OK at every probe -/

theorem answers_ok {f : Nat → Answer} {l : List Nat} {r : Answer} (h : l.foldl (fun r p => if r = .ok then f p else r) r = .ok) :
    r = .ok ∧ ∀ p ∈ l, f p = .ok := by
  induction l generalizing r with
  | nil => exact ⟨h, nofun⟩
  | cons p l ih =>
    obtain ⟨hp, hl⟩ := ih h
    dsimp only at hp
    split at hp
    · exact ⟨‹_›, List.forall_mem_cons.2 ⟨hp, hl⟩⟩
    · exact absurd hp ‹_›

theorem answer1_of_answer_ok {s : State} {ag : Agent} {a n p : Nat} {w : Bool} (h : s.answer ag a n w = .ok) (hp : p ∈ probes a n) :
    s.answer1 ag p w = .ok := (answers_ok h).2 p hp

theorem mem_probes_self {a n : Nat} (h : 0 < n) : a ∈ probes a n := by
  rw [probes, if_neg h.ne']
  exact List.mem_cons_self

/-- The start of each 256-byte block that an access reaches after its first. -/
theorem mem_probes_of_block {a n lo : Nat} (hlo : lo % 256 = 0) (ha : a < lo) (hn : lo < a + n) : lo ∈ probes a n := by
  rw [probes, if_neg (by omega)]
  exact List.mem_cons_of_mem _ (List.mem_map.2 ⟨lo / 256 - a / 256 - 1, List.mem_range.2 (by omega), by omega⟩)

/-! ### The sealed drive region -/

theorem regionOf_ddr {a : Nat} (h : a < 2 ^ 37) : regionOf a = .ddr := if_pos h

theorem answer1_sealed {s : State} {ag : Agent} {p : Nat} (hs : s.driveSealed = true) (hp : p < 2 ^ 37) (hin : s.inDrive p = true) :
    s.answer1 ag p true ≠ .ok := by
  simp only [State.answer1, regionOf_ddr hp, hs, hin, Bool.and_self, if_true]
  split_ifs <;> decide

/-- A write that reaches into the region probes an address of it: its own start, or the region's. -/
theorem exists_probe_in_drive {s : State} {a n : Nat} (hlo : s.driveLo % 2 ^ 28 = 0) (ho : overlaps a n s.driveLo s.driveLen = true) :
    ∃ p ∈ probes a n, s.inDrive p = true := by
  simp only [overlaps, Bool.and_eq_true, decide_eq_true_eq] at ho
  obtain ⟨⟨⟨hbelow, habove⟩, hn⟩, hlen⟩ := ho
  rcases Nat.lt_or_ge a s.driveLo with hlt | hge
  · exact ⟨s.driveLo, mem_probes_of_block (by omega) hlt habove, by simp [State.inDrive, within]; omega⟩
  · exact ⟨a, mem_probes_self hn, by simp [State.inDrive, within]; omega⟩

/-- Settles O10: the probe that lies in the region is not answered OK, so the write is not carried out. -/
theorem sealedDriveRegionIsNotWritten : Obligations.SealedDriveRegionIsNotWritten := by
  intro s ag a bs hs hlo hhi ho
  have hbad : s.answer ag a bs.length true ≠ .ok := by
    intro hok
    obtain ⟨p, hp, hin⟩ := exists_probe_in_drive hlo ho
    have hlt : p < 2 ^ 37 := by
      simp only [State.inDrive, within, Bool.and_eq_true, decide_eq_true_eq] at hin
      omega
    exact answer1_sealed hs hlt hin (answer1_of_answer_ok hok hp)
  obtain ⟨-, h⟩ | ⟨hok, -⟩ | ⟨hok, -⟩ := writeMem_cases s ag a bs
  · rw [h]
    exact ⟨rfl, hbad⟩
  · exact absurd hok hbad
  · exact absurd hok hbad

/-! ### The DDR5 interleave -/

/-- The first field of an xor of fields stands alone. -/
theorem foldl_xor_range_succ (f : Nat → Nat) (n : Nat) :
    (List.range (n + 1)).foldl (fun x i => x ^^^ f i) 0 = f 0 ^^^ (List.range n).foldl (fun x i => x ^^^ f (i + 1)) 0 := by
  induction n with
  | zero => simp
  | succ n ih => rw [List.range_succ, List.foldl_append, ih, List.range_succ, List.foldl_append]; simp [Nat.xor_assoc]

theorem foldl_xor_lt {f : Nat → Nat} {k : Nat} (hf : ∀ i, f i < 2 ^ k) (n : Nat) :
    (List.range n).foldl (fun x i => x ^^^ f i) 0 < 2 ^ k := by
  induction n with
  | zero => exact Nat.two_pow_pos k
  | succ n ih =>
    rw [List.range_succ, List.foldl_append]
    exact Nat.xor_lt_two_pow ih (hf n)

/-- Fields of k bits from bit 8 on: with the bits above the first field and those below it, their xor gives the number. -/
theorem eq_of_fields {f : Nat → Nat → Nat} {a b k n : Nat} (hf : ∀ x, f x 0 = x / 2 ^ 8 % 2 ^ k)
    (hup : ∀ x y i, x / 2 ^ (8 + k) = y / 2 ^ (8 + k) → f x (i + 1) = f y (i + 1))
    (hx : (List.range (n + 1)).foldl (fun x i => x ^^^ f a i) 0 = (List.range (n + 1)).foldl (fun x i => x ^^^ f b i) 0)
    (ho : (a >>> (8 + k)) <<< 8 ||| a % 256 = (b >>> (8 + k)) <<< 8 ||| b % 256) : a = b := by
  have join (x : Nat) : (x >>> (8 + k)) <<< 8 ||| x % 256 = x / 2 ^ (8 + k) * 2 ^ 8 + x % 2 ^ 8 := by
    rw [← Nat.shiftLeft_add_eq_or_of_lt (Nat.mod_lt x (by decide)), Nat.shiftRight_eq_div_pow, Nat.shiftLeft_eq]
  rw [join, join] at ho
  have high : a / 2 ^ (8 + k) = b / 2 ^ (8 + k) := by omega
  have low : a % 2 ^ 8 = b % 2 ^ 8 := by omega
  rw [foldl_xor_range_succ, foldl_xor_range_succ] at hx
  have others : (fun x i => x ^^^ f a (i + 1)) = fun x i => x ^^^ f b (i + 1) := by
    funext x i
    rw [hup a b i high]
  rw [others] at hx
  have field : a / 2 ^ 8 % 2 ^ k = b / 2 ^ 8 % 2 ^ k := by
    rw [← hf, ← hf]
    exact Nat.xor_left_inj.1 hx
  have up (x : Nat) : x / 2 ^ 8 / 2 ^ k = x / 2 ^ (8 + k) := by rw [Nat.div_div_eq_div_mul, ← pow_add]
  have above : a / 2 ^ 8 = b / 2 ^ 8 := by
    rw [← Nat.div_add_mod (a / 2 ^ 8) (2 ^ k), ← Nat.div_add_mod (b / 2 ^ 8) (2 ^ k), up, up, high, field]
  omega

/-- Field i of k bits of an address, counted from bit 8 (R400). -/
def laneField (k x i : Nat) : Nat := bits x (7 + k + k * i) (8 + k * i)

theorem laneField_eq (k x i : Nat) : laneField k x i = x / 2 ^ (8 + k * i) % 2 ^ k := by
  rw [laneField, bits, Nat.shiftRight_eq_div_pow]
  congr 2
  omega

theorem laneField_lt (k x i : Nat) : laneField k x i < 2 ^ k := by
  rw [laneField_eq]
  exact Nat.mod_lt _ (Nat.two_pow_pos k)

theorem laneField_above {k x y : Nat} (i : Nat) (h : x / 2 ^ (8 + k) = y / 2 ^ (8 + k)) : laneField k x (i + 1) = laneField k y (i + 1) := by
  have split (z : Nat) : z / 2 ^ (8 + k * (i + 1)) = z / 2 ^ (8 + k) / 2 ^ (k * i) := by
    rw [Nat.div_div_eq_div_mul, ← pow_add]
    congr 2
    ring
  rw [laneField_eq, laneField_eq, split, split, h]

theorem eq_of_laneFields {k n a b : Nat}
    (hx : (List.range (n + 1)).foldl (fun x i => x ^^^ laneField k a i) 0 = (List.range (n + 1)).foldl (fun x i => x ^^^ laneField k b i) 0)
    (ho : (a >>> (8 + k)) <<< 8 ||| a % 256 = (b >>> (8 + k)) <<< 8 ||| b % 256) : a = b :=
  eq_of_fields (fun x => laneField_eq k x 0) (fun _ _ i => laneField_above i) hx ho

/-- The half of the capacity that an address lies in, and its place there, where the eight subchannels are two groups (R400). -/
def State.upperHalf (s : State) (a : Nat) : Nat := if s.ddr.capacity / 2 ≤ a then 1 else 0

def State.inHalf (s : State) (a : Nat) : Nat := a - s.upperHalf a * (s.ddr.capacity / 2)

section
variable {s : State} {a : Nat}

theorem subchannel_eight (h : s.reg Regs.ddrInterleave = 0) :
    s.subchannel a = (List.range 6).foldl (fun x i => x ^^^ laneField 3 a i) 0 := if_pos h

theorem subOffset_eight (h : s.reg Regs.ddrInterleave = 0) : s.subOffset a = (a >>> 11) <<< 8 ||| a % 256 := if_pos h

theorem subchannel_halves (h : s.reg Regs.ddrInterleave ≠ 0) :
    s.subchannel a = 4 * s.upperHalf a + (List.range 9).foldl (fun x i => x ^^^ laneField 2 (s.inHalf a) i) 0 := if_neg h

theorem subOffset_halves (h : s.reg Regs.ddrInterleave ≠ 0) :
    s.subOffset a = (s.inHalf a >>> 10) <<< 8 ||| s.inHalf a % 256 := if_neg h

theorem inHalf_add (s : State) (a : Nat) : s.inHalf a + s.upperHalf a * (s.ddr.capacity / 2) = a := by
  unfold State.inHalf State.upperHalf
  split
  · omega
  · omega

theorem upperHalf_le (s : State) (a : Nat) : s.upperHalf a ≤ 1 := by
  unfold State.upperHalf
  split <;> omega

end

/-- Settles O12: the offset gives the bits above and below the first field, and the subchannel gives the field, and the half. -/
theorem interleaveIsOneToOne : Obligations.InterleaveIsOneToOne := by
  refine ⟨fun s a => ?_, fun s a b hc ho => ?_⟩
  · by_cases h : s.reg Regs.ddrInterleave = 0
    · rw [subchannel_eight h]
      exact foldl_xor_lt (laneField_lt 3 a) 6
    · rw [subchannel_halves h]
      have := foldl_xor_lt (laneField_lt 2 (s.inHalf a)) 9
      have := upperHalf_le s a
      omega
  · by_cases h : s.reg Regs.ddrInterleave = 0
    · rw [subchannel_eight h, subchannel_eight h] at hc
      rw [subOffset_eight h, subOffset_eight h] at ho
      exact eq_of_laneFields hc ho
    · rw [subchannel_halves h, subchannel_halves h] at hc
      rw [subOffset_halves h, subOffset_halves h] at ho
      have ha := foldl_xor_lt (laneField_lt 2 (s.inHalf a)) 9
      have hb := foldl_xor_lt (laneField_lt 2 (s.inHalf b)) 9
      have half : s.upperHalf a = s.upperHalf b := by omega
      have place : s.inHalf a = s.inHalf b := eq_of_laneFields (k := 2) (n := 8) (by rw [half] at hc; exact Nat.add_left_cancel hc) ho
      rw [← inHalf_add s a, ← inHalf_add s b, half, place]

end Sys2Proof.Machine
end

section
/-! R19, R29, R372: a byte memory read after a write, and after a range of it is cleared. -/

namespace Sys2Proof.Machine

/-! ### Tables whose entries are taken out -/

theorem kfind_filter_of_dropped {α : Type} {m : KMap α} {k : Nat} {f : Nat × α → Bool} (h : ∀ v, f (k, v) = false) :
    kfind (m.filter f) k = none := by
  induction m with
  | nil => rfl
  | cons e t ih =>
    obtain ⟨j, v⟩ := e
    rw [List.filter_cons]
    split
    · next hk =>
      have hj : j ≠ k := by
        rintro rfl
        simp [h] at hk
      rw [kfind, if_neg hj, ih]
    · exact ih

theorem kfind_filter_of_kept {α : Type} {m : KMap α} {k : Nat} {f : Nat × α → Bool} (h : ∀ v, f (k, v) = true) :
    kfind (m.filter f) k = kfind m k := by
  induction m with
  | nil => rfl
  | cons e t ih =>
    obtain ⟨j, v⟩ := e
    rw [List.filter_cons]
    by_cases hj : j = k
    · subst hj
      rw [if_pos (h v), kfind, kfind, if_pos rfl, if_pos rfl]
    · rw [kfind, if_neg hj]
      split
      · rw [kfind, if_neg hj, ih]
      · exact ih

theorem kfind_kdel_same {α : Type} (m : KMap α) (k : Nat) : kfind (kdel m k) k = none :=
  kfind_filter_of_dropped fun _ => by simp

theorem kfind_kdel_ne {α : Type} (m : KMap α) {k j : Nat} (h : j ≠ k) : kfind (kdel m k) j = kfind m j :=
  kfind_filter_of_kept fun _ => by simpa using h

/-! ### What a read returns -/

theorem get_of_listed {m : Memory} {a : Nat} {b : Byte} (h : kfind m.cells a = some b) : m.get a = b := by rw [Memory.get, h]

theorem get_of_unlisted {m : Memory} {a : Nat} (h : kfind m.cells a = none) (hu : m.undefAt a = none) : m.get a = blankByte a := by
  rw [Memory.get, h]
  simp only [Memory.unlisted, hu]

theorem get_congr {m n : Memory} {a : Nat} (hc : kfind m.cells a = kfind n.cells a) (hu : m.undef = n.undef) : m.get a = n.get a := by
  simp only [Memory.get, hc, Memory.unlisted, Memory.undefAt, hu]

/-! ### After a write -/

theorem get_set_same (m : Memory) (a : Nat) (b : Byte) : (m.set a b).get a = b := by
  unfold Memory.set
  split
  · next h =>
    obtain ⟨rfl, hu⟩ := h
    exact get_of_unlisted (kfind_kdel_same _ _) hu
  · exact get_of_listed (kfind_kset_same _ _ _)

theorem get_set_ne (m : Memory) {a c : Nat} (b : Byte) (h : c ≠ a) : (m.set a b).get c = m.get c := by
  unfold Memory.set
  split
  · exact get_congr (kfind_kdel_ne _ h) rfl
  · exact get_congr (kfind_kset_ne _ _ h) rfl

theorem get_write_outside {m : Memory} {a c : Nat} {bs : Bytes} (h : c < a ∨ a + bs.length ≤ c) : (m.write a bs).get c = m.get c := by
  induction bs generalizing m a with
  | nil => rfl
  | cons b t ih =>
    rw [List.length_cons] at h
    rw [Memory.write, ih (by omega), get_set_ne _ _ (by omega)]

theorem get_write_at {m : Memory} {a i : Nat} {bs : Bytes} {b : Byte} (h : bs[i]? = some b) : (m.write a bs).get (a + i) = b := by
  induction bs generalizing m a i with
  | nil => simp at h
  | cons x t ih =>
    cases i with
    | zero =>
      obtain rfl : x = b := by simpa using h
      rw [Memory.write, get_write_outside (by omega), Nat.add_zero, get_set_same]
    | succ i =>
      rw [Memory.write, show a + (i + 1) = a + 1 + i by omega]
      exact ih (by simpa using h)

/-! ### After a range is cleared -/

theorem not_mem_minus {e x : Extent} {lo hi a : Nat} (hx : x ∈ e.minus lo hi) (hlo : lo ≤ a) (hhi : a < hi) :
    ¬ (x.lo ≤ a ∧ a < x.hi) := by
  simp only [Extent.minus, List.mem_append] at hx
  rcases hx with hx | hx
  · split at hx
    · obtain rfl := List.mem_singleton.1 hx
      simp only
      omega
    · cases hx
  · split at hx
    · obtain rfl := List.mem_singleton.1 hx
      simp only
      omega
    · cases hx

theorem get_zero_inside (m : Memory) {lo hi a : Nat} (hlo : lo ≤ a) (hhi : a < hi) : (m.zero lo hi).get a = blankByte a := by
  rw [Memory.zero, if_pos (by omega)]
  refine get_of_unlisted (kfind_filter_of_dropped fun _ => by simp [hlo, hhi]) (List.find?_eq_none.2 fun x hx => ?_)
  obtain ⟨e, -, hx⟩ := List.mem_flatMap.1 hx
  simpa using not_mem_minus hx hlo hhi

/-- Settles O11. -/
theorem memoryReadsBackWhatWasWritten : Obligations.MemoryReadsBackWhatWasWritten :=
  ⟨get_set_same, fun m _ _ b => get_set_ne m b, fun _ _ _ _ _ => get_write_at, fun _ _ _ _ => get_write_outside,
   fun _ a bs => wf_write a bs, fun m _ _ _ _ => get_zero_inside m, fun _ lo hi => wf_zero lo hi⟩

end Sys2Proof.Machine
end

section
/-! R410, R414, R419: what a refused write leaves, and which writes an object's access code refuses. -/

namespace Sys2Proof.Machine

/-! ### The records of a refusal -/

section
variable {s : State} {p : Path} {index sub : Nat} {e : Reply}

/-- The state with the records of a refusal: CHAIR_REFUSALS (R187), and the two registers of BAR0 (R419). -/
def State.refusalRecorded (s : State) (p : Path) (index sub : Nat) (e : Reply) : State :=
  match p with
  | .bar0 => (s.countRefusal index sub e).bar0Refused index sub e
  | _ => s.countRefusal index sub e

theorem finishWrite_error : s.finishWrite p index sub (.error e) =
    (s.refusalRecorded p index sub e).emit (.answer p e.status e.detail) := by
  cases p <;> rfl

theorem countRefusal_eq : s.countRefusal index sub e = { s with regs := (s.countRefusal index sub e).regs } := by
  unfold State.countRefusal State.bumpIf
  split <;> rfl

theorem refusalRecorded_eq : s.refusalRecorded p index sub e = { s with regs := (s.refusalRecorded p index sub e).regs } := by
  cases p with
  | bar0 =>
    show State.bar0Refused _ index sub e = _
    rw [countRefusal_eq]
    rfl
  | _ => exact countRefusal_eq

theorem reg_countRefusal_ne {r : Reg} (h : r.key ≠ Regs.chairRefusals.key) : (s.countRefusal index sub e).reg r = s.reg r := by
  unfold State.countRefusal State.bumpIf
  split
  · exact reg_bump_ne s h
  · rfl

theorem reg_refusalRecorded_ne {r : Reg} (hl : r.key ≠ Regs.dictBar0Last.key) (hn : r.key ≠ Regs.dictBar0Refusals.key)
    (hc : r.key ≠ Regs.chairRefusals.key) : (s.refusalRecorded p index sub e).reg r = s.reg r := by
  cases p with
  | bar0 =>
    show (State.bar0Refused _ index sub e).reg r = _
    rw [State.bar0Refused, reg_bump_ne _ hn, reg_setReg_ne _ _ hl, reg_countRefusal_ne hc]
  | _ => exact reg_countRefusal_ne hc

theorem refusalRecorded_elsewhere (hp : p ≠ .bar0) (hi : ¬ (index = 0x2500 ∧ sub = 3)) : s.refusalRecorded p index sub e = s := by
  have uncounted : s.countRefusal index sub e = s := by
    unfold State.countRefusal State.bumpIf
    rw [if_neg]
    simp only [decide_eq_true_eq]
    exact fun h => hi ⟨h.1, h.2.1⟩
  cases p with
  | bar0 => exact absurd rfl hp
  | _ => exact uncounted

theorem writeObject_error {data : Bytes} {h : Hook} (hs : s.served p index = true) (he : s.dictTry p index sub data h = .error e) :
    s.writeObject p index sub data h = (s.refusalRecorded p index sub e).emit (.answer p e.status e.detail) := by
  unfold State.writeObject
  rw [if_pos hs, he, finishWrite_error]

end

/-- Settles O15: a refused write records the refusal and answers. -/
theorem refusedWriteChangesNothing : Obligations.RefusedWriteChangesNothing := by
  intro s p index sub data h e hs he
  rw [writeObject_error hs he]
  refine ⟨?_, ⟨(s.refusalRecorded p index sub e).regs, .answer p e.status e.detail :: s.out, ?_⟩, ?_, ?_⟩
  · rw [refusalRecorded_eq]
    rfl
  · rw [refusalRecorded_eq]
    rfl
  · intro r hl hn hc
    rw [reg_emit, reg_refusalRecorded_ne hl hn hc]
  · intro hp hi
    rw [refusalRecorded_elsewhere hp hi, emit_regs]

/-! ### The access codes -/

section
variable {s : State} {p : Path} {index sub : Nat} {o : Obj} {k : Nat}

theorem dictTry_of_access_error {data : Bytes} {h : Hook} {e : Reply} (ha : s.dictAccess p index sub = .error e) :
    s.dictTry p index sub data h = .error e := by
  simp only [State.dictTry, ha, bind, Except.bind]

/-- The checks of R410 on an object of the table, in their order: the restricted set, the life cycle, then the access code. -/
theorem dictAccess_of_found (hf : findObj index sub = some (o, k)) : s.dictAccess p index sub =
    if s.shift.phase = .gatehouse ∧ p ≠ .gardener ∧ restrictedSet index = false then .error ⟨12, 0⟩
    else if s.lifeLocked index sub then .error ⟨13, 0⟩
    else if o.access = .ro then .error ⟨2, 0⟩
    else if o.access = .so ∧ p ≠ .canSafety ∧ p ≠ .keeper then .error ⟨5, 0⟩
    else if o.leaseLocked = true ∧ s.shift.llLocked = true then .error ⟨6, 0⟩
    else .ok (o, k) := by
  have hr : s.dictReach p index sub =
      if s.shift.phase = .gatehouse ∧ p ≠ .gardener ∧ restrictedSet index = false then .error ⟨12, 0⟩ else .ok () := by
    simp only [State.dictReach, hf, Option.isNone_some, Bool.false_and, Bool.false_eq_true, if_false]
  unfold State.dictAccess
  rw [hr, hf]
  by_cases hg : s.shift.phase = .gatehouse ∧ p ≠ .gardener ∧ restrictedSet index = false
  · rw [if_pos hg, if_pos hg]
    rfl
  · rw [if_neg hg, if_neg hg]
    rfl

end

/-- Settles O16: the checks before the access code answer 12 and 13, and the code answers 2, 5 or 6. -/
theorem accessCodesGuardObjects : Obligations.AccessCodesGuardObjects := by
  refine ⟨fun s p index sub data h o k hf hso hc hk => ?_, fun s p index sub data h o k hf hro => ?_,
    fun s p index sub data h o k hf hl hlocked => ?_⟩
  · have ha := dictAccess_of_found (s := s) (p := p) hf
    rw [if_neg (show o.access ≠ .ro by rw [hso]; decide), if_pos (show o.access = .so ∧ p ≠ .canSafety ∧ p ≠ .keeper from ⟨hso, hc, hk⟩)] at ha
    split_ifs at ha
    · exact ⟨_, dictTry_of_access_error ha, by simp⟩
    · exact ⟨_, dictTry_of_access_error ha, by simp⟩
    · exact ⟨_, dictTry_of_access_error ha, by simp⟩
  · have ha := dictAccess_of_found (s := s) (p := p) hf
    rw [if_pos hro] at ha
    split_ifs at ha
    · exact ⟨_, dictTry_of_access_error ha, by simp⟩
    · exact ⟨_, dictTry_of_access_error ha, by simp⟩
    · exact ⟨_, dictTry_of_access_error ha, by simp⟩
  · have ha := dictAccess_of_found (s := s) (p := p) hf
    rw [if_pos (show o.leaseLocked = true ∧ s.shift.llLocked = true from ⟨hl, hlocked⟩)] at ha
    split_ifs at ha
    · exact ⟨_, dictTry_of_access_error ha, by simp⟩
    · exact ⟨_, dictTry_of_access_error ha, by simp⟩
    · exact ⟨_, dictTry_of_access_error ha, by simp⟩
    · exact ⟨_, dictTry_of_access_error ha, by simp⟩
    · exact ⟨_, dictTry_of_access_error ha, by simp⟩

end Sys2Proof.Machine
end

section
/-! R354–R357: residues modulo 127. A value's residue is its image in ZMod 127, where a shift by seven places is the identity; each
operation's predicted residue is then an identity of that ring. -/

namespace Sys2Proof.Machine

/-! ### Residues in ZMod 127 -/

@[simp] theorem cast_res127 (x : Int) : ((res127 x : Nat) : ZMod 127) = (x : ZMod 127) := by
  have hnn : ((res127 x : Nat) : Int) = x % 127 := Int.toNat_of_nonneg (Int.emod_nonneg _ (by decide))
  calc ((res127 x : Nat) : ZMod 127) = (((res127 x : Nat) : Int) : ZMod 127) := (Int.cast_natCast _).symm
    _ = ((x % 127 : Int) : ZMod 127) := by rw [hnn]
    _ = x := ZMod.intCast_mod x 127

theorem res127_lt (x : Int) : res127 x < 127 := by
  unfold res127
  omega

theorem res127_eq_iff {x : Int} {n : Nat} : res127 x = n % 127 ↔ (x : ZMod 127) = n := by
  rw [← cast_res127, ZMod.natCast_eq_natCast_iff', Nat.mod_eq_of_lt (res127_lt x)]

theorem res127_congr {x y : Int} (h : (x : ZMod 127) = y) : res127 x = res127 y := by
  rw [← Nat.mod_eq_of_lt (res127_lt y), res127_eq_iff, cast_res127, h]

/-- 2^7 ≡ 1: the place of a bit counts modulo 7. -/
theorem two_pow_mod (n : Nat) : (2 : ZMod 127) ^ n = 2 ^ (n % 7) := pow_eq_pow_mod n (by decide)

theorem cast_rotRes_up (r n : Nat) : ((rotRes r n : Nat) : ZMod 127) = r * 2 ^ n := by
  rw [rotRes, ZMod.natCast_mod, Nat.cast_mul, Nat.cast_pow, two_pow_mod n]
  congr 2

theorem cast_rotRes_down (r n : Nat) : ((rotRes r (-n) : Nat) : ZMod 127) * 2 ^ n = r := by
  have whole : (2 : ZMod 127) ^ ((-(n : Int) % 7).toNat + n) = 1 := by
    rw [two_pow_mod, show ((-(n : Int) % 7).toNat + n) % 7 = 0 by omega, pow_zero]
  rw [rotRes, ZMod.natCast_mod, Nat.cast_mul, Nat.cast_pow, mul_assoc, Nat.cast_ofNat, ← pow_add, whole, mul_one]

/-- 2 has an inverse, so a common power of 2 cancels. -/
theorem eq_of_mul_two_pow {x y : ZMod 127} (n : Nat) (h : x * 2 ^ n = y * 2 ^ n) : x = y := by
  have hr := cast_rotRes_up 1 (6 * n)
  have inv : (2 : ZMod 127) ^ n * 2 ^ (6 * n) = 1 := by
    rw [← pow_add, two_pow_mod, show (n + 6 * n) % 7 = 0 by omega, pow_zero]
  calc x = x * 2 ^ n * 2 ^ (6 * n) := by rw [mul_assoc, inv, mul_one]
    _ = y * 2 ^ n * 2 ^ (6 * n) := by rw [h]
    _ = y := by rw [mul_assoc, inv, mul_one]

/-! ### Signed significands -/

/-- A significand with its sign. -/
def signed (s : Bool) (m : Nat) : Int := if s then -(m : Int) else m

theorem signed_mul (s t : Bool) (m n : Nat) : signed (s != t) (m * n) = signed s m * signed t n := by
  cases s <;> cases t <;> simp [signed]

theorem signed_not (s : Bool) (m : Nat) : signed (!s) m = -signed s m := by
  cases s <;> simp [signed]

theorem signed_natAbs {s : Bool} {i : Int} (h : i ≠ 0 → s = decide (i < 0)) : signed s i.natAbs = i := by
  by_cases hi : i = 0
  · subst hi
    cases s <;> rfl
  · rw [h hi, signed]
    split
    · simp only [decide_eq_true_eq] at *
      omega
    · simp only [decide_eq_true_eq] at *
      omega

@[simp] theorem res_fin (s : Bool) (m : Nat) (e : Int) : (Num.fin s m e).res = res127 (signed s m) := rfl

/-- A value is the integer i times a power of 2, i its signed significand. -/
def Num.Sig (v : Num) (i : Int) : Prop := ∃ s m e, v = .fin s m e ∧ signed s m = i

theorem sig_fin (s : Bool) (m : Nat) (e : Int) : (Num.fin s m e).Sig (signed s m) := ⟨s, m, e, rfl, rfl⟩

theorem cast_res_of_sig {v : Num} {i : Int} (h : v.Sig i) : ((v.res : Nat) : ZMod 127) = i := by
  obtain ⟨s, m, e, rfl, rfl⟩ := h
  exact cast_res127 _

/-- A result beside the residue predicted for it agrees with it, where it is finite. -/
def Exact.Agrees (x : Exact) : Prop := ∀ i, x.v.Sig i → (i : ZMod 127) = x.res

theorem sig_unique {v : Num} {i j : Int} (hi : v.Sig i) (hj : v.Sig j) : i = j := by
  obtain ⟨s, m, e, rfl, rfl⟩ := hi
  obtain ⟨t, n, f, he, rfl⟩ := hj
  obtain ⟨rfl, rfl, -⟩ := Num.fin.inj he
  rfl

theorem agrees_iff {x : Exact} {i : Int} (h : x.v.Sig i) : x.Agrees ↔ (i : ZMod 127) = x.res :=
  ⟨fun ha => ha i h, fun ha _ hj => sig_unique h hj ▸ ha⟩

theorem agrees_of_not_finite {x : Exact} (h : ∀ s m e, x.v ≠ .fin s m e) : x.Agrees := by
  rintro _ ⟨s, m, e, he, -⟩
  exact absurd he (h s m e)

theorem mismatch_eq_none_iff (x : Exact) : x.mismatch = none ↔ x.Agrees := by
  cases hv : x.v with
  | fin s m e =>
    rw [agrees_iff (hv ▸ sig_fin s m e), ← res127_eq_iff]
    by_cases hr : res127 (signed s m) = x.res % 127
    · simp [Exact.mismatch, hv, hr]
    · simp [Exact.mismatch, hv, hr]
  | nan => simp [Exact.mismatch, hv, agrees_of_not_finite (x := x) (by simp [hv])]
  | inf b => simp [Exact.mismatch, hv, agrees_of_not_finite (x := x) (by simp [hv])]

/-! ### The four covered operations (R354) -/

theorem agrees_of (x : Nat) : (Exact.of x).Agrees := fun _ hi => (cast_res_of_sig hi).symm

theorem agrees_neg {x : Exact} (h : x.Agrees) : x.neg.Agrees := by
  rintro _ ⟨s, m, e, he, rfl⟩
  cases hv : x.v with
  | fin s' m' e' =>
    obtain ⟨rfl, rfl, -⟩ : (!s') = s ∧ m' = m ∧ e' = e := by simpa [Exact.neg, hv, Num.neg] using he
    have hx := h _ (hv ▸ sig_fin s' m' e')
    simp only [Exact.neg, cast_res127, Int.cast_neg, Int.cast_natCast, signed_not, hx]
  | nan => simp [Exact.neg, hv, Num.neg] at he
  | inf b => simp [Exact.neg, hv, Num.neg] at he

/-- A finite product has finite factors. -/
theorem sig_of_mul {v w : Num} {i : Int} (h : (v.mul w).Sig i) : ∃ j k, v.Sig j ∧ w.Sig k ∧ i = j * k := by
  obtain ⟨s, m, e, he, rfl⟩ := h
  unfold Num.mul at he
  split at he
  case h_6 s1 m1 e1 s2 m2 e2 =>
    obtain ⟨rfl, rfl, -⟩ : (s1 != s2) = s ∧ m1 * m2 = m ∧ e1 + e2 = e := by simpa using he
    exact ⟨_, _, sig_fin s1 m1 e1, sig_fin s2 m2 e2, signed_mul s1 s2 m1 m2⟩
  all_goals simp [ite_eq_iff] at he

theorem agrees_mul {x y : Exact} (hx : x.Agrees) (hy : y.Agrees) : (x.mul y).Agrees := by
  intro i hi
  obtain ⟨j, k, hj, hk, rfl⟩ := sig_of_mul hi
  simp only [Exact.mul, ZMod.natCast_mod, Nat.cast_mul, Int.cast_mul, hx j hj, hy k hk]

/-- The significand of a sum, at the smaller exponent. -/
theorem sig_addFin {s t : Bool} {m n : Nat} {e f i : Int} (h : (addFin s m e t n f).Sig i) :
    i = signed s m * 2 ^ (e - min e f).toNat + signed t n * 2 ^ (f - min e f).toNat := by
  have shifted (s : Bool) (m k : Nat) : (if s then -1 else 1 : Int) * ((m <<< k : Nat) : Int) = signed s m * 2 ^ k := by
    rw [Nat.shiftLeft_eq]
    cases s <;> simp [signed]
  obtain ⟨s', m', e', he, rfl⟩ := h
  simp only [addFin, shifted] at he
  split at he
  · next h0 =>
    obtain ⟨rfl, rfl, rfl⟩ : (s && t) = s' ∧ 0 = m' ∧ min e f = e' := by simpa using he
    rw [h0]
    cases s && t <;> rfl
  · obtain ⟨rfl, rfl, rfl⟩ := Num.fin.inj he
    exact signed_natAbs fun _ => rfl

/-- A finite sum has finite terms. -/
theorem fin_of_add {v w : Num} {i : Int} (h : (v.add w).Sig i) : ∃ s m e t n f, v = .fin s m e ∧ w = .fin t n f := by
  obtain ⟨s, m, e, he, rfl⟩ := h
  unfold Num.add at he
  split at he
  case h_6 s1 m1 e1 s2 m2 e2 => exact ⟨s1, m1, e1, s2, m2, e2, rfl, rfl⟩
  all_goals simp [ite_eq_iff] at he

theorem agrees_add {x y : Exact} (hx : x.Agrees) (hy : y.Agrees) : (x.add y).Agrees := by
  intro i hi
  obtain ⟨s, m, e, t, n, f, hv, hw⟩ : ∃ s m e t n f, x.v = .fin s m e ∧ y.v = .fin t n f :=
    fin_of_add (i := i) (by unfold Exact.add at hi; split at hi <;> exact hi)
  have hsum : (x.add y).v = addFin s m e t n f := by simp only [Exact.add, hv, hw, Num.add]
  have hres : (x.add y).res = (rotRes x.res (e - min e f) + rotRes y.res (f - min e f)) % 127 := by simp only [Exact.add, hv, hw]
  have up (g : Int) (r : Nat) (hg : 0 ≤ g) : ((rotRes r g : Nat) : ZMod 127) = r * 2 ^ g.toNat := by
    have := cast_rotRes_up r g.toNat
    rwa [Int.toNat_of_nonneg hg] at this
  rw [hsum] at hi
  rw [sig_addFin hi, hres, ZMod.natCast_mod, Nat.cast_add, up _ _ (by omega), up _ _ (by omega), ← hx _ (hv ▸ sig_fin s m e),
    ← hy _ (hw ▸ sig_fin t n f)]
  push_cast
  rfl

/-! ### The accumulator (R355) -/

/-- The integer a × 2^4 + t that an accumulator's residue is of. -/
def Acc.int (x : Acc) : Int := 16 * x.a + x.t

theorem cast_accRes (x : Acc) : ((x.res : Nat) : ZMod 127) = (x.int : ZMod 127) := cast_res127 _

/-- The window moves: what its truncation discards is gone from the integer, and the rest is shifted. -/
theorem int_move (x : Acc) (k : Nat) :
    (x.move k).int * 2 ^ k = x.int - Int.tmod ((x.a % (2 ^ k : Nat)) * 16 + x.t) (2 ^ k : Nat) := by
  have hdiv : (2 ^ k : Nat) * ((x.a - x.a % (2 ^ k : Nat)) / (2 ^ k : Nat)) = x.a - x.a % (2 ^ k : Nat) :=
    Int.mul_ediv_cancel' (Int.dvd_self_sub_emod)
  have htrunc := Int.tdiv_mul_add_tmod ((x.a % (2 ^ k : Nat)) * 16 + x.t) (2 ^ k : Nat)
  simp only [Acc.int, Acc.move, trunc0]
  push_cast at hdiv htrunc ⊢
  linear_combination 16 * hdiv + htrunc

theorem cast_moveRes {x : Acc} {r : Nat} (k : Nat) (h : (r : ZMod 127) = x.int) : ((x.moveRes r k : Nat) : ZMod 127) = ((x.move k).int : Int) := by
  refine eq_of_mul_two_pow k ?_
  have hm := congrArg (Int.cast (R := ZMod 127)) (int_move x k)
  push_cast at hm
  rw [Acc.moveRes, cast_rotRes_down, cast_res127, hm, ← h]
  push_cast
  rfl

/-- What a product of significand m and exponent e adds to the integer of an accumulator whose window starts at w. -/
def windowPart (m : Nat) (e w : Int) : Nat :=
  16 * (scaleTo m e w).1 + (scaleTo m e w).2.1 * 16 / 2 ^ (scaleTo m e w).2.2

theorem windowPart_whole {m : Nat} {e w : Int} (h : w - 4 ≤ e) : windowPart m e w = m * 2 ^ (e - (w - 4)).toNat := by
  unfold windowPart scaleTo
  split
  · obtain ⟨n, hn⟩ : ∃ n : Nat, (e - w).toNat = n := ⟨_, rfl⟩
    rw [hn, show (e - (w - 4)).toNat = n + 4 by omega, Nat.shiftLeft_eq, pow_add]
    simp only [Nat.zero_mul, Nat.zero_div]
    ring
  · obtain ⟨n, hn⟩ : ∃ n : Nat, (w - e).toNat = n := ⟨_, rfl⟩
    obtain ⟨j, hj⟩ : ∃ j : Nat, n + j = 4 := ⟨4 - n, by omega⟩
    rw [hn, show (e - (w - 4)).toNat = j by omega, Nat.shiftRight_eq_div_pow]
    have h16 : 16 = 2 ^ j * 2 ^ n := by rw [← pow_add, show j + n = 4 by omega]; rfl
    have hm := Nat.div_add_mod m (2 ^ n)
    rw [h16, ← mul_assoc, Nat.mul_div_cancel _ (Nat.two_pow_pos n)]
    calc 2 ^ j * 2 ^ n * (m / 2 ^ n) + m % 2 ^ n * 2 ^ j = (2 ^ n * (m / 2 ^ n) + m % 2 ^ n) * 2 ^ j := by ring
      _ = m * 2 ^ j := by rw [hm]

theorem windowPart_cut {m : Nat} {e w : Int} (h : e < w - 4) :
    windowPart m e w * 2 ^ (w - 4 - e).toNat + m % 2 ^ (w - 4 - e).toNat = m := by
  obtain ⟨d, hd⟩ : ∃ d : Nat, (w - 4 - e).toNat = d := ⟨_, rfl⟩
  rw [windowPart, scaleTo, if_neg (by omega), show (w - e).toNat = d + 4 by omega, hd, Nat.shiftRight_eq_div_pow, pow_add,
    show 2 ^ 4 = 16 from rfl, Nat.mul_div_mul_right _ _ (by decide), Nat.mod_mul_right_div_self, ← Nat.div_div_eq_div_mul,
    Nat.div_add_mod, mul_comm, Nat.div_add_mod]

/-- The part that a product adds, from the product's residue and what is discarded. -/
theorem cast_part {q m : Nat} {s : Bool} {e w : Int} (hq : (q : ZMod 127) = (signed s m : Int)) :
    ((rotRes (res127 (q - signed s (if w - 4 ≤ e then 0 else m % 2 ^ (w - 4 - e).toNat))) (e - (w - 4)) : Nat) : ZMod 127) =
      (signed s (windowPart m e w) : Int) := by
  have signed_eq (n : Nat) : signed s n = (if s then -1 else 1) * (n : Int) := by cases s <;> simp [signed]
  by_cases h : w - 4 ≤ e
  · have up := cast_rotRes_up (res127 (q - signed s 0)) (e - (w - 4)).toNat
    rw [Int.toNat_of_nonneg (by omega)] at up
    rw [if_pos h, up, windowPart_whole h, cast_res127]
    push_cast
    rw [hq, signed_eq, signed_eq, signed_eq]
    push_cast
    ring
  · rw [if_neg h]
    obtain ⟨d, hd⟩ : ∃ d : Nat, (w - 4 - e).toNat = d := ⟨_, rfl⟩
    have hcut := windowPart_cut (m := m) (e := e) (w := w) (by omega)
    rw [hd] at hcut ⊢
    generalize m % 2 ^ d = gone at hcut ⊢
    refine eq_of_mul_two_pow d ?_
    rw [show e - (w - 4) = -(d : Int) by omega, cast_rotRes_down, cast_res127]
    push_cast
    have hcast := congrArg (Nat.cast (R := ZMod 127)) hcut
    push_cast at hcast
    rw [hq, signed_eq, signed_eq, signed_eq]
    push_cast
    rw [← hcast]
    ring

/-- The top of a product's leading bit decides where an empty window opens and how far it moves up. -/
def productTop (m : Nat) (e : Int) : Int := (Nat.log2 m : Int) + e

def Acc.opened (x : Acc) (l : Int) : Acc := if x.empty then { x with w := l - 78, empty := false } else x

def Acc.raised (x : Acc) (l : Int) : Acc := if x.w < l - 78 then x.move (l - 78 - x.w).toNat else x

/-- The accumulator whose window takes in a product. -/
def Acc.ready (x : Acc) (m : Nat) (e : Int) : Acc := (x.opened (productTop m e)).raised (productTop m e)

theorem int_opened (x : Acc) (l : Int) : (x.opened l).int = x.int := by
  unfold Acc.opened
  split <;> rfl

theorem int_take {x : Acc} {s : Bool} {m : Nat} {e : Int} (hm : m ≠ 0) :
    (x.take (.fin s m e)).int = (x.ready m e).int + signed s (windowPart m e (x.ready m e).w) := by
  have sign (n : Nat) : signed s n = (if s then -1 else 1) * (n : Int) := by cases s <;> simp [signed]
  rw [sign, Acc.take]
  simp only [if_neg hm]
  obtain ⟨y, hy⟩ : ∃ y, y = x.ready m e := ⟨_, rfl⟩
  rw [← hy]
  show 16 * ((x.ready m e).a + _ * ((scaleTo m e (x.ready m e).w).1 : Int)) + ((x.ready m e).t +
    _ * ((scaleTo m e (x.ready m e).w).2.1 * 16 / 2 ^ (scaleTo m e (x.ready m e).w).2.2 : Nat)) = _
  rw [← hy, Acc.int, windowPart]
  push_cast
  ring

/-- The residue before the product's part: r, moved with the window. -/
def Acc.readyRes (x : Acc) (r m : Nat) (e : Int) : Nat :=
  let y := x.opened (productTop m e)
  if y.w < productTop m e - 78 then y.moveRes r (productTop m e - 78 - y.w).toNat else r

theorem cast_readyRes {x : Acc} {r m : Nat} {e : Int} (h : (r : ZMod 127) = x.int) :
    ((x.readyRes r m e : Nat) : ZMod 127) = ((x.ready m e).int : Int) := by
  have hopen : (r : ZMod 127) = (x.opened (productTop m e)).int := by rw [int_opened, h]
  unfold Acc.readyRes Acc.ready Acc.raised
  dsimp only
  split
  · exact cast_moveRes _ hopen
  · exact hopen

theorem takeRes_eq {x : Acc} {r q : Nat} {s : Bool} {m : Nat} {e : Int} (hm : m ≠ 0) :
    x.takeRes r q (.fin s m e) = (x.readyRes r m e + rotRes (res127 (q - signed s (if (x.ready m e).w - 4 ≤ e then 0 else
      m % 2 ^ ((x.ready m e).w - 4 - e).toNat))) (e - ((x.ready m e).w - 4))) % 127 := by
  have hw : (x.ready m e).w = if (x.opened (productTop m e)).w < productTop m e - 78 then
      (x.opened (productTop m e)).w + (productTop m e - 78 - (x.opened (productTop m e)).w).toNat else (x.opened (productTop m e)).w := by
    unfold Acc.ready Acc.raised
    split <;> rfl
  rw [hw, Acc.takeRes]
  simp only [if_neg hm]
  rfl

/-- R355: the residue predicted is the accumulator's, after any product. -/
theorem cast_takeRes {x : Acc} {r q : Nat} {p : Num} (h : (r : ZMod 127) = x.int) (hq : ∀ i, p.Sig i → (q : ZMod 127) = i) :
    ((x.takeRes r q p : Nat) : ZMod 127) = ((x.take p).int : Int) := by
  cases p with
  | fin s m e =>
    by_cases hm : m = 0
    · simp only [Acc.takeRes, Acc.take, if_pos hm]
      exact h
    · rw [takeRes_eq hm, int_take hm, ZMod.natCast_mod, Nat.cast_add, cast_readyRes h, cast_part (hq _ (sig_fin s m e)), Int.cast_add]
  | nan => exact h
  | inf b => cases b <;> exact h

/-- An accumulator beside the residue predicted for it. -/
def Watched.Agrees (x : Watched) : Prop := (x.res : ZMod 127) = (x.acc.int : Int)

theorem agrees_take {x : Watched} (a b : Num) (h : x.Agrees) : (x.take a b).Agrees := by
  refine cast_takeRes h fun i hi => ?_
  obtain ⟨j, k, hj, hk, rfl⟩ := sig_of_mul hi
  rw [ZMod.natCast_mod, Nat.cast_mul, cast_res_of_sig hj, cast_res_of_sig hk, Int.cast_mul]

/-! ### A change of a result or of an accumulator (R355) -/

theorem cast_add_eq_iff {x d : Int} {r : ZMod 127} (h : (x : ZMod 127) = r) : ((x + d : Int) : ZMod 127) = r ↔ d % 127 = 0 := by
  rw [Int.cast_add, h, add_eq_left, ZMod.intCast_zmod_eq_zero_iff_dvd, Int.dvd_iff_emod_eq_zero, Nat.cast_ofNat]

theorem mismatch_bent_iff {x : Exact} {i d : Int} (hi : x.v.Sig i) (h : x.mismatch = none) :
    (x.bent d).mismatch = none ↔ d % 127 = 0 := by
  have before := (agrees_iff hi).1 ((mismatch_eq_none_iff x).1 h)
  obtain ⟨s, m, e, hv, rfl⟩ := hi
  have hb : (x.bent d).v.Sig (signed s m + d) := by
    refine ⟨if signed s m + d = 0 then s else decide (signed s m + d < 0), _, e, ?_, signed_natAbs fun h0 => if_neg h0⟩
    rw [Exact.bent, hv]
    rfl
  have hres : (x.bent d).res = x.res := by simp only [Exact.bent, hv]
  rw [mismatch_eq_none_iff, agrees_iff hb, hres, cast_add_eq_iff before]

theorem res_bent_iff (x : Acc) (d : Int) : (x.bent d).res = x.res ↔ d % 127 = 0 := by
  have hb : (x.bent d).int = x.int + d := (add_assoc ..).symm
  have lt (y : Acc) : y.res % 127 = y.res := Nat.mod_eq_of_lt (res127_lt _)
  rw [← lt x, ← lt (x.bent d), ← ZMod.natCast_eq_natCast_iff', cast_accRes, cast_accRes, hb, cast_add_eq_iff rfl]

/-! ### An operation of a vector unit under the check (R356, R357) -/

section
variable {s : State} {u : CUnit} {op : Nat} {v : VectorUnit} {i : Item} {x : Nat}

theorem vecRun_error {f : State → VectorUnit → Item → Nat → State × Except Finish VectorUnit} {t : State} {e : Finish}
    (h : s.vecAt u op v i x) (hf : f s v i x = (t, .error e)) : s.vecRun u op f = .next (t.vecStop u e) := by
  obtain ⟨hn, hop, hover⟩ := h
  simp [State.vecRun, hn, hop, hover, hf]

theorem vecRun_ok {f : State → VectorUnit → Item → Nat → State × Except Finish VectorUnit} {t : State} {w : VectorUnit}
    (h : s.vecAt u op v i x) (hf : f s v i x = (t, .ok w)) : s.vecRun u op f = .next (t.vecAdvance u w (vCost u op)) := by
  obtain ⟨hn, hop, hover⟩ := h
  simp [State.vecRun, hn, hop, hover, hf]

theorem vecCalc_error {g : (Nat → List Nat) → Nat → List Exact} {h : List Nat → List Nat} {t : State} {e : Finish}
    (hat : s.vecAt u op v i x) (hc : s.vectorCheck u i v.index (g (v.reg (laneCount u)) x) = (t, .error e)) :
    s.vecCalc u op g h = .next (t.vecStop u e) :=
  vecRun_error hat (by simp only [hc])

theorem vecCalc_ok {g : (Nat → List Nat) → Nat → List Exact} {h : List Nat → List Nat} {t : State} {l : List Nat}
    (hat : s.vecAt u op v i x) (hc : s.vectorCheck u i v.index (g (v.reg (laneCount u)) x) = (t, .ok l)) :
    s.vecCalc u op g h = .next (t.vecAdvance u (v.setReg (vD x) (h l)) (vCost u op)) :=
  vecRun_ok hat (by simp only [hc])

end

/-- A strike of a gaffer's own unit at its turn: the lane it lands in is checked with its change. -/
theorem vectorCheck_struck {s t : State} {g : Fin 32} {i : Item} {index r : Nat} {xs : List Exact} {f : Strike} {y : Exact} {e : Finish}
    (hf : (s.gaffer g.val).vectorFault = some f) (ht : f.turn = 0) (hy : xs[f.place % 64]? = some y)
    (hr : (y.bent f.error).mismatch = some r)
    (he : (s.setGaffer g.val { s.gaffer g.val with vectorFault := none }).residueMismatch i g.val 12 index r = (t, e)) :
    s.vectorCheck (.gaffer g) i index xs = (t, .error e) := by
  obtain ⟨hlt, rfl⟩ := List.getElem?_eq_some_iff.1 hy
  have hits : s.unitHits (.gaffer g) Gaffer.vectorFault = [⟨0, g.val, f.row, f.place % 64, f.error⟩] := by
    simp [State.unitHits, unitGaffers, hf, ht]
  dsimp only at he
  unfold State.vectorCheck
  simp [hits, hlt, hf, Strike.used, ht, hr, he]

theorem agrees_foldl_take (l : List (Num × Num)) {x : Watched} (h : x.Agrees) : (l.foldl (fun (x : Watched) p => x.take p.1 p.2) x).Agrees := by
  induction l generalizing x with
  | nil => exact h
  | cons p l ih => exact ih (agrees_take p.1 p.2 h)

theorem takeRes_lt {x : Acc} {r q : Nat} {p : Num} (h : r < 127) : x.takeRes r q p < 127 := by
  cases p with
  | fin s m e =>
    by_cases hm : m = 0
    · simpa only [Acc.takeRes, if_pos hm] using h
    · rw [takeRes_eq hm]
      exact Nat.mod_lt _ (by decide)
  | nan => exact h
  | inf b => exact h

theorem foldl_take_lt (l : List (Num × Num)) {x : Watched} (h : x.res < 127) :
    (l.foldl (fun (x : Watched) p => x.take p.1 p.2) x).res < 127 := by
  induction l generalizing x with
  | nil => exact h
  | cons p l ih => exact ih (takeRes_lt h)

/-- Settles O58: the residue predicted and the one observed are one element of ZMod 127, and a strike that shows is the check's error. -/
theorem residuesShowFaults : Obligations.ResiduesShowFaults := by
  refine ⟨fun a b c => ?_, fun l => ?_, fun x sign m e d hv h => mismatch_bent_iff (hv ▸ sig_fin sign m e) h, res_bent_iff, ?_⟩
  · simp only [mismatch_eq_none_iff]
    exact ⟨agrees_add (agrees_of a) (agrees_of b), agrees_add (agrees_of a) (agrees_neg (agrees_of b)), agrees_mul (agrees_of a) (agrees_of b),
      agrees_add (agrees_mul (agrees_of a) (agrees_of b)) (agrees_of c)⟩
  · have agrees := agrees_foldl_take l (x := ⟨{}, 0⟩) rfl
    have lt := foldl_take_lt l (x := ⟨{}, 0⟩) (by decide)
    rw [← Nat.mod_eq_of_lt lt]
    exact res127_eq_iff.2 agrees.symm
  · intro g i v x r f y s s1 e hat hf ht hy hr he
    exact vecCalc_error hat (vectorCheck_struck hf ht hy hr he)

end Sys2Proof.Machine
end

section
/-! R491, R503, R505, R507: the levels that the observation pins, the pins of the fault latch and the trigger pins show. -/

namespace Sys2Proof.Machine

/-! ### The observation pins -/

section
variable {s : State} {m i : Nat}

/-- A pin that the device drives belongs to a power domain that is on. -/
theorem drivesPins_off {d : Nat} (h : s.pdOn d = false) : s.drivesPins d = false := by simp [State.drivesPins, h]

theorem obsPin_floats (h : s.flag (Regs.obsEnable m) = false ∨ bits (s.reg (Regs.obsSelect m)) 15 12 = 0 ∨ s.pdOn 46 = false) :
    s.obsPin m i = none := by
  rcases h with h | h | h
  · simp [State.obsPin, h]
  · simp [State.obsPin, h]
  · simp [State.obsPin, drivesPins_off h]

theorem obsPin_shows (hd : s.drivesPins 46 = true) (he : s.flag (Regs.obsEnable m) = true) (hl : s.lifeLocked (0x2C20 + m) 2 = false)
    (hk : bits (s.reg (Regs.obsSelect m)) 15 12 ≠ 0) : s.obsPin m i =
      some ((s.obsLevels (bits (s.reg (Regs.obsSelect m)) 15 12) (bits (s.reg (Regs.obsSelect m)) 11 0)).getD i false) := by
  simp [State.obsPin, hd, he, hl, hk]

theorem obsLevels_gaffer (g : Nat) : (s.obsLevels 1 g).getD 3 false = s.fenced g := rfl

theorem obsLevels_domains {a b : Nat} (hb : b < 8) (hab : 8 * a + b < 47) : (s.obsLevels 2 a).getD b false = s.pdOn (8 * a + b) := by
  simp [State.obsLevels, hb, hab]

end

/-! ### The pins of the fault latch -/

section
variable {s : State} {latch : Bool} {pin : Nat}

theorem latchPin_of_low (h : latch = false) : s.latchPin latch pin ≠ some true := by
  subst h
  unfold State.latchPin
  split
  · simp
  · split <;> simp

theorem latchPin_outside_scan (hd : s.drivesPins 1 = true) (he : s.tapNow ≠ .extest) (hc : s.tapNow ≠ .clamp) (hz : s.tapNow ≠ .highz) :
    s.latchPin latch pin = some latch := by
  unfold State.latchPin
  rw [hd]
  split
  · contradiction
  · split
    · exact absurd ‹_› he
    · exact absurd ‹_› hc
    · exact absurd ‹_› hz
    · rfl

/-- While the Keeper is armed, JTAG reaches nothing. -/
theorem jtagAccess_of_armed (h : s.flag Regs.kpArmed = true) : s.jtagAccess = 0 := by simp [State.jtagAccess, h]

theorem tapNow_of_no_access (h : s.jtagAccess = 0) : s.tapNow ≠ .extest ∧ s.tapNow ≠ .clamp ∧ s.tapNow ≠ .highz := by
  unfold State.tapNow
  rw [h]
  split
  · simp
  · simp
  · simp
  · simp
  · next he hc hz _ => exact ⟨he, hc, hz⟩

end

/-! ### The trigger pins -/

theorem trigPin_unsupplied {s : State} (h : s.pins.io33 = false) (t : Nat) : s.trigPin t = none := by simp [State.trigPin, State.drives33, h]

theorem trigPin_pulse {s : State} {t : Nat} (hd : s.drivesPins 1 = true) (hio : s.pins.io33 = true) (ht : kget s.pins.tpinActive t 0 = 1) :
    s.trigPin t = some (s.trigActive t != s.flag (Regs.trigPolarity t)) := by
  simp only [State.drivesPins, Bool.and_eq_true] at hd
  obtain ⟨⟨hpd, hreset⟩, -⟩ := hd
  simp [State.trigPin, State.drives33, hpd, hreset, hio, State.tpinOut, ht, State.trigLevel]

/-- Settles O59. -/
theorem pinsShowTheirSources : Obligations.PinsShowTheirSources := by
  refine ⟨fun _ _ _ => obsPin_floats, fun s m g hd he hl hk ha => ?_, fun s m a b hd he hl hk ha hb hab => ?_,
    fun _ => ⟨latchPin_of_low, latchPin_of_low⟩,
    fun _ hd he hc hz => ⟨latchPin_outside_scan hd he hc hz, latchPin_outside_scan hd he hc hz⟩,
    fun _ h => tapNow_of_no_access (jtagAccess_of_armed h), fun _ t h => trigPin_unsupplied h t, fun _ _ => trigPin_pulse⟩
  · rw [obsPin_shows hd he hl (by rw [hk]; decide), hk, ha, obsLevels_gaffer]
  · rw [obsPin_shows hd he hl (by rw [hk]; decide), hk, ha, obsLevels_domains hb hab]

end Sys2Proof.Machine
end

section
/-! R407–R415, R434, R436: writes through the dictionary, claims of resources, IF_SELECT and DEV_ATTENTION. -/

namespace Sys2Proof.Machine

/-! ### Which rule a write follows -/

section
variable {s : State} {p : Path} {index sub : Nat} {data : Bytes}

theorem writeAny_eq (hsleep : ¬ (index = 0x2101 ∧ sub = 1)) (htoken : ¬ (index = 0x2B03 ∧ sub = 4)) :
    s.writeAny p index sub data = s.writeObject p index sub data (writeHook index sub) := by
  rw [State.writeAny, if_neg hsleep, if_neg htoken]

theorem writeHook_of_no_row {o : Obj} {k : Nat} (hf : findObj index sub = some (o, k))
    (hrow : hookRows.find? (fun e => decide (e.1 = o.index * 256 + o.sub)) = none) :
    writeHook index sub = familyHook o index sub := by
  simp only [writeHook, hf, hrow]

theorem storeHook_number {o : Obj} {k : Nat} (hf : findObj index sub = some (o, k)) (ht : o.ty ≠ .domain) :
    storeHook index sub s p data = .ok { s with regs := kset s.regs (index * 256 + sub) (ofLe data) } := by
  simp only [storeHook, hf, if_neg ht]

end

/-- Settles O13: an object without a row or a family of its own stores, and any rule's state is left as it is. -/
theorem dictionaryWriteStores : Obligations.DictionaryWriteStores := by
  refine ⟨fun p index sub data x s o k hx hsleep htoken hf ht hrow hfam => ?_, fun p index sub data x s t hx hsleep htoken hk => ?_⟩
  · show Host.Outcome.next (s.writeAny p index sub data) = _
    rw [writeAny_eq hsleep htoken, writeHook_of_no_row hf hrow, hfam, writeObject_accepted hx (storeHook_number hf ht)]
  · show Host.Outcome.next (s.writeAny p index sub data) = _
    rw [writeAny_eq hsleep htoken, writeObject_accepted hx hk]

/-! ### Claims (R415) -/

/-- Each resource's OWNER object has no row of its own, is no counter, and lies in no family that comes before R415's. -/
theorem owner_object_keys : ∀ index ∈ ownedIndexes,
    ((findObj index 1).all fun r => !(hookRows.map Prod.fst).contains (r.1.index * 256 + r.1.sub) && !r.1.counter) = true ∧
      0x2210 ≤ index ∧ (index < 0x2230 ∨ 0x2980 ≤ index) ∧ index ≠ 0x2B03 := by
  decide +kernel

theorem writeHook_owner {index : Nat} (hi : index ∈ ownedIndexes) {r : Obj × Nat} (hf : findObj index 1 = some r) :
    writeHook index 1 = hookOwner index := by
  obtain ⟨hkeys, hlo, hhi, -⟩ := owner_object_keys index hi
  obtain ⟨o, k⟩ := r
  simp only [hf, Option.all_some, Bool.and_eq_true, Bool.not_eq_true'] at hkeys
  obtain ⟨hrow, hcounter⟩ := hkeys
  have hnone : hookRows.find? (fun e => decide (e.1 = o.index * 256 + o.sub)) = none := by
    rw [List.find?_eq_none]
    intro e he hkey
    have hmem : o.index * 256 + o.sub ∈ hookRows.map Prod.fst := by
      rw [← of_decide_eq_true hkey]; exact List.mem_map_of_mem he
    rw [← List.contains_iff_mem, hrow] at hmem
    cases hmem
  rw [writeHook_of_no_row hf hnone, familyHook, if_neg (by omega), if_neg (by omega), hcounter, if_neg (by decide),
    if_neg (by omega), if_pos (List.contains_iff_mem.mpr hi), if_pos rfl]

section
variable {s t : State} {p : Path} {index v : Nat} {x : Bytes}

/-- An offered OWNER write follows R415. -/
theorem exec_ownerWrite (hi : ownedIndexes.contains index = true) (hx : s.offered p index 1 (toLe 1 v) = some x)
    (ht : hookOwner index s p x = .ok t) : exec (.ownerWrite p index v) s = .next (t.accepted p) := by
  have hmem := List.contains_iff_mem.mp hi
  obtain ⟨-, hlo, hhi, hne⟩ := owner_object_keys index hmem
  obtain ⟨-, o, k, hacc, -, -, -⟩ := offered_iff.mp hx
  show Host.Outcome.next (s.writeAny p index 1 (toLe 1 v)) = _
  rw [writeAny_eq (by omega) (by omega), writeHook_owner hmem (dictAccess_findObj hacc), writeObject_accepted hx ht]

theorem hookOwner_claim (hv : ofLe x = s.writer p) (ho : s.reg (ownerReg index) = 0 ∨ s.reg (ownerReg index) = s.writer p) :
    hookOwner index s p x = .ok (s.setReg (ownerReg index) (s.writer p)) := by
  simp only [hookOwner, if_pos hv, if_pos ho]

theorem hookOwner_release (hv : ofLe x = 0) (hw : s.writer p ≠ 0) (ho : s.reg (ownerReg index) = s.writer p) :
    hookOwner index s p x = .ok ((s.leaveResource index).setReg (ownerReg index) 0) := by
  simp [hookOwner, hv, hw.symm, ho]

theorem hookOwner_take (hv : ofLe x = 6) (ho : s.reg (ownerReg index) ≠ 0) (ho' : s.reg (ownerReg index) ≠ 6) :
    hookOwner index s .keeper x =
      .ok (((s.leaveResource index).setReg (ownerReg index) 6).notifyTaken index (s.reg (ownerReg index))) := by
  have hw : s.writer .keeper = 6 := rfl
  simp [hookOwner, hv, hw, ho, ho']

end

/-! ### Clearing bits (R436) -/

theorem and_mod_two (r x : Nat) : (r &&& x) % 2 = (r % 2) * (x % 2) := by
  have hlow : (r &&& x) % 2 = r % 2 &&& x % 2 := Nat.and_mod_two_pow (n := 1)
  rcases Nat.mod_two_eq_zero_or_one r with hr | hr <;> rcases Nat.mod_two_eq_zero_or_one x with hx | hx <;>
    simp [hlow, hr, hx]

theorem testBit_sub_and (r x i : Nat) : (r - (r &&& x)).testBit i = (r.testBit i && !x.testBit i) := by
  have hle (r : Nat) (x : Nat) : r &&& x ≤ r := Nat.and_le_left
  induction i generalizing r x with
  | zero =>
    have hlow := and_mod_two r x
    have := hle r x
    simp only [Nat.testBit_zero]
    rcases Nat.mod_two_eq_zero_or_one r with hr | hr <;> rcases Nat.mod_two_eq_zero_or_one x with hx | hx <;>
      simp only [hr, hx] at hlow ⊢ <;> simp <;> omega
  | succ i ih =>
    have hlow := and_mod_two r x
    have hhalf : (r &&& x) / 2 = r / 2 &&& x / 2 := Nat.and_div_two ..
    have hmod : (r &&& x) % 2 ≤ r % 2 := by
      rw [hlow]; exact mul_le_of_le_one_right (Nat.zero_le _) (Nat.le_of_lt_succ (Nat.mod_lt x two_pos))
    have hsub : (r - (r &&& x)) / 2 = r / 2 - (r / 2 &&& x / 2) := by have := hle r x; omega
    simp only [Nat.testBit_succ, hsub, ih]

theorem hookIfSelect_ones {s : State} {p : Path} (hold : s.blob Blobs.ifSelect (List.replicate 7 1) = List.replicate 7 1) :
    hookIfSelect s p (List.replicate 7 1) = .ok (s.setBlob Blobs.ifSelect (List.replicate 7 1)) := by
  have hversions : (List.range 7).find? (fun i => decide ((List.replicate 7 (1 : Byte)).getD i 0 ≠ 1)) = none := by decide
  simp only [hookIfSelect, hold, hversions]
  exact if_neg (by simp)

/-- Settles O14: the branches of R415's table, version 1 of every interface, and R436's bit by bit clearing. -/
theorem ownersVersionsAndAttention : Obligations.OwnersVersionsAndAttention := by
  refine ⟨fun p index v x s hi hx hv ho => exec_ownerWrite hi hx (hookOwner_claim hv ho),
    fun p index v x s hi hx hv hw ho => exec_ownerWrite hi hx (hookOwner_release hv hw ho),
    fun index v x s hi hx hv ho ho' => exec_ownerWrite hi hx (hookOwner_take hv ho ho'),
    fun p s x hx hold => ?_, fun p v x s hx => ?_⟩
  · obtain ⟨-, o, k, hacc, -, -, hgiven⟩ := offered_iff.mp hx
    have hobj : findObj 0x1101 1 = some (o, k) := dictAccess_findObj hacc
    have hsame : x = List.replicate 7 1 := by
      have hty : ((findObj 0x1101 1).all fun r => decide (r.1.given (List.replicate 7 1) = List.replicate 7 1)) = true := by decide +kernel
      rw [hobj] at hty
      rw [hgiven]; exact of_decide_eq_true hty
    subst hsame
    exact congrArg Host.Outcome.next (writeObject_accepted hx (hookIfSelect_ones hold))
  · refine ⟨_, congrArg Host.Outcome.next (writeObject_accepted hx rfl), ?_, fun i => ?_⟩
    · simp only [State.accepted, reg_emit, reg_setReg_same]
    · simp only [State.accepted, reg_emit, reg_setReg_same]
      exact testBit_sub_and ..

end Sys2Proof.Machine
end

section
/-! R407, R451, R468, R491: the state that reset leaves. -/

namespace Sys2Proof.Machine

/-- Settles O2: reset is the default of every field, and a look-up in an empty map gives its default. -/
theorem resetLeavesTheStatedState : Obligations.ResetLeavesTheStatedState := by
  have hoff : ∀ d, d ≠ 0 → State.reset.pdOn d = false := by
    intro d hd
    simp [State.pdOn, State.reset, State.pd, hd, kget]
  have hserved : ∀ (p : Path) (index : Nat), State.reset.served p index = false := by
    intro p index
    cases p <;> simp [State.served, hoff] <;> rfl
  exact ⟨rfl, rfl, rfl, fun _ => rfl, fun _ _ => rfl, by decide, hoff, rfl, hserved, rfl, rfl, rfl, rfl, rfl⟩

end Sys2Proof.Machine
end

section
/-! R384, R413, R417, R418, R420: the direct map and the channels of BAR0. -/

namespace Sys2Proof.Machine

/-! ### The direct map -/

/-- What a fold that sets the entries below a bound, one after the other, leaves in an entry below it. -/
theorem kfind_foldl_kset_range {α : Type} (f : Nat → α) {n : Nat} (m : KMap α) :
    ∀ {k i : Nat}, i < k → i < n →
      kfind ((List.range k).foldl (fun m j => if j < n then kset m j (f j) else m) m) i = some (f i) := by
  intro k
  induction k with
  | zero => intro i hi; omega
  | succ k ih =>
    intro i hik hin
    rw [List.range_succ, List.foldl_append, List.foldl_cons, List.foldl_nil]
    by_cases hk : i = k
    · subst hk
      rw [if_pos hin, kfind_kset_same]
    · have hlt : i < k := by omega
      split
      · rw [kfind_kset_ne _ _ hk, ih hlt hin]
      · exact ih hlt hin

/-- The bytes that wait for an object of n bytes once data has come at its start. -/
def State.gathered (s : State) (off n : Nat) (data : Bytes) : KMap (Nat × Byte) :=
  (List.range data.length).foldl (fun m i => if i < n then kset m i (s.now, data.getD i 0) else m) (s.stagedFor off)

section
variable {s : State} {off n : Nat} {data : Bytes}

theorem kfind_gathered {i : Nat} (hi : i < n) (hle : n ≤ data.length) :
    kfind (s.gathered off n data) i = some (s.now, data.getD i 0) :=
  kfind_foldl_kset_range (fun i => (s.now, data.getD i 0)) _ (by omega) hi

theorem gathered_whole (hle : n ≤ data.length) :
    ((List.range n).map fun i => match kfind (s.gathered off n data) i with
      | some (_, b) => b
      | none => BitVec.ofNat 8 (Config.freeNat s.freeIx >>> (8 * i))) = data.take n := by
  apply List.ext_getElem
  · simp [hle]
  · intro i h1 h2
    have hi : i < n := by simpa using h1
    rw [List.getElem_map, List.getElem_range, kfind_gathered hi hle]
    simp [List.getElem?_eq_getElem (show i < data.length by omega)]

theorem directWrite_whole (ho : off % 16 = 0) (hn : slotSize (0x1000 + off / 4096) (off % 4096 / 16) = some n) (hpos : 0 < n)
    (hle : n ≤ data.length) :
    s.directWrite off data =
      (s.setPaths { s.paths with staged := none }).writeAny .bar0 (0x1000 + off / 4096) (off % 4096 / 16) (data.take n) := by
  obtain ⟨m, rfl⟩ : ∃ m, n = m + 1 := ⟨n - 1, by omega⟩
  have hall : ((List.range (m + 1)).all fun i => (kfind (s.gathered off (m + 1) data) i).isSome) = true := by
    simp only [List.all_eq_true, List.mem_range]
    intro i hi
    rw [kfind_gathered hi hle]; rfl
  have hgot : (List.range data.length).foldl (fun (t : KMap (Nat × Byte)) i =>
      if i < m + 1 then kset t i (s.now, data.getD i 0) else t) (s.stagedFor off) = s.gathered off (m + 1) data := rfl
  unfold State.directWrite
  simp only [hn, ho, Nat.sub_zero, Nat.zero_add, hgot, hall, if_true]
  rw [if_neg (by omega), if_neg (by omega)]
  exact congrArg _ (gathered_whole hle)

theorem directRead_whole {size : Nat} {v : Bytes} (ho : off % 16 = 0)
    (hn : slotSize (0x1000 + off / 4096) (off % 4096 / 16) = some n)
    (hv : s.dictRead .bar0 (0x1000 + off / 4096) (off % 4096 / 16) = .ok v) (hle : v.length ≤ size) :
    s.directRead off size = (s, ofLe v) := by
  unfold State.directRead
  simp only [hn, hv, ho, if_true, if_neg (Nat.not_lt.mpr hle), List.take_of_length_le hle]

theorem barWrite_hole (h : (data.length ≠ 4 ∧ data.length ≠ 8) ∨ off % data.length ≠ 0) : s.barWrite off data = s.barHole := by
  rw [State.barWrite, if_pos h]

theorem barRead_hole {size : Nat} (h : (size ≠ 4 ∧ size ≠ 8) ∨ off % size ≠ 0) : s.barRead off size = (s.barHole, 0) := by
  rw [State.barRead]; exact if_pos h

theorem aligned_of_slot {size : Nat} (hs : size = 4 ∨ size = 8) (ho : off % 16 = 0) :
    ¬ ((size ≠ 4 ∧ size ≠ 8) ∨ off % size ≠ 0) := by
  rcases hs with rfl | rfl <;> omega

theorem barWrite_direct (hs : data.length = 4 ∨ data.length = 8) (ho : off % 16 = 0) (hoff : off < 0x1D00000)
    (hserving : s.paths.serving = true) : s.barWrite off data = s.directWrite off data := by
  rw [State.barWrite, if_neg (aligned_of_slot hs ho), if_pos hoff, if_pos hserving]

theorem barRead_direct {size : Nat} (hs : size = 4 ∨ size = 8) (ho : off % 16 = 0) (hoff : off < 0x1D00000)
    (hserving : s.paths.serving = true) : s.barRead off size = s.directRead off size := by
  rw [State.barRead]
  simp only [if_neg (aligned_of_slot hs ho), if_pos hoff, if_pos hserving]

theorem barServed_iff : s.barServed = true ↔ s.pdOn 44 = true ∧ s.paths.serving = true := by
  simp [State.barServed]

end

/-! ### The channels -/

section
variable {s : State} {k index sub op length : Nat}

theorem channelControl_busy (hb : (s.channel k).busy = true) (hop : op ≠ 3) :
    s.channelControl k index sub op length = s.bump Regs.dictBar0Refusals := by
  simp only [State.channelControl, hb, if_true, if_neg hop]

theorem channelControl_abort (hb : (s.channel k).busy = true) :
    s.channelControl k index sub 3 length =
      s.channelEnds k { s.channel k with index := index, sub := sub, op := 3, length := length } 9 0 := by
  simp only [State.channelControl, hb, if_true]

theorem channelControl_read {v : Bytes} (hb : (s.channel k).busy = false) (hv : s.dictRead .bar0 index sub = .ok v) :
    s.channelControl k index sub 1 length = s.setChannel k { s.channel k with
      index := index, sub := sub, op := 1, length := length, busy := true, copy := some (0, 0, v) } := by
  simp only [State.channelControl, hb, hv, if_true, Bool.false_eq_true, if_false]

theorem channelControl_write (hb : (s.channel k).busy = false) :
    s.channelControl k index sub 2 length = s.setChannel k { s.channel k with
      index := index, sub := sub, op := 2, length := length, busy := true } := by
  simp [State.channelControl, hb]

end

/-- Settles O17: each access of the direct map falls in its branch of BAR0's map, and each control block in its branch of the channel's. -/
theorem directMapAndChannels : Obligations.DirectMapAndChannels := by
  refine ⟨fun off n data s hs ho hoff hserved hn hpos hle => ?_, fun off n size v s hs ho hoff hserved hn hv hle => ?_,
    fun off data s hon h => ?_, fun off size s hon h => ?_, fun off size data s hoff => ?_,
    fun k index sub v s hserved hb hv => ?_, fun k index sub data s hserved hb => ?_, fun k index sub data s hserved hb => ?_,
    fun k s hserved hb => ?_, fun k st d v s hb hc => ?_, fun k t r s hb hc ht => ?_⟩
  · obtain ⟨hon, hserving⟩ := barServed_iff.mp hserved
    show execDirectMapWrite off data s = _
    rw [execDirectMapWrite, if_pos hon, barWrite_direct hs ho hoff hserving, directWrite_whole ho hn hpos hle]
  · obtain ⟨hon, hserving⟩ := barServed_iff.mp hserved
    show execDirectMapRead off size s = _
    rw [execDirectMapRead, if_pos hon, barRead_direct hs ho hoff hserving, directRead_whole ho hn hv hle]
  · show execDirectMapWrite off data s = _
    rw [execDirectMapWrite, if_pos hon, barWrite_hole h]; rfl
  · show execDirectMapRead off size s = _
    rw [execDirectMapRead, if_pos hon, barRead_hole h]; rfl
  · exact ⟨if_neg (by simp [hoff]), if_neg (by simp [hoff])⟩
  · refine ⟨_, congrArg Host.Outcome.next ((if_pos hserved).trans (channelControl_read hb hv)), ?_⟩
    exact ⟨by simp, by simp, by simp, fun j hj => channel_setChannel_ne s _ hj, rfl, rfl, rfl, rfl⟩
  · have hrun : exec (.channelWrite k index sub data) s =
        .next ((s.setChannel k.val { s.channel k.val with data := overlay (s.channel k.val).data 0 data }).channelControl
          k.val index sub 2 data.length) := by
      show execChannelWrite k index sub data s = _
      simp [execChannelWrite, hserved, hb]
    refine ⟨_, hrun.trans (congrArg Host.Outcome.next (channelControl_write (by simp [hb]))), ?_⟩
    refine ⟨by simp, by simp, by simp, by simp, by simp, fun j hj => ?_, rfl, rfl, rfl, rfl⟩
    rw [channel_setChannel_ne _ _ hj, channel_setChannel_ne _ _ hj]
  · constructor
    · exact congrArg Host.Outcome.next ((if_pos hserved).trans (channelControl_busy hb (by decide)))
    · show execChannelWrite k index sub data s = _
      simp [execChannelWrite, hserved, hb, channelControl_busy hb]
  · exact congrArg Host.Outcome.next ((if_pos hserved).trans (channelControl_abort hb))
  · show execChannelComplete k s = _
    simp [execChannelComplete, hb, hc, State.channelEnds]
  · show execChannelComplete k s = _
    simp [execChannelComplete, hb, hc, ht, State.channelEnds]

end Sys2Proof.Machine
end

section
/-! R422–R425, R430, R431: requests on CAN FD controller 0 and transactions of the SMBus target. -/

namespace Sys2Proof.Machine

/-! ### CAN requests -/

section
variable {s : State} {b : Bool} {f : CanFrame} {op : Nat} {effect : State → Bool → CanRequest → State} {q : CanRequest}

/-- One answer keeps its place: no order is needed (R422). -/
theorem canOrdered_answer {t : State} (data : Bytes) (h : t.out = s.out) :
    (t.emit (.can (s.reg Regs.dictCanBase + 1) data)).canOrdered s = t.emit (.can (s.reg Regs.dictCanBase + 1) data) := by
  simp [State.canOrdered, h]

theorem canOrdered_same {t : State} (h : t.out = s.out) : t.canOrdered s = t := by
  simp [State.canOrdered, h]

theorem canAnswer_sends (base status total : Nat) (data : Bytes) (hs : s.canSends = true) :
    s.canAnswer false base q status total data = s.emit (.can (base + 1) (canFrame 0 0
      ([BitVec.ofNat 8 q.op, BitVec.ofNat 8 q.tag] ++ toLe 2 q.index ++ [BitVec.ofNat 8 q.sub, BitVec.ofNat 8 status]
        ++ toLe 2 q.seg ++ toLe 4 total ++ padTo 44 (data.take 44)))) := by
  simp [State.canAnswer, hs]

theorem canRequest_bad (hs : s.canSends = true) (hp : (s.canPlace f).isSome = true) (ht : canTaken f = false) :
    s.canRequest b f op effect = s.bump Regs.dictCanFramesBad := by
  unfold State.canRequest
  simp [hs, ht, Option.isSome_iff_ne_none.mp hp]

theorem canRequest_elsewhere (hp : s.canPlace f = none) : s.canRequest b f op effect = s := by
  unfold State.canRequest
  simp [hp]

/-- An ordinary request that is served runs its effect. -/
theorem canRequest_ordinary (hs : s.canSends = true) (hp : s.canPlace f = some 0) (ht : canTaken f = true)
    (hop : (canRequestOf f.data).op = op) (hv : s.paths.serving = true) :
    s.canRequest false f op effect = (effect s false (canRequestOf f.data)).canOrdered s := by
  unfold State.canRequest
  simp [hs, hp, ht, hop, canPath, State.served, hv]

/-- A safety request whose CRC is wrong is counted and answered INTEGRITY (R425). -/
theorem canRequest_corrupt (hs : s.canSends = true) (hp : s.canPlace f = some 2) (ht : canTaken f = true)
    (hop : (canRequestOf f.data).op = op)
    (hcrc : ofLe (slice f.data 60 4) ≠ crc32c (toLe 4 (s.reg Regs.dictCanDataId) ++ f.data.take 60)) :
    s.canRequest true f op effect =
      (s.bump Regs.dictCanFramesBad).canAnswer true (s.reg Regs.dictCanBase) (canRequestOf f.data) 11 0 [] := by
  have hbad : s.canIntegrity f.data = some Regs.dictCanFramesBad := if_pos hcrc
  unfold State.canRequest
  simp [hs, hp, ht, hop, hbad]

theorem setCan_canSends (c : CanChannel) : (s.setCan b c).canSends = s.canSends := by cases b <;> rfl

end

/-! ### SMBus transactions -/

section
variable {s : State} {effect : State → State}

theorem smbus_taken (hio : s.pins.io33 = true) (hv : s.paths.serving = true) : s.smbus true effect = effect s := by
  simp [State.smbus, hio, hv]

theorem smbus_pec (hio : s.pins.io33 = true) (hv : s.paths.serving = true) : s.smbus false effect = s.bump Regs.dictSmbPecErrors := by
  simp [State.smbus, hio, hv]

theorem smbus_nack (hio : s.pins.io33 = true) : s.smbus true (fun s => s.emit .nack) = s.emit .nack := by
  simp [State.smbus, hio]

theorem smbCode_mine {mine : Nat} {pecGood : Bool} : s.smbCode mine mine pecGood effect = s.smbus pecGood effect := if_pos rfl

theorem smbCode_unlisted {code mine : Nat} {pecGood : Bool} (hio : s.pins.io33 = true) (hc : code < 0x10 ∨ 0x15 < code)
    (hm : 0x10 ≤ mine ∧ mine ≤ 0x15) : s.smbCode code mine pecGood effect = s.emit .nack := by
  rw [State.smbCode, if_neg (by omega), if_neg (by omega), smbus_nack hio]

end

/-- Settles O18: each request falls in its branch, and a single answer keeps its place on the bus. -/
theorem canAndSmbusTransactions : Obligations.CanAndSmbusTransactions := by
  refine ⟨fun f v q s hq hs hp ht hop hv hseg hread => ?_, fun f q o k s hq hs hp ht hop hv hseg hacc hlen hle => ?_,
    fun f q s hq hs hp ht hop hv => ?_, fun b f s hs hp ht => ?_, fun b f s hp => ?_, fun f q s hq hs hp ht hcrc => ?_,
    fun b s hl => ?_, fun b s hl => ?_, fun data s hio hv hlen hreach => ?_, fun index sub v s hio hv hsel hreach hoff hval hle => ?_,
    fun data s hio hv hpos hle hoff => ?_, fun data s hio hv hpos hle hoff => ?_, fun s hio hv hb => ?_,
    fun code b data s hio hc => ?_, fun index sub t r s hio hv hb hsel ht => ?_, fun s hio hv => ⟨?_, ?_, ?_⟩,
    fun data s hio hv => ⟨?_, ?_, ?_, ?_⟩⟩
  · subst hq
    show Host.Outcome.next (s.canRequest false f 1 State.canReads) = _
    rw [canRequest_ordinary hs hp ht hop hv]
    simp only [State.canReads, hseg, if_true, canPath, Bool.false_eq_true, if_false, hread]
    rw [canAnswer_sends _ _ _ _ (by rw [setCan_canSends, hs]), canOrdered_answer (s := s) _ (by rfl), hseg]
  · subst hq
    show Host.Outcome.next (s.canRequest false f 2 State.canWrites) = _
    rw [canRequest_ordinary hs hp ht hop hv]
    simp only [State.canWrites, hseg, if_true, canPath, Bool.false_eq_true, if_false, hacc, hlen, if_pos hle]
  · subst hq
    show Host.Outcome.next (s.canRequest false f 3 State.canAborts) = _
    have hchannel : s.canChannel false = s.paths.canOrdinary := rfl
    rw [canRequest_ordinary hs hp ht hop hv, State.canAborts, hchannel]
    rw [canAnswer_sends _ _ _ _ (by rw [setCan_canSends, hs]), canOrdered_answer (s := s) _ (by rfl)]
  · exact ⟨congrArg Host.Outcome.next (canRequest_bad hs hp ht), congrArg Host.Outcome.next (canRequest_bad hs hp ht),
      congrArg Host.Outcome.next (canRequest_bad hs hp ht)⟩
  · exact ⟨congrArg Host.Outcome.next (canRequest_elsewhere hp), congrArg Host.Outcome.next (canRequest_elsewhere hp),
      congrArg Host.Outcome.next (canRequest_elsewhere hp)⟩
  · subst hq
    exact ⟨fun hop => congrArg Host.Outcome.next (canRequest_corrupt hs hp ht hop hcrc),
      fun hop => congrArg Host.Outcome.next (canRequest_corrupt hs hp ht hop hcrc),
      fun hop => congrArg Host.Outcome.next (canRequest_corrupt hs hp ht hop hcrc)⟩
  · exact if_neg (by simp [hl])
  · exact if_pos hl
  · refine congrArg Host.Outcome.next (smbCode_mine.trans ((smbus_taken hio hv).trans ?_))
    simp only [hlen, ne_eq, not_true, if_false, hreach]
  · refine congrArg Host.Outcome.next (smbCode_mine.trans ((smbus_taken hio hv).trans ?_))
    have hpart : slice v 0 (min 240 (v.length - 0)) = v := by simp [slice, Nat.min_eq_right hle]
    simp only [hsel, hreach, hoff, if_true, ← hval, hpart, Nat.zero_add]
  · refine congrArg Host.Outcome.next ((smbus_taken hio hv).trans ?_)
    simp only [hoff, ne_eq, not_true, if_false, if_neg (show ¬ (data.length = 0 ∨ 240 < data.length) by omega)]
  · refine congrArg Host.Outcome.next ((smbus_taken hio hv).trans ?_)
    simp only [hoff, ne_eq, not_false_eq_true, if_true, if_neg (show ¬ (data.length = 0 ∨ 240 < data.length) by omega)]
  · refine congrArg Host.Outcome.next ((smbus_taken hio hv).trans ?_)
    rcases hb with hb | hb <;> simp [hb]
  · exact ⟨congrArg Host.Outcome.next (smbCode_unlisted hio hc (by decide)),
      congrArg Host.Outcome.next (smbCode_unlisted hio hc (by decide))⟩
  · refine congrArg Host.Outcome.next ((smbus_taken hio hv).trans ?_)
    simp [hb, hsel, ht]
  · exact congrArg Host.Outcome.next (smbus_taken hio hv)
  · exact congrArg Host.Outcome.next (smbus_taken hio hv)
  · exact congrArg Host.Outcome.next (smbus_taken hio hv)
  · exact congrArg Host.Outcome.next (smbCode_mine.trans (smbus_pec hio hv))
  · exact congrArg Host.Outcome.next (smbus_pec hio hv)
  · exact congrArg Host.Outcome.next (smbus_pec hio hv)
  · exact congrArg Host.Outcome.next (smbus_pec hio hv)

end Sys2Proof.Machine
end

section
/-! R44, R49, R50, R53, R56, R57, R64: time sources, switches, alarms and queue flushes. -/

namespace Sys2Proof.Machine

section
variable {s : State} {p : Path} {b : Bool} {x : Bytes}

/-- A write that the object's rule accepts is the whole of its command. -/
theorem next_accepted {t : State} {index sub : Nat} {data : Bytes} {h : Hook} (hx : s.offered p index sub data = some x)
    (ht : h s p x = .ok t) : (Host.Outcome.next (s.writeObject p index sub data h) : Res) = .next (t.accepted p) :=
  congrArg Host.Outcome.next (writeObject_accepted hx ht)

@[simp] theorem dom_setDom_same (d : TimeDomain) : (s.setDom b d).dom b = d := by cases b <;> rfl
@[simp] theorem dom_setDom_other (d : TimeDomain) : (s.setDom b d).dom (!b) = s.dom (!b) := by cases b <;> rfl

/-- The automatic switch chooses a time domain; it leaves both as they are. -/
theorem autoSwitch_dom (c : Bool) : s.autoSwitch.dom c = s.dom c := by
  simp only [State.autoSwitch]
  split
  · rfl
  · split <;> rfl

theorem autoSwitch_reg {q : Reg} (hactive : q.key ≠ Regs.timeActiveDomain.key) (hrefused : q.key ≠ Regs.timeSwitchRefusals.key) :
    s.autoSwitch.reg q = s.reg q := by
  simp only [State.autoSwitch]
  split
  · rfl
  · split
    · exact reg_setReg_ne _ _ hactive
    · exact reg_bump_ne _ hrefused

theorem enterServo_dom (d : TimeDomain) (v : Servo) :
    (s.enterServo b d v).dom b = { d with servo := v, goodRun := 0, badRun := 0 } := by
  simp only [State.enterServo]
  split
  · split
    · rw [autoSwitch_dom]; exact dom_setDom_same _
    · exact dom_setDom_same _
  · exact dom_setDom_same _

theorem enterServo_reg {d : TimeDomain} {v : Servo} {q : Reg} (hactive : q.key ≠ Regs.timeActiveDomain.key)
    (hrefused : q.key ≠ Regs.timeSwitchRefusals.key) (hlosses : q.key ≠ (Regs.tdLockLosses (domIx b)).key) :
    (s.enterServo b d v).reg q = s.reg q := by
  simp only [State.enterServo]
  split
  · split
    · rw [autoSwitch_reg hactive hrefused]; exact reg_bump_ne _ hlosses
    · exact reg_bump_ne _ hlosses
  · rfl

theorem enterHoldover_reg {q : Reg} (hactive : q.key ≠ Regs.timeActiveDomain.key)
    (hrefused : q.key ≠ Regs.timeSwitchRefusals.key) (hlosses : q.key ≠ (Regs.tdLockLosses (domIx b)).key) :
    (s.enterHoldover b).reg q = s.reg q := enterServo_reg hactive hrefused hlosses

theorem hookTdSource_free (h : ofLe x = 1 → s.reg Regs.ppsInOwner = s.writer p) :
    hookTdSource b s p x = .ok (s.setSource b (ofLe x)) := if_neg (fun hc => hc.2 (h hc.1))

theorem setSource_reg (v : Nat) : (s.setSource b v).reg (Regs.tdSource (domIx b)) = v := by
  simp only [State.setSource]
  split
  · rw [enterHoldover_reg (by cases b <;> decide) (by cases b <;> decide) (by cases b <;> decide), reg_setReg_same]
  · exact reg_setReg_same ..

theorem hookActiveDomain_near (hservo : (s.dom (decide (ofLe x = 1))).servo = .locked) (hres : s.sundial.residual = 0)
    (hother : s.sundial.active ≠ decide (ofLe x = 1)) (hnear : s.switchNear (decide (ofLe x = 1)) = true) :
    hookActiveDomain s p x = .ok (s.activate (decide (ofLe x = 1)) (s.switchDiff (decide (ofLe x = 1)))) := by
  simp only [hookActiveDomain, hservo, hnear, hres, if_neg hother, ne_eq, not_true, Bool.true_eq_false, and_false, if_false]

/-- The output does not jump at a switch: what the two domains differ by is left to the slew (R45). -/
theorem activate_outTime (hres : s.sundial.residual = 0) (hother : s.sundial.active ≠ b) :
    (s.activate b (s.switchDiff b)).outTime = s.outTime := by
  have hactive : s.sundial.active = !b := by cases b <;> simpa using hother
  have hnew : (s.activate b (s.switchDiff b)).activeDom = s.dom b := rfl
  have hold : s.activeDom = s.dom (!b) := by rw [← hactive]; rfl
  have hres' : (s.activate b (s.switchDiff b)).sundial.residual = s.switchDiff b := rfl
  rw [State.outTime, State.outTime, hnew, hold, hres, hres', State.switchDiff]
  omega

theorem hookForceSwitch_served (hservo : (s.dom (decide (ofLe x = 1))).servo ≠ .freeRun) :
    hookForceSwitch s p x = .ok ((s.activate (decide (ofLe x = 1)) 0).stepped s.outTime) := if_neg hservo

end

/-- Settles O19: each write passes its rule's conditions. -/
theorem sundialWrites : Obligations.SundialWrites := by
  refine ⟨fun p b v x s hx hpps => ⟨next_accepted hx (hookTdSource_free hpps), setSource_reg _⟩,
    fun p v x s hx hservo hres hother hnear =>
      ⟨next_accepted hx (hookActiveDomain_near hservo hres hother hnear), activate_outTime hres hother⟩,
    fun p v x s hx hservo => next_accepted hx (hookForceSwitch_served hservo),
    fun p a v x s t hx hv ho ho' harm ht => next_accepted hx ?_, fun p q v x s hx hv ho ho' => next_accepted hx ?_,
    fun p port v x s hx hv => next_accepted hx (actHook_one hv)⟩
  · subst ht
    have harm' : s.flag (Regs.alarmArm a.val) = false := by simp [State.flag, harm]
    rw [hookAlarmArm, ownedHook_owner ho ho']
    simp only [hv, harm', Nat.one_ne_zero, Bool.false_eq_true, if_false]
    exact (apply_ite Except.ok _ _ _).symm
  · rw [hookLqFlush, ownedHook_owner ho ho', actHook_one hv]

end Sys2Proof.Machine
end

section
/-! R36–R41, R43, R45: the broadcast of the time line, holdover, slew, Sync and path delay. -/

namespace Sys2Proof.Machine

/-! ### The broadcast and the taps -/

section
variable {s : State} {last : Option Nat} {ns k launch : Nat}

theorem periodDue_of (h : ∀ l, last = some l → l + ns ≤ s.now) : s.periodDue last ns = true := by
  cases last with
  | none => rfl
  | some l => exact decide_eq_true (h l rfl)

@[simp] theorem tap_setTap_same (t : Tap) : (s.setTap k t).tap k = t := kget_kset_same _ _ _ _

theorem tap_setTap_ne {j : Nat} (t : Tap) (h : j ≠ k) : (s.setTap k t).tap j = s.tap j := kget_kset_ne _ _ _ h

/-- A message whose CRC and SEQ are right is taken (R38). -/
theorem execTapMessage_good {tap : Fin 24} {errors : Nat} (hl : s.sundial.launchedAt = some launch)
    (hh : s.tapHears tap.val launch = true)
    (hcrc : crc16 (toLe 22 (s.sundial.message ^^^ errors)) = bits (s.sundial.message ^^^ errors) 191 176)
    (hseq : ∀ q, (s.tap tap.val).seq = some q → (s.sundial.message ^^^ errors) % 256 = (q + 1) % 256) :
    exec (.tapMessage tap errors) s = .next ((s.setTap tap.val
      ((s.tap tap.val).take (s.sundial.message ^^^ errors) launch s.now s.freeIx)).skipFree.skipFree) := by
  show execTapMessage tap errors s = _
  unfold execTapMessage
  cases hq : (s.tap tap.val).seq with
  | none => simp only [hl, hh, hcrc, hq]; rfl
  | some q => simp only [hl, hh, hcrc, hq, hseq q hq]; rfl

theorem execTapMessage_bad {tap : Fin 24} {errors : Nat} (hl : s.sundial.launchedAt = some launch)
    (hh : s.tapHears tap.val launch = true)
    (hcrc : crc16 (toLe 22 (s.sundial.message ^^^ errors)) ≠ bits (s.sundial.message ^^^ errors) 191 176) :
    exec (.tapMessage tap errors) s = .next ((s.bump Regs.timeTapErrors).setTap tap.val
      { s.tap tap.val with seq := none, heard := some launch }) := by
  show execTapMessage tap errors s = _
  unfold execTapMessage
  simp only [hl, hh, hcrc]
  rfl

end

/-- Settles O20: each event, when due, takes its branch; a switch at a loss of Sync leaves both time domains' counters. -/
theorem broadcastHoldoverAndSlew : Obligations.BroadcastHoldoverAndSlew := by
  refine ⟨fun s hon hrun hdue => if_pos ?_, fun tap errors launch msg s hl hh hmsg hcrc hseq => ?_,
    fun tap errors launch s hl hh hcrc => ⟨_, execTapMessage_bad hl hh hcrc, rfl, fun fine => ?_⟩,
    fun tap s hon hquiet hsilent => if_pos ?_, fun s hon hdue => if_pos ?_, fun b s hdue hservo => ?_,
    fun s h => if_pos h, fun t s ht hdue => ?_⟩
  · simp [hon, hrun, periodDue_of hdue]
  · subst hmsg
    refine ⟨_, execTapMessage_good hl hh hcrc hseq, ?_⟩
    have htap : (((s.setTap tap.val ((s.tap tap.val).take (s.sundial.message ^^^ errors) launch s.now s.freeIx)).skipFree.skipFree).tap
        tap.val) = (s.tap tap.val).take (s.sundial.message ^^^ errors) launch s.now s.freeIx := tap_setTap_same _
    rw [htap]
    exact ⟨rfl, rfl, rfl, rfl, rfl, rfl, rfl, fun k hk => tap_setTap_ne _ hk, rfl, rfl⟩
  · rw [State.tapTime, tap_setTap_same]; rfl
  · simp [hon, hquiet, hsilent]
  · simp [hon, periodDue_of hdue]
  · have hrun : exec (.syncReceiptTimeout b) s = .next ((s.bump (Regs.tdSyncTimeouts (domIx b))).enterHoldover b) := by
      show execSyncReceiptTimeout b s = _
      unfold execSyncReceiptTimeout
      cases hl : (s.dom b).lastSync with
      | none => rcases hservo with hv | hv <;> simp [hl, hv]
      | some t => rcases hservo with hv | hv <;> simp [hl, hv, hdue t hl]
    refine ⟨hrun, ?_, ?_⟩ <;> rw [State.enterHoldover, enterServo_dom]
    rfl
  · show execSteppedExpiry s = _
    simp [execSteppedExpiry, ht, hdue]

end Sys2Proof.Machine
end


section
/-! R39–R41: gPTP messages, the servos and the path delay. -/

namespace Sys2Proof.Machine

section
variable {s : State} {b : Bool} {n seq port : Nat}

theorem domainOf_none (h : ∀ b, s.reg (Regs.tdGptpDomain (domIx b)) ≠ n) : s.domainOf n = none := by
  simp [State.domainOf, h]

theorem syncOffset_feeds {origin stamp dl : Int} (hd : (s.gptpLink port).delay = some dl) :
    s.syncOffset b port origin stamp = s.feed b (origin + dl - stamp) := by
  rw [State.syncOffset, hd]

theorem portEnabled_of_hearsSync (h : s.hearsSync b port = true) : s.portEnabled port = true := by
  simp only [State.hearsSync, Bool.and_eq_true] at h
  exact h.1.1.1

@[simp] theorem gptpLink_setLink_same (l : LinkDelay) : (s.setLink port l).gptpLink port = l := kget_kset_same _ _ _ _

end

/-- Settles O21: each message falls in its branch; of one exchange the four times are those that the branches noted. -/
theorem syncAndPathDelay : Obligations.SyncAndPathDelay := by
  refine ⟨fun n b port seq origin fine s hd hh => ?_, fun n b port seq origin dl fine s hd hh hdl => ?_,
    fun n port seq two origin fine s hn => ?_, fun n b port seq origin dl stamp s hd hh hp hdl => ?_,
    fun port msg s hp => if_pos hp, fun port s => rfl, fun port s hp hdue => ?_, fun p f s hk => ?_,
    fun port seq who fine t2 s hp ht => ?_, fun port t1 t2 fine s hp hs => ?_, fun port t1 t2 t3 t4 fine s hp hs h2 h4 => ?_⟩
  · refine ⟨s.setDom b { s.dom b with
      lastSync := some s.now
      pendingSync := some { port := port.val, seq := seq, stamp := s.rxStamp b port.val fine.val } },
      ?_, ?_, ?_, ?_, dom_setDom_other _, rfl, rfl⟩
    · show execSyncReceived n port seq true origin fine s = _
      simp [execSyncReceived, hd, hh]
    all_goals rw [dom_setDom_same]
  · show execSyncReceived n port seq false origin fine s = _
    simp [execSyncReceived, hd, hh, syncOffset_feeds hdl]
  · show execSyncReceived n port seq two origin fine s = _
    simp [execSyncReceived, domainOf_none hn]
  · show execFollowUpReceived n port seq origin s = _
    simp [execFollowUpReceived, hd, hh, hp, syncOffset_feeds hdl]
  · refine ⟨_, if_pos (by rw [hp, periodDue_of hdue]; rfl), ?_⟩
    have hlink : ∀ (t : State) (f : LaunchFrame), (t.queueGptp port.val f).gptpLink port.val = t.gptpLink port.val := fun _ _ => rfl
    rw [hlink, gptpLink_setLink_same]
    exact ⟨rfl, rfl, kget_kset_same _ _ _ _, rfl, rfl, rfl⟩
  · refine ⟨Config.freeNat s.freeIx % 16, Nat.mod_lt _ (by decide), ?_⟩
    simp only [State.startFrame, State.startTold, hk, gptpLink_setLink_same]
    rfl
  · subst ht
    exact if_pos hp
  · show execPdelayRespReceived port _ false t2 fine s = _
    simp [execPdelayRespReceived, hp, hs]
  · refine ⟨s.setLink port.val { s.gptpLink port.val with sentAt := none, delay := some (((t4 - t1) - (t3 - t2)) / 2) }, ?_, ?_, rfl, rfl⟩
    · show execPdelayRespReceived port _ true t3 fine s = _
      simp [execPdelayRespReceived, hp, hs, h2, h4]
    · rw [gptpLink_setLink_same]

end Sys2Proof.Machine
end

section
/-! R48, R49, R51–R55: alarms, trigger pulses, PPS pulses and launch queues. -/

namespace Sys2Proof.Machine

section
variable {s : State} {edge ns n : Nat}

theorem edgeInTick_eq (h : s.edgeInTick edge = some ns) :
    ns ≤ 2 ∧ edge * 2 ^ 24 < s.outTime + ns * 2 ^ 40 + 2 ^ 39 ∧ s.outTime + ns * 2 ^ 40 ≤ edge * 2 ^ 24 + 2 ^ 39 := by
  simp only [State.edgeInTick, Nat.shiftLeft_eq] at h
  split at h
  · cases h
  · rename_i hin
    have hns := Option.some.inj h
    omega

theorem trigLevel_active {t : Nat} (h : s.trigActive t = true) : s.trigLevel t = !s.flag (Regs.trigPolarity t) := by
  simp [State.trigLevel, h]

theorem driveTrig_out (t : Nat) :
    (s.driveTrig t ns).out = (if kget s.pins.tpinActive t 0 = 1 then [.trig t (s.trigLevel t) ns] else []) ++ s.out := by
  unfold State.driveTrig
  split <;> rfl

theorem driveTrig_frame (t : Nat) : (s.driveTrig t ns).sundial = s.sundial ∧ (s.driveTrig t ns).regs = s.regs ∧
    (s.driveTrig t ns).mem = s.mem ∧ (s.driveTrig t ns).pins = s.pins := by
  unfold State.driveTrig
  split <;> exact ⟨rfl, rfl, rfl, rfl⟩

theorem tpinTakes_none {t : Nat} (h : kfind s.pins.tpinNext t = none) : s.tpinTakes t = s := by
  simp [State.tpinTakes, h]

/-- What a PPS_IN edge feeds to a time domain whose source is PPS_IN (R40): its distance from the whole second. -/
def State.feedsPps (fine : Nat) (s : State) (b : Bool) : State :=
  if s.reg (Regs.tdSource (domIx b)) = 1 then
    let c : Int := ((s.dom b).counter >>> 24 : Nat) + fine * 8192
    s.feed b (roundDivEven c (65536 * 1000000000) * (65536 * 1000000000) - c)
  else s

theorem feedsPps_none {fine : Nat} (h0 : s.reg (Regs.tdSource 0) ≠ 1) (h1 : s.reg (Regs.tdSource 1) ≠ 1) :
    [false, true].foldl (State.feedsPps fine) s = s := by
  have hfalse : s.feedsPps fine false = s := if_neg h0
  have htrue : s.feedsPps fine true = s := if_neg h1
  rw [List.foldl_cons, List.foldl_cons, List.foldl_nil, hfalse, htrue]

/-- The state with an accepted PPS_IN edge noted (R53). -/
def State.ppsTaken (s : State) (fine : Nat) : State :=
  { (s.setReg Regs.ppsInLast (s.stampAt tapPins fine 0)).bump Regs.ppsInEdges with
    sundial := { s.sundial with ppsAccepted := some s.now } }

theorem reg_with_sundial (s : State) (v : Sundial) (q : Reg) : State.reg { s with sundial := v } q = s.reg q := rfl

theorem ppsTaken_reg {fine : Nat} {q : Reg} (hedges : q.key ≠ Regs.ppsInEdges.key) (hlast : q.key ≠ Regs.ppsInLast.key) :
    (s.ppsTaken fine).reg q = s.reg q := by
  rw [State.ppsTaken, reg_with_sundial, reg_bump_ne _ hedges, reg_setReg_ne _ _ hlast]

/-- No launch queue of the port before this one has a frame due. -/
theorem no_lower_due (h : ∀ i, i < n % 4 → s.launchDue (4 * (n / 4) + i) = false) :
    ((List.range (n % 4)).any fun i => s.launchDue (4 * (n / 4) + i)) = false := by
  simpa using h

end

/-- Settles O22: each event, when due, takes its branch; an edge is placed by the division that rounds to the nearest. -/
theorem alarmsTriggersPpsAndLaunches : Obligations.AlarmsTriggersPpsAndLaunches := by
  refine ⟨fun a s hon hrun harm hdue => if_pos ?_, fun edge ns s h => edgeInTick_eq h,
    fun k ns s hon hrun hen hleft hedge hact => ?_, fun k b e s hp he hn => ?_,
    fun k ns s hon hrun hen hsec hedge hgate => ?_, fun k s hedge => ?_, fun k e s hp he => ?_,
    fun rising fine s hon hrun hrise hlast h0 h1 => ?_, fun rising fine s hr => ?_,
    fun q f rest s t hq hcome hlate hfree hlow ht => ?_, fun q f rest s hq hlate => ?_, fun q f rest s hq hcome => ?_⟩
  · simp [hon, hrun, harm, hdue]
  · have hrun' : exec (.triggerPulse k) s = .next (({ s with sundial := { s.sundial with
        trigNext := kset s.sundial.trigNext k.val (kget s.sundial.trigNext k.val 0 + 1),
        trigPulse := kset s.sundial.trigPulse k.val (s.now, s.now + ns + s.reg (Regs.trigWidth k.val)) } }.bump
        (Regs.trigPulses k.val)).driveTrig k.val ns) := by
      show execTriggerPulse k s = _
      simp [execTriggerPulse, hon, hrun, hen, hleft, hedge, hact]
    refine ⟨_, hrun', ?_⟩
    obtain ⟨hsun, hregs, hmem, -⟩ := driveTrig_frame (s := { s with sundial := { s.sundial with
        trigNext := kset s.sundial.trigNext k.val (kget s.sundial.trigNext k.val 0 + 1),
        trigPulse := kset s.sundial.trigPulse k.val (s.now, s.now + ns + s.reg (Regs.trigWidth k.val)) } }.bump
        (Regs.trigPulses k.val)) (ns := ns) k.val
    rw [hsun, hregs, hmem, driveTrig_out, trigLevel_active]
    · refine ⟨kfind_kset_same _ _ _, kget_kset_same _ _ _ _, rfl, rfl, ?_⟩
      rw [State.flag, reg_bump_ne _ (by simp [Regs.trigPolarity, Regs.trigPulses])]
      rfl
    · show (kfind (kset s.sundial.trigPulse k.val _) k.val).isSome = true
      rw [kfind_kset_same]; rfl
  · show execTriggerPulseEnd k s = _
    simp only [execTriggerPulseEnd, hp, if_pos he]
    rw [tpinTakes_none]
    rw [(driveTrig_frame _).2.2.2]; exact hn
  · have hrun' : exec (.ppsOutPulse k) s = .next ({ s with sundial := { s.sundial with
        ppsSecond := kset s.sundial.ppsSecond k.val s.nearSecond
        ppsPulse := kset s.sundial.ppsPulse k.val (s.now + ns + s.reg (Regs.ppsOutWidth k.val) * 1000) } }.emit
          (.pps k.val true ns)) := by
      have hopen : ¬ (s.reg (Regs.ppsOutGating k.val) = 1 ∧ s.activeDom.servo ≠ .locked) := fun hc => hgate.elim (· hc.1) hc.2
      show execPpsOutPulse k s = _
      simp only [execPpsOutPulse, hon, hrun, hen, hsec, hedge, if_neg hopen]
      rfl
    exact ⟨_, hrun', kfind_kset_same _ _ _, kget_kset_same _ _ _ _, rfl, rfl, rfl⟩
  · show execPpsOutPulse k s = _
    simp [execPpsOutPulse, hedge]
  · show execPpsOutPulseEnd k s = _
    simp [execPpsOutPulseEnd, hp, he]
  · have hfed : [false, true].foldl (State.feedsPps fine.val) (s.ppsTaken fine.val) = s.ppsTaken fine.val :=
      feedsPps_none (by rw [ppsTaken_reg (by decide) (by decide)]; exact h0) (by rw [ppsTaken_reg (by decide) (by decide)]; exact h1)
    show execPpsInEdge rising fine s = _
    unfold execPpsInEdge
    rw [if_neg (by simp [hon, hrun, hrise])]
    dsimp only
    refine (if_neg ?_).trans (congrArg Host.Outcome.next hfed)
    cases ht : s.sundial.ppsAccepted with
    | none => simp
    | some t => simp [hlast t ht]
  · show execPpsInEdge rising fine s = _
    simp [execPpsInEdge, hr]
  · subst ht
    show execLaunchRelease q s = _
    simp only [execLaunchRelease, hq, hcome, hfree, no_lower_due hlow, if_neg (Nat.not_lt.mpr hlate)]
    rfl
  · have hcome : s.timeCome (q.val / 4) f.time = true := decide_eq_true (by omega)
    show execLaunchRelease q s = _
    simp only [execLaunchRelease, hq, hcome, if_pos (show s.reg (Regs.lqLateLimit q.val) * 65536 < s.launchStamp (q.val / 4) - f.time by omega)]
    rfl
  · show execLaunchRelease q s = _
    simp [execLaunchRelease, hq, hcome]

end Sys2Proof.Machine
end

section
/-! R59, R60, R62: the sleep correction, the saved time and the time rebuilt at wake. -/

namespace Sys2Proof.Machine

/-! ### What the alarms and pulses passed over leave (R50–R52) -/

/-- What the firing of alarms leaves: memory, the time base and the registers that no alarm writes. -/
structure State.TimeKept (s t : State) : Prop where
  mem : t.mem = s.mem
  running : t.sundial.running = s.sundial.running
  residual : t.sundial.residual = s.sundial.residual
  domA : t.sundial.domA = s.sundial.domA
  domB : t.sundial.domB = s.sundial.domB
  wakeCount : t.reg Regs.sleepWakeCount = s.reg Regs.sleepWakeCount

section
variable {s t u : State} {a : Nat} {late skip : Bool}

theorem State.TimeKept.refl (s : State) : s.TimeKept s := ⟨rfl, rfl, rfl, rfl, rfl, rfl⟩

theorem State.TimeKept.trans (h : s.TimeKept t) (h' : t.TimeKept u) : s.TimeKept u :=
  ⟨h'.mem.trans h.mem, h'.running.trans h.running, h'.residual.trans h.residual, h'.domA.trans h.domA, h'.domB.trans h.domB,
    h'.wakeCount.trans h.wakeCount⟩

theorem State.TimeKept.setReg {r : Reg} {v : Nat} (h : r.key ≠ Regs.sleepWakeCount.key) : s.TimeKept (s.setReg r v) :=
  ⟨rfl, rfl, rfl, rfl, rfl, reg_setReg_ne _ _ h.symm⟩

theorem State.TimeKept.bumpIf {r : Reg} {b : Bool} (h : r.key ≠ Regs.sleepWakeCount.key) : s.TimeKept (s.bumpIf b r) := by
  cases b
  · exact .refl s
  · exact .setReg h

theorem State.TimeKept.msix (v : Nat) : s.TimeKept (s.msix v) := by
  unfold State.msix
  split
  · exact .refl s
  · split
    · exact ⟨rfl, rfl, rfl, rfl, rfl, rfl⟩
    · split <;> exact ⟨rfl, rfl, rfl, rfl, rfl, rfl⟩

theorem State.TimeKept.alarmFires : s.TimeKept (s.alarmFires a late skip) := by
  have hobs : s.TimeKept (s.observes 49) := ⟨rfl, rfl, rfl, rfl, rfl, rfl⟩
  have hcounts : s.TimeKept (((s.observes 49).bump (Regs.alarmFired a)).bumpIf late (Regs.alarmLate a)) :=
    (hobs.trans (.setReg (by simp [Regs.alarmFired, Regs.sleepWakeCount]; omega))).trans
      (.bumpIf (by simp [Regs.alarmLate, Regs.sleepWakeCount]; omega))
  have hnext : ∀ (t : State) (m : KMap Nat), t.TimeKept { t with sundial := { t.sundial with alarmNext := m } } :=
    fun t m => ⟨rfl, rfl, rfl, rfl, rfl, rfl⟩
  have harm : ∀ t : State, t.TimeKept (t.setReg (Regs.alarmArm a) 0) :=
    fun t => .setReg (by simp [Regs.alarmArm, Regs.sleepWakeCount]; omega)
  unfold State.alarmFires
  extract_lets s1 s2 per k k'
  have hs2 : s.TimeKept s2 := by
    simp only [s2]
    split
    · exact hcounts.trans (.msix _)
    · exact hcounts
  split
  · exact hs2.trans (harm _)
  · exact hs2.trans (hnext _ _)

theorem State.TimeKept.restart (s : State) : s.TimeKept s.ppsRestart := ⟨rfl, rfl, rfl, rfl, rfl, rfl⟩

theorem State.TimeKept.pulses (s : State) (m : KMap Nat) : s.TimeKept { s with sundial := { s.sundial with trigNext := m } } :=
  ⟨rfl, rfl, rfl, rfl, rfl, rfl⟩

theorem State.TimeKept.passedOver (old : Nat) : s.TimeKept (s.passedOver old) := by
  have hfold : ∀ (l : List Nat) (t : State), t.TimeKept (l.foldl (fun s a =>
      if s.flag (Regs.alarmArm a) && decide (s.alarmTime a ≤ s.outTime >>> 24) && decide (old >>> 24 < s.alarmTime a) then
        s.alarmFires a true true else s) t) := by
    intro l
    induction l with
    | nil => exact fun t => .refl t
    | cons a l ih =>
      intro t
      refine State.TimeKept.trans ?_ (ih _)
      dsimp only
      split
      · exact .alarmFires
      · exact .refl t
  unfold State.passedOver
  extract_lets t
  exact (hfold _ s).trans (.pulses t _)

/-- Without a LOCKED time domain the automatic switch finds no standby. -/
theorem State.TimeKept.lockLost (v : SavedTime) (hA : s.sundial.domA.servo = .coasting) (hB : s.sundial.domB.servo = .coasting) :
    s.TimeKept (s.lockLost v) := by
  have hloss : ∀ b, (Regs.tdLockLosses (domIx b)).key ≠ Regs.sleepWakeCount.key := by decide
  have hbumps : ∀ b, s.TimeKept ((s.bumpIf (decide (v.servo = .locked)) (Regs.tdLockLosses (domIx b))).bumpIf v.standbyLocked
      (Regs.tdLockLosses (domIx (!b)))) := fun b => (State.TimeKept.bumpIf (hloss b)).trans (.bumpIf (hloss _))
  have hswitch : ∀ t : State, t.sundial.domA.servo = .coasting → t.sundial.domB.servo = .coasting → t.TimeKept t.autoSwitch := by
    intro t htA htB
    have hdom : ∀ b, (t.dom b).servo ≠ .locked := by
      intro b
      cases b <;> simp [State.dom, htA, htB]
    unfold State.autoSwitch
    split
    · exact .refl t
    · simp only [beq_eq_false_iff_ne.mpr (hdom _), Bool.false_and, Bool.false_eq_true, if_false]
      exact .setReg (by decide)
  simp only [State.lockLost]
  split
  · refine (hbumps _).trans (hswitch _ ?_ ?_)
    · rw [(hbumps _).domA, hA]
    · rw [(hbumps _).domB, hB]
  · exact hbumps _

end

theorem windowNow_locked {s : State} {w : Nat × Nat} (hl : s.activeDom.servo = .locked) (hw : s.sundial.window = some w) :
    s.windowNow = some w := by
  simp [State.windowNow, hl, hw]

/-- The state after a window that is due: the correction learns and the window begins anew (R59). -/
def State.corrLearned (s : State) (t0 n0 : Nat) : State :=
  { (s.setReg Regs.sleepCorr (ofSigned 32 (roundDivEven (7 * s.sreg 32 Regs.sleepCorr +
      roundDivEven (((s.sleepCount - n0 : Nat) : Int) * (1000000000 * 2 ^ 40) * 1000000000 - 32768 * (s.outTime - t0 : Nat) * 1000000000)
        (32768 * (s.outTime - t0))) 8))).setReg Regs.sleepCorrValid 1 with
    sundial := { s.sundial with window := some (s.outTime, s.sleepCount) } }

theorem execSleepCorrWindow_due {s : State} {t0 n0 : Nat} (hw : s.windowNow = some (t0, n0))
    (hdue : (s.pdOn 1 && s.sundial.running && decide (t0 + 64000000000 * 2 ^ 40 ≤ s.outTime)) = true) :
    exec .sleepCorrWindow s = .next (s.corrLearned t0 n0) := by
  show execSleepCorrWindow s = _
  rw [execSleepCorrWindow, hw]
  exact if_pos hdue

/-- The state with both time domains rebuilt from the sleep count (R62). -/
def State.timeRebuilt (s : State) (v : SavedTime) : State :=
  let unc := v.unc.map (fun u => u * 65536 + (s.sleepCount - v.n0) * s.sleepBound * 2000)
  { s.setReg Regs.sleepWakeCount s.sleepCount with sundial := { s.sundial with
      running := true, residual := 0,
      domA := coasting s.sundial.domA (rebuilt v s.sleepCount) unc s.now,
      domB := coasting s.sundial.domB (rebuilt v s.sleepCount) unc s.now } }

section
variable {s : State} (v : SavedTime)

theorem timeRebuilt_wakeCount : (s.timeRebuilt v).reg Regs.sleepWakeCount = s.sleepCount := by
  rw [State.timeRebuilt, reg_with_sundial, reg_setReg_same]

theorem execTimeReconstruct_asleep {v : SavedTime} (hv : s.sundial.saved = some v) (hrun : s.sundial.running = false)
    (hon : s.pdOn 1 = true) :
    exec .timeReconstruct s = .next ((((s.timeRebuilt v).lockLost v).ppsRestart).passedOver (v.t0 <<< 24)) := by
  show execTimeReconstruct s = _
  rw [execTimeReconstruct, hv]
  exact if_neg (by simp [hrun, hon])

end

/-- Settles O23: the window's branch, the saved state and the rebuilt one, which the alarms that fire leave. -/
theorem timeAcrossSleep : Obligations.TimeAcrossSleep := by
  refine ⟨fun t0 n0 span measured s hon hrun hl hw hdue hspan hm => ?_, fun s hl => ?_, fun s hrun htarget hbegun => ?_,
    fun v s hv hrun hon => ?_⟩
  · subst hspan hm
    have hdue' : (s.pdOn 1 && s.sundial.running && decide (t0 + 64000000000 * 2 ^ 40 ≤ s.outTime)) = true := by
      rw [hon, hrun, decide_eq_true hdue]; rfl
    have hrun' := execSleepCorrWindow_due (windowNow_locked hl hw) hdue'
    exact ⟨_, hrun', rfl, rfl, rfl, rfl⟩
  · show execSleepCorrWindow s = _
    simp [execSleepCorrWindow, State.windowNow, hl]
  · refine ⟨_, _, if_pos (by simp [hrun, htarget, hbegun]), rfl, rfl, rfl, rfl, rfl, ?_, ?_, rfl, rfl⟩
    · exact reg_setReg_same ..
    · exact (reg_setReg_ne _ _ (by decide)).trans (reg_setReg_same ..)
  · obtain ⟨hmem, hrunning, hres, hA, hB, hcount⟩ := ((State.TimeKept.lockLost v (s := s.timeRebuilt v) rfl rfl).trans
      (.restart _)).trans (.passedOver (v.t0 <<< 24))
    refine ⟨_, execTimeReconstruct_asleep hv hrun hon, hcount.trans (timeRebuilt_wakeCount v), hrunning, hres, ?_, ?_, hmem⟩
    · rw [State.dom, if_neg (by decide), hA]; rfl
    · rw [State.dom, if_pos rfl, hB]; rfl

end Sys2Proof.Machine
end

section
/-! R72, R84, R105, R111, R124, R140: writes of the Lodge and the Pergola; R75–R80: camera frames. -/

namespace Sys2Proof.Machine

/-! ### Streams -/

section
variable {s : State} {q k : Nat} {p : Path} {x : Bytes}

/-- What a stream's enable does first touches the Pergola alone. -/
theorem pergolaStream_cases (s : State) (q : Nat) : ∃ v, s.pergolaStream q = { s with pergola := v } := by
  unfold State.pergolaStream
  split
  · exact ⟨_, rfl⟩
  · exact ⟨s.pergola, rfl⟩

theorem enableCheck_with_pergola (s : State) (v : Pergola) (q : Nat) :
    State.enableCheck { s with pergola := v } q = s.enableCheck q := rfl

@[simp] theorem pergolaStream_flag (r : Reg) : (s.pergolaStream q).flag r = s.flag r := by
  obtain ⟨v, hv⟩ := pergolaStream_cases s q
  rw [hv]; rfl

@[simp] theorem pergolaStream_enableCheck : (s.pergolaStream q).enableCheck k = s.enableCheck k := by
  obtain ⟨v, hv⟩ := pergolaStream_cases s q
  rw [hv, enableCheck_with_pergola]

theorem hookIngestEnable_starts (hx : ofLe x = 1) (hoff : s.flag (ingestEnable q) = false) (hcheck : s.enableCheck q = none) :
    hookIngestEnable q s p x = .ok (((s.pergolaStream q).setIngest q
      { seq := ((s.pergolaStream q).ingest q).seq, live := !(s.pergolaStream q).shift.closed }).setReg (ingestEnable q) 1) := by
  simp only [hookIngestEnable, hx, hoff, hcheck, Nat.one_ne_zero, if_false, Bool.false_eq_true]

theorem hookIngestEnable_stops (hx : ofLe x = 0) :
    hookIngestEnable q s p x = .ok ((((s.pergolaStream q).flushQueue q).setIngest q
      { ((s.pergolaStream q).flushQueue q).ingest q with live := false }).setReg (ingestEnable q) 0) := by
  simp only [hookIngestEnable, hx, if_true]

theorem hookTemplate_unused (h : (List.range 12).any (fun k =>
    s.flag (Regs.streamEnable (24 + k)) && decide (s.reg (Regs.scnTemplate k) = q)) = false) :
    hookTemplate q s p x = .ok ((s.setBlob (Blobs.tplData q) x).setReg (Regs.tplValid q) (if (parseTemplate x).valid then 1 else 0)) := by
  simp only [hookTemplate, h, Bool.false_eq_true, if_false]

theorem hookPergola_unused {index sub : Nat} {h : Hook} (hu : s.pergolaUser index sub = none)
    (hi : index ≠ 0x2401) (hi' : index ≠ 0x2402) : hookPergola index sub h s p x = h s p x := by
  simp [hookPergola, hu, hi, hi']

end

/-- Settles O24: each write passes its rule's conditions. -/
theorem lodgeAndPergolaWrites : Obligations.LodgeAndPergolaWrites := by
  refine ⟨fun p q v x s hx hv hoff hcheck => ?_, fun p q v x s t hx hv ht => ?_, fun p q v x s hx hv => next_accepted hx (actHook_one hv),
    fun p t data x s hx hunused => next_accepted hx (hookTemplate_unused hunused), fun p v x s hx hu => ?_, fun p v x s hx hu => ?_⟩
  · rw [pergolaStream_flag] at hoff
    rw [pergolaStream_enableCheck] at hcheck
    exact next_accepted hx (hookIngestEnable_starts hv hoff hcheck)
  · subst ht
    exact next_accepted hx (hookIngestEnable_stops hv)
  · refine ⟨_, next_accepted hx (hookPergola_unused hu (by decide) (by decide)), rfl, rfl, ?_, rfl, rfl⟩
    exact reg_setReg_same ..
  · exact next_accepted hx (hookPergola_unused hu (by decide) (by decide))

/-! ### CSI-2 packets -/

section
variable {s : State} {port e vc : Nat}

theorem csiPacket_good {f : State → State} (hon : s.pdOn 40 = true) (he : e ≠ 2) :
    s.csiPacket port e f = f (s.bumpIf (decide (e = 1)) (Regs.csiEccCorrected port)) := by
  simp [State.csiPacket, hon, he]

theorem csiPacket_bad {f : State → State} (hon : s.pdOn 40 = true) : s.csiPacket port 2 f = s.bump (Regs.csiEccErrors port) := by
  simp [State.csiPacket, hon]

theorem csiShort_good {f : State → Nat → State} {t : State} (hon : s.pdOn 40 = true) (he : e ≠ 2)
    (ht : t = s.bumpIf (decide (e = 1)) (Regs.csiEccCorrected port)) (hc : t.cameras port vc ≠ []) :
    s.csiShort port vc e f = (t.cameras port vc).foldl f t := by
  rw [State.csiShort, csiPacket_good hon he, ← ht]
  split
  · exact absurd ‹_› hc
  · rfl

@[simp] theorem ingest_bumpIf (b : Bool) (r : Reg) (q : Nat) : (s.bumpIf b r).ingest q = s.ingest q := by cases b <;> rfl

theorem takeLine_open {q : Nat} {f : Frame} {good : Bool} {data : Bytes} (hf : (s.ingest q).frame = some f) :
    s.takeLine q good data = if (s.fifoDrains q).fifoFull q then (s.fifoDrains q).cutShort q
      else ((s.fifoDrains q).storeLine q f good data).fifoTakes q data.length := by
  simp only [State.takeLine, hf]

end

/-- Settles O25: a good packet goes to the cameras that take it, and the others fall in their branches. -/
theorem cameraFramesAreCut : Obligations.CameraFramesAreCut := by
  refine ⟨fun port vc e frame fine s t hon he ht hc => congrArg Host.Outcome.next (csiShort_good hon he ht hc),
    fun port vc dt q e good data f s t u hon he ht hq hu hf => ?_,
    fun port vc e line fine s t hon he ht hc => congrArg Host.Outcome.next (csiShort_good hon he ht hc),
    fun port vc e line s t hon he ht hc => congrArg Host.Outcome.next (csiShort_good hon he ht hc),
    fun port vc e frame fine s t hon he ht hc => ?_, fun q f s hf hdue => ?_,
    fun port e s hon he => congrArg Host.Outcome.next (csiPacket_good hon he),
    fun port vc c s hon hcmd => ?_, fun port vc dt good data s hon hc => ?_, fun port s hon hrate hnew => if_pos ?_⟩
  · refine congrArg Host.Outcome.next ((csiPacket_good hon he).trans ?_)
    rw [← ht]
    subst hu
    have hf' : ((t.bumpIf (!good) (Regs.csiCrcErrors port.val)).ingest q).frame = some f := by
      rw [ingest_bumpIf, ht, ingest_bumpIf, hf]
    simp only [hq, takeLine_open hf']
  · refine congrArg Host.Outcome.next ((csiPacket_good hon he).trans ?_)
    rw [← ht]
    split
    · exact absurd ‹_› hc
    · rfl
  · show execCsiFrameTimeout q s = _
    simp [execCsiFrameTimeout, hf, hdue]
  · rcases hcmd with ⟨n, fine, hc | hc | hc⟩ | ⟨n, hc⟩ | ⟨dt, good, data, hc⟩ | hc <;> subst hc <;>
      exact congrArg Host.Outcome.next (csiPacket_bad hon)
  · refine congrArg Host.Outcome.next ((csiPacket_good hon (by decide)).trans ?_)
    have hsame : s.bumpIf (decide ((0 : Fin 3).val = 1)) (Regs.csiEccCorrected port.val) = s := rfl
    rw [hsame]
    simp only [hc]
    rfl
  · simp [hon, hrate, hnew]

end Sys2Proof.Machine
end

section
/-! R69, R70, R81–R83, R90–R98, R101: visible items, Ethernet frames, inertial reads and CAN frames. -/

namespace Sys2Proof.Machine

theorem length_toLe (n x : Nat) : (toLe n x).length = n := by simp [toLe]

theorem length_padTo (n : Nat) (bs : Bytes) : (padTo n bs).length = n := by simp [padTo]; omega

/-- A field that ends before the padding reads as it was laid out. -/
theorem slice_padTo_append {a b c : Bytes} {n : Nat} (h : a.length + b.length ≤ n) :
    slice (padTo n (a ++ b ++ c)) a.length b.length = b := by
  simp only [slice, padTo, List.append_assoc, List.drop_take, List.drop_left, List.take_take]
  rw [Nat.min_eq_left (by omega), List.take_left]

section
variable {s : State} {q k : Nat}

theorem makeVisible_oldest {it : IngestItem} {rest : List IngestItem} (h : (s.ingest q).done = it :: rest) :
    ((s.makeVisible q).ingest q).items = (s.ingest q).items ++ [it] ∧ ((s.makeVisible q).ingest q).done = rest ∧
      (s.makeVisible q).mem = s.mem := by
  have hstream (t : State) (r : Nat → Reg) (n j : Nat) : (t.bumpStream q r n).ingest j = t.ingest j ∧ (t.bumpStream q r n).mem = t.mem := by
    unfold State.bumpStream
    split <;> exact ⟨rfl, rfl⟩
  have hvisible : ((s.makeVisible q).ingest q) = { s.ingest q with items := (s.ingest q).items ++ [it], done := rest } ∧
      (s.makeVisible q).mem = s.mem := by
    simp only [State.makeVisible, h]
    split
    · exact ⟨(hstream _ _ _ _).1.trans (ingest_setIngest_same _ _ _), (hstream _ _ _ q).2⟩
    · exact ⟨(hstream _ _ _ _).1.trans (ingest_setIngest_same _ _ _), (hstream _ _ _ q).2⟩
  rw [hvisible.1]
  exact ⟨rfl, rfl, hvisible.2⟩

end

/-- The state once the link of a port is lost (R81). -/
def State.linkLost (s : State) (p : Nat) : State :=
  let t := (s.setReg (Regs.ethRate p) 0).setReg (Regs.ethLinkUp p) 0
  { t with sundial := { t.sundial with gptpq := kset t.sundial.gptpq p [] } }

/-- Settles O26: each event falls in its branch; what a whole frame is decides where it goes. -/
theorem itemsAndEthernetFrames : Obligations.ItemsAndEthernetFrames := by
  refine ⟨fun q s hd => if_neg hd, fun q it rest s hd => makeVisible_oldest hd,
    fun port fine frame s hon hup h60 h9212 => ?_, fun port fine frame q u s hon hup h60 h9212 hg hp hf hs hu hl => ?_,
    fun port fine frame s hon hup h60 h9212 hg hp hf hs => ?_, fun port rate s hr hon hm => ?_, fun port s => ?_,
    fun port w s hw he => ?_, fun p f rest s hg hf hfree hb => ?_, fun p s hfree => ?_⟩
  · show execEthFrameReceived port false fine frame s = _
    simp [execEthFrameReceived, hon, hup, h60, h9212]
  · show execEthFrameReceived port true fine frame s = _
    simp [execEthFrameReceived, hon, hup, h60, h9212, hg, hp, hf, hs, hu, hl]
  · show execEthFrameReceived port true fine frame s = _
    simp [execEthFrameReceived, hon, hup, h60, h9212, hg, hp, hf, hs]
  · show execEthLinkChange port rate s = _
    have hmode : (decide (s.reg (Regs.ethMode port.val) = 1) && decide (rate.val ≠ 1)) = false := by
      rcases hm with hm | hm <;> simp [hm]
    simp only [execEthLinkChange, if_neg hr, hon, hmode]
    rfl
  · refine ⟨s.linkLost port.val, rfl, ?_, reg_setReg_same .., kget_kset_same _ _ _ _, rfl, rfl⟩
    exact (reg_setReg_ne _ _ (by simp [Regs.ethRate, Regs.ethLinkUp])).trans (reg_setReg_same s ..)
  · refine ⟨(if w.frame.stamped then { s with sundial := { s.sundial with onWire := kdel s.sundial.onWire port.val } }.setReg
      (Regs.ethTxLastStamp port.val) w.stamp else { s with sundial := { s.sundial with onWire := kdel s.sundial.onWire port.val } }).emit
        (.eth port.val w.frame.data), ?_, ?_⟩
    · show execEthFrameSent port s = _
      simp only [execEthFrameSent, hw, if_pos he]
    · cases hst : w.frame.stamped
      · exact ⟨rfl, kfind_kdel_same _ _, rfl, rfl⟩
      · exact ⟨rfl, kfind_kdel_same _ _, reg_setReg_same .., rfl⟩
  · simp [State.macStarts, hg, hf, hfree, hb]
  · unfold State.macStarts
    simp only [hfree]
    split <;> rfl

/-- The item of an inertial read (R92): its stamp, six values, SEQ, the length read and the bytes. -/
def State.imuItem (s : State) (port stamp : Nat) (data : Bytes) : Bytes :=
  let read := padTo (s.reg (Regs.imuReadLen port)) data
  padTo 64 (toLe 16 stamp ++ (List.range 6).flatMap (fun k => toLe 4 (s.imuValue (36 + port) read k))
    ++ toLe 4 (s.ingest (36 + port)).seq ++ toLe 4 read.length ++ padTo 16 read)

/-- The state in which a read's bytes have come and its item is not yet stored: SEQ has risen, and no slot is taken (R91, R92). -/
def State.imuRead (s : State) (port : Nat) : State :=
  let t : State := { s with lodge := { s.lodge with reading := kdel s.lodge.reading port }, freeIx := s.freeIx + 6 }
  t.setIngest (36 + port) { s.ingest (36 + port) with seq := ((s.ingest (36 + port)).seq + 1) % 2 ^ 32, taken := none }

/-- The state in which a read is under way, with its stamp and the slot that its item takes (R91). -/
def State.imuStarted (s : State) (port : Nat) (k : Option Nat) (stamp : Nat) : State :=
  let t := s.setIngest (36 + port) { s.ingest (36 + port) with taken := k }
  { t with lodge := { t.lodge with reading := kset t.lodge.reading port stamp } }

section
variable {s s1 : State} {port : Fin 6}

theorem imuRead_ingest (s : State) (port : Nat) : (s.imuRead port).ingest (36 + port) =
    { s.ingest (36 + port) with seq := ((s.ingest (36 + port)).seq + 1) % 2 ^ 32, taken := none } :=
  kget_kset_same _ _ _ _

theorem execImuReadComplete_taken {data : Bytes} {stamp k : Nat} (hr : kfind s.lodge.reading port.val = some stamp)
    (hk : (s.ingest (36 + port.val)).taken = some k) :
    exec (.imuReadComplete port data) s =
      .next ((s.imuRead port.val).fillItem (36 + port.val) k stamp (s.imuItem port.val stamp data)) := by
  have hk' : (State.ingest { s with lodge := { s.lodge with reading := kdel s.lodge.reading port.val } } (36 + port.val)).taken = some k := hk
  show execImuReadComplete port data s = _
  simp only [execImuReadComplete, hr, hk']
  rfl

theorem execDrdyEdge_starts {rising : Bool} {fine : Fin 16} {k : Option Nat} (hon : s.pdOn 40 = true)
    (hedge : rising ≠ s.flag (Regs.imuDrdyPol port.val)) (hnone : kfind s.lodge.reading port.val = none)
    (hl : s.ingestLive (36 + port.val) = true) (hstart : s.startItem (36 + port.val) = (s1, k)) :
    exec (.drdyEdge port rising fine) s =
      .next ((s1.imuStarted port.val k (s.stampAt (tapSpi port.val) fine.val (-(s.reg (Regs.spiDrdyLat port.val) : Int)))).emit
        (.spi port.val (s1.blob (Blobs.imuCmd port.val) []))) := by
  show execDrdyEdge port rising fine s = _
  simp only [execDrdyEdge, hon, hnone, hl, hstart, beq_eq_false_iff_ne.mpr hedge]
  rfl

end

/-- The identifier word of a CAN item (R95). -/
def canIdWord (f : CanFrame) : Nat :=
  f.ident + (if f.ide then 2 ^ 29 else 0) + (if f.fdf then 2 ^ 30 else 0) + (if f.brs then 2 ^ 31 else 0)

/-- The item of a CAN frame (R95): its stamp, its identifier, its length, four signals and its bytes. -/
def State.canItem (s : State) (j : Nat) (f : CanFrame) : Bytes :=
  let data := padTo (dlcLength f.fdf f.dlc.val) f.data
  padTo 128 (toLe 16 (s.stampAt tapCan 0 (-(s.reg Regs.canSofLat : Int))) ++ toLe 4 (canIdWord f)
    ++ toLe 4 (f.dlc.val + 256 * dlcLength f.fdf f.dlc.val) ++ (List.range 4).flatMap (fun k => toLe 4 (s.canSignal j data k)) ++ padTo 64 data)

theorem slice_canItem (s : State) (j : Nat) (f : CanFrame) : slice (s.canItem j f) 16 4 = toLe 4 (canIdWord f) := by
  have h := slice_padTo_append (n := 128) (a := toLe 16 (s.stampAt tapCan 0 (-(s.reg Regs.canSofLat : Int)))) (b := toLe 4 (canIdWord f))
    (c := toLe 4 (f.dlc.val + 256 * dlcLength f.fdf f.dlc.val) ++ ((List.range 4).flatMap (fun k =>
      toLe 4 (s.canSignal j (padTo (dlcLength f.fdf f.dlc.val) f.data) k)) ++ padTo 64 (padTo (dlcLength f.fdf f.dlc.val) f.data)))
    (by simp [length_toLe])
  rw [length_toLe, length_toLe] at h
  rw [← h, State.canItem]
  simp only [List.append_assoc]

theorem execCanFrameReceived_taken {s : State} {f : CanFrame} {j : Nat} (hon : s.pdOn 40 = true) (hio : s.pins.io33 = true)
    (hbus : s.lodge.busOff = false) (hr : f.remote = false) (hj : s.canStream f = some j) (hl : s.ingestLive (42 + j) = true) :
    exec (.canFrameReceived f) s = .next ({ s with freeIx := s.freeIx + 4 }.wholeItem (42 + j)
      (s.stampAt tapCan 0 (-(s.reg Regs.canSofLat : Int))) (s.canItem j f)) := by
  show execCanFrameReceived f s = _
  simp only [execCanFrameReceived, hon, hio, hbus, hr, hj, hl]
  rfl

/-- Settles O27: each event falls in its branch, and each item is laid out in its length. -/
theorem inertialAndCanItems : Obligations.InertialAndCanItems := by
  refine ⟨fun port rising fine k s s1 hon hedge hnone hl hstart => ?_, fun port rising fine x s hon hedge hx => ?_,
    fun port rising fine s h => ?_, fun port data stamp k s hr hk => ?_, fun port data stamp s hr hk => ?_,
    fun f s hon hio hbus hr hj => ?_,
    fun f j s hon hio hbus hr hj hl => ⟨_, s.canItem j f, execCanFrameReceived_taken hon hio hbus hr hj hl, rfl, length_padTo _ _, slice_canItem s j f⟩,
    fun f ctrl s hio => ⟨?_, ?_⟩, fun s hon hio => ?_, fun s hon => ?_, fun s => rfl, fun s => rfl, fun s => rfl⟩
  · refine ⟨_, execDrdyEdge_starts hon hedge hnone hl hstart, ?_, kfind_kset_same _ _ _, rfl, rfl, rfl⟩
    exact congrArg Ingest.taken (ingest_setIngest_same s1 (36 + port.val) { s1.ingest (36 + port.val) with taken := k })
  · show execDrdyEdge port rising fine s = _
    simp [execDrdyEdge, hon, hedge, hx]
  · show execDrdyEdge port rising fine s = _
    simp [execDrdyEdge, h]
  · refine ⟨_, s.imuRead port.val, s.imuItem port.val stamp data, execImuReadComplete_taken hr hk, rfl, length_padTo _ _, ?_, ?_,
      kfind_kdel_same _ _, rfl, rfl⟩ <;> rw [imuRead_ingest]
  · show execImuReadComplete port data s = _
    have hk' : (State.ingest { s with lodge := { s.lodge with reading := kdel s.lodge.reading port.val } } (36 + port.val)).taken = none := hk
    simp only [execImuReadComplete, hr, hk']
  · show execCanFrameReceived f s = _
    simp [execCanFrameReceived, hon, hio, hbus, hr, hj]
  · show execCanFrameReceived f s = _
    simp [execCanFrameReceived, hio]
  · show execCanErrorFrame ctrl s = _
    simp [execCanErrorFrame, hio, State.bumpIf]
  · show execCanErrorFrame 1 s = _
    simp [execCanErrorFrame, hon, hio, State.bumpIf]
  · show execCanBusOffEntry 1 s = _
    simp [execCanBusOffEntry, hon]

end Sys2Proof.Machine
end

section
/-! R104–R135: poses, epochs, grids, neighbours, views and labels. -/

namespace Sys2Proof.Machine

section
variable {α : Type} {s s1 : State} {l : Lane} {op : Nat} {check : State → Item → Checked α} {run : State → Item → α → State}
  {i : Item} {a : α}

/-- An item that may run is run, and its command does nothing else. -/
theorem next_mayRun (h : s.mayRun l op check i s1 a) {t : State} (ht : run s1 i a = t) :
    (Host.Outcome.next (s.runItem l op check run) : Res) = .next t :=
  congrArg Host.Outcome.next ((runItem_mayRun h).trans ht)

end

/-- A tick of the integrator (R105) adds one sample. -/
theorem integrate_ring (s : State) (k : Nat) : (s.integrate k).pergola.lastTick = some k ∧
    (s.integrate k).pergola.poseCount = min 4096 (s.pergola.poseCount + 1) ∧
    (s.integrate k).pergola.poseNext = (s.pergola.poseNext + 1) % 4096 := by
  have hpush (t : State) (x : Nat) : (t.pushPose x).pergola.poseNext = (t.pergola.poseNext + 1) % 4096 ∧
      (t.pushPose x).pergola.poseCount = min 4096 (t.pergola.poseCount + 1) := by
    have hpoke : (t.poke (poseSlot t.pergola.poseNext) (toLe 64 x)).pergola = t.pergola := by rw [poke_frame]
    simp only [State.pushPose, hpoke, and_self]
  simp only [State.integrate, bumpIf_pergola]
  exact ⟨trivial, (hpush _ _).2, (hpush _ _).1⟩

theorem foldl_orElse_none {α β : Type} {f : β → Option α} {l : List β} (h : ∀ x ∈ l, f x = none) :
    l.foldl (fun e x => e.orElse (fun _ => f x)) none = none := by
  induction l with
  | nil => rfl
  | cons x l ih =>
    rw [List.foldl_cons, h x (List.mem_cons_self ..)]
    exact ih fun y hy => h y (List.mem_cons_of_mem _ hy)

theorem isBad_nil (a n : Nat) : isBad [] a n = false := rfl

/-- Settles O28: each item passes its checks, and its data are whole and its destination answers. -/
theorem posesEpochsAndTables : Obligations.PosesEpochsAndTables := by
  refine ⟨fun k s h0 hw hr hk => ?_, fun i s s1 w h hw hg he hok => next_mayRun h ?_, fun i s s1 outs h hb => ?_,
    fun b i s hb hc => ?_, fun b i s hb hc => ?_,
    fun b i c outs s s1 ms noPose extrap used w ws s2 hb hi hof hc hgrids hms hw hws hbad he hall => ?_,
    fun i s s1 s2 d w h hw hg he hl => next_mayRun h ?_, fun i s s1 s2 a w h hw hg he hl => next_mayRun h ?_,
    fun i s s1 s2 s3 a w spans h hsp hw hg hb he hl hlate hfill hs3 => next_mayRun h ?_⟩
  · refine ⟨s.integrate k, ?_, rfl, integrate_ring s k⟩
    show execPoseTick s = _
    simp [execPoseTick, h0, hw, hr, hk]
  · simp only [← hw, hg, he, hok, if_true]
  · show execPgBin s = _
    rw [execPgBin, h.1]
    simp only [hb, Bool.false_eq_true, if_false]
    exact next_mayRun h rfl
  · show execEpochClose s = _
    simp only [execEpochClose, hb, hc, if_true]
  · show execEpochClose s = _
    simp only [execEpochClose, hb, hc, Bool.false_eq_true, if_false]
  · show execPgBinComplete s = _
    simp only [execPgBinComplete, hb, hi, hof, if_true, hc, hgrids, hms, ← hw]
    have hworks : outs.foldl (fun (x : State × List (GridOut × GridWork)) o =>
        ((x.1.gridWork i o.grid b.te ms).s, x.2 ++ [(o, x.1.gridWork i o.grid b.te ms)])) (w.s, []) = (s2, ws) := hws.symm
    have hnone : ws.foldl (fun e x => e.orElse (fun _ => x.2.bad)) (b.bad.orElse fun _ => w.entry) = none := by
      rw [hbad, he]; exact foldl_orElse_none hall
    simp only [hworks, hnone]
  · simp only [← hw, hg, he, hl]
  · obtain ⟨headers, features, out⟩ := a
    cases features with
    | none =>
      dsimp only at hw hl ⊢
      simp only [← hw, hg, he, hl]
    | some t =>
      dsimp only at hw hl ⊢
      simp only [← hw, hg, he, hl]
  · subst hsp hs3
    simp only [← hw, hg, he, hl, hfill, hb, isBad_nil, Bool.not_false, Bool.false_eq_true, if_false, if_true, hlate]

end Sys2Proof.Machine
end


section
/-! R190–R219, R390–R396: rings, queues, doorbells, lanes, completions and what the dispatcher executes. -/

namespace Sys2Proof.Machine

/-! ### Rings and internal queues -/

section
variable {s : State} {p : Path} {x : Bytes} {r c q : Nat}

/-- The state of a ring newly enabled (R391): no failed reads, head, tail and SEQ 0. -/
def State.ringStarted (s : State) (r : Nat) : State :=
  let t : State := { s with link := { s.link with failedReads := s.link.failedReads.filter (fun f => decide (f.ring ≠ r)) } }
  (((t.setReg (Regs.ringEnable r) 1).setReg (Regs.ringHead r) 0).setReg (Regs.ringTail r) 0).setRing r {}

theorem hookRingEnable_starts (hx : ofLe x = 1) (hoff : s.flag (Regs.ringEnable r) = false) (hsize : s.reg (Regs.ringSize r) ≠ 0)
    (hplace : s.ringPlace (s.reg (Regs.ringBase r)) (s.reg (Regs.ringSize r) * 64) = true)
    (hclash : clash s.allClaims 6 r (s.reg (Regs.ringBase r)) (s.reg (Regs.ringSize r) * 64) = none) :
    hookRingEnable r s p x = .ok (s.ringStarted r) := by
  simp [hookRingEnable, hx, hoff, hsize, hplace, hclash, State.ringStarted]

/-- The state of a completion ring newly enabled (R390): head, tail and phase 0. -/
def State.compStarted (s : State) (c : Nat) : State :=
  ((((s.setReg (Regs.cqEnable c) 1).setReg (Regs.cqHead c) 0).setReg (Regs.cqTail c) 0).setReg (Regs.cqPhase c) 0).setComp c {}

theorem hookCqEnable_starts (hx : ofLe x = 1) (hoff : s.flag (Regs.cqEnable c) = false) (hsize : s.reg (Regs.cqSize c) ≠ 0)
    (hplace : s.ringPlace (s.reg (Regs.cqBase c)) (s.reg (Regs.cqSize c) * 16) = true)
    (hclash : clash s.allClaims 7 c (s.reg (Regs.cqBase c)) (s.reg (Regs.cqSize c) * 16) = none) :
    hookCqEnable c s p x = .ok (s.compStarted c) := by
  simp [hookCqEnable, hx, hoff, hsize, hplace, hclash, State.compStarted]

theorem hookIqEnable_starts (hx : ofLe x = 1) (ho : s.reg (Regs.iqOwner q) = s.writer p) (ho' : s.reg (Regs.iqOwner q) ≠ 0)
    (hoff : s.flag (Regs.iqEnable q) = false) (hready : s.iqReady q = true)
    (hclash : clash (s.iqClaims ++ s.lodgeClaims) 13 (0x200 + 128 + q) (s.iqExtent q).1 (s.iqExtent q).2 = none) :
    hookIqEnable q s p x = .ok ((s.setReg (Regs.iqEnable q) 1).setIq q {}) := by
  simp [hookIqEnable, rangeFirst, ownedHook, hx, ho ▸ ho', ho, hoff, hready, hclash]

theorem hookIqEnable_stops (hx : ofLe x = 0) (ho : s.reg (Regs.iqOwner q) = s.writer p) (ho' : s.reg (Regs.iqOwner q) ≠ 0)
    (hon : s.flag (Regs.iqEnable q) = true) :
    hookIqEnable q s p x = .ok ((s.flushQueue (128 + q)).setReg (Regs.iqEnable q) 0) := by
  simp [hookIqEnable, rangeFirst, ownedHook, hx, ho ▸ ho', ho, hon]

end

theorem flag_of_reg_one {s : State} {r : Reg} (h : s.reg r = 1) : s.flag r = true := by rw [State.flag, h]; rfl

/-- Settles O29: each write passes its rule's conditions. -/
theorem ringAndQueueWrites : Obligations.RingAndQueueWrites := by
  refine ⟨fun p r v x s hx hv => next_accepted hx (actHook_one hv), fun p r v x s hx hv hoff hsize hplace hclash => ?_,
    fun p c v x s hx hv hoff hsize hplace hclash => ?_, fun p q v x s hx hv ho ho' => next_accepted hx ?_,
    fun p q v x s hx hv ho ho' hoff hready hclash => next_accepted hx (hookIqEnable_starts hv ho ho' hoff hready hclash),
    fun p q v x s hx hv ho ho' hon => next_accepted hx (hookIqEnable_stops hv ho ho' hon)⟩
  · refine ⟨_, next_accepted hx (hookRingEnable_starts hv hoff hsize hplace hclash), flag_of_reg_one ?_, ?_, ?_, ?_, rfl, rfl⟩
    · simp [State.accepted, State.ringStarted, reg_setReg, Regs.ringEnable, Regs.ringHead, Regs.ringTail]
    · simp [State.accepted, State.ringStarted, reg_setReg, Regs.ringHead, Regs.ringTail]
    · simp [State.accepted, State.ringStarted]
    · exact congrArg Ring.seq (kget_kset_same ..)
  · refine ⟨_, next_accepted hx (hookCqEnable_starts hv hoff hsize hplace hclash), flag_of_reg_one ?_, ?_, ?_, ?_, rfl, rfl⟩
    · simp [State.accepted, State.compStarted, reg_setReg, Regs.cqEnable, Regs.cqHead, Regs.cqTail, Regs.cqPhase]
    · simp [State.accepted, State.compStarted, reg_setReg, Regs.cqHead, Regs.cqTail, Regs.cqPhase]
    · simp [State.accepted, State.compStarted, reg_setReg, Regs.cqTail, Regs.cqPhase]
    · simp [State.accepted, State.compStarted]
  · rw [hookIqFlush, ownedHook_owner ho ho', actHook_one hv]

/-! ### Doorbells, dispatch and lanes -/

/-- Settles O31: each doorbell falls in its branch of R392, and the dispatcher and the lanes take theirs. -/
theorem doorbellsAndLanes : Obligations.DoorbellsAndLanes := by
  refine ⟨fun r v s hoff => ⟨if_neg (by simp [hoff]), if_neg (by simp [hoff])⟩, fun r v s hon hopen hen hv hd => ?_,
    fun c v s hon hopen hen hv hd => ?_, fun r v s hon h => ?_, fun c v s hon h => ?_,
    fun r s g lane hen hon hg hdrop hends hjudge hstall => ?_, fun l i s hrun hch hnext hgold => ?_, fun l i s hy => ?_, fun r s => rfl⟩
  · refine (if_pos hon).trans (congrArg Host.Outcome.next (if_pos ?_))
    simp [hopen, hen, hv, hd]
  · refine (if_pos hon).trans (congrArg Host.Outcome.next (if_pos ?_))
    simp [hopen, hen, hv, hd]
  · refine (if_pos hon).trans (congrArg Host.Outcome.next (if_neg ?_))
    rcases h with h | h | h | h <;> simp [h, Nat.not_lt.mpr, Nat.not_le.mpr]
  · refine (if_pos hon).trans (congrArg Host.Outcome.next (if_neg ?_))
    rcases h with h | h | h | h <;> simp [h, Nat.not_lt.mpr, Nat.not_le.mpr]
  · show execItemDispatch r s = _
    simp only [execItemDispatch, hen, hon, ← hg, hdrop, hends, hjudge, hstall]
    rfl
  · have hheld : ¬ (i.cls ≠ 0 ∧ s.goldenHolds l = true) := by
      rintro ⟨hc, hh⟩
      rcases hgold with h | h
      · exact hc h
      · rw [h] at hh; cases hh
    show execLaneSelect l s = _
    simp only [execLaneSelect, hrun, hch, hnext, if_neg hheld]
    rfl
  · show Host.Outcome.next (s.preempt l _) = _
    simp only [State.preempt, hy]

/-! ### Completions and the dispatcher's items -/

section
variable {s : State} {i : Item} {g k v : Nat}

theorem signalSem_sets : s.signalSem g k v true = (s.setSem g k v).semChanged g := rfl

theorem signalSem_adds (h : s.sem g k + v < 2 ^ 32) : s.signalSem g k v false = (s.setSem g k (s.sem g k + v)).semChanged g := by
  have hmin : min (s.sem g k + v) (2 ^ 32 - 1) = s.sem g k + v := by omega
  simp only [State.signalSem, hmin, decide_eq_false (Nat.not_le.mpr h)]
  rfl

theorem signalSem_saturates (h : 2 ^ 32 ≤ s.sem g k + v) :
    s.signalSem g k v false = ((s.bump (Regs.semSaturations g)).setSem g k (2 ^ 32 - 1)).semChanged g := by
  have hmin : min (s.sem g k + v) (2 ^ 32 - 1) = 2 ^ 32 - 1 := by omega
  simp only [State.signalSem, hmin, decide_eq_true h]
  rfl

/-- A SEM_SIGNAL that R205 lets through ends DONE and signals. -/
theorem execSemSignal_done {r : Fin 64} (hi : s.dispatcherItem r.val 4 = some i) (hg : i.field 39 32 ≤ 31)
    (hf : s.fenced (i.field 39 32) = false) (hon : s.pdOn (gafferPd (i.field 39 32)) = true) (hl : s.leaseRefuses i = false) :
    exec (.semSignal r) s = .next ((s.setFinish i (finDone 0)).signalSem (i.field 39 32) (i.field 44 40) (i.field 95 64) (bit i.rec0 48)) := by
  show execSemSignal r s = _
  simp only [execSemSignal, hi, if_neg (Nat.not_lt.mpr hg), hf, hon, hl]
  rfl

/-- A SEM_WAIT that R206 lets through is offered to its semaphore. -/
theorem execSemWait_offers {r : Fin 64} (hi : s.dispatcherItem r.val 5 = some i) (hp : i.phase ≠ .pendingWait) (hg : i.field 39 32 ≤ 31)
    (hb : ¬ (bit i.rec0 48 = true ∧ bit i.rec0 49 = true)) (hf : s.fenced (i.field 39 32) = false)
    (hon : s.pdOn (gafferPd (i.field 39 32)) = true) (hl : s.leaseRefuses i = false) :
    exec (.semWait r) s = .next (s.offerWait i) := by
  show execSemWait r s = _
  simp only [execSemWait, hi, if_neg hp, if_neg (not_or.mpr ⟨Nat.not_lt.mpr hg, hb⟩), hf, hon, hl]
  rfl

/-- A vector that is unmasked, before its pending message (R395). -/
def State.vectorOpened (s : State) (v : Nat) : State :=
  { s with link := { s.link with
      unmasked := if v ∈ s.link.unmasked then s.link.unmasked else v :: s.link.unmasked
      pendingMsix := s.link.pendingMsix.filter (· != v) } }

theorem msix_sends (hv : v < 64) (hup : s.flag Regs.hifLinkUp = true) (hm : v ∈ s.link.unmasked) : s.msix v = s.emit (.msix v) := by
  simp [State.msix, Nat.not_le.mpr hv, hup, hm]

theorem mem_unmasked (v : Nat) (l : List Nat) : v ∈ (if v ∈ l then l else v :: l) := by
  split
  · assumption
  · exact List.mem_cons_self ..

end

/-- Settles O32: each event falls in its branch. -/
theorem completionsAndDispatcherItems : Obligations.CompletionsAndDispatcherItems := by
  refine ⟨fun r seq i f s hi hf => ?_, fun c since s hc hv ht hdue => ?_, fun v s hon hp hup => ?_, fun v s hon hp => ?_,
    fun r i s hi hl => ?_, fun r i s hi hp hl hm => ?_, fun r i s hi hp hl hm => ?_, fun r i s hi hg hf hon hl hb hsat => ?_,
    fun r i s hi hg hf hon hl hb => ?_, fun r i s hi hg hf hon hl hb hsum => ?_, fun r i s hi hp hg hb hf hon hl hm => ?_,
    fun r i s t hi hp hg hb hf hon hl hm ht => ?_, fun r i s hi hp hw => ?_, fun r i s hi hq hs => ?_⟩
  · show Host.Outcome.next (s.completeItem r.val seq).policyFences.takeDamage = _
    simp only [State.completeItem, hi, hf]
  · show execCqCoalesceTimeout c s = _
    simp only [execCqCoalesceTimeout, hc, if_pos (And.intro hv (And.intro ht hdue)), State.coverRecords]
  · refine ⟨(s.vectorOpened v.val).emit (.msix v.val), ?_, rfl, ?_, mem_unmasked _ _, rfl, rfl, rfl⟩
    · refine (if_pos hon).trans (congrArg Host.Outcome.next ((if_pos (decide_eq_true hp)).trans ?_))
      exact msix_sends v.isLt hup (mem_unmasked _ _)
    · show v.val ∉ s.link.pendingMsix.filter (· != v.val)
      simp
  · exact ⟨s.vectorOpened v.val, (if_pos hon).trans (congrArg Host.Outcome.next (if_neg (by simpa using hp))), rfl, mem_unmasked _ _,
      rfl, rfl, rfl⟩
  · show execNop r s = _
    simp only [execNop, hi, hl, Bool.false_eq_true, if_false]
  · show execBarrier r s = _
    simp only [execBarrier, hi, if_neg hp, hl, hm, Bool.false_eq_true, if_false, if_true]
  · show execBarrier r s = _
    simp only [execBarrier, hi, hl, hm, Bool.false_eq_true, if_false, State.waitOrFail, State.startWait, hp, ne_eq,
      not_false_eq_true, and_true]
  · rw [execSemSignal_done hi hg hf hon hl, hb]
    exact congrArg Host.Outcome.next (signalSem_saturates hsat)
  · rw [execSemSignal_done hi hg hf hon hl, hb, signalSem_sets]
  · rw [execSemSignal_done hi hg hf hon hl, hb]
    exact congrArg Host.Outcome.next (signalSem_adds hsum)
  · rw [execSemWait_offers hi hp hg hb hf hon hl]
    simp only [State.offerWait, hm, if_true]
  · rw [execSemWait_offers hi hp hg hb hf hon hl]
    subst ht
    simp only [State.offerWait, hm, Bool.false_eq_true, if_false, State.startWait, if_neg hp]
    rfl
  · show execSemWaitReoffer r s = _
    simp only [execSemWaitReoffer, hi]
    exact if_pos ⟨hp, List.all_eq_true.mpr fun w hmem => by rw [decide_eq_false (hw w hmem)]; rfl⟩
  · show execWaitTimeout r s = _
    simp only [execWaitTimeout, hi, hq, hs, Bool.false_eq_true, if_false]

end Sys2Proof.Machine
end

section
/-! R54, R97, R98, R207–R217: copies, queue items, MATMUL, REDUCE and vector programs. -/

namespace Sys2Proof.Machine

/-! ### Pushes and pops -/

section
variable {s s1 s2 : State} {i j : Item} {ag : Agent} {f : Finish}

theorem startWait_of_not {i : Item} (h : i.phase ≠ .pendingWait) : s.startWait i = s.setItem { i with phase := .pendingWait, since := s.now } :=
  if_neg h

theorem waitOrFail_waits {detail : Nat} (ht : i.timeout ≠ 0) : s.waitOrFail i detail = s.startWait i :=
  if_neg fun h => ht h.1

theorem pushSlot_stores {k : Nat} (hk : k = i.queue - 128) (hp : (s.iq k).pushing = none) (ht : s.queueTurn i = true)
    (hroom : (s.iq k).used < s.reg (Regs.iqSlotCount k))
    (hc : s.copyBytes i ag ag i.qAddr (s.reg (Regs.iqBase k) + (s.iq k).next * s.reg (Regs.iqSlotSize k)) i.qLength =
      (s2, finDone (auxBytes i.qLength))) :
    s.pushSlot ag i = (s2.setIq k { s.iq k with
      next := ((s.iq k).next + 1) % s.reg (Regs.iqSlotCount k),
      pushing := some ⟨i.ring, i.seq, ⟨(s.iq k).next, i.qLength⟩⟩ }).setFinish i (finDone 0) := by
  have hgo : ((s.iq k).pushing.isSome || !s.queueTurn i || decide (s.reg (Regs.iqSlotCount k) ≤ (s.iq k).used)) = false := by
    simp [hp, ht, hroom]
  have hdone : ∀ a, (finDone a).status = 0 := fun _ => rfl
  simp only [State.pushSlot, ← hk, hgo, hc, hdone, ne_eq, not_true, false_and, if_true, if_false, Bool.false_eq_true]

theorem pushSlot_waits {k : Nat} {full : Bool} (hk : k = i.queue - 128) (hq : 128 ≤ i.queue)
    (hw : (s.iq k).pushing.isSome = true ∨ s.queueTurn i = false ∨ s.reg (Regs.iqSlotCount k) ≤ (s.iq k).used)
    (hfull : full = (decide (s.reg (Regs.iqSlotCount k) ≤ (s.iq k).used) && (s.iq k).pushing.isNone && !i.counted))
    (hj : j = if full then { i with counted := true } else i) (hp : i.phase ≠ .pendingWait) (ht : i.timeout ≠ 0) :
    s.pushSlot ag i = ((s.setItem j).bumpIf full (Regs.iqFullWaits k)).setItem { j with phase := .pendingWait, since := s.now } := by
  have hcond : ((s.iq (i.queue - 128)).pushing.isSome || !s.queueTurn i ||
      decide (s.reg (Regs.iqSlotCount (i.queue - 128)) ≤ (s.iq (i.queue - 128)).used)) = true := by
    rw [← hk]
    rcases hw with h | h | h <;> simp [h]
  have hj' : j.phase ≠ .pendingWait ∧ j.timeout ≠ 0 := by
    rw [hj]
    split
    · exact ⟨hp, ht⟩
    · exact ⟨hp, ht⟩
  have hnow : ((s.setItem j).bumpIf full (Regs.iqFullWaits k)).now = s.now := by rw [bumpIf_now]; rfl
  have h72 : 72 ≤ i.queue := by omega
  simp only [State.pushSlot, hcond, if_true, State.pushWaits, h72, decide_true, Bool.and_true]
  rw [← hk, ← hfull, ← hj, waitOrFail_waits hj'.2, startWait_of_not hj'.1, hnow]

theorem pushFrame_waits (h : (kfind s.lodge.pushes i.queue).isSome = true ∨ s.queueTurn i = false ∨ 32 ≤ s.txUsed i.queue) :
    s.pushFrame ag i = (s.setItem i).waitOrFail i 1 := by
  have hcond : ((kfind s.lodge.pushes i.queue).isSome || !s.queueTurn i || decide (32 ≤ s.txUsed i.queue)) = true := by
    rcases h with h | h | h <;> simp [h]
  simp only [State.pushFrame, hcond, if_true]
  rfl

theorem popIq_waits (h : (s.iq (i.queue - 128)).items = [] ∨ (s.iq (i.queue - 128)).popping.isSome = true ∨ s.queueTurn i = false) :
    s.popIq ag i = s.waitOrFail i 1 := by
  unfold State.popIq
  dsimp only
  split
  · rfl
  · rename_i hitems
    rcases h with h | h | h
    · rw [h] at hitems; cases hitems
    · simp [h]
    · simp [h]

theorem popIngest_waits (h : (s.ingest i.queue).items = [] ∨ (s.ingest i.queue).pop.isSome = true ∨ s.queueTurn i = false) :
    s.popIngest ag i = s.waitOrFail i 1 := by
  unfold State.popIngest
  dsimp only
  split
  · rfl
  · rename_i hitems
    rcases h with h | h | h
    · rw [h] at hitems; cases hitems
    · simp [h]
    · simp [h]

end

/-- Settles O33: each item passes its checks, and its queue lets it through or has it wait. -/
theorem copiesAndQueueItems : Obligations.CopiesAndQueueItems := by
  refine ⟨fun u i s s1 s2 p w h hw hg he hl => next_mayRun h ?_, fun u i s s1 s2 d h hl => next_mayRun h ?_,
    fun l i s s1 s2 h hq hp ht hroom hc => next_mayRun h ((if_neg (by omega)).trans (pushSlot_stores rfl hp ht hroom hc)),
    fun l i j full s s1 h hq hw hfull hj hp ht =>
      next_mayRun h ((if_neg (by omega)).trans (pushSlot_waits rfl hq hw hfull hj hp ht)),
    fun l i s s1 w n h hq hp ht hroom hw hg he hn htime hlen => next_mayRun h ((if_pos hq).trans ?_),
    fun l i s s1 h hq hw => next_mayRun h ((if_pos hq).trans (pushFrame_waits hw)),
    fun l i s s1 s2 it rest f h hq hitems hp ht hc => next_mayRun h ((if_neg (by omega)).trans ?_),
    fun l i s s1 s2 it rest f h hq hitems hp ht hc => next_mayRun h ((if_pos hq).trans ?_),
    fun l i s s1 h hq hw => next_mayRun h ((if_neg (by omega)).trans (popIq_waits hw)),
    fun l i s s1 h hq hw => next_mayRun h ((if_pos hq).trans (popIngest_waits hw))⟩
  · simp only [State.copyTensor, ← hw, hg, hl, he, copyEnd]
  · simp only [State.fillTensor, hl]
  · subst hn
    have hfield : ¬ (56 ≤ i.queue ∧ 999999999 < bits (ofLe (w.s.peek i.qAddr 32)) 93 64) := by
      rintro ⟨hlaunch, hlate⟩
      exact absurd (htime hlaunch) (Nat.not_le.mpr hlate)
    simp [State.pushFrame, hp, ht, Nat.not_le.mpr hroom, ← hw, hg, he, if_neg hfield, hlen]
  · simp only [State.popIq, hitems, hp, ht, hc]
    rfl
  · simp only [State.popIngest, hitems, hp, ht, hc]
    rfl

/-! ### Programs -/

section
variable {s s1 : State} {u : CUnit} {v : VectorUnit} {i : Item} {x : Nat}

/-- A LOOP whose body lies inside its program and its enclosing body is entered (R212). -/
theorem vLoop_enters (h : s.vecAt u 0x40 v i x) (h1 : 1 ≤ bits (vImm x) 15 0) (h255 : bits (vImm x) 15 0 ≤ 255)
    (htimes : bits (vImm x) 31 16 ≠ 0) (hprog : v.index + 1 + bits (vImm x) 15 0 ≤ v.prog.length)
    (houter : ∀ f ∈ v.loops.head?, v.index + 1 + bits (vImm x) 15 0 ≤ f.past) (hdepth : v.loops.length < 4) :
    exec (.vLoop u) s = .next (s.vecAdvance u { v with
      loops := ⟨v.index + 1, v.index + 1 + bits (vImm x) 15 0, bits (vImm x) 31 16⟩ :: v.loops } (vCost u 0x40)) := by
  show execVLoop u s = _
  unfold execVLoop
  refine vecRun_ok h ?_
  dsimp only
  refine if_neg ?_
  cases hl : v.loops with
  | nil => rw [hl] at hdepth; dsimp only at hdepth ⊢; omega
  | cons f fs =>
    have hf := houter f (by rw [hl]; rfl)
    rw [hl] at hdepth
    dsimp only
    omega

end

/-- Settles O34: each item passes its checks and meets neither poison nor a mismatch; a program ends where R212 says. -/
theorem matmulReduceAndPrograms : Obligations.MatmulReduceAndPrograms := by
  refine ⟨fun u i s s1 s2 p h hf => next_mayRun h ?_, fun u i s s1 s2 p h hf => next_mayRun h ?_,
    fun u i s s1 prog h hr => next_mayRun h ?_, fun u i v x s h => ?_, fun u i v x s hn hover => ?_,
    fun u i v x s h h1 h255 htimes hprog houter hdepth => vLoop_enters h h1 h255 htimes hprog houter hdepth⟩
  · exact congrArg (fun r : State × Option Finish => r.1.setFinish i (r.2.getD (finDone 0))) hf
  · exact congrArg (fun r : State × Option Finish => r.1.setFinish i (r.2.getD (finDone 0))) hf
  · simp only [hr, Bool.false_eq_true, if_false]
  · show execVEnd u s = _
    exact vecRun_error h rfl
  · show execVectorTimeout u s = _
    simp only [execVectorTimeout, hn, hover, if_true]

/-! ### Memory and address instructions -/

section
variable {s : State} {u : CUnit} {v : VectorUnit} {i : Item} {x : Nat}

theorem vecReg_at {op : Nat} {g : (Nat → List Nat) → Nat → List Nat} (h : s.vecAt u op v i x) :
    s.vecReg u op g = .next (s.vecAdvance u (v.setReg (vD x) (g (v.reg (laneCount u)) x)) (vCost u op)) :=
  vecRun_ok h rfl

theorem drawAll_plain (gs : List Nat) : s.drawAll false gs = (s, gs.map fun _ => none) := by
  induction gs with
  | nil => rfl
  | cons g gs ih => simp [State.drawAll, State.drawFor, ih]

theorem countWritten_mem (ws : List (Nat × Written)) : (s.countWritten ws).mem = s.mem := by
  unfold State.countWritten
  induction ws generalizing s with
  | nil => rfl
  | cons w ws ih => rw [List.foldl_cons, ih]; simp

/-- FP32 lanes are written as they are, whatever was drawn for them. -/
theorem plain_written (ys : List Nat) (f : Nat → Nat) :
    ((ys.zip ((ys.map f).map fun _ => none)).map fun p =>
      if false = true then writePlain .bf16 p.2 (f32 p.1) false else (⟨p.1, (f32 p.1).isNan, false⟩ : Written)) =
      ys.map fun y => ⟨y, (f32 y).isNan, false⟩ := by
  induction ys with
  | nil => rfl
  | cons y ys ih => simpa using ih

/-- A store of FP32 lanes writes their bits (R211). -/
theorem vSt_stores {a : Nat} (h : s.vecAt u 0x02 v i x) (hbf : vBf x = false)
    (ha : s.vecAddr u v x (laneCount u * vSize x) true = .ok a) :
    ∃ t1 : State, exec (.vSt u) s = .next (t1.vecAdvance u { v with stored := (a, laneCount u * vSize x) :: v.stored } (vCost u 0x02)) ∧
      t1.mem = (s.put (.compute u) a ((v.reg (laneCount u) (vA x)).flatMap (toLe (vSize x)))).mem := by
  refine ⟨(s.put (.compute u) a ((v.reg (laneCount u) (vA x)).flatMap (toLe (vSize x)))).countWritten
    (((List.range (laneCount u)).map (columnGaffer u)).zip ((v.reg (laneCount u) (vA x)).map fun y => ⟨y, (f32 y).isNan, false⟩)), ?_, ?_⟩
  · show execVSt u s = _
    refine vecRun_ok h ?_
    simp only [ha, hbf, Bool.and_false, drawAll_plain, plain_written, List.flatMap_map]
  · rw [countWritten_mem]

end

/-- Settles O35: each instruction is the next of its program. -/
theorem vectorMemoryInstructions : Obligations.VectorMemoryInstructions := by
  refine ⟨fun u i v x s s1 l h hl => ?_, fun u i v x s s1 l h hl => ?_, fun u i v x a s h hbf ha => ?_, fun u i v x s h => ?_,
    fun u i v x s h => ?_⟩
  · show execVLd u s = _
    exact vecRun_ok h (by simp only [hl])
  · show execVLdb u s = _
    exact vecRun_ok h (by simp only [hl])
  · obtain ⟨t1, hrun, hmem⟩ := vSt_stores h hbf ha
    exact ⟨_, t1, hrun, rfl, hmem⟩
  · show execVPadd u s = _
    exact vecRun_ok h rfl
  · show execVMovi u s = _
    exact vecReg_at h

end Sys2Proof.Machine
end

section
/-! R158, R159, R211: vector arithmetic. -/

namespace Sys2Proof.Machine

section
variable {s : State} {u : CUnit} {v : VectorUnit} {i : Item} {x : Nat}

/-- Without a strike the check lets every result pass (R354). -/
theorem vectorCheck_whole {index : Nat} {xs : List Exact} (h : s.vecWhole u) :
    s.vectorCheck u i index xs = (s, .ok (xs.map Exact.round)) := by
  have hits : s.unitHits u Gaffer.vectorFault = [] := by
    rw [State.unitHits, List.filterMap_eq_nil_iff]
    rintro ⟨g, k⟩ hg
    rw [h g (List.fst_mem_of_mem_zipIdx hg)]
    rfl
  unfold State.vectorCheck
  simp [hits]

theorem vecCalc_whole {op : Nat} {g : (Nat → List Nat) → Nat → List Exact} (h : s.vecAt u op v i x) (hw : s.vecWhole u) {l : List Nat}
    (hl : (g (v.reg (laneCount u)) x).map Exact.round = l) :
    s.vecCalc u op g id = .next (s.vecAdvance u (v.setReg (vD x) l) (vCost u op)) := by
  subst hl
  exact vecCalc_ok h (vectorCheck_whole hw)

theorem v_add (x y : Exact) : (x.add y).v = x.v.add y.v := by
  unfold Exact.add
  split <;> rfl

theorem round_exactAdd (a b : Nat) : (exactAdd a b).round = fadd a b := congrArg toF32 (v_add _ _)
theorem round_exactSub (a b : Nat) : (exactSub a b).round = fsub a b := congrArg toF32 (v_add _ _)
theorem round_exactMul (a b : Nat) : (exactMul a b).round = fmul a b := rfl
theorem round_exactFma (a b c : Nat) : (exactFma a b c).round = ffma a b c := congrArg toF32 (v_add _ _)

theorem map_round_zipWith {α β : Type} {f : α → β → Exact} {g : α → β → Nat} (h : ∀ a b, (f a b).round = g a b) (xs : List α)
    (ys : List β) : (List.zipWith f xs ys).map Exact.round = List.zipWith g xs ys := by
  simp [List.map_zipWith, h]

/-- Without a strike the tree of R211 sums as its levels say. -/
theorem treeSum_whole {index : Nat} (hw : s.vecWhole u) (t : List Nat) (n : Nat) :
    s.treeSum u i index t n = (s, .ok (laneTree fadd t n)) := by
  induction n generalizing t with
  | zero => rfl
  | succ n ih =>
    rw [State.treeSum, laneTree]
    by_cases ht : t.length < 2
    · rw [if_pos ht]
      have hh : t.length / 2 = 0 := by omega
      simp only [hh, if_true]
    · rw [if_neg ht, vectorCheck_whole hw]
      have hh : ¬ t.length / 2 = 0 := by omega
      simp only [ih, firstLevel, map_round_zipWith round_exactAdd, if_neg hh]

end

/-- Settles O36: each instruction is the next of its program, and without a strike the check lets its results pass. -/
theorem vectorArithmetic : Obligations.VectorArithmetic := by
  refine ⟨fun u i v x s a b c ha hb hc => ?_, fun u i v x s a ha => ?_⟩
  · subst ha hb hc
    refine ⟨fun h hw => ?_, fun h hw => ?_, fun h hw => ?_, fun h hw => ?_, fun h => ?_, fun h => ?_, fun h => ?_, fun h => ?_,
      fun f s1 h hc => ?_⟩
    · show execVAdd u s = _
      exact vecCalc_whole h hw (map_round_zipWith round_exactAdd _ _)
    · show execVSub u s = _
      exact vecCalc_whole h hw (map_round_zipWith round_exactSub _ _)
    · show execVMul u s = _
      exact vecCalc_whole h hw (map_round_zipWith round_exactMul _ _)
    · show execVFma u s = _
      unfold execVFma
      exact vecCalc_whole h hw (map_round_zipWith (f := fun (p : Nat × Nat) c => exactFma p.1 p.2 c)
        (g := fun (p : Nat × Nat) c => ffma p.1 p.2 c) (fun p c => round_exactFma p.1 p.2 c) _ _)
    · show execVMin u s = _
      exact vecReg_at h
    · show execVMax u s = _
      exact vecReg_at h
    · show execVClt u s = _
      exact vecReg_at h
    · show execVSel u s = _
      exact vecReg_at h
    · show execVAdd u s = _
      exact vecCalc_error h hc
  · subst ha
    refine ⟨fun h => ?_, fun h => ?_, fun h => ?_, fun h => ?_, fun h => ?_, fun h hw _ => ?_, fun h => ?_⟩
    · show execVCvti u s = _
      exact vecReg_at h
    · show execVCvtf u s = _
      exact vecReg_at h
    · show execVExp u s = _
      exact vecReg_at h
    · show execVRcp u s = _
      exact vecReg_at h
    · show execVRsq u s = _
      exact vecReg_at h
    · show execVRsum u s = _
      exact vecRun_ok h (by simp only [treeSum_whole hw])
    · show execVRmax u s = _
      exact vecReg_at h

end Sys2Proof.Machine
end


section
/-! R156, R178, R180–R185: chairs, levels, seeds, fences, and the ends of their changes. -/

namespace Sys2Proof.Machine

section
variable {s : State} {p : Path} {x : Bytes} {g : Nat} {q : Reg}

/-! VDD_CORE follows the levels (R181): its pin, its object and its time, and nothing else. -/

@[simp] theorem setVcore_mem : s.setVcore.mem = s.mem := by simp only [State.setVcore]; split <;> rfl
@[simp] theorem setVcore_disp : s.setVcore.disp = s.disp := by simp only [State.setVcore]; split <;> rfl
@[simp] theorem setVcore_keeper : s.setVcore.keeper = s.keeper := by simp only [State.setVcore]; split <;> rfl
@[simp] theorem setVcore_now : s.setVcore.now = s.now := by simp only [State.setVcore]; split <;> rfl
@[simp] theorem setVcore_gaffer : s.setVcore.gaffer g = s.gaffer g := by rw [State.gaffer, setVcore_disp]; rfl
@[simp] theorem setVcore_pd {d : Nat} : s.setVcore.pd d = s.pd d := by simp only [State.setVcore]; split <;> rfl

theorem setVcore_reg (h : q.key ≠ Regs.pwrVcoreNow.key) : s.setVcore.reg q = s.reg q := by
  simp only [State.setVcore]
  split <;> exact reg_setReg_ne _ _ h

/-! A level change (R180, R182). -/

@[simp] theorem beginLevel_mem : (s.beginLevel g).mem = s.mem := setVcore_mem
@[simp] theorem beginLevel_items : (s.beginLevel g).disp.items = s.disp.items := by simp [State.beginLevel, State.setGaffer]
@[simp] theorem beginLevel_chairs : (s.beginLevel g).disp.chairsChanging = s.disp.chairsChanging := by
  simp [State.beginLevel, State.setGaffer]

theorem beginLevel_changing : ((s.beginLevel g).gaffer g).levelChanging = true := by simp [State.beginLevel]

theorem beginLevel_reg (h : q.key ≠ Regs.pwrVcoreNow.key) : (s.beginLevel g).reg q = s.reg q := by
  simp [State.beginLevel, setVcore_reg h]

theorem chairCauses_nil {new : Nat} (h : ∀ c, c < 16 → bit new c ≠ s.formed c → s.chairCause c (bit new c) = none) :
    ((List.range 16).filter (fun c => bit new c != s.formed c)).filterMap (fun c => s.chairCause c (bit new c)) = [] := by
  rw [List.filterMap_eq_nil_iff]
  intro c hc
  obtain ⟨hr, hd⟩ := List.mem_filter.mp hc
  exact h c (List.mem_range.mp hr) (by simpa using hd)

theorem hookChairFormed_free (h : ∀ c, c < 16 → bit (ofLe x) c ≠ s.formed c → s.chairCause c (bit (ofLe x) c) = none) :
    hookChairFormed s p x = .ok (((List.range 16).filter (fun c => bit (ofLe x) c != s.formed c)).foldl State.beginChair
      (s.setReg Regs.chairFormed (ofLe x))) := by
  simp only [hookChairFormed, chairCauses_nil h]

theorem hookSrSeed_idle (h : s.stochasticRing g = none) :
    hookSrSeed g s p x = .ok ((s.setReg (Regs.srSeed g) (ofLe x)).setReg (Regs.srState g) (ofLe x)) := by
  simp only [hookSrSeed, h]

end

/-- Settles O37: each write is accepted or refused by its own rule, and a level change only begins. -/
theorem chairLevelAndSeedWrites : Obligations.ChairLevelAndSeedWrites := by
  refine ⟨fun p v x s hx h => ?_, fun p g v x s hx h => ?_, fun p g v x s hx ho hf => ?_, fun p g v x s hx h => ?_⟩
  · exact next_accepted hx (hookChairFormed_free h)
  · refine ⟨_, next_accepted hx (if_neg h), ?_, ?_, ?_, ?_, ?_⟩
    · rw [reg_accepted, beginLevel_reg (by simp [Regs.gafferLevel, Regs.pwrVcoreNow]; omega), reg_setReg_same]
    · exact beginLevel_changing
    · rw [reg_accepted, beginLevel_reg (by simp [Regs.gafferLevelNow, Regs.pwrVcoreNow]; omega),
        reg_setReg_ne _ _ (by simp [Regs.gafferLevelNow, Regs.gafferLevel])]
    · exact beginLevel_mem
    · exact beginLevel_items
  · exact congrArg Host.Outcome.next (writeObject_refused hx (if_pos ⟨ho, hf⟩))
  · exact next_accepted hx (hookSrSeed_idle h)

section
variable {s : State} {p : Path} {x : Bytes} {g : Nat}

theorem bit_setBit (n i : Nat) (b : Bool) : bit (setBit n i b) i = b := by
  unfold bit setBit
  cases b
  · by_cases h : n.testBit i = true <;> simp [h]
  · simp

theorem named_one (h : g < 32) : (List.range 32).filter (fun k => (some g).isNone || some g == some k) = [g] := by
  interval_cases g <;> rfl

theorem hookGafferFence_sets (hg : g < 32) (hx : bit (ofLe x) g = true) (hf : s.fenced g = false) :
    hookGafferFence (some g) s p x = .ok (s.fence g (fenceCause (.host p))) := by
  simp only [hookGafferFence, named_one hg]
  simp [hx, hf]

theorem hookGafferFence_lifts (hg : g < 32) (hx : bit (ofLe x) g = false) (hf : s.fenced g = true)
    (hk : s.reg (Regs.gafferFenceCause g) = 3 → p = .canSafety ∨ p = .keeper) (hl : (s.gaffer g).lift = .none) :
    hookGafferFence (some g) s p x = .ok (s.beginLift g) := by
  simp only [hookGafferFence, named_one hg]
  rw [if_neg]
  · simp [hx, hf, hl]
  · rintro ⟨h1, h2, h3⟩
    have h4 : s.reg (Regs.gafferFenceCause g) = 3 := by simpa [hx, hf] using h3
    rcases hk h4 with h | h
    · exact h1 h
    · exact h2 h

theorem hookGafferFence_keepers (hg : g < 32) (hx : bit (ofLe x) g = false) (hf : s.fenced g = true)
    (hk : s.reg (Regs.gafferFenceCause g) = 3) (h1 : p ≠ .canSafety) (h2 : p ≠ .keeper) :
    hookGafferFence (some g) s p x = .error (conflictKind 13 0x400) := by
  simp only [hookGafferFence, named_one hg]
  exact if_pos ⟨h1, h2, by simp [hx, hf, hk]⟩

end

/-- Settles O38: a fence command writes its gaffer's bit, which the hook of GAFFER_FENCE sets or lifts. -/
theorem fencesAreSetAndLifted : Obligations.FencesAreSetAndLifted := by
  refine ⟨fun p g x s hx he _ hf => ?_, fun g s => rfl, fun g s => rfl, fun p g x s hx he _ hf hk hl => ?_,
    fun p g x s hx he hf hk h1 h2 => ?_⟩
  · exact next_accepted hx (hookGafferFence_sets g.isLt (by rw [he, bit_setBit]) hf)
  · exact next_accepted hx (hookGafferFence_lifts g.isLt (by rw [he, bit_setBit]) hf hk hl)
  · exact congrArg Host.Outcome.next
      (writeObject_refused hx (hookGafferFence_keepers g.isLt (by rw [he, bit_setBit]) hf hk h1 h2))

/-- Gaffer 0 fenced and drained, with a registered wait that acquires 0: emptying its semaphores meets the wait, which writes
semaphore 0 again. -/
def drainedWithWait : State :=
  State.reset.setGaffer 0 { drainDue := true, waits := [⟨0, 0, 0, false, true, 0⟩] }

theorem drainedWithWait_sems : ((drainedWithWait.fenceOff 0).gaffer 0).sems = [(0, 0)] := by
  rfl

theorem drainedWithWait_drained : drainedWithWait.drained (gafferPd 0) = true := rfl

/-- Refutes O39: a gaffer whose fence has drained need not be left without semaphores, where a wait for 0 that acquires is still
registered (`drainedWithWait`). -/
theorem not_gafferChangesComplete : ¬ Obligations.GafferChangesComplete := by
  rintro ⟨-, -, -, -, hpower, -⟩
  obtain ⟨t, ht, -, hsems, -⟩ := hpower 0 drainedWithWait rfl drainedWithWait_drained
  have he : execFencePowerOff 0 drainedWithWait = .next (drainedWithWait.fenceOff 0).setVcore :=
    if_pos (Bool.and_eq_true_iff.mpr ⟨rfl, drainedWithWait_drained⟩)
  replace he : exec (.fencePowerOff 0) drainedWithWait = .next (drainedWithWait.fenceOff 0).setVcore := he
  rw [he] at ht
  cases ht
  rw [setVcore_gaffer] at hsems
  exact absurd (drainedWithWait_sems.symm.trans hsems) (List.cons_ne_nil _ _)

end Sys2Proof.Machine
end

section
/-! R224–R295: Marver items, the KV manager's items, attention and the Arbor. -/

namespace Sys2Proof.Machine

section
variable {s t s1 : State} {i : Item} {op : Nat} {α : Type} {a : α} {sub : Item → Bool} {check : State → Item → Checked α}
  {run : State → Item → α → State}

/-- An item of the KV lane that may run runs, and ends as its tables let it (R370). -/
theorem next_kvRuns (h : s.mayRun kvLane op check i s1 a) (hs : sub i = true) (ht : run s1 i a = t) :
    (Host.Outcome.next (s.runKv op sub check run) : Res) = .next (s.kvEnds t i) := by
  have hready := h.1
  simp only [State.runKv, hready, hs, if_true, runItem_mayRun h, ht]

theorem mapIs_of {k : Nat} (h : i.mapOp = k) : mapIs k i = true := decide_eq_true h

theorem allocPages_fits {need : List Nat} (hn : need = i.pageList.filter (fun b => decide ((s.pte i.sequence b).st = 0)))
    (hf : need.length ≤ (s.pool (seqPool (s.seqEntry i.sequence))).free)
    (ht : ((need.map (fun b => b / 256)).eraseDups.filter (fun d => !bit (s.dir i.sequence d) 16)).length ≤ s.kv.l2Free.length) :
    s.allocPages i = (need.foldl (fun t b => t.allocPage i.sequence b) s).setFinish i (finDone need.length) := by
  subst hn
  exact if_neg (not_or.mpr ⟨not_lt.mpr hf, not_lt.mpr ht⟩)

theorem releaseFrom_idle {lo : Nat} {close : Bool} (h : bits (s.seqEntry i.sequence) 63 32 = 0) :
    s.releaseFrom i lo close =
      (if close then ((((s.usedPages i.sequence lo 16384).foldl (fun t b => t.releasePage i.sequence b) s).setSeqEntry i.sequence 0).forgetBlocks
        i.sequence) else (s.usedPages i.sequence lo 16384).foldl (fun t b => t.releasePage i.sequence b) s).setFinish i
          (finDone (s.usedPages i.sequence lo 16384).length) :=
  if_neg (not_not.mpr h)

end

/-- Settles O40: an item that may run runs once, and the KV lane's end is that of its tables. -/
theorem marverAndKvItems : Obligations.MarverAndKvItems := by
  refine ⟨fun m i s s1 a h => ?_, fun m i s s1 a h => ?_, fun m i s s1 a h => ?_,
    fun s s1 s2 s3 ag i first masks elems writes run w aux hw hg he hl hr h1 => ?_, fun i s s1 h ho => ?_,
    fun i s s1 need h ho hn hf ht => ?_, fun i s s1 h ho hz => ?_, fun i s s1 h ho hz => ?_,
    fun i s s1 s2 bs h ho hb hl => ?_, fun s t i h => ?_, fun s t i j e hs ht hi => ?_⟩
  · exact next_mayRun h rfl
  · exact next_mayRun h rfl
  · exact next_mayRun h rfl
  · subst hw h1
    simp only [State.mvRun, hg, hl, hr, he]
  · exact next_kvRuns h (by simp [ho]) rfl
  · exact next_kvRuns h (mapIs_of ho) (allocPages_fits hn hf ht)
  · exact next_kvRuns h (mapIs_of ho) (releaseFrom_idle hz)
  · exact next_kvRuns h (mapIs_of ho) (releaseFrom_idle hz)
  · subst hb
    exact next_kvRuns h (mapIs_of ho) (by simp only [hl])
  · unfold State.kvEnds
    rcases h with h | h
    · split <;> simp_all
    · split <;> simp_all
  · simp only [State.kvEnds, hs, ht, hi]

end Sys2Proof.Machine
end

section
/-! R253–R295: attention, appends, the Arbor and swap. -/

namespace Sys2Proof.Machine

section
variable {s s2 : State} {i : Item} {u : CUnit}

theorem attention_whole {ps : List AttPlan}
    (h : ((ps.foldl (fun t p => t.register i.ring i.seq p.e.sequence) s).forgetRange i.workArea i.workBytes).attTiles u i ps = (s2, none)) :
    s.attention_ u i ps = s2.setFinish i (finDone 0) := by
  simp only [State.attention_, h, Option.getD_none]

theorem reopenPage_only {h : FrameEntry}
    (hr : s.readFrame (seqPool (s.seqEntry i.sequence)) (s.pte i.sequence i.firstPage).frame = (s2, some h)) (h1 : h.refs = 1)
    (hz : bits (s2.seqEntry i.sequence) 63 32 = 0) :
    s.reopenPage i = ((s2.changePage i.sequence i.firstPage
      { s.pte i.sequence i.firstPage with st := 1, slices := 0, shared := false }).markShared i.sequence i.firstPage false).setFinish i
        (finDone 0) := by
  simp only [State.reopenPage, hr]
  exact if_pos ⟨h1, hz⟩

end

/-- Settles O41: an item that may run runs once; its reads end it only where they refuse. -/
theorem attentionAndArborItems : Obligations.AttentionAndArborItems := by
  refine ⟨fun u i s s1 p h => ?_, fun u i s s1 s2 ps h ht => ?_, fun u i s s1 s2 ps h ht => ?_, fun u i s s1 s2 bs h hb => ?_,
    fun i s s1 ts h => ?_, fun i s s1 ts h => ?_, fun i k s s1 s2 s3 h ho hr hu => ?_, fun i f s s1 s2 h ho hr h1 hz => ?_,
    fun i s s1 h hz => ?_, fun i s s1 h => ?_⟩
  · exact next_mayRun h rfl
  · exact next_mayRun h (attention_whole ht)
  · exact next_mayRun h (attention_whole ht)
  · exact next_mayRun h (congrArg (fun z : State × Option Finish => z.1.setFinish i (z.2.getD (finDone 0))) hb)
  · exact next_kvRuns h rfl rfl
  · exact next_kvRuns h rfl rfl
  · exact next_kvRuns h (decide_eq_true ho) (by simp only [List.foldl_cons, List.foldl_nil, hr, hu, Option.getD_none])
  · exact next_kvRuns h (mapIs_of ho) (reopenPage_only hr h1 hz)
  · exact next_kvRuns h rfl (if_neg (not_not.mpr hz))
  · exact next_kvRuns h rfl rfl

end Sys2Proof.Machine
end

section
/-! R308–R344: the Keeper's writes, its verdicts and its start. -/

namespace Sys2Proof.Machine

section
variable {s : State} {p : Path} {x : Bytes}

theorem hookKpArmed_arms (hx : ofLe x = 1) (hr : bit (s.reg Regs.kpRulesValid) 0 = true) (hl : s.lifecycle ≠ 2)
    (hp : s.keeper.phase = .disarmed) : hookKpArmed s p x = .ok ((s.setReg Regs.kpArmed 1).keeperEnters .waiting) := by
  simp [hookKpArmed, hx, hr, hl, hp]

theorem hookKpArmed_disarms (hx : ofLe x = 0) (hp : s.keeper.phase = .waiting ∨ s.keeper.phase = .running) :
    hookKpArmed s p x = .ok ((s.setReg Regs.kpArmed 0).keeperEnters .disarmed) := by
  rcases hp with hp | hp <;> simp [hookKpArmed, hx, hp]

/-- From WAITING and RUNNING every trigger enters the safe state, and from DISARMED every latch input (R335). -/
theorem safeTrigger_enters {code : Nat} {cold : Bool}
    (h : s.keeper.phase = .waiting ∨ s.keeper.phase = .running ∨ s.keeper.phase = .disarmed ∧ code ≤ 5) :
    s.safeTrigger code cold = s.safeEntry code cold := by
  rcases h with h | h | ⟨h, hc⟩
  · simp [State.safeTrigger, h]
  · simp [State.safeTrigger, h]
  · simp [State.safeTrigger, h, hc]

theorem hookSafeClear_latched (hx : ofLe x = 1) (hp : s.keeper.phase = .latched) :
    hookSafeClear s p x = .ok ((s.setKeeper { s.keeper with phase := .safe, heldReset := false }).flushEvery.warmRestart.takeDamage) :=
  (actHook_one hx).trans (if_pos hp)

end

/-- Settles O42: each write runs its rule on the Keeper's phase, and a rule table is judged before it is stored. -/
theorem keeperWrites : Obligations.KeeperWrites := by
  refine ⟨fun p v x s hx h1 hr hl hp => ?_, fun p v x s hx h0 hp => ?_, fun p v x s hx h1 hp => ?_, fun p v x s hx h1 hp => ?_,
    fun p parked data x s hx ho => ?_, fun p parked data x s hx ho => ?_⟩
  · exact next_accepted hx (hookKpArmed_arms h1 hr hl hp)
  · exact next_accepted hx (hookKpArmed_disarms h0 hp)
  · refine next_accepted hx ((actHook_one h1).trans (congrArg Except.ok (safeTrigger_enters ?_)))
    exact hp.imp_right .inl
  · exact next_accepted hx (hookSafeClear_latched h1 hp)
  · exact next_accepted hx (if_pos ho)
  · exact congrArg Host.Outcome.next (writeObject_refused hx (if_neg (by simp [ho])))

theorem verdictOf_judging {s : State} {e : Epoch} (h : s.keeperReads.judging = true) : s.verdictOf e =
    (s.keeperReads.giveVerdict e.number e.end_ (s.keeperReads.judgeIf e)).takeDamage.canOrdered s.keeperReads := by
  simp only [State.verdictOf, h, if_true]

/-- Settles O43: each command asks for its own condition, and the latch inputs differ by their code only. -/
theorem verdictsAndLatchInputs : Obligations.VerdictsAndLatchInputs := by
  refine ⟨fun i s s1 ts h hl hc => ?_, fun e s he hj hq hr hk => ?_, fun e s he hj hn hd hk => ?_, fun r e s hr he ho hj hd => ?_,
    fun s hpd hp => ?_⟩
  · obtain ⟨hready, hcheck, -⟩ := h
    show execKpDeclare s = _
    simp only [execKpDeclare, hready, hl, hcheck, hc]
    simp
  · show execVerdict s = _
    simp [execVerdict, he, hj, hq, hr, verdictOf_judging hk]
  · have hnot : (requiredIn e && s.runsIn e) = false := by
      rcases hn with hn | hn <;> simp [hn]
    show execVerdictDeadline s = _
    simp [execVerdictDeadline, he, hj, hnot, hd, verdictOf_judging hk]
  · show execEpochMissing s = _
    simp only [execEpochMissing, hr, he, ho, hj, hd]
    rfl
  · have henter : ∀ code ≤ 5, s.safeTrigger code false = s.safeEntry code false :=
      fun code hcode => safeTrigger_enters (hp.imp_right (.imp_right (⟨·, hcode⟩)))
    refine ⟨?_, ?_, ?_⟩
    · exact (if_pos hpd).trans (congrArg Host.Outcome.next (henter 1 (by decide)))
    · exact (if_pos hpd).trans (congrArg Host.Outcome.next (henter 3 (by decide)))
    · exact (if_pos hpd).trans (congrArg Host.Outcome.next (henter 4 (by decide)))

end Sys2Proof.Machine
end

section
/-! What a signal leaves as it was: the error log, the messages and the counters, apart from every unit's own state. -/

namespace Sys2Proof.Machine

/-- Of two states, the second follows from the first by signals: objects, the log, the host link's messages, the paths' counters and
what was sent may differ, and nothing else does. -/
structure State.SignalsTo (s t : State) : Prop where
  now : t.now = s.now
  blobs : t.blobs = s.blobs
  mem : t.mem = s.mem
  hostMem : t.hostMem = s.hostMem
  stops : t.stops = s.stops
  sundial : t.sundial = s.sundial
  disp : t.disp = s.disp
  ddr : t.ddr = s.ddr
  lodge : t.lodge = s.lodge
  pergola : t.pergola = s.pergola
  kv : t.kv = s.kv
  keeper : t.keeper = s.keeper
  shift : t.shift = s.shift
  drive : t.drive = s.drive
  power : t.power = s.power
  boot : t.boot = s.boot
  pins : t.pins = s.pins
  xlate : t.link.xlate = s.link.xlate
  unmasked : t.link.unmasked = s.link.unmasked
  failedReads : t.link.failedReads = s.link.failedReads

namespace State.SignalsTo
variable {s t u : State}

theorem refl (s : State) : s.SignalsTo s := ⟨rfl, rfl, rfl, rfl, rfl, rfl, rfl, rfl, rfl, rfl, rfl, rfl, rfl, rfl, rfl, rfl, rfl, rfl, rfl, rfl⟩

theorem trans (h : s.SignalsTo t) (k : t.SignalsTo u) : s.SignalsTo u where
  now := k.now.trans h.now
  blobs := k.blobs.trans h.blobs
  mem := k.mem.trans h.mem
  hostMem := k.hostMem.trans h.hostMem
  stops := k.stops.trans h.stops
  sundial := k.sundial.trans h.sundial
  disp := k.disp.trans h.disp
  ddr := k.ddr.trans h.ddr
  lodge := k.lodge.trans h.lodge
  pergola := k.pergola.trans h.pergola
  kv := k.kv.trans h.kv
  keeper := k.keeper.trans h.keeper
  shift := k.shift.trans h.shift
  drive := k.drive.trans h.drive
  power := k.power.trans h.power
  boot := k.boot.trans h.boot
  pins := k.pins.trans h.pins
  xlate := k.xlate.trans h.xlate
  unmasked := k.unmasked.trans h.unmasked
  failedReads := k.failedReads.trans h.failedReads

theorem setReg (r : Reg) (v : Nat) : s.SignalsTo (s.setReg r v) :=
  ⟨rfl, rfl, rfl, rfl, rfl, rfl, rfl, rfl, rfl, rfl, rfl, rfl, rfl, rfl, rfl, rfl, rfl, rfl, rfl, rfl⟩

theorem bump (r : Reg) : s.SignalsTo (s.bump r) := setReg r _

theorem bumpIf (b : Bool) (r : Reg) : s.SignalsTo (s.bumpIf b r) := by
  cases b
  · exact refl s
  · exact bump r

theorem attention (i : Nat) : s.SignalsTo (s.attention i) := setReg _ _

theorem attendKeeper : s.SignalsTo s.attendKeeper := by
  unfold State.attendKeeper
  split
  · exact attention 3
  · exact refl s

theorem emit (o : Out) : s.SignalsTo (s.emit o) :=
  ⟨rfl, rfl, rfl, rfl, rfl, rfl, rfl, rfl, rfl, rfl, rfl, rfl, rfl, rfl, rfl, rfl, rfl, rfl, rfl, rfl⟩

theorem setMessages (pending held : List Nat) :
    s.SignalsTo (s.setHostLink { s.link with pendingMsix := pending, heldMsix := held }) :=
  ⟨rfl, rfl, rfl, rfl, rfl, rfl, rfl, rfl, rfl, rfl, rfl, rfl, rfl, rfl, rfl, rfl, rfl, rfl, rfl, rfl⟩

theorem msix (v : Nat) : s.SignalsTo (s.msix v) := by
  unfold State.msix
  split_ifs
  · exact refl s
  · exact setMessages s.link.pendingMsix _
  · exact emit _
  · exact setMessages _ s.link.heldMsix
  · exact setMessages _ s.link.heldMsix

theorem sendSafety (k : Nat) (body : Bytes) : s.SignalsTo (s.sendSafety k body) := by
  unfold State.sendSafety
  split
  · exact ⟨rfl, rfl, rfl, rfl, rfl, rfl, rfl, rfl, rfl, rfl, rfl, rfl, rfl, rfl, rfl, rfl, rfl, rfl, rfl, rfl⟩
  · exact refl s

theorem sendEvent (e : Nat) (body : Bytes) : s.SignalsTo (s.sendEvent e body) := sendSafety _ _

theorem setLog (l : ErrorLog) : s.SignalsTo { s with log := l } :=
  ⟨rfl, rfl, rfl, rfl, rfl, rfl, rfl, rfl, rfl, rfl, rfl, rfl, rfl, rfl, rfl, rfl, rfl, rfl, rfl, rfl⟩

theorem correctedMessage : s.SignalsTo s.correctedMessage := by
  unfold State.correctedMessage
  split
  · exact setLog _
  · exact (msix _).trans (setLog _)

theorem signalEvent (e : LogEntry) : s.SignalsTo (s.signalEvent e) := by
  unfold State.signalEvent
  split
  · exact correctedMessage
  · exact (attention 0).trans (msix _)
  · exact ((attention 1).trans (msix _)).trans (sendEvent _ _)

theorem logs (v : Event) : s.SignalsTo (s.logs v) := by
  unfold State.logs State.logEvent
  dsimp only
  split
  · split
    · exact ((bump _).trans (setLog _)).trans (signalEvent _)
    · exact bump _
  · split
    · exact (bump _).trans (bump _)
    · exact ((bump _).trans (setLog _)).trans (signalEvent _)

end State.SignalsTo

section
variable {s : State} {q : Reg}

theorem msix_reg (v : Nat) : (s.msix v).reg q = s.reg q := by
  unfold State.msix
  split_ifs <;> rfl

theorem sendSafety_reg (k : Nat) (body : Bytes) : (s.sendSafety k body).reg q = s.reg q := by
  unfold State.sendSafety
  split <;> rfl

theorem correctedMessage_reg : s.correctedMessage.reg q = s.reg q := by
  unfold State.correctedMessage
  split
  · rfl
  · exact msix_reg _

theorem signalEvent_reg (e : LogEntry) (h : q.key ≠ Regs.devAttention.key) : (s.signalEvent e).reg q = s.reg q := by
  unfold State.signalEvent
  split
  · exact correctedMessage_reg
  · rw [msix_reg]; exact reg_setReg_ne _ _ h
  · rw [State.sendEvent, sendSafety_reg, msix_reg]; exact reg_setReg_ne _ _ h

/-- Logging writes its severity's counter, ERR_LOG_LOST and DEV_ATTENTION, and no other object (R372, R436). -/
theorem logs_reg (v : Event) (hc : q.key ≠ (severityCounter v.severity).key) (hl : q.key ≠ Regs.errLogLost.key)
    (ha : q.key ≠ Regs.devAttention.key) : (s.logs v).reg q = s.reg q := by
  unfold State.logs State.logEvent
  dsimp only
  split
  · split
    · rw [signalEvent_reg _ ha]; exact reg_bump_ne _ hc
    · exact reg_bump_ne _ hc
  · split
    · rw [reg_bump_ne _ hl]; exact reg_bump_ne _ hc
    · rw [signalEvent_reg _ ha]; exact reg_bump_ne _ hc

theorem attendKeeper_reg (h : q.key ≠ Regs.devAttention.key) : s.attendKeeper.reg q = s.reg q := by
  unfold State.attendKeeper
  split
  · exact reg_setReg_ne _ _ h
  · rfl

end

theorem attendKeeper_paths (s : State) : s.attendKeeper.paths = s.paths := by
  unfold State.attendKeeper
  split <;> rfl

/-! R308, R309, R336, R341, R343, R344: the Keeper's start and what it watches. -/

section
variable {s : State} {ph : KpState}

theorem keeperEnters_keeper : (s.keeperEnters ph).keeper = { s.keeper with
    phase := ph, safeN := false, reference := none, lastEnd := none, epochs := [], window := [], good := 0, prev := []
    prevEnd := none, parkedAt := if ph = KpState.parked then s.now else s.keeper.parkedAt } :=
  State.SignalsTo.attendKeeper.keeper

theorem keeperEnters_mem : (s.keeperEnters ph).mem = s.mem := State.SignalsTo.attendKeeper.mem
theorem keeperEnters_disp : (s.keeperEnters ph).disp = s.disp := State.SignalsTo.attendKeeper.disp

theorem keeperEnters_paths : (s.keeperEnters ph).paths = s.paths := attendKeeper_paths _

theorem restartDone_warm (hp : s.keeper.phase = .safe) (hr : s.keeper.restart = .warm) (hs : s.keeper.startDue = false)
    (ht : ∀ g ∈ s.keeper.testing, s.fenced g = true ∨ s.pdOn (gafferPd g) = false)
    (hf : ∀ d ∈ List.range 39, s.forcedChange (d + 2) = none) : s.restartDone = true := by
  have htest : s.keeper.testing.all (fun g => s.fenced g || !s.pdOn (gafferPd g)) = true :=
    List.all_eq_true.mpr fun g hg => by rcases ht g hg with h | h <;> simp [h]
  have hforced : (List.range 39).all (fun i => (s.forcedChange (i + 2)).isNone) = true :=
    List.all_eq_true.mpr fun d hd => by rw [hf d hd]; rfl
  simp [State.restartDone, hp, hr, hs, htest, hforced]

/-- What a warm restart leaves once it is ready (R339). -/
def State.readyAgain (s : State) : State :=
  let t := { (s.keeperWaits.setKeeper { s.keeperWaits.keeper with restart := .none }) with
    disp := { s.keeperWaits.disp with shut := false } }
  (t.msix (t.reg Regs.kpVerdictVector)).sendEvent 2 (toLe 1 (t.reg Regs.kpLatchCause))

theorem restartReady_warm (h : s.restartDone = true) (hr : s.keeper.restart = .warm) : exec .restartReady s = .next s.readyAgain := by
  show execRestartReady s = _
  simp only [execRestartReady, h, if_true, hr]
  rfl

theorem readyAgain_signals : State.SignalsTo { (s.keeperWaits.setKeeper { s.keeperWaits.keeper with restart := .none }) with
    disp := { s.keeperWaits.disp with shut := false } } s.readyAgain :=
  (State.SignalsTo.msix _).trans (.sendEvent _ _)

end

/-- Settles O44: the Keeper's start is READY's phase with its pins; the watches ask for their times. -/
theorem keeperStartsAndWatches : Obligations.KeeperStartsAndWatches := by
  refine ⟨fun s s1 hs hpd hb hk => ?_, fun s hp hd => ?_, fun passed lost s s1 hs hpd hb hf => ?_, fun s hp hr hs ht hf => ?_,
    fun s hpd hf hs ht => ?_, fun s h => ?_, fun s t hpd hp hv ht he hq => ?_, fun s h1 h45 ho => ?_, fun s h1 ho hb hs ht => ?_⟩
  · show execKeeperStartComplete true s = _
    simp [execKeeperStartComplete, hs, hpd, hb, hk]
  · have hstart : s.keeperStarts = State.keeperWaits { (s.setKeeper { s.keeper with faultN := true, startDue := false, beatAt := s.now })
        with paths := { s.paths with expectCounter := none } } := by
      simp [State.keeperStarts, State.setKeeper, hp, hd]
    rw [hstart, State.keeperWaits]
    refine ⟨?_, ?_, ?_, ?_, ?_, ?_⟩
    · rw [keeperEnters_keeper]; rfl
    · rw [keeperEnters_keeper]; rfl
    · rw [keeperEnters_keeper]; rfl
    · rw [keeperEnters_paths]
    · rw [keeperEnters_mem]; rfl
    · rw [keeperEnters_disp]; rfl
  · have hnot : (passed && !lost && s1.keptSound) = false := by
      rcases hf with h | h | h <;> simp [h]
    show execKeeperStartComplete passed s = _
    simp [execKeeperStartComplete, hs, hpd, hb, hnot]
  · refine ⟨_, restartReady_warm (restartDone_warm hp hr hs ht hf) hr, ?_, ?_, ?_, ?_, ?_⟩
    · rw [readyAgain_signals.keeper]; rfl
    · rw [readyAgain_signals.keeper]
      show s.keeperWaits.keeper.phase = _
      rw [State.keeperWaits, keeperEnters_keeper]
    · rw [readyAgain_signals.disp]
    · rw [readyAgain_signals.disp]
      show s.keeperWaits.disp.items = _
      rw [State.keeperWaits, keeperEnters_disp]
    · rw [readyAgain_signals.mem]
      exact keeperEnters_mem
  · exact if_pos (by simp [hpd, hf, hs, ht])
  · refine if_neg ?_
    rcases h with h | h
    · simp [h]
    · simp [not_le.mpr h]
  · have hdue : (s.pdOn 1 && s.keeper.phase == .parked && bit (s.reg Regs.kpRulesValid) 1 && decide (s.keeper.parkedAt ≤ s.now)) = true := by
      simp [hpd, hp, hv, ht]
    subst he
    exact (if_pos hdue).trans (congrArg Host.Outcome.next (if_pos (beq_iff_eq.mpr hq)))
  · exact if_pos (by simp [h1, h45, ho])
  · exact if_pos (by simp [h1, ho, hb, hs, ht])

end Sys2Proof.Machine
end

section
/-! R328–R334: the Lamplighter's slots and golden sets. -/

namespace Sys2Proof.Machine

section
variable {s : State} {g : Nat}

theorem goldenOf_setGolden (v : Golden) (k : Nat) : (s.setGolden g v).goldenOf k = if k = g then v else s.goldenOf k :=
  kget_kset _ _ _ _ _

@[simp] theorem goldenOf_setGolden_same (v : Golden) : (s.setGolden g v).goldenOf g = v := by simp [goldenOf_setGolden]

/-- The slot of a gaffer whose checkers all came: the rotation goes on, and an attempt that was deferred is given up. -/
def State.slotPassed (s : State) (g : Nat) : State :=
  (s.setKeeper { s.keeper with slot := (g + 1) % 32, slotAt := s.keeper.slotAt + slotNs }).setGolden g { s.goldenOf g with deferred := 0 }

theorem inject_none (h : s.ddrSkips (g % 8) = false) : s.inject g [] = s := by simp [State.inject, h, State.bumpIf]

theorem slotStarts_passed (h0 : g ≠ 0) (hd : s.ddrSkips (g % 8) = false) : s.slotStarts g [] = (s.slotPassed g).slotDue g := by
  have hskips : ∀ k : Keeper, (s.setKeeper k).ddrSkips (g % 8) = false := fun _ => hd
  simp only [State.slotStarts, if_neg h0, inject_none (hskips _)]
  rfl

theorem slotPassed_running (k : Nat) : ((s.slotPassed g).goldenOf k).running = (s.goldenOf k).running := by
  rw [State.slotPassed, goldenOf_setGolden]
  split
  · next h => rw [h]
  · rfl

theorem slotPassed_goldenOn (k : Nat) : (s.slotPassed g).goldenOn k = s.goldenOn k :=
  congrArg (· || s.keeper.testing.contains k) (slotPassed_running k)

theorem slotPassed_gafferIdle : (s.slotPassed g).gafferIdle g = s.gafferIdle g := by
  simp only [State.gafferIdle, slotPassed_goldenOn]
  rfl

theorem slotPassed_keeps : (s.slotPassed g).regs = s.regs ∧ (s.slotPassed g).mem = s.mem ∧ (s.slotPassed g).disp = s.disp ∧
    (s.slotPassed g).out = s.out := by
  rw [State.slotPassed]
  exact ⟨setGolden_regs _ _ _, setGolden_mem _ _ _, setGolden_disp _ _ _, setGolden_out _ _ _⟩

theorem slotPassed_keeper : (s.slotPassed g).keeper.slot = (g + 1) % 32 ∧
    (s.slotPassed g).keeper.slotAt = s.keeper.slotAt + slotNs := by
  rw [State.slotPassed, setGolden_keeper]
  exact ⟨rfl, rfl⟩

theorem slotDue_starts (hr : (s.goldenOf g).running = false) (hl : s.slotLive g = true) (hi : s.gafferIdle g = true) :
    s.slotDue g = s.setGolden g { s.goldenOf g with running := true, forced := false, deferred := 0, since := some s.now, behind := [] } := by
  simp [State.slotDue, hr, hl, hi]

theorem slotStarts_starts (h0 : g ≠ 0) (hl : s.slotLive g = true) (hi : s.gafferIdle g = true)
    (hr : (s.goldenOf g).running = false) (hd : s.ddrSkips (g % 8) = false) :
    s.slotStarts g [] = (s.slotPassed g).setGolden g { (s.slotPassed g).goldenOf g with
      running := true, forced := false, deferred := 0, since := some s.now, behind := [] } := by
  rw [slotStarts_passed h0 hd]
  exact slotDue_starts ((slotPassed_running g).trans hr) hl (slotPassed_gafferIdle.trans hi)

/-- Golden signatures as read back fail only a gaffer that is struck (R331). -/
theorem goldenFailure_signatures (gs : List Nat) : s.goldenFailure gs ((List.range 11).map Config.goldenSignature) = none ↔
    ¬ (gs.any (fun g => Gaffer.struck (s.gaffer g).arrayFault) = true ∨ gs.any (fun g => Gaffer.struck (s.gaffer g).vectorFault) = true) := by
  have hread : ∀ k < 11, ((List.range 11).map Config.goldenSignature)[k]? = some (Config.goldenSignature k) := fun k hk => by
    simp [hk]
  simp only [State.goldenFailure, List.find?_eq_none, List.mem_range]
  constructor
  · rintro h (ha | ha)
    · exact h 0 (by decide) (by simp [ha])
    · exact h 7 (by decide) (by simp [ha])
  · rintro h k hk hw
    obtain ⟨ha, hv⟩ := not_or.mp h
    simp only [hread k hk, ha, hv, ne_eq, not_true_eq_false, decide_false, Bool.and_false, Bool.or_false,
      Bool.false_eq_true] at hw

end

/-- Settles O45: a slot starts its gaffer's set where it is live and idle, defers it where it is not, and forces it at last. -/
theorem lamplighterTestsGaffers : Obligations.LamplighterTestsGaffers := by
  refine ⟨fun g missed s he hpd hs ht => ?_, fun g s h0 hl hi hr hd => ?_, fun g missed s he hpd hn h0 ht => ?_,
    fun g s hr hl hi => ⟨fun hlt => ?_, fun hge => ?_⟩, fun g results s hr hw hl hf => ?_, fun g results k s hr hw hf => ?_,
    fun g s => ?_, fun g t s hr hs ht => ?_⟩
  · have hnow : s.slotNow g.val = true := by simp [State.slotNow, hs, ht]
    show execLamplighterSlot g missed s = _
    simp [execLamplighterSlot, he, hpd, hnow]
  · obtain ⟨hregs, hmem, hdisp, hout⟩ := slotPassed_keeps (s := s) (g := g.val)
    obtain ⟨hslot, hslotAt⟩ := slotPassed_keeper (s := s) (g := g.val)
    refine ⟨_, slotStarts_starts h0 hl hi hr hd, ?_, ?_, ?_, ?_, ?_, (setGolden_regs _ _ _).trans hregs,
      (setGolden_mem _ _ _).trans hmem, (setGolden_disp _ _ _).trans hdisp, (setGolden_out _ _ _).trans hout⟩
    · rw [setGolden_keeper]; exact hslot
    · rw [setGolden_keeper]; exact hslotAt
    all_goals rw [goldenOf_setGolden_same]
  · have hretry : s.retryNow g.val = true := by simp [State.retryNow, h0, ht]
    show execLamplighterSlot g missed s = _
    simp [execLamplighterSlot, he, hpd, hn, hretry]
  · simp [State.slotDue, hr, hl, hi, hlt]
  · simp [State.slotDue, hr, hl, hi, not_lt.mpr hge]
  · show execGoldenSetComplete g results s = _
    simp [execGoldenSetComplete, hr, hw, hl, hf]
  · refine ⟨_, _, ?_, rfl, rfl⟩
    show execGoldenSetComplete g results s = _
    simp [execGoldenSetComplete, hr, hw, hf]
  · simpa using goldenFailure_signatures (s := s) [g.val]
  · show execSetMissed g s = _
    simp [execSetMissed, hr, hs, ht]

end Sys2Proof.Machine
end

section
/-! R358–R376: the patrol scrubs and the hold-off of corrected events. -/

namespace Sys2Proof.Machine

/-- Settles O46: a patrol scrub meets its word where it is suspect and its domain on; the hold-off ends at its time. -/
theorem scrubsAndHoldoff : Obligations.ScrubsAndHoldoff := by
  refine ⟨fun addr d s hd hpd hm => ?_, fun addr d s hd hpd hm => ?_, fun addr d array s hne hd hpd => ?_, fun addr s hs hm => ?_,
    fun addr s hs hm => ?_, fun t s hs ht hd => ?_, fun t s hs ht hd => ?_⟩
  · show execSramPatrolScrub .mapped addr s = _
    simp [execSramPatrolScrub, hd, hpd, hm]
  · show execSramPatrolScrub .mapped addr s = _
    simp [execSramPatrolScrub, hd, hpd, hm]
  · show execSramPatrolScrub array addr s = _
    cases array with
    | mapped => exact absurd rfl hne
    | _ => simp [execSramPatrolScrub, hd, hpd]
  · exact (if_pos hs).trans (congrArg Host.Outcome.next (if_pos hm))
  · exact (if_pos hs).trans (congrArg Host.Outcome.next (if_neg hm))
  · show execErrCorrectedHoldoff s = _
    simp [execErrCorrectedHoldoff, hs, not_lt.mpr ht, hd]
  · show execErrCorrectedHoldoff s = _
    simp [execErrCorrectedHoldoff, hs, not_lt.mpr ht, hd]

end Sys2Proof.Machine
end

section
/-! R277–R504: pools, marks, retirement, the interleave and the pin multiplexers. -/

namespace Sys2Proof.Machine

section
variable {s : State} {p : Path} {x : Bytes} {k : Nat}

theorem rangeFirst_inside {ok : State → Bytes → Bool} {h : Hook} (ho : ok s x = true) : rangeFirst ok h s p x = h s p x := by
  simp [rangeFirst, ho]

theorem hookKvpEnable_enables (hx : ofLe x = 1) (hf : s.flag (Regs.kvpEnable k) = false) (hp : s.poolPlace k = true)
    (hm : s.metaPlace k = true) (hc : s.poolClash k = none) :
    hookKvpEnable k s p x = .ok ((s.freeAll k).setReg (Regs.kvpEnable k) 1) := by
  refine (rangeFirst_inside (by simp [hp, hm])).trans ?_
  simp [hx, hf, hc]

theorem hookKvpEnable_disables (hx : ofLe x = 0) (ha : s.activeIn (some k) = 0) :
    hookKvpEnable k s p x = .ok ((s.setReg (Regs.kvpEnable k) 0).setPool k {}) := by
  refine (rangeFirst_inside (by simp [hx])).trans ?_
  simp [hx, ha]

theorem hookScMarked_marks (h0 : markOk (ofLe x) 0 = true) (h1 : markOk (ofLe x) 1 = true) (hw : s.reg Regs.ddrWidth ≠ 1) :
    hookScMarked k s p x = .ok ((s.writeMark k (ofLe x) 0).writeMark k (ofLe x) 1) := by
  simp [hookScMarked, h0, h1, hw]

theorem hookDdrRetire_retires (hn : ofLe x ∉ s.ddr.retired) (hl : s.ddr.retired.length < 256) (ha : ofLe x % 4096 = 0)
    (hc : ofLe x < s.ddr.capacity) (hd : overlaps (ofLe x) 4096 s.driveLo s.driveLen = false)
    (hb : clash s.bufferClaims 255 0 (ofLe x) 4096 = none) :
    hookDdrRetire s p x = .ok (s.pageLogged (ofLe x) 0 (sortBy id (ofLe x :: s.ddr.retired))) := by
  simp [hookDdrRetire, hn, not_le.mpr hl, ha, not_le.mpr hc, hd, hb]

theorem hookInterleave_free (h : s.interleaveHeld = none) :
    hookInterleave s p x = .ok (s.setReg Regs.ddrInterleave (ofLe x)).forgetDdr := by
  simp only [hookInterleave, h]

theorem hookInterleave_held {e : Reply} (h : s.interleaveHeld = some e) : hookInterleave s p x = .error e := by
  simp only [hookInterleave, h]

end

/-- Settles O47: each write is accepted by its object's own rule. -/
theorem poolMemoryAndPinWrites : Obligations.PoolMemoryAndPinWrites := by
  refine ⟨fun p k v x s hx h1 hf hp hm hc => ?_, fun p k v x s hx h0 hf ha => ?_, fun p sc v x s hx h0 h1 hw => ?_,
    fun p v x s hx hn hl ha hc hd hb => ?_, fun p v x s hx hr => ?_, fun p v x s hx => ?_, fun p v x s hx hn => ?_,
    fun p v x s e hx he => ?_, fun p k v x s hx ho hz => ?_, fun p m v x s hx hl ho hz => ?_⟩
  · exact next_accepted hx (hookKvpEnable_enables h1 hf hp hm hc)
  · exact next_accepted hx (hookKvpEnable_disables h0 ha)
  · exact next_accepted hx (hookScMarked_marks h0 h1 hw)
  · exact next_accepted hx (hookDdrRetire_retires hn hl ha hc hd hb)
  · exact next_accepted hx (if_pos hr)
  · exact next_accepted hx rfl
  · exact next_accepted hx (hookInterleave_free hn)
  · exact congrArg Host.Outcome.next (writeObject_refused hx (hookInterleave_held he))
  · exact next_accepted hx (ownedHook_owner ho hz)
  · exact next_accepted hx ((rangeFirst_inside hl).trans (ownedHook_owner ho hz))

end Sys2Proof.Machine
end

section
/-! R381–R389, R446: the BAR2 aperture, the host window and a host read that failed. -/

namespace Sys2Proof.Machine

section
variable {s : State}

/-- An entry of the translation table keeps bits 63:24 and 2:0 of what is written (R385). -/
theorem xlateWord_parts {v : Nat} (hv : v < 2 ^ 64) : (bits v 63 24 <<< 24 + v % 8) % 8 = v % 8 ∧
    (bits v 63 24 <<< 24 + v % 8) >>> 24 = v >>> 24 ∧ bits (bits v 63 24 <<< 24 + v % 8) 23 3 = 0 := by
  simp only [bits, Nat.shiftLeft_eq, Nat.shiftRight_eq_div_pow]
  norm_num at hv ⊢
  omega

theorem logEvent_signals (v : Event) : s.SignalsTo (s.logEvent v).1 := State.SignalsTo.logs v

end

/-- What a failed read of the host leaves at the item or the ring that asked (R389). -/
def State.readFailed (s : State) (r seq addr : Nat) : State :=
  let v := (s.bump Regs.hifHostReadFails).logEvent
    { severity := .contained, source := 8, kind := 32, addr := addr, detail := 0xFFFF, ring := some r }
  v.1.setHostLink { v.1.link with failedReads := ⟨r, seq, addr, v.2⟩ :: v.1.link.failedReads }

/-- What a failed read of the staging's source leaves. -/
def State.stagingFailed (s : State) (g : Staging) (addr : Nat) : State :=
  let t := (s.bump Regs.hifHostReadFails).logs { severity := .contained, source := 8, kind := 32, addr := addr, detail := 0xFFFF }
  t.setBoot { t.boot with staging := some { g with failed := true } }

section
variable {s : State} {r : Fin 64} {seq addr : Nat}

theorem hostReadFail_reads (ho : regionOf addr = .host) (h : (s.item? r.val seq).isSome = true ∨ s.readsRecords r.val seq = true) :
    exec (.hostReadFail r seq addr) s = .next (s.readFailed r.val seq addr) := by
  have hread : ((s.item? r.val seq).isNone && !s.readsRecords r.val seq) = false := by
    rcases h with h | h
    · obtain ⟨i, hi⟩ := Option.isSome_iff_exists.mp h
      simp [hi]
    · simp [h]
  show execHostReadFail r seq addr s = _
  simp only [execHostReadFail, ho, hread]
  rfl

theorem hostReadFail_staging {g : Staging} (ho : regionOf addr = .host) (hi : s.item? r.val seq = none)
    (hr : s.readsRecords r.val seq = false) (hg : s.boot.staging = some g) (hs : s.stagingReads addr = true) :
    exec (.hostReadFail r seq addr) s = .next (s.stagingFailed g addr) := by
  show execHostReadFail r seq addr s = _
  simp [execHostReadFail, ho, hi, hr, hg, hs]
  rfl

theorem readFailed_failedReads : ∃ k, (s.readFailed r.val seq addr).link.failedReads = ⟨r.val, seq, addr, k⟩ :: s.link.failedReads :=
  ⟨_, congrArg (List.cons _) (logEvent_signals _).failedReads⟩

theorem readFailed_reg : (s.readFailed r.val seq addr).reg Regs.hifHostReadFails = satAdd (2 ^ 32 - 1) (s.reg Regs.hifHostReadFails) 1 :=
  (logs_reg _ (by simp [severityCounter, Regs.hifHostReadFails, Regs.errContained]) (by decide) (by decide)).trans (reg_bump_same _ _)

theorem readFailed_mem : (s.readFailed r.val seq addr).mem = s.mem := (logEvent_signals _).mem
theorem readFailed_disp : (s.readFailed r.val seq addr).disp = s.disp := (logEvent_signals _).disp

end

/-- Settles O48: each access asks for its power domain and its window, and then what the address answers. -/
theorem apertureAndHostWindow : Obligations.ApertureAndHostWindow := by
  refine ⟨fun off len bs s s1 hpd hw hm => ?_, fun off len s s1 hpd hw hm ha => ?_, fun off len s s1 hpd hw hm ha => ?_,
    fun off len s hpd hw => ?_, fun off data s s1 hpd hw hm => ?_, fun off data s s1 hpd hw hm => ?_,
    fun off data ans s s1 hpd hw hm ha => ?_, fun off len i v data bad k s hpd => ⟨?_, ?_, ?_, ?_, ?_, ?_⟩,
    fun k s hpd hlo hhi hne => ?_, fun i v s hpd hv => ?_, fun r seq addr i s hi ho => ?_, fun r seq addr s hi hr ho => ?_,
    fun r seq addr g s hi hr hg hs ho => ?_⟩
  · show execBar2Read off len s = _
    simp [execBar2Read, hpd, not_lt.mpr hw, hm]
  · show execBar2Read off len s = _
    simp [execBar2Read, hpd, not_lt.mpr hw, hm, ha]
  · show execBar2Read off len s = _
    simp [execBar2Read, hpd, not_lt.mpr hw, hm, ha]
  · show execBar2Read off len s = _
    simp [execBar2Read, hpd, hw]
  · show execBar2Write off data false s = _
    simp [execBar2Write, hpd, not_lt.mpr hw, hm]
  · show execBar2Write off data true s = _
    simp [execBar2Write, hpd, not_lt.mpr hw, hm]
  · show execBar2Write off data false s = _
    cases ans <;> simp_all [execBar2Write]
  · exact if_pos hpd
  · exact if_pos (.inl hpd)
  · exact if_neg (fun h => by simp [hpd] at h)
  · exact if_neg (by simp [hpd])
  · exact if_neg (by simp [hpd])
  · exact if_neg (by simp [hpd])
  · exact if_pos ⟨hpd, hlo, hhi, hne⟩
  · obtain ⟨hlow, hhigh, hmid⟩ := xlateWord_parts hv
    have hget : kget (s.setXlate i v).link.xlate i 0 = bits v 63 24 <<< 24 + v % 8 := kget_kset_same _ _ _ _
    refine ⟨_, if_pos hpd, ?_, ?_, ?_, fun k hk => kget_kset_ne _ _ _ hk, rfl, rfl, rfl, rfl⟩
    · rw [hget]; exact hlow
    · rw [hget]; exact hhigh
    · rw [hget]; exact hmid
  · obtain ⟨k, hk⟩ := readFailed_failedReads (s := s) (r := r) (seq := seq) (addr := addr)
    exact ⟨_, k, hostReadFail_reads ho (.inl (by rw [hi]; rfl)), hk, readFailed_reg, readFailed_mem, readFailed_disp⟩
  · obtain ⟨k, hk⟩ := readFailed_failedReads (s := s) (r := r) (seq := seq) (addr := addr)
    exact ⟨_, k, hostReadFail_reads ho (.inr hr), hk, readFailed_mem, readFailed_disp⟩
  · exact ⟨_, hostReadFail_staging ho hi hr hg hs, rfl, (State.SignalsTo.logs _).mem, (State.SignalsTo.logs _).disp⟩

end Sys2Proof.Machine
end

section
/-! R9–R14, R368, R505–R507: packets of the Promenade and instructions of JTAG. -/

namespace Sys2Proof.Machine

section
variable {s : State} {k inp n e : Nat} {pkt : Packet} {l : Nat × Nat}

/-! A copy of a transfer, by what its CRC says (R368). -/

theorem takeCopies_good (more : List Nat) (h : copyGood e = true) : takeCopies n (e :: more) = .accepted n e := by
  simp [takeCopies, h]

theorem takeCopies_first_bad (h : copyGood e = false) : takeCopies 0 [e] = .refused 1 := by simp [takeCopies, h]

theorem takeCopies_fourth_bad (h : copyGood e = false) : takeCopies 3 [e] = .poisoned 3 := by simp [takeCopies, h]

theorem refusedOf_free {v : Stop} (h : kfind v.retry inp = none) : v.refusedOf inp pkt n = some 0 := by
  simp only [Stop.refusedOf, h]

theorem refusedOf_waiting {v : Stop} {m : Nat} (h : kfind v.retry inp = some ⟨pkt, n, m⟩) : v.refusedOf inp pkt n = some m := by
  simp [Stop.refusedOf, h]

theorem linkPersistent_sound {o : Nat} (hp : (s.lastSecond (kget (s.stop k).poisons o [])).length < 2)
    (hr : (s.lastSecond (kget (s.stop k).retries o [])).length ≤ 1000) : s.linkPersistent k o = s :=
  if_neg (not_or.mpr ⟨not_le.mpr hp, not_lt.mpr hr⟩)

/-- The packet as it stands once transfer n has come in. -/
def Stop.received (v : Stop) (inp e : Nat) (n : Fin 4) (pkt : Packet) (poison : Bool) : Packet :=
  { pkt with
    payload := spoilPayload e n.val ((v.partial_ inp pkt.traffic).elim pkt (·.pkt)).payload
    poisoned := ((v.partial_ inp pkt.traffic).elim [] (·.pkt.poisoned) ++ pkt.poisoned.filter (fun x => decide (x = n))
      ++ (if poison then [n] else [])).eraseDups }

/-- Transfer n goes into its FIFO. -/
def State.enters (s : State) (k inp e : Nat) (n : Fin 4) (pkt : Packet) (poison : Bool) : State :=
  s.arrive k inp ((s.stop k).received inp e n pkt poison)

/-- Transfer n has come in: its sender's retry buffer no longer holds it, and it is in the FIFO. -/
def State.transferEnters (s : State) (k inp e : Nat) (n : Fin 4) (pkt : Packet) (poison : Bool) : State :=
  (s.setStop k { s.stop k with retry := kdel (s.stop k).retry inp }).enters k inp e n pkt poison

theorem arrive_next {h : Held} {p : Packet} (hp : (s.stop k).partial_ inp p.traffic = some h) : s.arrive k inp p =
    s.setStop k { s.stop k with held := replaceFirst (· == h) (fun _ => { h with got := h.got + 1, pkt := p }) (s.stop k).held } := by
  simp only [State.arrive, hp]

theorem enters_first {n : Fin 4} {poison : Bool} (h : (s.stop k).partial_ inp pkt.traffic = none) :
    (s.enters k inp e n pkt poison).stop k = { s.stop k with
      held := (s.stop k).held ++ [⟨inp, routePort k pkt.dst.val, (s.stop k).received inp e n pkt poison, 1, 0⟩] } := by
  have hp : (s.stop k).partial_ inp ((s.stop k).received inp e n pkt poison).traffic = none := h
  rw [State.enters, arrive_first hp, stop_setStop_same]
  rfl

theorem enters_next {n : Fin 4} {poison : Bool} {h : Held} (hh : (s.stop k).partial_ inp pkt.traffic = some h) :
    (s.enters k inp e n pkt poison).stop k = { s.stop k with
      held := replaceFirst (· == h) (fun _ => { h with got := h.got + 1, pkt := (s.stop k).received inp e n pkt poison }) (s.stop k).held } := by
  have hp : (s.stop k).partial_ inp ((s.stop k).received inp e n pkt poison).traffic = some h := hh
  rw [State.enters, arrive_next hp, stop_setStop_same]

theorem transferEnters_first {n : Fin 4} {poison : Bool} (h : (s.stop k).partial_ inp pkt.traffic = none) :
    (s.transferEnters k inp e n pkt poison).stop k = { s.stop k with
      retry := kdel (s.stop k).retry inp
      held := (s.stop k).held ++ [⟨inp, routePort k pkt.dst.val, (s.stop k).received inp e n pkt poison, 1, 0⟩] } := by
  rw [State.transferEnters, enters_first (by rw [stop_setStop_same]; exact h), stop_setStop_same]
  rfl

theorem transferEnters_next {n : Fin 4} {poison : Bool} {h : Held} (hh : (s.stop k).partial_ inp pkt.traffic = some h) :
    (s.transferEnters k inp e n pkt poison).stop k = { s.stop k with
      retry := kdel (s.stop k).retry inp
      held := replaceFirst (· == h) (fun _ => { h with got := h.got + 1, pkt := (s.stop k).received inp e n pkt poison }) (s.stop k).held } := by
  rw [State.transferEnters, enters_next (by rw [stop_setStop_same]; exact hh), stop_setStop_same]
  rfl

/-- A transfer that comes in changes its own stop and nothing else. -/
theorem arrive_frame (p : Packet) : ∃ v, s.arrive k inp p = s.setStop k v := by
  unfold State.arrive
  dsimp only
  split <;> exact ⟨_, rfl⟩

theorem transferEnters_frame {n : Fin 4} {poison : Bool} : ∃ v w, s.transferEnters k inp e n pkt poison = (s.setStop k w).setStop k v := by
  obtain ⟨v, hv⟩ := arrive_frame (s := s.setStop k { s.stop k with retry := kdel (s.stop k).retry inp }) (k := k) (inp := inp) _
  exact ⟨v, _, hv⟩

theorem received_clean {v : Stop} {n : Fin 4} (hp : pkt.poisoned = [])
    (hh : (v.partial_ inp pkt.traffic).elim [] (·.pkt.poisoned) = []) : v.received inp e n pkt false =
      { pkt with payload := spoilPayload e n.val ((v.partial_ inp pkt.traffic).elim pkt (·.pkt)).payload } := by
  simp [Stop.received, hp, hh]

theorem promenadePacket_accepted {k : Fin 48} {port : Port} {n : Fin 4} {more : List Nat}
    (hl : linkInto k.val (portNumber port) = some l) (hr : kfind (s.stop k.val).retry (portNumber port) = none)
    (hc : copyGood e = true) (hm : s.mayEnter k.val (portNumber port) pkt n.val = true)
    (hp : (s.lastSecond (kget (s.stop l.1).poisons l.2 [])).length < 2)
    (ht : (s.lastSecond (kget (s.stop l.1).retries l.2 [])).length ≤ 1000) (hi : pkt.item ≠ none) :
    exec (.promenadePacket k port (e :: more) pkt n) s = .next (s.transferEnters k.val (portNumber port) e n pkt false) := by
  show execPromenadePacket k port (e :: more) pkt n s = _
  have hitem : pkt.item.isNone = false := by
    cases h : pkt.item with
    | none => exact absurd h hi
    | some _ => rfl
  have hcopies : s.linkCopies l.1 l.2 0 (.accepted 0 e) = (s, false) := by
    simp [State.linkCopies, Copies.count]
  obtain ⟨lk, lo⟩ := l
  simp only [execPromenadePacket, hl, refusedOf_free hr, hm, Bool.not_true, Bool.false_eq_true, if_false, takeCopies_good more hc,
    hcopies, linkPersistent_sound hp ht, hitem]
  rfl

/-! A copy that the receiver refuses, and the fourth of them, which it takes as poison. -/

theorem stop_setStop_ne (v : Stop) {j : Nat} (h : j ≠ k) : (s.setStop k v).stop j = s.stop j := kget_kset_ne _ _ _ h

theorem logs_stop (v : Event) (j : Nat) : (s.logs v).stop j = s.stop j := by
  rw [State.stop, (State.SignalsTo.logs v).stops]; rfl

theorem logs_lastSecond (v : Event) (ts : List Nat) : (s.logs v).lastSecond ts = s.lastSecond ts := by
  simp only [State.lastSecond, (State.SignalsTo.logs (s := s) v).now]

theorem lastSecond_now_cons (ts : List Nat) : s.lastSecond (s.now :: s.lastSecond ts) = s.now :: s.lastSecond ts := by
  simp [State.lastSecond]

/-- The event of a refused copy. -/
def refusedCopy (k o n : Nat) : Event := { severity := .corrected, source := 7, inst := k, kind := 13, detail := n, sub := o }

theorem copyRefused_first (o : Nat) : s.copyRefused k o 1 = ((s.bump Regs.linkRetries).logs (refusedCopy k o 1)).setStop k
    { s.stop k with retries := kset (s.stop k).retries o (s.now :: s.lastSecond (kget (s.stop k).retries o [])) } := by
  have hbump : ∀ ts, (s.bump Regs.linkRetries).lastSecond ts = s.lastSecond ts := fun _ => rfl
  have hstop : ∀ j, (s.bump Regs.linkRetries).stop j = s.stop j := fun _ => rfl
  simp only [State.copyRefused, ne_eq, not_true_eq_false, if_false, refusedCopy]
  rw [logs_stop, logs_lastSecond, (State.SignalsTo.logs _).now, hbump, hstop]
  rfl

theorem copyRefused_stop (o j : Nat) : ∃ r, (s.copyRefused k o 1).stop j = { s.stop j with retries := r } := by
  rw [copyRefused_first]
  by_cases h : j = k
  · rw [h, stop_setStop_same]
    exact ⟨_, rfl⟩
  · rw [stop_setStop_ne _ h, logs_stop]
    exact ⟨(s.stop j).retries, rfl⟩

theorem copyRefused_mem (o : Nat) : (s.copyRefused k o 1).mem = s.mem := by
  rw [copyRefused_first]
  exact (State.SignalsTo.logs _).mem

theorem copyRefused_disp (o : Nat) : (s.copyRefused k o 1).disp = s.disp := by
  rw [copyRefused_first]
  exact (State.SignalsTo.logs _).disp

theorem copyRefused_reg {q : Reg} (o : Nat) (hc : q.key ≠ Regs.errCorrected.key) (hl : q.key ≠ Regs.errLogLost.key)
    (ha : q.key ≠ Regs.devAttention.key) : (s.copyRefused k o 1).reg q = (s.bump Regs.linkRetries).reg q := by
  rw [copyRefused_first, reg_setStop]
  exact logs_reg _ hc hl ha

theorem copyRefused_persistent {o : Nat} (hp : (s.lastSecond (kget (s.stop k).poisons o [])).length < 2)
    (hr : (s.lastSecond (kget (s.stop k).retries o [])).length < 1000) :
    (s.copyRefused k o 1).linkPersistent k o = s.copyRefused k o 1 := by
  have hlast : ∀ ts, (s.copyRefused k o 1).lastSecond ts = s.lastSecond ts := fun ts => by
    rw [copyRefused_first]
    exact (logs_lastSecond (s := s.bump Regs.linkRetries) _ ts)
  have hstop : (s.copyRefused k o 1).stop k = { s.stop k with
      retries := kset (s.stop k).retries o (s.now :: s.lastSecond (kget (s.stop k).retries o [])) } := by
    rw [copyRefused_first, stop_setStop_same]
  refine linkPersistent_sound ?_ ?_
  · rw [hlast, hstop]; exact hp
  · rw [hlast, hstop, kget_kset_same, lastSecond_now_cons]
    exact hr

/-- The first copy of transfer n is refused: its sender keeps the transfer. -/
def State.transferRefused (s : State) (l : Nat × Nat) (k inp n : Nat) (pkt : Packet) : State :=
  let u := s.copyRefused l.1 l.2 1
  u.setStop k { u.stop k with retry := kset (u.stop k).retry inp ⟨pkt, n, 1⟩ }

theorem promenadePacket_refused {k : Fin 48} {port : Port} {n : Fin 4}
    (hl : linkInto k.val (portNumber port) = some l) (hr : kfind (s.stop k.val).retry (portNumber port) = none)
    (hc : copyGood e = false) (hm : s.mayEnter k.val (portNumber port) pkt n.val = true)
    (hp : (s.lastSecond (kget (s.stop l.1).poisons l.2 [])).length < 2)
    (ht : (s.lastSecond (kget (s.stop l.1).retries l.2 [])).length < 1000) (hi : pkt.item ≠ none) (hf : s.mem.flaws = []) :
    exec (.promenadePacket k port [e] pkt n) s = .next (s.transferRefused l k.val (portNumber port) n.val pkt) := by
  show execPromenadePacket k port [e] pkt n s = _
  have hitem : pkt.item.isNone = false := by
    cases h : pkt.item with
    | none => exact absurd h hi
    | some _ => rfl
  have hflaws : (s.copyRefused l.1 l.2 1).mem.flaws = [] := by rw [copyRefused_mem, hf]
  have hcopies : s.linkCopies l.1 l.2 0 (.refused 1) = (s.copyRefused l.1 l.2 1, false) := by
    simp [State.linkCopies, Copies.count, List.range_succ, hflaws]
  obtain ⟨lk, lo⟩ := l
  simp only [execPromenadePacket, hl, refusedOf_free hr, hm, Bool.not_true, Bool.false_eq_true, if_false, takeCopies_first_bad hc,
    hcopies, copyRefused_persistent hp ht, hitem]
  rfl

theorem linkPersistent_mem (o : Nat) : (s.linkPersistent k o).mem = s.mem := by
  simp only [State.linkPersistent]
  split
  · split
    · rfl
    · exact (State.SignalsTo.logs _).mem
  · rfl

theorem linkPersistent_reg {q : Reg} (o : Nat) (hc : q.key ≠ Regs.errFatal.key) (hl : q.key ≠ Regs.errLogLost.key)
    (ha : q.key ≠ Regs.devAttention.key) : (s.linkPersistent k o).reg q = s.reg q := by
  simp only [State.linkPersistent]
  split
  · split
    · rfl
    · exact logs_reg _ hc hl ha
  · rfl

theorem copyPoisoned_mem (o : Nat) : (s.copyPoisoned k o).mem = s.mem := by
  simp only [State.copyPoisoned]
  split <;> exact (State.SignalsTo.logs _).mem

theorem copyPoisoned_reg {q : Reg} (o : Nat) (hc : q.key ≠ Regs.errContained.key) (hl : q.key ≠ Regs.errLogLost.key)
    (ha : q.key ≠ Regs.devAttention.key) : (s.copyPoisoned k o).reg q = (s.bump Regs.linkPoisoned).reg q := by
  simp only [State.copyPoisoned]
  split <;> exact logs_reg _ hc hl ha

theorem promenadePacket_poisoned {k : Fin 48} {port : Port} {n : Fin 4}
    (hl : linkInto k.val (portNumber port) = some l) (hr : kfind (s.stop k.val).retry (portNumber port) = some ⟨pkt, n.val, 3⟩)
    (hc : copyGood e = false) (hm : s.mayEnter k.val (portNumber port) pkt n.val = true) (hi : pkt.item ≠ none)
    (hf : s.mem.flaws = []) :
    exec (.promenadePacket k port [e] pkt n) s =
      .next (((s.copyPoisoned l.1 l.2).linkPersistent l.1 l.2).transferEnters k.val (portNumber port) 0 n pkt true) := by
  show execPromenadePacket k port [e] pkt n s = _
  have hitem : pkt.item.isNone = false := by
    cases h : pkt.item with
    | none => exact absurd h hi
    | some _ => rfl
  have hcopies : s.linkCopies l.1 l.2 3 (.poisoned 3) = (s.copyPoisoned l.1 l.2, true) := by
    simp [State.linkCopies, Copies.count, hf]
  obtain ⟨lk, lo⟩ := l
  simp only [execPromenadePacket, hl, refusedOf_waiting hr, hm, Bool.not_true, Bool.false_eq_true, if_false, takeCopies_fourth_bad hc,
    hcopies, hitem]
  rfl

theorem mem_replaceFirst_const {α : Type} {p : α → Bool} {x y : α} {l : List α} (hx : x ∈ l) (hp : p x = true) :
    y ∈ replaceFirst p (fun _ => y) l := by
  induction l with
  | nil => cases hx
  | cons z l ih =>
    unfold replaceFirst
    split
    · exact List.mem_cons_self ..
    · next hz =>
      rcases List.mem_cons.mp hx with rfl | hx
      · exact absurd hp hz
      · exact List.mem_cons_of_mem _ (ih hx)

theorem mem_received_poisoned {v : Stop} {n : Fin 4} : n ∈ (v.received inp e n pkt true).poisoned := by
  simp [Stop.received]

/-- A transfer that arrives as poison is marked in the FIFO. -/
theorem transferEnters_marks {n : Fin 4} :
    ∃ h ∈ ((s.transferEnters k inp e n pkt true).stop k).held, h.inp = inp ∧ n ∈ h.pkt.poisoned := by
  cases hh : (s.stop k).partial_ inp pkt.traffic with
  | none =>
    rw [transferEnters_first hh]
    exact ⟨_, List.mem_append_right _ (List.mem_singleton_self _), rfl, mem_received_poisoned⟩
  | some h =>
    have hin : h.inp = inp := by
      have hfound := List.find?_some hh
      simp only [Bool.and_eq_true, decide_eq_true_eq] at hfound
      exact hfound.1.1
    rw [transferEnters_next hh]
    exact ⟨_, mem_replaceFirst_const (List.mem_of_find?_eq_some hh) (beq_self_eq_true h), hin, mem_received_poisoned⟩

theorem transferEnters_retry {n : Fin 4} {poison : Bool} : kfind ((s.transferEnters k inp e n pkt poison).stop k).retry inp = none := by
  cases hh : (s.stop k).partial_ inp pkt.traffic with
  | none => rw [transferEnters_first hh]; exact kfind_kdel_same _ _
  | some h => rw [transferEnters_next hh]; exact kfind_kdel_same _ _

theorem mayEnter_not {n : Nat} (h : s.pdOn 41 = false ∨ packetLawful pkt = false ∨ (s.stop k).hasCredit k inp pkt.traffic = false) :
    s.mayEnter k inp pkt n = false := by
  rcases h with h | h | h <;> simp [State.mayEnter, h]

theorem promenadePacket_nothing {k : Fin 48} {port : Port} {copies : List Nat} {n : Fin 4}
    (h : linkInto k.val (portNumber port) = none ∨ s.mayEnter k.val (portNumber port) pkt n.val = false) :
    exec (.promenadePacket k port copies pkt n) s = .next s := by
  show execPromenadePacket k port copies pkt n s = _
  simp only [execPromenadePacket]
  split
  · next hl _ =>
    rcases h with h | h
    · rw [h] at hl; cases hl
    · exact if_pos (by simp [h])
  · rfl

/-- Without wrong bits a payload comes as it was sent. -/
theorem spoilPayload_zero (n : Nat) (payload : Bytes) : spoilPayload 0 n payload = payload := by
  have hb : ∀ hi lo, bits 0 hi lo = 0 := fun hi lo => by simp [bits]
  have hx : ∀ b : Byte, b ^^^ BitVec.ofNat 8 0 = b := fun b => by simp
  simp only [spoilPayload, hb, hx, ite_self]
  exact List.zipIdx_map_fst 0 payload

/-! The TAP's instruction, by JTAG_ACCESS (R505–R507). -/

theorem jtagAccess_open (ha : s.flag Regs.kpArmed = false) (h1 : s.lifecycle ≠ 1) (h2 : s.lifecycle ≠ 2) : s.jtagAccess = 2 := by
  unfold State.jtagAccess
  split
  · next h => exact absurd h h1
  · next h => exact absurd h h2
  · simp [ha]

theorem tapLocked_refused {j : Jtag} (ha : s.jtagAccess = 0) (hpd : s.pdOn 46 = true) :
    s.tapLocked j = s.setPins { s.pins with jtag := .bypass } := by simp [State.tapLocked, State.tapTakes, ha, hpd]

theorem tapLocked_open {j : Jtag} (ha : s.jtagAccess = 2) (hpd : s.pdOn 46 = true) :
    s.tapLocked j = s.setPins { s.pins with jtag := j } := by simp [State.tapLocked, State.tapTakes, ha, hpd]

theorem jtagOf_private {c : Nat} (hlo : 0x80 ≤ c) (hhi : c ≤ 0xFE) : jtagOf c = .keryomos c := by
  unfold jtagOf
  split <;> simp_all

theorem jtagOf_bypass {c : Nat} (h : c = 0 ∨ (5 < c ∧ c < 0x80) ∨ c = 0xFF) : jtagOf c = .bypass := by
  unfold jtagOf
  split
  iterate 5 omega
  exact if_neg (by omega)

end

/-- Settles O50: a transfer enters by its stop's own rule, and an instruction by JTAG_ACCESS. -/
theorem packetsEnterAndJtagFollowsAccess : Obligations.PacketsEnterAndJtagFollowsAccess := by
  refine ⟨fun k port e more pkt l s hl hr hc hm hn hp ht hi hq => ?_, fun k port e more pkt n l h s hl hr hc hm hh hp ht hi hq hhq => ?_,
    fun k port e pkt n l s hl hr hc hm hp ht hi hf => ?_, fun k port e pkt n l s hl hr hc hm hi hf => ?_,
    fun k port copies pkt n s h => ?_, fun code s ha hpd => ⟨?_, ?_, ?_, fun hlo => ?_⟩,
    fun code s ha h1 h2 hpd => ⟨?_, ?_, ?_, fun hlo hhi => ?_⟩, fun code data s hpd => ⟨fun h => ?_, ?_, ?_⟩, fun s => rfl⟩
  · obtain ⟨v, w, hframe⟩ := transferEnters_frame (s := s) (k := k.val) (inp := portNumber port) (e := e) (pkt := pkt) (n := 0)
      (poison := false)
    refine ⟨_, promenadePacket_accepted hl hr hc hm hp ht hi, ?_, ?_, ?_, ?_, ?_, ?_, fun j hj => ?_⟩
    · rw [transferEnters_first hn, received_clean hq (by rw [hn]; rfl), hn]
      rfl
    · rintro rfl; exact spoilPayload_zero _ _
    · rw [transferEnters_first hn]
    · rw [hframe]; rfl
    · rw [hframe]; rfl
    · rw [hframe]; rfl
    · rw [hframe, stop_setStop_ne _ hj, stop_setStop_ne _ hj]
  · obtain ⟨v, w, hframe⟩ := transferEnters_frame (s := s) (k := k.val) (inp := portNumber port) (e := e) (pkt := pkt) (n := n)
      (poison := false)
    refine ⟨_, promenadePacket_accepted hl hr hc hm hp ht hi, ?_, ?_, ?_, ?_⟩
    · rw [transferEnters_next hh, received_clean hq (by rw [hh]; exact hhq), hh]
      rfl
    · rw [hframe]; rfl
    · rw [hframe]; rfl
    · rw [hframe]; rfl
  · obtain ⟨r, hstop⟩ := copyRefused_stop (s := s) (k := l.1) l.2 k.val
    refine ⟨_, promenadePacket_refused hl hr hc hm hp ht hi hf, ?_, ?_, ?_, ?_, ?_, ?_⟩
    · rw [State.transferRefused, stop_setStop_same, hstop]
    · rw [State.transferRefused, stop_setStop_same]
      exact kfind_kset_same _ _ _
    · rw [State.transferRefused, reg_setStop, copyRefused_reg _ (by decide) (by decide) (by decide), reg_bump_same]
    · rw [State.transferRefused, reg_setStop, copyRefused_reg _ (by decide) (by decide) (by decide), reg_bump_ne _ (by decide)]
    · exact copyRefused_mem _
    · exact congrArg Dispatch.items (copyRefused_disp _)
  · obtain ⟨v, w, hframe⟩ := transferEnters_frame (s := (s.copyPoisoned l.1 l.2).linkPersistent l.1 l.2) (k := k.val)
      (inp := portNumber port) (e := 0) (pkt := pkt) (n := n) (poison := true)
    refine ⟨_, promenadePacket_poisoned hl hr hc hm hi hf, transferEnters_retry, ?_, ?_, transferEnters_marks, ?_⟩
    · rw [hframe, reg_setStop, reg_setStop, linkPersistent_reg _ (by decide) (by decide) (by decide),
        copyPoisoned_reg _ (by decide) (by decide) (by decide), reg_bump_ne _ (by decide)]
    · rw [hframe, reg_setStop, reg_setStop, linkPersistent_reg _ (by decide) (by decide) (by decide),
        copyPoisoned_reg _ (by decide) (by decide) (by decide), reg_bump_same]
    · rw [hframe, setStop_mem, setStop_mem, linkPersistent_mem, copyPoisoned_mem]
  · exact promenadePacket_nothing (h.imp_right mayEnter_not)
  · exact congrArg Host.Outcome.next (tapLocked_refused (jtagAccess_of_armed ha) hpd)
  · exact congrArg Host.Outcome.next (tapLocked_refused (jtagAccess_of_armed ha) hpd)
  · exact congrArg Host.Outcome.next (tapLocked_refused (jtagAccess_of_armed ha) hpd)
  · show execBypass code s = _
    rcases (show code.val ≤ 0xFE ∨ code.val = 0xFF by omega) with hhi | hff
    · simp only [execBypass, jtagOf_private hlo hhi, tapLocked_refused (jtagAccess_of_armed ha) hpd]
    · simp only [execBypass, jtagOf_bypass (.inr (.inr hff)), State.tapTakes, hpd, if_true]
  · exact congrArg Host.Outcome.next (tapLocked_open (jtagAccess_open ha h1 h2) hpd)
  · exact congrArg Host.Outcome.next (tapLocked_open (jtagAccess_open ha h1 h2) hpd)
  · exact congrArg Host.Outcome.next (tapLocked_open (jtagAccess_open ha h1 h2) hpd)
  · show execBypass code s = _
    simp only [execBypass, jtagOf_private hlo hhi, tapLocked_open (jtagAccess_open ha h1 h2) hpd]
  · show execBypass code s = _
    simp only [execBypass, jtagOf_bypass h, State.tapTakes, hpd, if_true]
  · show execIdcode s = _
    simp only [execIdcode, State.tapTakes, hpd, if_true]
  · show execSamplePreload data s = _
    simp only [execSamplePreload, State.tapTakes, hpd, if_true]
    rfl

end Sys2Proof.Machine
end


section
/-! R408, R442–R452: power requests, the steps of a change and the power cap. -/

namespace Sys2Proof.Machine

section
variable {s : State} {p : Path} {x : Bytes} {want : Nat → Option PdState}

/-- What a request that R443 does not refuse leaves: the objects of the domains named, and their changes. -/
def State.requested (s : State) (want : Nat → Option PdState) : State :=
  State.requestPds ((List.range 47).foldl (fun s d => match want d with
    | some v => s.setReg (Regs.pdRequest d) v.code
    | none => s) s) want

theorem hostRequests_free (h : s.pdRefused want = none) : s.hostRequests want = .ok (s.requested want) := by
  simp only [State.hostRequests, h]
  rfl

theorem hookDomainSet_codes (h : x.all (fun b => [0, 1, 2, 0xFF].contains b.toNat) = true) :
    hookDomainSet s p x = s.hostRequests (fun d => match x[d]? with
      | some b => if b = 0xFF then none else some (pdStateOf b.toNat)
      | none => none) := by
  refine if_neg ?_
  rw [List.any_eq_true]
  rintro ⟨b, hb, hn⟩
  rw [List.all_eq_true.mp h b hb] at hn
  cases hn

/-! The way to sleep (R452). -/

theorem requestPd_shut (d : Nat) (v : PdState) (batch : Nat) :
    (s.requestPd d v batch).power.doorbellsShut = s.power.doorbellsShut := by
  unfold State.requestPd
  dsimp only
  split <;> rfl

theorem requestPds_shut : (s.requestPds want).power.doorbellsShut = s.power.doorbellsShut := by
  have hfold : ∀ (l : List Nat) (b : Nat) (t : State), (l.foldl (fun s d => match want d with
      | some v => s.requestPd d v b
      | none => s) t).power.doorbellsShut = t.power.doorbellsShut := by
    intro l b
    induction l with
    | nil => exact fun _ => rfl
    | cons d l ih =>
      intro t
      rw [List.foldl_cons, ih]
      split
      · exact requestPd_shut ..
      · rfl
  exact hfold leavingOrder _ _

theorem writeSleepSet_served {data : Bytes} {t : State} (hx : s.offered p 0x2101 1 data = some data) (hl : data.length = 47)
    (hr : s.sleepRefused data = none) (ht : hookSleep s p data = .ok t) : s.writeSleepSet p data = t.accepted p := by
  obtain ⟨hserved, o, k, ha, -⟩ := offered_iff.mp hx
  have hnot : ¬ (s.served p 0x2101 = false ∨ data.length ≠ 47) := by simp [hserved, hl]
  rw [State.writeSleepSet, if_neg hnot]
  simp only [ha, hr]
  exact writeObject_accepted hx ht

theorem writeSleepSet_refused {data : Bytes} {e : Reply} (hx : s.offered p 0x2101 1 data = some x) (hl : data.length = 47)
    (hr : s.sleepRefused data = some e) : s.writeSleepSet p data =
      ((if e = outOfRange then s else s.noteEstimate data).bump Regs.pwrSleepRefusals).finishWrite p 0x2101 1 (.error e) := by
  obtain ⟨hserved, o, k, ha, -⟩ := offered_iff.mp hx
  have hnot : ¬ (s.served p 0x2101 = false ∨ data.length ≠ 47) := by simp [hserved, hl]
  rw [State.writeSleepSet, if_neg hnot]
  simp only [ha, hr]

theorem finishWrite_error_power {index sub : Nat} {e : Reply} : (s.finishWrite p index sub (.error e)).power = s.power := by
  have hcount : (s.countRefusal index sub e).power = s.power := (State.SignalsTo.bumpIf _ _).power
  cases p <;> exact hcount

/-! A change of power state (R442). -/

theorem pdTransition_begun {d : Fin 47} {v : PdState} (ht : (s.pd d.val).target = some v) (hf : (s.pd d.val).forced = false)
    (hb : (s.pd d.val).begun = true) (hm : s.stepMayEnd d.val v = true) (hp : (s.pdStepDone d.val).power.phase = .awake) :
    exec (.pdTransitionComplete d) s = .next (s.pdStepDone d.val) := by
  show execPdTransitionComplete d s = _
  simp [execPdTransitionComplete, ht, hf, hb, hm, hp]

theorem pdTransition_waits {d : Fin 47} {v : PdState} (ht : (s.pd d.val).target = some v) (hf : (s.pd d.val).forced = false)
    (hb : (s.pd d.val).begun = true) (hm : s.stepMayEnd d.val v = false) : exec (.pdTransitionComplete d) s = .next s := by
  show execPdTransitionComplete d s = _
  simp [execPdTransitionComplete, ht, hf, hb, hm]

theorem pdTransition_begins {d : Fin 47} {v : PdState} (ht : (s.pd d.val).target = some v) (hf : (s.pd d.val).forced = false)
    (hb : (s.pd d.val).begun = false) (hs : s.mayStart d.val v = true) (hm : (s.pdStarts d.val).stepMayEnd d.val v = false) :
    exec (.pdTransitionComplete d) s = .next (s.pdStarts d.val) := by
  show execPdTransitionComplete d s = _
  simp [execPdTransitionComplete, ht, hf, hb, hs, hm]

theorem pdTransition_held {d : Fin 47} {v : PdState} (ht : (s.pd d.val).target = some v) (hf : (s.pd d.val).forced = false)
    (hb : (s.pd d.val).begun = false) (hs : s.mayStart d.val v = false) : exec (.pdTransitionComplete d) s = .next s := by
  show execPdTransitionComplete d s = _
  simp [execPdTransitionComplete, ht, hf, hb, hs]

end

/-- Settles O51: a request is refused or becomes its changes; each step asks whether it may begin and may end. -/
theorem powerChangesAndCap : Obligations.PowerChangesAndCap := by
  refine ⟨fun p d data x s hx hr => ?_, fun p data x s hx hc hr => ?_, fun p data s hx hl hr => ?_, fun p data x s e hx hl hr => ?_,
    fun p v x s hx h1 => ?_, fun d v s ht hf hb hm hp => pdTransition_begun ht hf hb hm hp,
    fun d v s ht hf hb hm => pdTransition_waits ht hf hb hm, fun d v s ht hf hb hs hm => pdTransition_begins ht hf hb hs hm,
    fun d v s ht hf hb hs => pdTransition_held ht hf hb hs, fun mW g s t hd ht ho hg => ?_, fun mW s t hd ht ho hg hn => ?_,
    fun mW l s hl hlt => ?_, fun g s hs hu hd hg => ?_, fun g v s t hv ht hat => ?_, fun g v s t hv ht hat => ?_⟩
  · exact ⟨_, hostRequests_free hr, next_accepted hx (hostRequests_free hr)⟩
  · exact ⟨_, hostRequests_free hr, next_accepted hx ((hookDomainSet_codes hc).trans (hostRequests_free hr))⟩
  · have hok : ∃ t, hookSleep s p data = .ok t ∧ t.power.doorbellsShut = true := by
      simp only [hookSleep, hr]
      exact ⟨_, rfl, requestPds_shut⟩
    obtain ⟨t, ht, hshut⟩ := hok
    exact ⟨t, ht, congrArg Host.Outcome.next (writeSleepSet_served hx hl hr ht), hshut⟩
  · have hpower : ((if e = outOfRange then s else s.noteEstimate data).bump Regs.pwrSleepRefusals).power = s.power := by
      split <;> rfl
    refine ⟨_, congrArg Host.Outcome.next (writeSleepSet_refused hx hl hr), ?_, ?_⟩
    · rw [finishWrite_error_power, hpower]
    · rw [finishWrite_error_power, hpower]
  · exact next_accepted hx (actHook_one h1)
  · subst ht
    show execPowerCapTick mW s = _
    simp only [execPowerCapTick, periodDue_of hd, if_true, Bool.not_true, Bool.false_eq_true, if_false, ho, hg]
  · subst ht
    show execPowerCapTick mW s = _
    simp only [execPowerCapTick, periodDue_of hd, if_true, Bool.not_true, Bool.false_eq_true, if_false, ho, hg, hn]
    rfl
  · have hnot : s.periodDue s.power.capAt 100000 = false := by
      rw [hl]; exact decide_eq_false (not_le.mpr hlt)
    show execPowerCapTick mW s = _
    simp [execPowerCapTick, hnot]
  · show execPowerRaiseTick s = _
    rw [execPowerRaiseTick, if_pos ⟨hs, hu, periodDue_of hd⟩, hg]
  · subst hv ht
    exact if_pos hat
  · subst hv ht
    have hraise : s.raiseLevel g = (s.setGaffer g { s.gaffer g with raiseTo := some (min (s.reg (Regs.gafferLevel g))
        (s.reg (Regs.gafferLevelNow g) + 1)) }).beginLevel g := if_neg (not_le.mpr hat)
    rw [hraise]
    exact ⟨beginLevel_reg (by simp [Regs.gafferLevelNow, Regs.pwrVcoreNow]; omega), beginLevel_changing⟩

end Sys2Proof.Machine
end

section
/-! R453–R460: going to sleep and waking. -/

namespace Sys2Proof.Machine

section
variable {s : State}

theorem wakeEvent_asleep {smb : Option Nat} {edge : Option Bool} (h : s.power.phase = .asleep) : s.wakeEvent smb edge =
    (s.recordWake smb edge).setPower { s.power with phase := .waking 1, since := s.now, tries := 0, gatehouseTry := false } := by
  simp only [State.wakeEvent, h]

/-- A wake pin at its inactive level wakes nothing (R454). -/
theorem wakeLevel_inactive {one : Bool} (h : (if one then s.pins.wake1 else s.pins.wake0) =
    bit (s.reg (if one then Regs.wake1Cfg else Regs.wake0Cfg)) 1) : s.wakeLevel one = false := by
  simp [State.wakeLevel, h]

theorem wakeLevel_active {one : Bool} (hio : s.pins.io33 = true) (h : (if one then s.pins.wake1 else s.pins.wake0) ≠
    bit (s.reg (if one then Regs.wake1Cfg else Regs.wake0Cfg)) 1) : s.wakeLevel one = true := by
  simp only [State.wakeLevel, hio, Bool.true_and, bne_iff_ne]
  exact h

theorem pinActive_wakes {one : Bool} (hb : bit (s.reg (if one then Regs.wake1Cfg else Regs.wake0Cfg)) 0 = true)
    (hr : bits (s.reg (if one then Regs.wake1Cfg else Regs.wake0Cfg)) 4 3 = 0) : s.pinActive one =
      s.wakeEvent none (if bit (s.reg (if one then Regs.wake1Cfg else Regs.wake0Cfg)) 2 then some one else none) := by
  simp [State.pinActive, hb, hr]

theorem wakePin_one_inactive {level : Bool} (h : bit (s.reg Regs.wake1Cfg) 1 = level) :
    exec (.wakePin true level) s = .next { s with pins := { s.pins with wake1 := level } } := by
  have hnow : State.wakeLevel { s with pins := { s.pins with wake1 := level } } true = false := wakeLevel_inactive h.symm
  refine if_neg ?_
  rw [Bool.and_eq_true]
  rintro ⟨-, hlevel⟩
  exact absurd (hnow.symm.trans hlevel) (by decide)

theorem wakePin_zero_active {level : Bool} (hio : s.pins.io33 = true) (hcfg : bit (s.reg Regs.wake0Cfg) 1 ≠ level)
    (hwas : s.pins.wake0 ≠ level) : exec (.wakePin false level) s =
      .next (State.pinActive { s with pins := { s.pins with wake0 := level } } false) := by
  have hbefore : s.wakeLevel false = false := wakeLevel_inactive (one := false) (by
    revert hcfg hwas
    show bit (s.reg Regs.wake0Cfg) 1 ≠ level → s.pins.wake0 ≠ level → s.pins.wake0 = bit (s.reg Regs.wake0Cfg) 1
    cases s.pins.wake0 <;> cases bit (s.reg Regs.wake0Cfg) 1 <;> cases level <;> simp)
  have hnow : State.wakeLevel { s with pins := { s.pins with wake0 := level } } false = true := wakeLevel_active hio hcfg.symm
  exact if_pos (Bool.and_eq_true_iff.mpr ⟨by rw [hbefore]; rfl, hnow⟩)

/-- What a try of the wake leaves (R457). -/
def State.wakeTried (s : State) : State :=
  let t := s.wakeField 23 20 (s.power.tries + 1)
  let u := t.setPower { t.power with
    phase := .waking 2, since := t.now, tries := s.power.tries + 1, gatehouseTry := false, lowPower := false }
  { u with pins := { u.pins with pmicSleep := false } }

theorem wakeTry_first (hp : s.power.phase = .waking 1) (ht : s.power.tries < 3) : exec .wakeTry s = .next s.wakeTried := by
  have hn : ¬ s.power.tries + 1 = 4 := by omega
  show execWakeTry s = _
  rw [execWakeTry, if_pos (.inl hp)]
  simp only [if_neg hn, decide_eq_false hn]
  rfl

/-- What arming the wake detectors leaves, with no wake event pending (R453). -/
def State.armed (s : State) : State :=
  let t := (s.setPower { s.power with phase := .asleep, since := s.now }).bump Regs.pwrSleepEntries
  { t with pins := { t.pins with pmicSleep := true } }

/-- What a try that fails leaves (R458). -/
def State.tryFailed (s : State) (reason : Nat) : State :=
  let t := ((s.wakeField 31 24 reason).setReg Regs.pwrWakeFailReason reason).bump Regs.pwrWakeFails
  let u := t.setPower { t.power with phase := .failed, since := t.now, lowPower := true, gatehouseTry := false }
  { u with pins := { u.pins with pmicSleep := true } }

theorem tryFailed_reg {reason : Nat} {q : Reg} :
    (s.tryFailed reason).reg q = ((s.setReg Regs.pwrWakeFailReason reason).bump Regs.pwrWakeFails).reg q := rfl

theorem wakeTryFail_waits {reason : Fin 6} (hf : s.tryFails reason.val = true) (hg : s.power.gatehouseTry = false) :
    exec (.wakeTryFail reason) s = .next (s.tryFailed reason.val) := by
  have hafter : (((s.wakeField 31 24 reason.val).setReg Regs.pwrWakeFailReason reason.val).bump Regs.pwrWakeFails).power.gatehouseTry =
      false := hg
  show execWakeTryFail reason s = _
  rw [execWakeTryFail, if_pos hf]
  simp only [hafter, Bool.false_eq_true, if_false]
  rfl

theorem wakeDetectorArm_quiet (hp : s.power.phase = .entering 3) (ht : s.power.since * 32768 + 4000000000 ≤ s.now * 32768)
    (hw : s.power.wakeDue = false) (h0 : s.levelWake false = false) (h1 : s.levelWake true = false) (ha : s.alarmDue = none) :
    exec .wakeDetectorArm s = .next s.armed :=
  (if_pos ⟨hp, ht⟩).trans ((if_neg (by simp [hw])).trans (if_neg (by simp [h0, h1, ha])))

end

/-- Settles O52: each command asks for its phase and its time; what wakes writes the record and begins the first try. -/
theorem sleepAndWake : Obligations.SleepAndWake := by
  refine ⟨fun s hp hw hd => ?_, fun s hp ht hw h0 h1 ha => ?_, fun byte s hc hio he hm hp => ?_, fun level s hio h => ?_,
    fun level s t hio hc hw ht hb hr => ?_, fun a n s ha hp hn => ?_, fun s hp ht => ?_, fun s hp => ?_, fun s hp => ?_, fun s hp => ?_,
    fun n s hp hg => ?_, fun n s hp hd => ?_, fun reason s hf hg => ?_, fun s t hp ht he => ?_⟩
  · refine if_pos ⟨hp, hw, List.all_eq_true.mpr fun d hd' => ?_⟩
    rw [hd d hd']
    rfl
  · exact ⟨_, wakeDetectorArm_quiet hp ht hw h0 h1 ha, rfl, rfl, reg_bump_same _ _, rfl, rfl⟩
  · have hmatch : (s.power.comparator && s.pins.io33 && bit (s.reg Regs.pwrSmbWake) 15 &&
        decide ((bits byte 7 1 ^^^ bits (s.reg Regs.pwrSmbWake) 6 0) &&& bits (s.reg Regs.pwrSmbWake) 14 8 = 0)) = true := by
      simp [hc, hio, he, hm]
    refine (if_pos hmatch).trans ?_
    rw [wakeEvent_asleep hp]
  · exact wakePin_one_inactive h
  · subst ht
    rw [wakePin_zero_active hio hc hw]
    exact congrArg Host.Outcome.next (pinActive_wakes (one := false) hb hr)
  · show execSleepAlarm a s = _
    simp only [execSleepAlarm, ha]
    rw [if_pos ⟨hp, hn⟩, wakeEvent_asleep hp]
  · exact ⟨_, wakeTry_first hp ht, rfl, rfl, rfl, rfl, rfl, rfl, rfl⟩
  · exact if_pos hp
  · exact if_pos hp
  · exact if_pos hp
  · have hafter : (s.calibrates 0).power.gatehouseTry = false := hg
    refine (if_pos hp).trans ?_
    simp only [hafter, Bool.false_eq_true, if_false]
  · exact (if_neg hp).trans (if_pos hd)
  · refine ⟨_, wakeTryFail_waits hf hg, rfl, rfl, rfl, ?_, ?_, rfl, rfl⟩
    · rw [tryFailed_reg, reg_bump_ne _ (by decide), reg_setReg_same]
    · rw [tryFailed_reg, reg_bump_same, reg_setReg_ne _ _ (by decide)]
  · subst he
    exact if_pos ⟨hp, ht⟩

end Sys2Proof.Machine
end

section
/-! R451–R499: supplies, clocks and resets from outside. -/

namespace Sys2Proof.Machine

section
variable {s : State}

theorem wakeLevel_unsupplied {one : Bool} (h : s.pins.io33 = false) : s.wakeLevel one = false := by simp [State.wakeLevel, h]

/-- Without VDD_IO33 no wake pin becomes active (R451). -/
theorem io33Low_lost : exec (.io33Low false) s = .next { s with pins := { s.pins with io33 := false } } := by
  have h : ∀ one, State.wakeLevel { s with pins := { s.pins with io33 := false } } one = false := fun _ => wakeLevel_unsupplied rfl
  show execIo33Low false s = _
  simp only [execIo33Low, h, Bool.and_false, Bool.false_eq_true, if_false]

/-- What a loss of CLK_32K leaves while the sleep clock runs from it (R495). -/
def State.clockLost (s : State) : State :=
  let t := { s with pins := { s.pins with clk32k := false } }
  let u := ((t.setReg Regs.sleepClockSrc 1).setReg Regs.sleepCorrValid 0).bump Regs.pinClk32kLosses
  u.draw.2.logs { severity := .contained, source := 13, kind := u.draw.1 % 256 }

theorem clk32kLoss_switches (h : s.flag Regs.sleepClockSrc = false) : exec .clk32kLoss s = .next s.clockLost := by
  show execClk32kLoss s = _
  simp only [execClk32kLoss, h, Bool.false_eq_true, if_false]
  rfl

theorem clockLost_reg {q : Reg} (hc : q.key ≠ Regs.errContained.key) (hl : q.key ≠ Regs.errLogLost.key)
    (ha : q.key ≠ Regs.devAttention.key) :
    s.clockLost.reg q = (((s.setReg Regs.sleepClockSrc 1).setReg Regs.sleepCorrValid 0).bump Regs.pinClk32kLosses).reg q := by
  rw [State.clockLost, logs_reg _ hc hl ha]
  rfl

/-! PERST falls on a device that has no ring enabled (R382). -/

theorem foldl_setReg_signals (f : Nat → Reg) (l : List Nat) (t : State) :
    t.SignalsTo (l.foldl (fun u c => u.setReg (f c) 0) t) := by
  induction l generalizing t with
  | nil => exact .refl t
  | cons c l ih => exact (State.SignalsTo.setReg _ _).trans (ih _)

theorem stopAllRings_idle (h : ∀ r, r < 64 → s.flag (Regs.ringEnable r) = false) :
    s.stopAllRings = (List.range 64).foldl (fun u c => u.setReg (Regs.cqEnable c) 0) s := by
  have hnone : ∀ l : List Nat, (∀ r ∈ l, r < 64) →
      l.foldl (fun u r => if u.flag (Regs.ringEnable r) then u.stopRing r else u) s = s := by
    intro l hl
    induction l with
    | nil => rfl
    | cons r l ih =>
      rw [List.foldl_cons, if_neg (by rw [h r (hl r (List.mem_cons_self ..))]; decide)]
      exact ih fun r hr => hl r (List.mem_cons_of_mem _ hr)
  rw [State.stopAllRings, hnone _ fun r hr => List.mem_range.mp hr]

theorem linkFalls_signals : s.SignalsTo s.linkFalls :=
  ((((State.SignalsTo.setReg _ _).trans (.setReg _ _)).trans (.setReg _ _)).trans (.setReg _ _)).trans (.attention 4)

theorem linkFalls_reg {q : Reg} (h1 : q.key ≠ Regs.hifLinkUp.key) (h2 : q.key ≠ Regs.hifLinkRate.key)
    (h3 : q.key ≠ Regs.hifLinkWidth.key) (h4 : q.key ≠ Regs.hifBelowFloor.key) (h5 : q.key ≠ Regs.devAttention.key) :
    s.linkFalls.reg q = s.reg q := by
  rw [State.linkFalls, State.attention, reg_setReg_ne _ _ h5, reg_setReg_ne _ _ h4, reg_setReg_ne _ _ h3, reg_setReg_ne _ _ h2,
    reg_setReg_ne _ _ h1]

theorem linkFalls_ringEnable (r : Nat) : s.linkFalls.flag (Regs.ringEnable r) = s.flag (Regs.ringEnable r) := by
  rw [State.flag, State.flag, linkFalls_reg]
  all_goals simp only [Regs.ringEnable, Regs.hifLinkUp, Regs.hifLinkRate, Regs.hifLinkWidth, Regs.hifBelowFloor, Regs.devAttention]
  all_goals omega

/-- Resetting configuration space leaves what is not of the link (R382). -/
structure State.LinkOnly (s t : State) : Prop where
  mem : t.mem = s.mem
  disp : t.disp = s.disp
  power : t.power = s.power
  boot : t.boot = s.boot
  drive : t.drive = s.drive
  perst : t.link.perst = s.link.perst

theorem configReset_linkOnly : s.LinkOnly s.configReset := by
  unfold State.configReset
  dsimp only
  split <;> exact ⟨rfl, rfl, rfl, rfl, rfl, rfl⟩

/-- What PERST leaves of a device without an enabled ring. -/
theorem perstFalls_idle (h : ∀ r, r < 64 → s.flag (Regs.ringEnable r) = false) :
    s.perstFalls.disp = s.disp ∧ s.perstFalls.power = s.power ∧ s.perstFalls.boot = s.boot := by
  have hstop := stopAllRings_idle (s := s.linkFalls) fun r hr => (linkFalls_ringEnable r).trans (h r hr)
  have hsignals : s.SignalsTo s.linkFalls.stopAllRings := by
    rw [hstop]
    exact linkFalls_signals.trans (foldl_setReg_signals Regs.cqEnable _ _)
  unfold State.perstFalls
  generalize s.linkFalls.stopAllRings = u at hsignals
  obtain ⟨-, hdisp, hpower, hboot, -, -⟩ := configReset_linkOnly (s := u)
  exact ⟨hdisp.trans hsignals.disp, hpower.trans hsignals.power, hboot.trans hsignals.boot⟩

theorem resetFor_powerOn_regs : (s.resetFor .powerOn).regs = [] := by
  have hnone : ∀ l : KMap Nat, l.filter (fun e => !(!StartEvent.powerOn.keeps e.1)) = [] := fun l => by
    rw [List.filter_eq_nil_iff]
    intro e _
    simp [StartEvent.keeps]
  exact hnone _

/-- The device as power comes on, before PERST falls. -/
def State.poweredOn (s : State) : State :=
  let t := s.resetFor .powerOn
  (t.draw.2.setReg Regs.sleepClockSrc (t.draw.1 % 2)).setPower {}

theorem poweredOn_ringEnable (r : Nat) : s.poweredOn.flag (Regs.ringEnable r) = false := by
  have hreg : s.poweredOn.reg (Regs.ringEnable r) = (s.resetFor .powerOn).reg (Regs.ringEnable r) := by
    rw [State.poweredOn]
    exact reg_setReg_ne _ _ (by simp only [Regs.ringEnable, Regs.sleepClockSrc]; omega)
  rw [State.flag, hreg, State.reg, resetFor_powerOn_regs]
  rfl

/-- What a power-on leaves. -/
def State.afterPowerOn (s : State) : State :=
  { s.poweredOn.perstFalls with pins :=
      { pgCore := false, pgSram := false, refclk := false, clk32k := decide ((s.resetFor .powerOn).draw.1 % 2 = 0), io33 := false,
        wake0 := s.poweredOn.perstFalls.pins.wake0, wake1 := s.poweredOn.perstFalls.pins.wake1 } }

theorem powerOn_next : exec .powerOn s = .next s.afterPowerOn := by
  show execPowerOn s = _
  simp only [execPowerOn, State.afterPowerOn, State.poweredOn]

theorem perstFalls_perst : s.perstFalls.link.perst = true := by
  unfold State.perstFalls
  generalize s.linkFalls.stopAllRings = u
  rfl

theorem afterPowerOn_perst : s.afterPowerOn.link.perst = true := by
  simp only [State.afterPowerOn, perstFalls_perst]

/-- A power-good that is low already falls no more. -/
theorem pgFalls_low {sram : Bool} (h : (if sram then s.pins.pgSram else s.pins.pgCore) = false) : s.pgFalls sram = s := by
  have hpins : (if sram then { s.pins with pgSram := false } else { s.pins with pgCore := false }) = s.pins := by
    cases sram
    · show { s.pins with pgCore := false } = s.pins
      rw [← (show s.pins.pgCore = false from h)]
    · show { s.pins with pgSram := false } = s.pins
      rw [← (show s.pins.pgSram = false from h)]
  simp only [State.pgFalls, h, hpins]
  rfl

end

/-- Settles O53: a supply that falls resets what its level tells, and each reset is followed by what its release starts. -/
theorem suppliesClocksAndResets : Obligations.SuppliesClocksAndResets := by
  refine ⟨fun cause s h0 h2 h3 => ?_, fun s hs hf => ?_, fun s => rfl, fun s _ => io33Low_lost, fun s hg hp => ?_, fun s hg hp => ?_,
    fun s => ⟨fun hg => ?_, fun hg => ?_⟩, fun s hg hp => ?_, fun s hc => ?_, fun s => ?_, fun s => rfl, fun s hr => ?_,
    fun s hp ht hg => if_pos ⟨hp, ht, hg⟩, fun s h => ?_, fun s t ht hs hb hd => ?_, fun s hs => ?_⟩
  · refine ⟨_, if_neg ?_, rfl⟩
    rintro (h | ⟨h, hl⟩ | ⟨h, hl⟩)
    · exact h0 h
    · rw [h2 h] at hl; cases hl
    · rw [h3 h] at hl; cases hl
  · show execIo18Low s = _
    have hstaging : (s.setReg Regs.pwrIo18Low 1).boot.staging = none := hs
    have hjobs : (s.setReg Regs.pwrIo18Low 1).boot.fuseJobs = [] := hf
    simp only [execIo18Low, hstaging, hjobs]
  · show Host.Outcome.next (s.pgFalls true) = _
    simp [State.pgFalls, hg, hp]
  · show Host.Outcome.next (s.pgFalls true) = _
    simp [State.pgFalls, hg, hp]
  · exact congrArg Host.Outcome.next (pgFalls_low (sram := true) hg)
  · exact congrArg Host.Outcome.next (pgFalls_low (sram := false) hg)
  · show Host.Outcome.next (s.pgFalls false) = _
    simp [State.pgFalls, hg, hp]
  · refine ⟨_, clk32kLoss_switches hc, ?_, ?_, ?_, ?_, ?_, ?_⟩
    · rw [State.flag, clockLost_reg (by decide) (by decide) (by decide), reg_bump_ne _ (by decide), reg_setReg_ne _ _ (by decide),
        reg_setReg_same]
      rfl
    · rw [State.flag, clockLost_reg (by decide) (by decide) (by decide), reg_bump_ne _ (by decide), reg_setReg_same]
      rfl
    · rw [clockLost_reg (by decide) (by decide) (by decide), reg_bump_same, reg_setReg_ne _ _ (by decide), reg_setReg_ne _ _ (by decide)]
    · rw [State.clockLost, (State.SignalsTo.logs _).pins]; rfl
    · rw [State.clockLost, (State.SignalsTo.logs _).mem]; rfl
    · rw [State.clockLost, (State.SignalsTo.logs _).disp]; rfl
  · obtain ⟨hdisp, hpower, hboot⟩ := perstFalls_idle (s := s.poweredOn) fun r _ => poweredOn_ringEnable r
    refine ⟨_, powerOn_next, rfl, rfl, rfl, rfl, ?_, ?_, afterPowerOn_perst, ?_⟩
    · simp only [State.afterPowerOn, hboot]
      rfl
    · simp only [State.afterPowerOn, hdisp]
      rfl
    · simp only [State.afterPowerOn, hpower]
      rfl
  · exact if_neg (by simp [hr])
  · refine if_neg ?_
    rintro ⟨hp, ht, hg⟩
    rcases h with h | h | h
    · exact h hp
    · omega
    · rw [h] at hg; cases hg
  · subst ht
    show execDictionaryReady s = _
    have hgo : ((s.settlesForced 45 3).paths.serving || !((s.settlesForced 45 3).pdOn 45 || ((s.settlesForced 45 3).keeper.gardenerOff &&
        (s.settlesForced 45 3).boot.coldRestart && (s.settlesForced 45 3).boot.phase == .started))) = false := by
      rcases hd with hd | ⟨hoff, hcold⟩
      · simp [hs, hd]
      · simp [hs, hoff, hcold, hb]
    refine (if_neg (by rw [hgo]; decide)).trans ?_
    simp only [hb]
  · show execDictionaryReady s = _
    simp [execDictionaryReady, hs]

end Sys2Proof.Machine
end

section
/-! R26, R472, R473, R477: the staging area, fuse commands and the seal. -/

namespace Sys2Proof.Machine

section
variable {s : State} {p : Path} {x : Bytes} {g : Staging}

theorem hookStage_begins {a : Nat} (hx : ofLe x = a) (hr : s.stageRefused a = none) : hookStage s p x = .ok (s.beginStage a) := by
  subst hx
  simp only [hookStage, hr]

/-- A staging action whose image could be read, and which is sound, ends by its action. -/
theorem stageComplete_sound {good : Bool} (hg : s.boot.staging = some g) (hf : g.failed = false) (hr : g.reason = 0) :
    exec (.stageComplete good) s = if g.action = 4 then .next ((s.stageEnds g 2).stageBoots (imageOf g.image))
      else if g.action = 1 then .next (s.stageEnds g 2) else if !good then .next (s.stageEnds g 5)
      else .next ((s.programs ((g.action - 2) * 0x1000000) g.image).stageEnds g
        (if (s.programs ((g.action - 2) * 0x1000000) g.image).slotReason (g.action - 2) = 0 then 2 else 5)) := by
  show execStageComplete good s = _
  simp only [execStageComplete, hg, hf, hr, Bool.false_eq_true, if_false, ne_eq, not_true_eq_false]

theorem fuseCommand_done {j : FuseJob} {rest : List FuseJob} (h : s.boot.fuseJobs = j :: rest) : exec (.fuseCommandComplete true) s =
    .next ((s.skipFree.setBoot { s.boot with fuses := s.boot.fuses.blow j none, fuseJobs := rest }).setReg Regs.lcFuseStatus
      (if (s.boot.fuses.blow j none).holds j then 1 else 3)) := by
  show execFuseCommandComplete true s = _
  simp only [execFuseCommandComplete, h, if_true, Bool.true_and]

end

/-- Settles O54: an engine begins when nothing refuses it, and ends as what it read says. -/
theorem stagingAndEngines : Obligations.StagingAndEngines := by
  refine ⟨fun p x s hx ha hr => ?_, fun p b x s hx ha hr => ?_, fun p x s hx ha hr => ?_, fun good g s hg hf hr => ?_,
    fun good g s hg hf hr ha => ?_, fun good g s hg hf hr ha => ?_, fun g s hg hf hr ha => ?_, fun g s t hg hf hr ha ht => ?_,
    fun good g s hg hf => ?_, fun j rest s hj => ?_, fun bs e s s1 hd hm => ?_⟩
  · exact next_accepted hx (hookStage_begins ha hr)
  · exact next_accepted hx (hookStage_begins ha hr)
  · exact next_accepted hx (hookStage_begins ha hr)
  · show execStageComplete good s = _
    simp [execStageComplete, hg, hf, hr]
  · rw [stageComplete_sound hg hf hr, if_neg (by omega), if_pos ha]
    rfl
  · rw [stageComplete_sound hg hf hr, if_pos ha]
  · rw [stageComplete_sound hg hf hr, if_neg (by omega), if_neg (by omega)]
    rfl
  · subst ht
    rw [stageComplete_sound hg hf hr, if_neg (by omega), if_neg (by omega)]
    rfl
  · show execStageComplete good s = _
    simp [execStageComplete, hg, hf]
  · exact ⟨_, fuseCommand_done hj, rfl, rfl, reg_setReg_same _ _ _, rfl, rfl, rfl⟩
  · have htime : (s1.setBlob Blobs.drMeasurement (sha384 bs)).timeNow = s1.timeNow := rfl
    show execDrSealComplete s = _
    simp only [execDrSealComplete, hd, ne_eq, not_true_eq_false, if_false, hm, htime]

end Sys2Proof.Machine
end

section
/-! R473–R475: fuse commands and debug tokens. -/

namespace Sys2Proof.Machine

section
variable {s : State} {p : Path} {x : Bytes}

/-- While VDD_IO18 is good a fuse command queues its job (R473). -/
theorem fuse_queued {j : FuseJob} (h : s.supplyRefused = none) :
    s.fuse j = .ok (s.setBoot { s.boot with fuseJobs := s.boot.fuseJobs ++ [j] }) := by
  simp only [State.fuse, h]

theorem hookCommitSvn_raises (hx : ofLe x = 1) (hlt : s.boot.fuses.svn < s.reg Regs.bootSvn) (h : s.supplyRefused = none) :
    hookCommitSvn s p x = .ok (s.setBoot { s.boot with fuseJobs := s.boot.fuseJobs ++ [.svn (s.reg Regs.bootSvn)] }) :=
  (actHook_one hx).trans ((if_neg fun hn => absurd hn.2 (not_le.mpr hlt)).trans (fuse_queued h))

theorem hookLcAdvance_first (hx : ofLe x = 1) (hl : s.fusesToBe.lifecycle = 0) (hk : s.boot.fuses.keyHash ≠ []) :
    hookLcAdvance s p x = s.fuse (.lifecycle 1) := by
  simp [hookLcAdvance, hx, hl, hk]

theorem hookLcAdvance_last (hx : ofLe x = 3)
    (hl : s.fusesToBe.lifecycle = 0 ∨ (s.fusesToBe.lifecycle = 1 ∧ s.boot.unlocked = false)) :
    hookLcAdvance s p x = s.fuse (.lifecycle 3) := by
  rcases hl with hl | ⟨hl, hu⟩
  · simp [hookLcAdvance, hx, hl]
  · simp [hookLcAdvance, hx, hl, hu]

theorem hookLcAdvance_outside (h : (ofLe x = 1 ∧ s.fusesToBe.lifecycle ≠ 0) ∨ 2 ≤ s.fusesToBe.lifecycle) :
    hookLcAdvance s p x = .error outOfRange := by
  have hstate : s.fusesToBe.lifecycle ≠ 0 → (if s.fusesToBe.lifecycle = 1 ∧ s.boot.unlocked = true then 2 else s.fusesToBe.lifecycle) ≠ 0 := by
    intro hne
    split
    · decide
    · exact hne
  have hpast : 2 ≤ s.fusesToBe.lifecycle → (if s.fusesToBe.lifecycle = 1 ∧ s.boot.unlocked = true then 2 else s.fusesToBe.lifecycle) ≠ 1 := by
    intro hge
    split <;> omega
  unfold hookLcAdvance
  dsimp only
  split
  · next h0 => exact absurd h0 (hstate (by omega))
  · next h3 h0 => exact absurd h0 (hstate (by omega))
  · next h3 h1 => exact absurd h1 (hpast (by omega))
  · rfl

theorem hookKeyRevoke_keeps {m : Nat} (hx : ofLe x = m) (hr : s.runningKey = none)
    (hl : (List.range 4).any (fun k => (kfind s.boot.fuses.keyHash k).isSome && !bit (s.fusesToBe.revoked ||| m) k) = true) :
    hookKeyRevoke s p x = s.fuse (.revoke m) := by
  subst hx
  simp only [hookKeyRevoke, hr, hl, Bool.not_true, Bool.or_false, Bool.false_eq_true, if_false]

theorem hookProvision_open {j : Bytes → FuseJob} (hl : s.lifecycle = 0) : hookProvision j s p x = s.fuse (j x) :=
  if_neg (not_not.mpr hl)

theorem hookToken_good (hg : s.tokenGood x = true) (hl : s.lifecycle = 1) (ha : s.reg Regs.kpArmed = 0) (hi : s.inLease = false) :
    hookToken s p x = .ok ((s.setBoot { s.boot with unlocked := true }).setReg Regs.dbgPerms (bits (ofLe x) 41 40)) := by
  simp [hookToken, hg, hl, State.flag, ha, hi]

/-- A token that is taken or refused by its own rule leaves a new challenge (R475). -/
theorem writeToken_accepted {data : Bytes} {t : State} (hx : s.offered p 0x2B03 4 data = some x) (ht : hookToken s p x = .ok t) :
    s.writeToken p data = (t.accepted p).newChallenge := by
  obtain ⟨hserved, o, k, ha, -⟩ := offered_iff.mp hx
  simp only [State.writeToken, hserved, if_true, ha, writeObject_accepted hx ht]

end

/-- Settles O55: each command is judged by its own rule and then queues its job; a token is judged whole. -/
theorem fuseAndTokenCommands : Obligations.FuseAndTokenCommands := by
  refine ⟨fun p v x s hx h1 hlt hs => ?_, fun p v x s hx h1 hl hk hs => ?_, fun p v x s hx h3 hl hs => ?_, fun p v x s hx h => ?_,
    fun p v x s hx hr hl hs => ?_, fun p k data x s hx hl hs => ?_, fun p data x s hx hl hs => ?_, fun p data x s hx hl hs => ?_,
    fun p data x s hx hg hl ha hi => ?_⟩
  · exact next_accepted hx (hookCommitSvn_raises h1 hlt hs)
  · exact next_accepted hx ((hookLcAdvance_first h1 hl hk).trans (fuse_queued hs))
  · exact next_accepted hx ((hookLcAdvance_last h3 hl).trans (fuse_queued hs))
  · exact congrArg Host.Outcome.next (writeObject_refused hx (hookLcAdvance_outside h))
  · exact next_accepted hx ((hookKeyRevoke_keeps rfl hr hl).trans (fuse_queued hs))
  · have hk : k.val ≤ 3 := by omega
    exact (if_pos hk).trans (next_accepted hx ((hookProvision_open hl).trans (fuse_queued hs)))
  · exact next_accepted hx ((hookProvision_open hl).trans (fuse_queued hs))
  · exact next_accepted hx ((hookProvision_open hl).trans (fuse_queued hs))
  · exact congrArg Host.Outcome.next (writeToken_accepted hx (hookToken_good hg hl ha hi))

end Sys2Proof.Machine
end

section
/-! R26–R30, R477–R480: lease commands and the seal of the drive region. -/

namespace Sys2Proof.Machine

section
variable {s : State} {p : Path} {x : Bytes}

theorem hookLeaseCmd_start (hx : ofLe x = 1) (hr : s.leaseRefused = none) : hookLeaseCmd s p x = .ok s.beginLease := by
  simp only [hookLeaseCmd, hx, hr]

theorem hookLeaseCmd_refused {e : Reply} (hx : ofLe x = 1) (hr : s.leaseRefused = some e) : hookLeaseCmd s p x = .error e := by
  simp only [hookLeaseCmd, hx, hr]

theorem hookLeaseCmd_close (hx : ofLe x = 2) (hp : s.shift.phase = .lease) :
    hookLeaseCmd s p x = .ok (s.setShift { s.shift with phase := .closing 1, endReason := 0, since := s.now }) := by
  simp only [hookLeaseCmd, hx, hp]

/-- While a lease runs, DEV_STATE is 3, or 0 without a Gardener (R26). -/
theorem devState_lease (hp : s.shift.phase = .lease) : s.devState = 0 ∨ s.devState = 3 := by
  unfold State.devState
  split
  · exact .inl rfl
  · rw [hp]; exact .inr rfl

theorem trigger_lease {code b : Nat} (hp : s.shift.phase = .lease) : s.trigger code b = (s.preemptAt 1 code b).flushLease := by
  simp only [State.trigger, hp]

theorem hookLeaseCmd_preempt (hx : ofLe x = 3) (hp : s.shift.phase = .lease) :
    hookLeaseCmd s p x = .ok ((s.preemptAt 1 1 (s.reg Regs.leaseExportBudget)).flushLease) := by
  rw [← trigger_lease hp]
  rcases devState_lease hp with hd | hd <;> simp only [hookLeaseCmd, hx, hd]

theorem hookLeasePreempt_lease (hx : ofLe x = 1) (hp : s.shift.phase = .lease) :
    hookLeasePreempt s p x = .ok ((s.preemptAt 1 4 (s.reg Regs.leaseExportBudget)).flushLease) := by
  rw [hookLeasePreempt, actHook_one hx, ← trigger_lease hp]
  rcases devState_lease hp with hd | hd <;> simp only [hd]

theorem hookSeal_seals (hx : ofLe x = 1) (hz : s.reg Regs.drSize ≠ 0) (ht : s.reg Regs.ddrTrainState ≠ 0) (hi : s.inLease = false)
    (hd : s.driveSealed = false) : hookSeal s p x = .ok { s with drive := .sealing } := by
  simp [hookSeal, actHook_one hx, hz, ht, hi, hd]

theorem hookUnseal_unseals (hx : ofLe x = 1) (hi : s.inLease = false) : hookUnseal s p x =
    .ok ({ s with drive := .unsealed }.setBlob Blobs.drMeasurement (List.replicate 48 0)) := by
  simp [hookUnseal, actHook_one hx, hi]

/-- DR_UNSEAL is an object of the safety channel and the Keeper. -/
theorem findObj_unseal : (findObj 0x2B08 4).map (fun r => r.1.access) = some .so := by decide +kernel

theorem unseal_guarded (hc : p ≠ .canSafety) (hk : p ≠ .keeper) : ∃ e, s.dictAccess p 0x2B08 4 = .error e := by
  obtain ⟨⟨o, k⟩, hf, hso⟩ := Option.map_eq_some_iff.mp findObj_unseal
  have ha := dictAccess_of_found (s := s) (p := p) hf
  have hro : o.access ≠ .ro := by rw [show o.access = .so from hso]; decide
  rw [if_neg hro, if_pos (show o.access = .so ∧ p ≠ .canSafety ∧ p ≠ .keeper from ⟨hso, hc, hk⟩)] at ha
  split_ifs at ha <;> exact ⟨_, ha⟩

theorem offered_of_access_error {index sub : Nat} {data : Bytes} {e : Reply} (ha : s.dictAccess p index sub = .error e) :
    s.offered p index sub data = none := by
  simp only [State.offered, ha, ite_self]

/-- A write to an object that its path may not write leaves the drive region's state. -/
theorem writeObject_access_error_drive {index sub : Nat} {data : Bytes} {h : Hook} {e : Reply}
    (ha : s.dictAccess p index sub = .error e) : (s.writeObject p index sub data h).drive = s.drive := by
  by_cases hs : s.served p index = true
  · rw [writeObject_error hs (dictTry_of_access_error ha), refusalRecorded_eq]
    rfl
  · unfold State.writeObject
    rw [if_neg hs]
    split
    · rfl
    · split <;> rfl
    · rfl
    · rfl

end

/-- Settles O56: each command asks for the lease's phase, and unsealing is not for other paths. -/
theorem leaseAndSealCommands : Obligations.LeaseAndSealCommands := by
  refine ⟨fun p x s hx h1 hr => ?_, fun p x s e hx h1 hr => ?_, fun p x s hx h2 hp => ?_, fun p x s hx h3 hp => ?_,
    fun p x s hx h1 hp _ => ?_, fun p v x s hx h1 hz ht hi hd => ?_, fun p v x s hx h1 hi => ?_, fun p v data s hc hk => ?_⟩
  · exact next_accepted hx (hookLeaseCmd_start h1 hr)
  · exact congrArg Host.Outcome.next (writeObject_refused hx (hookLeaseCmd_refused h1 hr))
  · exact next_accepted hx (hookLeaseCmd_close h2 hp)
  · exact next_accepted hx (hookLeaseCmd_preempt h3 hp)
  · exact next_accepted hx (hookLeasePreempt_lease h1 hp)
  · exact next_accepted hx (hookSeal_seals h1 hz ht hi hd)
  · exact next_accepted hx (hookUnseal_unseals h1 hi)
  · obtain ⟨e, he⟩ := unseal_guarded (s := s) hc hk
    exact ⟨offered_of_access_error he, _, rfl, writeObject_access_error_drive he⟩

end Sys2Proof.Machine
end

section
/-! R28–R30, R366, R479, R480: the steps of a lease. -/

namespace Sys2Proof.Machine

section
variable {s : State} {code : Fin 7}

theorem preemptionTrigger_next (h0 : code.val ≠ 0) : exec (.preemptionTrigger code) s =
    .next (s.trigger code.val (if code.val = 6 then 0 else s.reg Regs.leaseExportBudget)) := if_neg h0

theorem trigger_preempting {k c b : Nat} (hp : s.shift.phase = .preempting k) : s.trigger c b = s.extraTrigger c b := by
  simp only [State.trigger, hp]

theorem extraTrigger_later {c b : Nat} (h : s.shift.since ≠ s.now ∨ s.shift.endReason ≤ c) :
    s.extraTrigger c b = s.bump Regs.leaseExtraTriggers := by
  refine if_neg ?_
  rintro ⟨hs, hc⟩
  rcases h with h | h
  · exact h hs
  · exact absurd hc (not_lt.mpr h)

theorem extraTrigger_lower {c b : Nat} (hs : s.shift.since = s.now) (hc : c < s.shift.endReason) :
    s.extraTrigger c b = (s.bump Regs.leaseExtraTriggers).setShift { s.shift with endReason := c, budget := min s.shift.budget b } :=
  if_pos ⟨hs, hc⟩

/-! A report changes of the shift only its number and the nonce (R483). -/

/-- Of two states, the second has the first's phase, its run and its locks. -/
structure State.SameLease (s t : State) : Prop where
  phase : t.shift.phase = s.shift.phase
  ran : t.shift.ran = s.shift.ran
  llLocked : t.shift.llLocked = s.shift.llLocked

theorem State.SameLease.trans {s t u : State} (h : s.SameLease t) (k : t.SameLease u) : s.SameLease u :=
  ⟨k.phase.trans h.phase, k.ran.trans h.ran, k.llLocked.trans h.llLocked⟩

theorem State.SameLease.of_shift {s t : State} (h : t.shift = s.shift) : s.SameLease t := by constructor <;> rw [h]

theorem issueReport_sameLease (fields : Nat) : s.SameLease (s.issueReport fields) := by
  unfold State.issueReport
  split
  · exact .of_shift rfl
  · dsimp only
    refine State.SameLease.trans ?_ (.of_shift (State.SignalsTo.msix _).shift)
    exact ⟨rfl, rfl, rfl⟩

theorem issueReports_sameLease (l : List Nat) (t : State) : t.SameLease (l.foldl State.issueReport t) := by
  induction l generalizing t with
  | nil => exact .of_shift rfl
  | cons f l ih => exact (issueReport_sameLease f).trans (ih _)

theorem closingReports_sameLease : s.SameLease s.closingReports := by
  unfold State.closingReports
  have htaken : s.SameLease (s.setShift { s.shift with owed := [], reportDue := false }) := ⟨rfl, rfl, rfl⟩
  dsimp only
  split
  · exact htaken.trans (issueReports_sameLease _ _)
  · exact ⟨rfl, rfl, rfl⟩

theorem State.SameLease.leaseRunning {s t : State} (h : s.SameLease t) : t.leaseRunning = s.leaseRunning := by
  simp only [State.leaseRunning, h.phase, h.ran]

theorem scrubDdr_shift : s.scrubDdr.shift = s.shift := by
  unfold State.scrubDdr
  rfl

theorem liftQuarantine_shift : s.liftQuarantine.shift.quarantine = false ∧
    s.liftQuarantine.shift.llLocked = (s.shift.llLocked && s.leaseRunning) := by
  have h := closingReports_sameLease (s := s)
  refine ⟨rfl, ?_⟩
  show (s.closingReports.shift.llLocked && s.closingReports.leaseRunning) = _
  rw [h.llLocked, h.leaseRunning]

/-! How entries are exported (R479). -/

theorem exportExpired_iff : s.exportExpired = true ↔ s.shift.since + 5000000 + s.shift.budget * 1000000 ≤ s.now := decide_eq_true_iff

theorem exportExpired_not (h : s.now < s.shift.since + 5000000 + s.shift.budget * 1000000) : s.exportExpired = false :=
  decide_eq_false (not_le.mpr h)

/-- An entry is written or given up, and the next one follows (R479). -/
def State.exportsNext (s t : State) (good : Bool) : State :=
  let v := t.exportOutcome s.kv.exportAt good
  { v with kv := { v.kv with exportAt := s.kv.exportAt + 1 } }

theorem exportEntryDone_next {q slot0 : Nat} {t : State} {good : Bool} (hp : s.shift.phase = .preempting 3)
    (h5 : s.shift.since + 5000000 ≤ s.now) (hb : s.now < s.shift.since + 5000000 + s.shift.budget * 1000000)
    (he : s.exportEntry s.kv.exportAt = some (q, slot0)) (ht : s.exportSequence q slot0 = (t, good)) :
    exec .exportEntryDone s = if ((s.exportsNext t good).exportEntry (s.exportsNext t good).kv.exportAt).isSome = true
      then .next (s.exportsNext t good)
      else .next ((s.exportsNext t good).setShift { (s.exportsNext t good).shift with phase := .preempting 4 }) := by
  have hdue : ¬ (s.shift.phase ≠ .preempting 3 ∨ s.now < s.shift.since + 5000000) := by simp [hp, h5]
  show execExportEntryDone s = _
  rw [execExportEntryDone, if_neg hdue, exportExpired_not hb]
  simp only [Bool.false_eq_true, if_false, he, ht]
  rfl

theorem exportOutcome_memories (n : Nat) (good : Bool) : (s.exportOutcome n good).mem = s.mem ∧
    (s.exportOutcome n good).hostMem = s.hostMem := by
  unfold State.exportOutcome
  dsimp only
  split <;> exact ⟨rfl, rfl⟩

theorem exportExpires_memories : s.exportExpires.mem = s.mem ∧ s.exportExpires.hostMem = s.hostMem := by
  unfold State.exportExpires
  dsimp only
  split
  · exact exportOutcome_memories _ _
  · exact ⟨rfl, rfl⟩

theorem exportBudgetExpiry_due (hp : s.shift.phase = .preempting 3)
    (hb : s.shift.since + 5000000 + s.shift.budget * 1000000 ≤ s.now) : exec .exportBudgetExpiry s = .next s.exportExpires :=
  if_pos ⟨hp, exportExpired_iff.mpr hb⟩

theorem exportEntryDone_due (hp : s.shift.phase = .preempting 3)
    (hb : s.shift.since + 5000000 + s.shift.budget * 1000000 ≤ s.now) : exec .exportEntryDone s = .next s.exportExpires := by
  have hdue : ¬ (s.shift.phase ≠ .preempting 3 ∨ s.now < s.shift.since + 5000000) := by
    rintro (h | h)
    · exact h hp
    · omega
  show execExportEntryDone s = _
  rw [execExportEntryDone, if_neg hdue, if_pos (exportExpired_iff.mpr hb)]

/-! The release (R480). -/

theorem releaseDue_of (h : s.shift.phase = .preempting 4 ∨ s.shift.phase = .closing 3) : s.releaseDue = true := by
  rcases h with h | h <;> simp only [State.releaseDue, h]

theorem releaseDue_not {k : Nat} (hp : s.shift.phase = .preempting k) (hk : k ≠ 4) : s.releaseDue = false := by
  unfold State.releaseDue
  split
  · next h => rw [hp] at h; cases h; exact absurd rfl hk
  · next h => rw [hp] at h; cases h
  · rfl

theorem driveShiftRelease_due (h : s.releaseDue = true) : exec .driveShiftRelease s =
    if s.keeper.damage && s.pdOn 1 && s.keeper.phase == .parked then
      .next ((s.setKeeper { s.keeper with damage := false }).safeEntry 6 true)
    else .next s.release.takeDamage := if_neg (by simp [h])

/-! The start (R478). -/

/-- The drive shift's work has drained: its streams stop. -/
def State.driveDrained (s : State) : State :=
  s.keeperParks.stopStreams.setShift { s.keeperParks.stopStreams.shift with phase := .starting 3, closed := true }

theorem driveWorkDrained_next (hp : s.shift.phase = .starting 1) (hi : s.disp.items = []) :
    exec .driveWorkDrained s = .next s.driveDrained := by
  show execDriveWorkDrained s = _
  rw [execDriveWorkDrained, if_pos ⟨hp, hi⟩, State.driveDrained]

/-- The scrub before a lease, with the report that opens it. -/
def State.leaseScrubbed (s : State) : State :=
  let t := (List.range 32).foldl (fun s k => s.emptyIq k) (s.scrubDdr.scrubPads.reseed.forgetKv kvScrubbed)
  (if t.shift.quarantine then t.liftQuarantine else t).openingReport

theorem leaseScrubComplete_next (hp : s.shift.phase = .starting 3) (hs : s.paths.serving = true) : exec .leaseScrubComplete s =
    .next (s.leaseScrubbed.setShift { s.leaseScrubbed.shift with phase := .lease, llLocked := true, ran := true }) := by
  show execLeaseScrubComplete s = _
  rw [execLeaseScrubComplete, if_pos ⟨hp, hs⟩, State.leaseScrubbed]

end

/-- Settles O57: each step asks for its phase, and what a step leaves is the next phase. -/
theorem leaseStepsComplete : Obligations.LeaseStepsComplete := by
  refine ⟨fun s hp hi => ⟨_, driveWorkDrained_next hp hi, rfl, rfl⟩, fun s hp hs => ⟨_, leaseScrubComplete_next hp hs, rfl, rfl⟩, fun code s h0 hp => ?_,
    fun code k s h0 hp h => ?_, fun code k s h0 hp hs hlt => ?_, fun s hp hi hb => ?_, fun q slot0 t good s hp h5 hb he ht => ?_,
    fun s hp hb => ?_, fun s hp hb => ?_, fun s hb => ?_, fun k s hp hk => ?_, fun s hp h => ?_, fun s hp hd hpd hk => ?_,
    fun s hq hd hg => ?_, fun s hp h => ?_⟩
  · rw [preemptionTrigger_next h0, trigger_lease hp]
  · rw [preemptionTrigger_next h0, trigger_preempting hp, extraTrigger_later h]
  · rw [preemptionTrigger_next h0, trigger_preempting hp, extraTrigger_lower hs hlt]
  · exact (if_pos ⟨.inl hp, hi⟩).trans (if_neg (by simp [hb]))
  · rw [exportEntryDone_next hp h5 hb he ht]
    split <;> exact ⟨_, rfl, rfl, rfl⟩
  · exact ⟨_, exportBudgetExpiry_due hp hb, rfl, exportExpires_memories.1, exportExpires_memories.2⟩
  · rw [exportEntryDone_due hp hb, exportBudgetExpiry_due hp hb]
  · refine if_neg ?_
    rintro ⟨-, h⟩
    rw [exportExpired_not hb] at h
    cases h
  · exact if_pos (by rw [releaseDue_not hp hk]; rfl)
  · rw [driveShiftRelease_due (releaseDue_of hp), if_neg]
    rcases h with h | h | h <;> simp [h]
  · rw [driveShiftRelease_due (releaseDue_of hp), if_pos (by simp [hd, hpd, hk])]
  · have hlift : (s.shift.quarantine && s.ddrScrubbable && (s.gardenerServes || s.keeper.gardenerOff)) = true := by
      rcases hg with hg | hg <;> simp [hq, hd, hg]
    have hscrub : s.SameLease s.scrubDdr := .of_shift scrubDdr_shift
    obtain ⟨hquarantine, hlocked⟩ := liftQuarantine_shift (s := s.scrubDdr)
    rw [hscrub.llLocked, hscrub.leaseRunning] at hlocked
    refine ⟨_, ?_, hquarantine, hlocked⟩
    show execQuarantineLift s = _
    rw [execQuarantineLift, if_pos hlift]
  · show execLeaseCloseDrained s = _
    rw [execLeaseCloseDrained, if_pos ⟨hp, h⟩]

end Sys2Proof.Machine
end

section
/-! What a flush of a ring leaves (R396): the state of the drive role, the translation table, the link's registers and the enables
of the submission rings. -/

namespace Sys2Proof.Machine

/-- The objects that a flush leaves: HIF_LINK_UP, HIF_LINK_RATE, HIF_LINK_DOWNS and the enable of every submission ring. -/
def linkGate (k : Nat) : Bool :=
  k == Regs.hifLinkUp.key || k == Regs.hifLinkRate.key || k == Regs.hifLinkDowns.key ||
    (k % 256 == 0x0A && decide (0x29400A ≤ k) && decide (k < 0x29800A))

theorem ne_of_linkGate {a b : Nat} (ha : linkGate a = true) (hb : linkGate b = false) : a ≠ b := by
  rintro rfl
  rw [ha] at hb
  cases hb

theorem linkGate_of_ne {k : Nat} (h : k % 256 ≠ 0x0A ∧ k ≠ 0x290001 ∧ k ≠ 0x290002 ∧ k ≠ 0x290007) : linkGate k = false := by
  simp only [linkGate, Regs.hifLinkUp, Regs.hifLinkRate, Regs.hifLinkDowns, Bool.or_eq_false_iff, Bool.and_eq_false_iff,
    beq_eq_false_iff_ne]
  obtain ⟨hring, hup, hrate, hdowns⟩ := h
  exact ⟨⟨⟨hup, hrate⟩, hdowns⟩, .inl (.inl hring)⟩

theorem linkGate_severityCounter (v : Severity) : linkGate (severityCounter v).key = false := by
  cases v <;> decide

section
variable (k : Nat)

theorem linkGate_spadCorrected : linkGate (Regs.spadCorrected k).key = false := linkGate_of_ne (by simp only [Regs.spadCorrected]; omega)
theorem linkGate_spadUncorrectable : linkGate (Regs.spadUncorrectable k).key = false :=
  linkGate_of_ne (by simp only [Regs.spadUncorrectable]; omega)
theorem linkGate_scMarked : linkGate (Regs.scMarked k).key = false := linkGate_of_ne (by simp only [Regs.scMarked]; omega)
theorem linkGate_scCorrectedBursts : linkGate (Regs.scCorrectedBursts k).key = false :=
  linkGate_of_ne (by simp only [Regs.scCorrectedBursts]; omega)
theorem linkGate_scMarkedBursts : linkGate (Regs.scMarkedBursts k).key = false :=
  linkGate_of_ne (by simp only [Regs.scMarkedBursts]; omega)
theorem linkGate_scUncorrectable : linkGate (Regs.scUncorrectable k).key = false :=
  linkGate_of_ne (by simp only [Regs.scUncorrectable]; omega)
theorem linkGate_scAddressErrors : linkGate (Regs.scAddressErrors k).key = false :=
  linkGate_of_ne (by simp only [Regs.scAddressErrors]; omega)
theorem linkGate_scPoisonReads : linkGate (Regs.scPoisonReads k).key = false :=
  linkGate_of_ne (by simp only [Regs.scPoisonReads]; omega)
theorem linkGate_iqItems : linkGate (Regs.iqItems k).key = false := linkGate_of_ne (by simp only [Regs.iqItems]; omega)
theorem linkGate_gridSpillEpochs : linkGate (Regs.gridSpillEpochs k).key = false :=
  linkGate_of_ne (by simp only [Regs.gridSpillEpochs]; omega)
theorem linkGate_ringHead : linkGate (Regs.ringHead k).key = false := linkGate_of_ne (by simp only [Regs.ringHead]; omega)
theorem linkGate_ringItemsCompleted : linkGate (Regs.ringItemsCompleted k).key = false :=
  linkGate_of_ne (by simp only [Regs.ringItemsCompleted]; omega)
theorem linkGate_ringFlushSkipped : linkGate (Regs.ringFlushSkipped k).key = false :=
  linkGate_of_ne (by simp only [Regs.ringFlushSkipped]; omega)
theorem linkGate_ringFlushDiscards : linkGate (Regs.ringFlushDiscards k).key = false :=
  linkGate_of_ne (by simp only [Regs.ringFlushDiscards]; omega)
theorem linkGate_cqPhase : linkGate (Regs.cqPhase k).key = false := linkGate_of_ne (by simp only [Regs.cqPhase]; omega)

theorem linkGate_cqTail : linkGate (Regs.cqTail k).key = false := linkGate_of_ne (by simp only [Regs.cqTail]; omega)

theorem linkGate_mvItems (m : Fin 4) : linkGate (Regs.mvItems m.val).key = false := by
  revert m
  decide

theorem linkGate_ringEnable {r : Nat} (h : r < 64) : linkGate (Regs.ringEnable r).key = true := by
  simp only [linkGate, Regs.ringEnable, Bool.or_eq_true, Bool.and_eq_true, beq_iff_eq]
  exact .inr ⟨⟨by omega, decide_eq_true (by omega)⟩, decide_eq_true (by omega)⟩

end

/-- A state t that a flush may leave of s. -/
structure State.Flushed (s t : State) : Prop where
  drive : t.drive = s.drive
  xlate : t.link.xlate = s.link.xlate
  gate : ∀ q : Reg, linkGate q.key = true → t.reg q = s.reg q

variable {s₀ s t : State} {α β : Type}

theorem State.Flushed.refl (s : State) : s.Flushed s := ⟨rfl, rfl, fun _ _ => rfl⟩

section
variable {pending : List Instr} {freeIx now uptime0 : Nat} {blobs : KMap Bytes} {mem hostMem : Memory} {stops : KMap Stop}
  {log : ErrorLog} {sundial : Sundial} {disp : Dispatch} {ddr : Ddr} {paths : Paths} {lodge : Lodge} {pergola : Pergola}
  {kv : KvManager} {keeper : Keeper} {shift : Shift} {power : PowerCtl} {boot : Boot} {pins : Pins} {out : List Out}

/-- A change of the link's state that keeps its translation table, and of any other fields but the objects and the drive role's. -/
theorem State.Flushed.frameLink {link : HostLink} (h : s₀.Flushed s) (hx : link.xlate = s.link.xlate) : s₀.Flushed ⟨pending, freeIx,
    now, uptime0, s.regs, blobs, mem, hostMem, stops, log, sundial, disp, link, ddr, paths, lodge, pergola, kv, keeper, shift, s.drive,
    power, boot, pins, out⟩ :=
  ⟨h.drive, hx.trans h.xlate, h.gate⟩

theorem State.Flushed.frame (h : s₀.Flushed s) : s₀.Flushed ⟨pending, freeIx, now, uptime0, s.regs, blobs, mem, hostMem, stops, log,
    sundial, disp, s.link, ddr, paths, lodge, pergola, kv, keeper, shift, s.drive, power, boot, pins, out⟩ :=
  h.frameLink rfl

end

theorem State.Flushed.ite {c : Prop} [Decidable c] (h : s₀.Flushed s) (k : s₀.Flushed t) : s₀.Flushed (if c then s else t) := by
  split
  · exact h
  · exact k

theorem State.Flushed.ite₁ {c : Prop} [Decidable c] {p q : State × α} (h : s₀.Flushed p.1) (k : s₀.Flushed q.1) :
    s₀.Flushed (if c then p else q).1 := by
  split
  · exact h
  · exact k

/-- The state that a pair names. -/
theorem State.Flushed.fst {p : State × α} {x : α} (h : s₀.Flushed p.1) (e : p = (t, x)) : s₀.Flushed t := by
  rw [e] at h; exact h

theorem State.Flushed.foldl {f : State → α → State} {l : List α} (h : s₀.Flushed s)
    (hf : ∀ t x, s₀.Flushed t → s₀.Flushed (f t x)) : s₀.Flushed (l.foldl f s) := by
  induction l generalizing s with
  | nil => exact h
  | cons x l ih => exact ih (hf s x h)

/-- A fold whose accumulator holds a state. -/
theorem State.Flushed.foldlOf {g : β → State} {f : β → α → β} {l : List α} {b : β} (h : s₀.Flushed (g b))
    (hf : ∀ b x, s₀.Flushed (g b) → s₀.Flushed (g (f b x))) : s₀.Flushed (g (l.foldl f b)) := by
  induction l generalizing b with
  | nil => exact h
  | cons x l ih => exact ih (hf b x h)

theorem State.Flushed.setReg {r : Reg} {v : Nat} (h : s₀.Flushed s) (hr : linkGate r.key = false) :
    s₀.Flushed (s.setReg r v) :=
  ⟨h.drive, h.xlate, fun q hq => (reg_setReg_ne s v (ne_of_linkGate hq hr)).trans (h.gate q hq)⟩

theorem State.Flushed.bump {r : Reg} (h : s₀.Flushed s) (hr : linkGate r.key = false) : s₀.Flushed (s.bump r) := h.setReg hr

theorem State.Flushed.bumpIf {b : Bool} {r : Reg} (h : s₀.Flushed s) (hr : linkGate r.key = false) :
    s₀.Flushed (s.bumpIf b r) :=
  .ite (h.bump hr) h

theorem State.Flushed.draw (h : s₀.Flushed s) : s₀.Flushed s.draw.2 := h.frame

theorem State.Flushed.skipFree (h : s₀.Flushed s) : s₀.Flushed s.skipFree := h.frame

theorem State.Flushed.setGaffer {g : Nat} {v : Gaffer} (h : s₀.Flushed s) : s₀.Flushed (s.setGaffer g v) := h.frame

theorem State.Flushed.msix {v : Nat} (h : s₀.Flushed s) : s₀.Flushed (s.msix v) :=
  .ite h (.ite (h.frameLink rfl) (.ite h.frame (h.frameLink rfl)))

theorem State.Flushed.attention {i : Nat} (h : s₀.Flushed s) : s₀.Flushed (s.attention i) := h.setReg (by decide)

theorem State.Flushed.logEvent {v : Event} (h : s₀.Flushed s) : s₀.Flushed (s.logEvent v).1 where
  drive := (logEvent_signals v).drive.trans h.drive
  xlate := (logEvent_signals v).xlate.trans h.xlate
  gate q hq := (logs_reg v (ne_of_linkGate hq (linkGate_severityCounter _)) (ne_of_linkGate hq (by decide))
    (ne_of_linkGate hq (by decide))).trans (h.gate q hq)

theorem State.Flushed.logs {v : Event} (h : s₀.Flushed s) : s₀.Flushed (s.logs v) := h.logEvent

theorem State.Flushed.sramUncorrectable {ring : Option Nat} {g syndrome : Nat} (h : s₀.Flushed s) : s₀.Flushed (s.sramUncorrectable ring g
    syndrome).1 :=
  .logEvent (.ite (h.bump (linkGate_spadUncorrectable _)).setGaffer h)

theorem State.Flushed.sramCorrected {ring : Option Nat} {g syndrome : Nat} (h : s₀.Flushed s) : s₀.Flushed (s.sramCorrected ring g syndrome) :=
    by
  unfold State.sramCorrected
  exact .logs (.ite (h.bump (linkGate_spadCorrected _)).setGaffer h)

theorem State.Flushed.sramPoison {ring : Option Nat} {g : Nat} (h : s₀.Flushed s) : s₀.Flushed (s.sramPoison ring g).1 :=
  .logEvent (.ite (h.bump (linkGate_spadUncorrectable _)) h)

theorem State.Flushed.meetSram {ring : Option Nat} {g : Nat} (h : s₀.Flushed s) : s₀.Flushed (s.meetSram ring g).1 := by
  unfold State.meetSram
  refine .ite₁ (.ite₁ h.sramPoison h.sramUncorrectable) ?_
  dsimp only
  split
  · exact h.sramCorrected.frame
  · exact .ite₁ h.frame (.ite₁ (.ite₁ h.sramPoison h.sramUncorrectable) (.ite₁ (.ite₁ h.skipFree.sramPoison
      h.skipFree.sramUncorrectable) h.sramCorrected.frame.skipFree))
  · exact .ite₁ h.frame (.ite₁ h.frame.sramPoison h.frame.sramUncorrectable)
  · exact h

theorem State.Flushed.driveDamage {g : Nat} (h : s₀.Flushed s) : s₀.Flushed (s.driveDamage g) :=
  .ite (h.setReg (r := Regs.ddrDriveDamaged) (by decide)).attention.frame h

theorem State.Flushed.markDevice {sc pos byHost : Nat} (h : s₀.Flushed s) : s₀.Flushed (s.markDevice sc pos byHost) :=
  (h.frame.setReg (linkGate_scMarked _)).logs

theorem State.Flushed.autoMark {sc pos : Nat} (h : s₀.Flushed s) : s₀.Flushed (s.autoMark sc pos) :=
  .ite h (.ite h.markDevice (.ite h h.frame.logs))

theorem State.Flushed.seenCorrected {g : Nat} {positions : List Nat} (h : s₀.Flushed s) : s₀.Flushed (s.seenCorrected g positions) :=
  h.foldl (fun _ _ h' => h'.frame.autoMark)

theorem State.Flushed.ddrUncorrectable {ring : Option Nat} {g : Nat} (h : s₀.Flushed s) : s₀.Flushed (s.ddrUncorrectable ring g).1 :=
  (h.bump (linkGate_scUncorrectable _)).logEvent.driveDamage

theorem State.Flushed.decoded {g : Nat} {e found : SymbolErrors} {keep : Bool} (h : s₀.Flushed s) :
    s₀.Flushed (s.decoded g e found keep) := h.frame

theorem State.Flushed.meetDdr {ring : Option Nat} {g : Nat} (h : s₀.Flushed s) : s₀.Flushed (s.meetDdr ring g).1 := by
  unfold State.meetDdr
  refine .ite₁ h.frame (.ite₁ (h.bump (linkGate_scPoisonReads _)).logEvent (.ite₁ h.ddrUncorrectable ?_))
  dsimp only
  split
  · exact h.ddrUncorrectable
  · exact h.decoded
  · have corrected := h.bump (linkGate_scCorrectedBursts (s.subchannel g))
    exact .ite₁ (h.bump (linkGate_scAddressErrors _)).logEvent.driveDamage
      (.decoded (.seenCorrected (.logs (.ite (corrected.bump (linkGate_scMarkedBursts _)) corrected))))

theorem State.Flushed.meet {ring : Option Nat} {g : Nat} (h : s₀.Flushed s) : s₀.Flushed (s.meet ring g).1 := .ite₁ h.meetDdr h.meetSram

theorem State.Flushed.kvDamaged {bad : Option Nat} (h : s₀.Flushed s) : s₀.Flushed (s.kvDamaged bad) := by
  unfold State.kvDamaged
  dsimp only
  split
  · exact h
  · exact h.frame

theorem State.Flushed.meetAll {ring : Option Nat} {a : Nat} {gs : List Nat} (h : s₀.Flushed s) : s₀.Flushed (s.meetAll ring a gs).1 := by
  refine h.foldlOf (g := Prod.fst) (fun b x h' => ?_)
  obtain ⟨t, bad, first⟩ := b
  dsimp only
  split
  · exact h'.meet
  · exact h'.meet

theorem State.Flushed.logAbsent {ring : Option Nat} {a stop code : Nat} (h : s₀.Flushed s) : s₀.Flushed (s.logAbsent ring a stop code) := h.logs

theorem State.Flushed.notPresent {ring : Option Nat} {a : Nat} {ans : Answer} (h : s₀.Flushed s) : s₀.Flushed (s.notPresent ring a ans) := by
  unfold State.notPresent
  dsimp only
  split
  · exact .logs (.ite (h.bump (by decide)) h)
  · split
    · exact .logAbsent (.ite (h.bump (by decide)) h)
    · exact .logAbsent (.draw (.ite (h.bump (by decide)) h))

theorem State.Flushed.readMem {ag : Agent} {who : Option (Nat × Nat)} {a n : Nat} (h : s₀.Flushed s) : s₀.Flushed (s.readMem ag who a n).1 := by
  unfold State.readMem
  dsimp only
  split
  · split
    · exact .ite₁ (h.bump (r := Regs.hifHostReadFails) (by decide)).logEvent (h.frameLink rfl)
    · exact h.meetAll
  · exact h

theorem State.Flushed.poke {a : Nat} {bs : Bytes} (h : s₀.Flushed s) : s₀.Flushed (s.poke a bs) := by
  unfold State.poke
  split <;> exact h.frame

theorem State.Flushed.writeMem {ag : Agent} {a : Nat} {bs : Bytes} (h : s₀.Flushed s) : s₀.Flushed (s.writeMem ag a bs).1 := by
  unfold State.writeMem
  split
  · exact .ite h h.poke
  · exact h

theorem State.Flushed.forgetRange {a n : Nat} (h : s₀.Flushed s) : s₀.Flushed (s.forgetRange a n) := by
  unfold State.forgetRange
  split <;> exact h.frame.skipFree

theorem State.Flushed.setFrame {p f : Nat} {e : FrameEntry} (h : s₀.Flushed s) : s₀.Flushed (s.setFrame p f e) := h.poke

theorem State.Flushed.meetTable {a n : Nat} (h : s₀.Flushed s) : s₀.Flushed (s.meetTable a n).1 := h.meetAll.kvDamaged

theorem State.Flushed.readFrame {p f : Nat} (h : s₀.Flushed s) : s₀.Flushed (s.readFrame p f).1 := by
  unfold State.readFrame
  split
  · exact h.meetTable.fst ‹_›
  · exact h.meetTable.fst ‹_›

theorem State.Flushed.setPool {p : Nat} {l : PoolLists} (h : s₀.Flushed s) : s₀.Flushed (s.setPool p l) := h.frame

theorem State.Flushed.setReaders {e n : Nat} (h : s₀.Flushed s) : s₀.Flushed (s.setReaders e n) := h.frame

theorem State.Flushed.ripen {p n : Nat} (h : s₀.Flushed s) : s₀.Flushed (s.ripen p n) := by
  induction n generalizing s with
  | zero => exact h
  | succ n ih =>
    unfold State.ripen
    refine .ite h ?_
    dsimp only
    split
    · exact h.readFrame.fst ‹_›
    · exact .ite (h.readFrame.fst ‹_›) (ih (h.readFrame.fst ‹_›).setFrame.setPool)

theorem State.Flushed.tryAdvance {n : Nat} (h : s₀.Flushed s) : s₀.Flushed (s.tryAdvance n) := by
  induction n generalizing s with
  | zero => exact h
  | succ n ih =>
    unfold State.tryAdvance
    exact .ite (ih (h.frame.foldl (fun _ _ h' => h'.ripen))) h

theorem State.Flushed.setSeqEntry {q x : Nat} (h : s₀.Flushed s) : s₀.Flushed (s.setSeqEntry q x) := h.poke

theorem State.Flushed.changeSeq {q : Nat} {f : Nat → Nat} (h : s₀.Flushed s) : s₀.Flushed (s.changeSeq q f) := by
  unfold State.changeSeq
  split
  · exact h.meetTable.fst ‹_›
  · exact (h.meetTable.fst ‹_›).setSeqEntry

theorem State.Flushed.setSwapping {q : Nat} {on : Bool} (h : s₀.Flushed s) : s₀.Flushed (s.setSwapping q on) := h.changeSeq

theorem State.Flushed.deregister1 {r : Registration} (h : s₀.Flushed s) : s₀.Flushed (s.deregister1 r) := h.changeSeq.setReaders.tryAdvance

theorem State.Flushed.deregister {ring seq : Nat} (h : s₀.Flushed s) : s₀.Flushed (s.deregister ring seq) :=
  h.frame.foldl (fun _ _ h' => h'.deregister1)

theorem State.Flushed.setIngest {q : Nat} {v : Ingest} (h : s₀.Flushed s) : s₀.Flushed (s.setIngest q v) := h.frame

theorem State.Flushed.setIq {k : Nat} {v : IntQueue} (h : s₀.Flushed s) : s₀.Flushed (s.setIq k v) := h.frame

theorem State.Flushed.setTxFrames {q : Nat} {l : List LaunchFrame} (h : s₀.Flushed s) : s₀.Flushed (s.setTxFrames q l) := .ite h.frame h.frame

theorem State.Flushed.iqEnded {ring seq : Nat} {good : Bool} {k : Nat} (h : s₀.Flushed s) : s₀.Flushed (s.iqEnded ring seq good k) :=
  .ite h (h.setIq.bumpIf (linkGate_iqItems _))

theorem State.Flushed.popEnded {ring seq q : Nat} (h : s₀.Flushed s) : s₀.Flushed (s.popEnded ring seq q) := by
  unfold State.popEnded
  dsimp only
  split
  · exact .ite h.setIngest h
  · exact h

theorem State.Flushed.txEnded {ring seq : Nat} {good : Bool} {q : Nat} (h : s₀.Flushed s) : s₀.Flushed (s.txEnded ring seq good q) := by
  unfold State.txEnded
  dsimp only
  split
  · exact .ite (.ite h.frame.setTxFrames h.frame) h
  · exact h

theorem State.Flushed.queuesEnded {ring seq : Nat} {good : Bool} (h : s₀.Flushed s) : s₀.Flushed (s.queuesEnded ring seq good) :=
  ((h.foldl (fun _ _ h' => h'.iqEnded)).foldl (fun _ _ h' => h'.popEnded)).foldl (fun _ _ h' => h'.txEnded)

theorem State.Flushed.setRing {r : Nat} {v : Machine.Ring} (h : s₀.Flushed s) : s₀.Flushed (s.setRing r v) := h.frame

theorem State.Flushed.setComp {c : Nat} {v : CompRing} (h : s₀.Flushed s) : s₀.Flushed (s.setComp c v) := h.frame

theorem State.Flushed.advanceHead {r n : Nat} (h : s₀.Flushed s) : s₀.Flushed (s.advanceHead r n) := h.setReg (linkGate_ringHead _)

theorem State.Flushed.readRecord {r k : Nat} (h : s₀.Flushed s) : s₀.Flushed (s.readRecord r k).1 := by
  unfold State.readRecord
  dsimp only
  split
  · split
    · exact h.readMem.fst ‹_›
    · exact h.readMem.fst ‹_›
    · exact h.readMem.fst ‹_›
  · exact h.notPresent

theorem State.Flushed.absorb {r avail k n : Nat} (h : s₀.Flushed s) : s₀.Flushed (s.absorb r avail k n).1 := by
  induction n generalizing s k with
  | zero => unfold State.absorb; exact h
  | succ n ih =>
    unfold State.absorb
    refine .ite₁ h ?_
    split
    · exact .ite₁ (ih (h.readRecord.fst ‹_›)) h
    · exact h

theorem State.Flushed.continueGroup {r avail version : Nat} {recs : List Nat} {k n : Nat} (h : s₀.Flushed s) : s₀.Flushed (s.continueGroup r
    avail version recs k n).s := by
  induction n generalizing s recs k with
  | zero => unfold State.continueGroup; exact h
  | succ n ih =>
    unfold State.continueGroup
    split
    · exact h
    · split
      · exact (h.readRecord.fst ‹_›).absorb
      · split
        · exact h
        · split
          · exact (h.readRecord.fst ‹_›).absorb
          · split
            · exact ih (h.readRecord.fst ‹_›)
            · exact h.readRecord.fst ‹_›

theorem State.Flushed.group {r : Nat} (h : s₀.Flushed s) : s₀.Flushed (s.group r).s := by
  unfold State.group
  dsimp only
  split
  · exact h
  · split
    · exact (h.readRecord.fst ‹_›).absorb
    · split
      · exact (h.readRecord.fst ‹_›).absorb
      · split
        · exact (h.readRecord.fst ‹_›).continueGroup
        · exact h.readRecord.fst ‹_›

theorem State.Flushed.coverRecords {c : Nat} (h : s₀.Flushed s) : s₀.Flushed (s.coverRecords c) := h.setComp.msix

theorem State.Flushed.writeRecord {c : Nat} {i : Item} {f : Finish} (h : s₀.Flushed s) : s₀.Flushed (s.writeRecord c i f) := by
  unfold State.writeRecord
  have stored {v : Nat} {t : State} (ht : s₀.Flushed t) : s₀.Flushed (t.setReg (Regs.cqTail c) v) := ht.setReg (linkGate_cqTail c)
  have turned {v : Nat} {t : State} (ht : s₀.Flushed t) : s₀.Flushed (t.setReg (Regs.cqPhase c) v) := ht.setReg (linkGate_cqPhase c)
  have landed : s₀.Flushed (match s.answer .dispatcher (s.reg (Regs.cqBase c) + 16 * s.reg (Regs.cqTail c)) 16 true with
      | .ok => (s.writeMem .dispatcher (s.reg (Regs.cqBase c) + 16 * s.reg (Regs.cqTail c))
          (toLe 16 (s.record i f (s.flag (Regs.cqPhase c))))).1
      | ans => s.notPresent (some i.ring) (s.reg (Regs.cqBase c) + 16 * s.reg (Regs.cqTail c)) ans) := by
    split
    · exact h.writeMem
    · exact h.notPresent
  exact .ite (.coverRecords (.setComp (.ite (turned (stored landed)) (stored landed))))
    (.setComp (.ite (turned (stored landed)) (stored landed)))

theorem State.Flushed.retestBarriers (h : s₀.Flushed s) : s₀.Flushed s.retestBarriers := h.frame

theorem State.Flushed.journalize {i : Item} {f : Finish} (h : s₀.Flushed s) : s₀.Flushed (s.journalize i f) := .ite h h.frame

theorem State.Flushed.dropWait {ring seq : Nat} (h : s₀.Flushed s) : s₀.Flushed (s.dropWait ring seq) :=
  h.foldl (fun _ _ h' => .ite h' h'.setGaffer)

theorem State.Flushed.binCompletes {i : Item} {f : Finish} (h : s₀.Flushed s) : s₀.Flushed (s.binCompletes i f) := by
  unfold State.binCompletes
  split
  · exact h
  · split
    · extract_lets _ t _ u v
      have closed : s₀.Flushed u := (((State.Flushed.frame h).setReg (by decide)).bump (by decide)).bumpIf (by decide)
      have spilled : s₀.Flushed v := closed.foldl fun _ g h' => h'.bump (linkGate_gridSpillEpochs g)
      exact .ite h.frame spilled.frame
    · exact h

theorem State.Flushed.complete {i : Item} {f : Finish} {good : Bool} (h : s₀.Flushed s) : s₀.Flushed (s.complete i f good) := by
  unfold State.complete
  extract_lets _ gone released swapped counted moved c _ freed ended
  have hreleased : s₀.Flushed released := (State.Flushed.frame h).dropWait.queuesEnded.deregister
  have hswapped : s₀.Flushed swapped := .ite hreleased.setSwapping hreleased
  have hcounted : s₀.Flushed counted := hswapped.binCompletes.journalize.bump (linkGate_ringItemsCompleted _)
  have hmoved : s₀.Flushed moved := by
    unfold moved
    split
    · exact hcounted.bumpIf (linkGate_mvItems _)
    · exact hcounted
  have hended : s₀.Flushed ended := .ite hmoved.setComp.writeRecord hmoved.setComp
  exact hended.retestBarriers

theorem State.Flushed.forgetItem {i : Item} (h : s₀.Flushed s) : s₀.Flushed (s.forgetItem i) := by
  unfold State.forgetItem
  refine h.foldl (fun _ _ h' => ?_)
  split
  · exact .ite h'.forgetRange h'
  · exact h'

theorem State.Flushed.stopVector {i : Item} (h : s₀.Flushed s) : s₀.Flushed (s.stopVector i) := .ite h.frame h

theorem State.Flushed.abort {i : Item} {f : Finish} (h : s₀.Flushed s) : s₀.Flushed (s.abort i f) := h.forgetItem.stopVector.complete

theorem State.Flushed.abortAll {p : Item → Bool} {f : Finish} (h : s₀.Flushed s) : s₀.Flushed (s.abortAll p f) := by
  unfold State.abortAll
  refine h.foldl (fun _ _ h' => ?_)
  split
  · exact h'.abort
  · exact h'

theorem State.Flushed.discardConts {r n : Nat} (h : s₀.Flushed s) : s₀.Flushed (s.discardConts r n) := by
  induction n generalizing s with
  | zero => exact h
  | succ n ih =>
    unfold State.discardConts
    refine .ite h ?_
    dsimp only
    split
    · exact .ite (ih ((h.readRecord.fst ‹_›).advanceHead.bumpIf (linkGate_ringFlushDiscards _)).setRing) h.setRing
    · exact h.setRing

theorem State.Flushed.skipRecords {r n : Nat} (h : s₀.Flushed s) : s₀.Flushed (s.skipRecords r n) := by
  induction n generalizing s with
  | zero => exact h
  | succ n ih =>
    unfold State.skipRecords
    exact .ite h (ih (h.group.advanceHead.bump (linkGate_ringFlushSkipped r)).setRing)

theorem State.Flushed.flushRing {r detail : Nat} (h : s₀.Flushed s) : s₀.Flushed (s.flushRing r detail) := h.abortAll.discardConts.skipRecords

end Sys2Proof.Machine
end

section
/-! R382, R397, R403, R404: what a link event, a training of DDR5 and a loss of VDDQ_DDR leave. -/

namespace Sys2Proof.Machine

/-! ### Rings that are stopped -/

/-- A state t that stopping some of the rings may leave of s. -/
structure State.RingsStopped (s t : State) : Prop where
  drive : t.drive = s.drive
  xlate : t.link.xlate = s.link.xlate
  registers : ∀ q ∈ [Regs.hifLinkUp, Regs.hifLinkRate, Regs.hifLinkDowns], t.reg q = s.reg q
  off : ∀ r, r < 64 → s.flag (Regs.ringEnable r) = false → t.flag (Regs.ringEnable r) = false

section
variable {s t u : State}

theorem State.RingsStopped.refl (s : State) : s.RingsStopped s := ⟨rfl, rfl, fun _ _ => rfl, fun _ _ h => h⟩

theorem State.RingsStopped.trans (h : s.RingsStopped t) (k : t.RingsStopped u) : s.RingsStopped u where
  drive := k.drive.trans h.drive
  xlate := k.xlate.trans h.xlate
  registers q hq := (k.registers q hq).trans (h.registers q hq)
  off r hr h0 := k.off r hr (h.off r hr h0)

/-- Registers of the link are gates, and none of them is a ring's enable. -/
theorem linkRegister_gate {q : Reg} (h : q ∈ [Regs.hifLinkUp, Regs.hifLinkRate, Regs.hifLinkDowns]) : linkGate q.key = true := by
  revert q
  decide

theorem linkRegister_ne {q : Reg} (h : q ∈ [Regs.hifLinkUp, Regs.hifLinkRate, Regs.hifLinkDowns]) : q.key < 0x290008 := by
  revert q
  decide

theorem stopRing_off (s : State) (r : Nat) : (s.stopRing r).flag (Regs.ringEnable r) = false := by
  rw [State.flag, State.stopRing, reg_setReg_same]
  rfl

/-- Stopping a ring flushes it and clears its enable (R396). -/
theorem stopRing_stopped (s : State) (r : Nat) : s.RingsStopped (s.stopRing r) := by
  have hflush : s.Flushed (s.flushRing r 1) := (State.Flushed.refl s).flushRing
  refine ⟨hflush.drive, hflush.xlate, fun q hq => ?_, fun k hk h0 => ?_⟩
  · have hlow := linkRegister_ne hq
    rw [State.stopRing, reg_setReg_ne _ _ (by simp only [Regs.ringEnable]; omega)]
    exact hflush.gate q (linkRegister_gate hq)
  · by_cases hkr : k = r
    · rw [hkr]
      exact stopRing_off s r
    · rw [State.flag, State.stopRing, reg_setReg_ne _ _ (by simp only [Regs.ringEnable]; omega),
        hflush.gate _ (linkGate_ringEnable hk)]
      exact h0

/-- Stopping the rings that a condition names, one after another. -/
theorem foldl_stopRing_stopped (c : State → Nat → Bool) (l : List Nat) (s : State) :
    s.RingsStopped (l.foldl (fun t r => if c t r then t.stopRing r else t) s) := by
  induction l generalizing s with
  | nil => exact .refl s
  | cons r l ih =>
    refine State.RingsStopped.trans ?_ (ih _)
    dsimp only
    split
    · exact stopRing_stopped s r
    · exact .refl s

theorem foldl_stopRing_off {l : List Nat} (hl : ∀ r ∈ l, r < 64) {r : Nat} (hr : r ∈ l) (s : State) :
    (l.foldl (fun t r => if t.flag (Regs.ringEnable r) then t.stopRing r else t) s).flag (Regs.ringEnable r) = false := by
  induction l generalizing s with
  | nil => cases hr
  | cons k l ih =>
    have hrest : ∀ r ∈ l, r < 64 := fun r hr => hl r (List.mem_cons_of_mem _ hr)
    rw [List.foldl_cons]
    rcases List.mem_cons.1 hr with rfl | hr
    · refine (foldl_stopRing_stopped (fun t r => t.flag (Regs.ringEnable r)) l _).off r (hl r (List.mem_cons_self ..)) ?_
      split
      · exact stopRing_off s r
      · exact Bool.eq_false_iff.2 ‹_›
    · exact ih hrest hr _

/-! ### The enables of the completion rings -/

theorem foldl_setReg_ne {f : Nat → Reg} {q : Reg} {l : List Nat} (h : ∀ c ∈ l, q.key ≠ (f c).key) (s : State) :
    (l.foldl (fun t c => t.setReg (f c) 0) s).reg q = s.reg q := by
  induction l generalizing s with
  | nil => rfl
  | cons c l ih =>
    rw [List.foldl_cons, ih (fun c hc => h c (List.mem_cons_of_mem _ hc)), reg_setReg_ne _ _ (h c (List.mem_cons_self ..))]

theorem foldl_cqEnable_zero {l : List Nat} {c : Nat} (hc : c ∈ l) (s : State) :
    (l.foldl (fun t c => t.setReg (Regs.cqEnable c) 0) s).reg (Regs.cqEnable c) = 0 := by
  induction l generalizing s with
  | nil => cases hc
  | cons k l ih =>
    rw [List.foldl_cons]
    by_cases hl : c ∈ l
    · exact ih hl _
    · obtain rfl := (List.mem_cons.1 hc).resolve_right hl
      rw [foldl_setReg_ne, reg_setReg_same]
      intro j hj hkey
      have : j = c := by
        simp only [Regs.cqEnable] at hkey
        omega
      exact hl (this ▸ hj)

/-- What stopping every ring leaves (R397): no submission or completion ring is enabled. -/
theorem stopAllRings_stopped (s : State) : s.RingsStopped s.stopAllRings ∧
    (∀ r, r < 64 → s.stopAllRings.flag (Regs.ringEnable r) = false) ∧
    (∀ c, c < 64 → s.stopAllRings.flag (Regs.cqEnable c) = false) := by
  have hrings := foldl_stopRing_stopped (fun t r => t.flag (Regs.ringEnable r)) (List.range 64) s
  have hoff {r : Nat} (hr : r < 64) := foldl_stopRing_off (fun _ h => List.mem_range.1 h) (List.mem_range.2 hr) s
  unfold State.stopAllRings
  generalize (List.range 64).foldl (fun t r => if t.flag (Regs.ringEnable r) then t.stopRing r else t) s = t at hrings hoff
  have hsignals := foldl_setReg_signals Regs.cqEnable (List.range 64) t
  have hring (r : Nat) (hr : r < 64) : ((List.range 64).foldl (fun t c => t.setReg (Regs.cqEnable c) 0) t).flag (Regs.ringEnable r) =
      t.flag (Regs.ringEnable r) := by
    rw [State.flag, foldl_setReg_ne fun c _ => by simp only [Regs.ringEnable, Regs.cqEnable]; omega]
    rfl
  refine ⟨hrings.trans ⟨hsignals.drive, hsignals.xlate, fun q hq => foldl_setReg_ne (fun c _ => ?_) t, fun r hr h0 => ?_⟩,
    fun r hr => (hring r hr).trans (hoff hr), fun c hc => ?_⟩
  · have hlow := linkRegister_ne hq
    simp only [Regs.cqEnable]
    omega
  · exact (hring r hr).trans h0
  · rw [State.flag, foldl_cqEnable_zero (List.mem_range.2 hc)]
    rfl

/-! ### Configuration space and the link -/

theorem configReset_reg {q : Reg} (h1 : q.key ≠ Regs.hifBar2Size.key) (h2 : q.key ≠ Regs.hifApertureBase.key) :
    s.configReset.reg q = s.reg q := by
  unfold State.configReset
  dsimp only
  split
  · rfl
  · exact (reg_setReg_ne _ _ h2).trans (reg_setReg_ne _ _ h1)

theorem configReset_bar2Size : s.configReset.reg Regs.hifBar2Size = Regs.hifBar2Size.dflt := by
  unfold State.configReset
  dsimp only
  split
  · next h => exact h
  · exact (reg_setReg_ne _ _ (by decide)).trans (reg_setReg_same _ _ _)

theorem configReset_xlate : s.configReset.link.xlate = s.link.xlate := by
  unfold State.configReset
  dsimp only
  split <;> rfl

theorem configReset_ringEnable (r : Nat) : s.configReset.flag (Regs.ringEnable r) = s.flag (Regs.ringEnable r) := by
  rw [State.flag, configReset_reg (by simp only [Regs.ringEnable, Regs.hifBar2Size]; omega)
    (by simp only [Regs.ringEnable, Regs.hifApertureBase]; omega)]
  rfl

theorem configReset_cqEnable (c : Nat) : s.configReset.flag (Regs.cqEnable c) = s.flag (Regs.cqEnable c) := by
  rw [State.flag, configReset_reg (by simp only [Regs.cqEnable, Regs.hifBar2Size]; omega)
    (by simp only [Regs.cqEnable, Regs.hifApertureBase]; omega)]
  rfl

theorem linkFalls_linkUp : s.linkFalls.reg Regs.hifLinkUp = 0 := by
  rw [State.linkFalls, State.attention, reg_setReg_ne _ _ (by decide), reg_setReg_ne _ _ (by decide), reg_setReg_ne _ _ (by decide),
    reg_setReg_ne _ _ (by decide), reg_setReg_same]

theorem linkFalls_linkRate : s.linkFalls.reg Regs.hifLinkRate = 0 := by
  rw [State.linkFalls, State.attention, reg_setReg_ne _ _ (by decide), reg_setReg_ne _ _ (by decide), reg_setReg_ne _ _ (by decide),
    reg_setReg_same]

/-- Stopping the rings leaves the link down (R397). -/
theorem linkFalls_stopAllRings_linkUp : s.linkFalls.stopAllRings.reg Regs.hifLinkUp = 0 :=
  ((stopAllRings_stopped s.linkFalls).1.registers _ (by decide)).trans linkFalls_linkUp

end

section
variable (s : State)

theorem linkDown_leaves (hup : s.flag Regs.hifLinkUp = true) : s.linkDown.flag Regs.hifLinkUp = false ∧
    s.linkDown.reg Regs.hifLinkRate = 0 ∧ s.linkDown.reg Regs.hifLinkDowns = satAdd (2 ^ 32 - 1) (s.reg Regs.hifLinkDowns) 1 ∧
    s.linkDown.link.xlate = s.link.xlate ∧ s.linkDown.drive = s.drive := by
  obtain ⟨hdrive, hxlate, hreg, -⟩ := foldl_stopRing_stopped (fun t r => t.flag (Regs.ringEnable r) && t.ringOnHost r)
    (List.range 64) (s.linkFalls.bump Regs.hifLinkDowns)
  rw [State.linkDown, if_pos hup]
  dsimp only
  refine ⟨?_, ?_, ?_, hxlate.trans linkFalls_signals.xlate, hdrive.trans linkFalls_signals.drive⟩
  · rw [State.flag, hreg _ (by decide), reg_bump_ne _ (by decide), linkFalls_linkUp]
    rfl
  · rw [hreg _ (by decide), reg_bump_ne _ (by decide), linkFalls_linkRate]
  · rw [hreg _ (by decide), reg_bump_same,
      linkFalls_reg (by decide) (by decide) (by decide) (by decide) (by decide)]

theorem hotReset_leaves : s.linkFalls.stopAllRings.configReset.flag Regs.hifLinkUp = false ∧
    s.linkFalls.stopAllRings.configReset.link.unmasked = [] ∧ s.linkFalls.stopAllRings.configReset.link.xlate = s.link.xlate ∧
    (∀ r, r < 64 → s.linkFalls.stopAllRings.configReset.flag (Regs.ringEnable r) = false) ∧
    (∀ c, c < 64 → s.linkFalls.stopAllRings.configReset.flag (Regs.cqEnable c) = false) ∧
    s.linkFalls.stopAllRings.configReset.drive = s.drive := by
  have hup := linkFalls_stopAllRings_linkUp (s := s)
  obtain ⟨hstopped, hring, hcq⟩ := stopAllRings_stopped s.linkFalls
  generalize s.linkFalls.stopAllRings = t at *
  refine ⟨?_, rfl, ?_, fun r hr => ?_, fun c hc => ?_, ?_⟩
  · rw [State.flag, configReset_reg (by decide) (by decide), hup]
    rfl
  · exact (configReset_xlate.trans hstopped.xlate).trans linkFalls_signals.xlate
  · exact (configReset_ringEnable r).trans (hring r hr)
  · exact (configReset_cqEnable c).trans (hcq c hc)
  · exact (configReset_linkOnly.drive.trans hstopped.drive).trans linkFalls_signals.drive

theorem flr_leaves : s.stopAllRings.configReset.clearXlate.link.xlate = [] ∧ s.stopAllRings.configReset.clearXlate.link.unmasked = [] ∧
    s.stopAllRings.configReset.clearXlate.reg Regs.hifBar2Size = Regs.hifBar2Size.dflt ∧
    (∀ r, r < 64 → s.stopAllRings.configReset.clearXlate.flag (Regs.ringEnable r) = false) ∧
    s.stopAllRings.configReset.clearXlate.drive = s.drive := by
  obtain ⟨hstopped, hring, -⟩ := stopAllRings_stopped s
  generalize s.stopAllRings = t at *
  exact ⟨rfl, rfl, configReset_bar2Size, fun r hr => (configReset_ringEnable r).trans (hring r hr),
    configReset_linkOnly.drive.trans hstopped.drive⟩

theorem perstAssert_leaves : s.perstFalls.link.perst = true ∧ s.perstFalls.link.xlate = [] ∧ s.perstFalls.flag Regs.hifLinkUp = false ∧
    (∀ r, r < 64 → s.perstFalls.flag (Regs.ringEnable r) = false) ∧ s.perstFalls.drive = s.drive := by
  obtain ⟨hup, -, -, hring, -, hdrive⟩ := hotReset_leaves s
  unfold State.perstFalls
  generalize s.linkFalls.stopAllRings.configReset = t at *
  exact ⟨rfl, rfl, hup, hring, hdrive⟩

end

/-! ### DDR5 -/

section
variable {s : State}

theorem get_forget_outside {m : Memory} {lo hi tag a : Nat} (h : a < lo ∨ hi ≤ a) : (m.forget lo hi tag).get a = m.get a := by
  unfold Memory.forget
  split
  · have hcells : kfind (m.cells.filter (fun c => !(decide (lo ≤ c.1) && decide (c.1 < hi)))) a = kfind m.cells a :=
      kfind_filter_of_kept fun _ => by simp; omega
    have hundef : (decide (lo ≤ a) && decide (a < hi)) = false := by simp; omega
    simp only [Memory.get, hcells, Memory.unlisted, Memory.undefAt, List.find?_cons, hundef]
  · rfl

/-- Poison and flaws are no part of what a byte reads as. -/
theorem get_marks (m : Memory) (poison : List Nat) (flaws : KMap Flaw) (a : Nat) :
    Memory.get { m with poison := poison, flaws := flaws } a = m.get a := rfl

theorem forgetDdr_get {a : Nat} (h : 0x2000000000 ≤ a) : s.forgetDdr.mem.get a = s.mem.get a :=
  (get_marks _ _ _ a).trans (get_forget_outside (.inr h))

theorem setPair_ddrPair (k : Fin 2) (v : DdrPhase) : (s.setPair k.val v).ddrPair k.val = v := by
  match k with
  | 0 => rfl
  | 1 => rfl

/-- The pairs of subchannels are DDR5's part of the state. -/
theorem ddrPair_congr {t : State} (h : t.ddr = s.ddr) (k : Nat) : t.ddrPair k = s.ddrPair k := by
  rw [State.ddrPair, State.ddrPair, h]

/-- The state after a training that passes (R403, R469). -/
def State.trained (s : State) (k : Fin 2) (full : Bool) : State :=
  let t := s.draw.2.setPair k.val (if full then .trained else .restored)
  (t.setReg Regs.ddrTrainState (if t.ddr.pair0 != .untrained && t.ddr.pair1 != .untrained then (if full then 1 else 2) else 0)).setReg
    Regs.ddrTrainTime (s.draw.1 % 250001)

/-- The state after a full training that fails, which logs a fatal event (R403). -/
def State.trainingFailed (s : State) (k : Fin 2) : State :=
  ((s.draw.2.setPair k.val .untrained).setReg Regs.ddrTrainState 0).logs
    { severity := .fatal, source := 6, inst := 4 * k.val, kind := s.draw.1 % 256 }

variable {k : Fin 2}

theorem exec_trained {full : Bool} (hdue : s.trainingDue k.val = true) (h : full = true ∨ s.trainsInFull k.val = false) :
    exec (.ddrTrainingComplete k true full) s = .next (s.trained k full) := by
  show execDdrTrainingComplete k true full s = _
  rw [execDdrTrainingComplete, if_neg, if_neg]
  · rfl
  · rw [Bool.not_true, Bool.false_and]
    exact Bool.false_ne_true
  · rcases h with h | h <;> simp [hdue, h]

theorem exec_trainingFailed (hdue : s.trainingDue k.val = true) :
    exec (.ddrTrainingComplete k false true) s = .next (s.trainingFailed k) := by
  show execDdrTrainingComplete k false true s = _
  rw [execDdrTrainingComplete, if_neg, if_neg]
  · rfl
  · decide
  · simp [hdue]

theorem exec_restoreFails (hdue : s.trainingDue k.val = true) (h : s.trainsInFull k.val = false) :
    exec (.ddrTrainingComplete k false false) s = .next (s.restoreFails k.val) := by
  show execDdrTrainingComplete k false false s = _
  rw [execDdrTrainingComplete, if_neg, if_pos]
  · decide
  · simp [hdue, h]

theorem trained_ddrPair (full : Bool) : (s.trained k full).ddrPair k.val = if full then .trained else .restored :=
  setPair_ddrPair (s := s.draw.2) k _

theorem trained_trainTime (full : Bool) : (s.trained k full).reg Regs.ddrTrainTime ≤ 250000 := by
  rw [State.trained, reg_setReg_same]
  omega

theorem trainingFailed_ddrPair : (s.trainingFailed k).ddrPair k.val = .untrained :=
  (ddrPair_congr (State.SignalsTo.logs _).ddr _).trans (setPair_ddrPair (s := s.draw.2) k _)

theorem trainingFailed_trainState : (s.trainingFailed k).reg Regs.ddrTrainState = 0 := by
  rw [State.trainingFailed, logs_reg _ (show _ ≠ Regs.errFatal.key by decide) (by decide) (by decide), reg_setReg_same]

theorem restoreFails_ddrPair : (s.restoreFails k.val).ddrPair k.val = .selfRefresh := setPair_ddrPair (s := s) k _

theorem restoreFails_trainsInFull : (s.restoreFails k.val).trainsInFull k.val = true := by
  rw [State.trainsInFull, Bool.or_eq_true]
  exact .inr (decide_eq_true (List.mem_cons_self ..))

/-- A restore cannot end for a pair that has to train in full. -/
theorem exec_trainsInFull {good : Bool} (h : s.trainsInFull k.val = true) : exec (.ddrTrainingComplete k good false) s = .next s := by
  show execDdrTrainingComplete k good false s = _
  rw [execDdrTrainingComplete, if_pos]
  simp [h]

/-- DDR5 without its supply (R404): nothing that it held is known, and it is untrained. -/
def State.ddrLost (s : State) : State :=
  (s.forgetDdr.setDdr { s.forgetDdr.ddr with pair0 := .untrained, pair1 := .untrained, restoring := [], retraining := [] }).setReg
    Regs.ddrTrainState 0

theorem exec_vddqDdrLoss_unsealed (h : s.driveSealed = false) : exec .vddqDdrLoss s = .next s.ddrLost := by
  show execVddqDdrLoss s = _
  rw [execVddqDdrLoss, h]
  rfl

/-- The sealed region is damaged; the Keeper takes it once power domain 1 is on. -/
theorem exec_vddqDdrLoss_sealed (h : s.driveSealed = true) (hpd : s.pdOn 1 = false) :
    exec .vddqDdrLoss s = .next (((s.ddrLost.setReg Regs.ddrDriveDamaged 1).attention 5).setKeeper { s.keeper with damage := true }) := by
  show execVddqDdrLoss s = _
  rw [execVddqDdrLoss, h]
  dsimp only
  rw [if_pos rfl, State.takeDamage, if_neg]
  · rfl
  · intro hall
    simp only [Bool.and_eq_true] at hall
    obtain ⟨⟨-, hon⟩, -⟩ := hall
    exact Bool.false_ne_true (hpd.symm.trans hon)

end

/-- Settles O49. -/
theorem linkEventsAndDdrTraining : Obligations.LinkEventsAndDdrTraining := by
  unfold Obligations.LinkEventsAndDdrTraining
  refine ⟨fun rate width s hrate hwidth hperst hpd => ?_, fun s hup => ⟨_, rfl, linkDown_leaves s hup⟩,
    fun s hpd => ⟨_, if_pos hpd, hotReset_leaves s⟩, fun s hpd => ⟨_, if_pos hpd, flr_leaves s⟩,
    fun s => ⟨_, rfl, perstAssert_leaves s⟩, fun s => rfl, fun sc s hpair hpd => ?_,
    fun k s hdue => ⟨_, exec_trained hdue (.inl rfl), trained_ddrPair true, trained_trainTime true, rfl, rfl, rfl⟩,
    fun k s hdue => ⟨_, exec_trainingFailed hdue, trainingFailed_ddrPair, trainingFailed_trainState, (State.SignalsTo.logs _).mem,
      (State.SignalsTo.logs _).disp⟩,
    fun k s hdue hnot => ⟨_, exec_trained hdue (.inr hnot), trained_ddrPair false, rfl, rfl, rfl⟩,
    fun k s hdue hnot => ⟨_, exec_restoreFails hdue hnot, restoreFails_ddrPair, restoreFails_trainsInFull, rfl, rfl, rfl, rfl⟩,
    fun k good s hfull => exec_trainsInFull hfull, fun s hseal => ?_, fun s hseal hpd => ?_⟩
  · show execLinkUp rate width s = _
    rw [execLinkUp, if_neg (by simp [hwidth, hperst, hpd]; omega)]
    simp only [show decide (rate.val < 3) = false from decide_eq_false (by omega)]
    rfl
  · show execDdrRetrain sc s = _
    rw [execDdrRetrain, if_pos (by simp [hpair, hpd])]
  · exact ⟨_, exec_vddqDdrLoss_unsealed hseal, rfl, rfl, reg_setReg_same _ _ _, rfl, rfl, rfl, fun a ha => forgetDdr_get ha⟩
  · refine ⟨_, exec_vddqDdrLoss_sealed hseal hpd, ?_, rfl, rfl⟩
    rw [State.attention]
    exact (reg_setReg_ne _ _ (by decide)).trans (reg_setReg_same _ _ _)

end Sys2Proof.Machine
end
